-- ==== Sys2Proof/Word.lean ====
section
/-! DEFINITION. The machine words of the EQH-7240: bytes, 32-bit register words, 64-bit register pairs (R34). -/
namespace Sys2Proof

/-- One byte. Multi-byte values are little-endian (R8). -/
abbrev Byte := BitVec 8

/-- A 32-bit register word (R34). -/
abbrev Word := BitVec 32

/-- A 64-bit register (R34). -/
abbrev DWord := BitVec 64

/-- One 64-byte line, queue entry or ring entry, byte 0 in bits 7:0 (R8, R62). -/
abbrev Line := BitVec 512

end Sys2Proof
end

