-- ==== Sys2Proof/Machine/Maps.lean ====
section
/-! DEFINITION. Finite maps as plain data: lists of (key, value) pairs with keys strictly rising, in which an
unlisted key stands for a default value, so that equal maps are equal lists. -/
namespace Sys2Proof.Machine

/-- A finite map kept as a list of pairs, keys strictly rising. -/
abbrev KMap (α : Type) := List (Nat × α)

/-- The listed value of a key. -/
def mfind {α : Type} : KMap α → Nat → Option α
  | [], _ => none
  | (k', v) :: r, k => if k' = k then some v else mfind r k

/-- The value of a key, `d` where it is not listed. -/
def mget {α : Type} (d : α) (m : KMap α) (k : Nat) : α :=
  match mfind m k with
  | some v => v
  | none => d

/-- List the value `v` under the key `k`, replacing what was listed there. -/
def mput {α : Type} : KMap α → Nat → α → KMap α
  | [], k, v => [(k, v)]
  | (k', v') :: r, k, v =>
    if k < k' then (k, v) :: (k', v') :: r
    else if k = k' then (k, v) :: r
    else (k', v') :: mput r k v

/-- Remove a key. -/
def mdel {α : Type} (m : KMap α) (k : Nat) : KMap α :=
  m.filter (fun p => p.1 ≠ k)

/-- Write `v` under `k`, where `d` is what an unlisted `k` stands for: a default value is not listed. -/
def mset {α : Type} [DecidableEq α] (d : α) (m : KMap α) (k : Nat) (v : α) : KMap α :=
  if v = d then mdel m k else mput m k v

/-- Keys strictly rising, every key above `lo`. -/
def mrising {α : Type} : Option Nat → KMap α → Bool
  | _, [] => true
  | none, (k, _) :: r => mrising (some k) r
  | some p, (k, _) :: r => decide (p < k) && mrising (some k) r

/-- The canonical form of a map whose unlisted key `k` stands for `d k`. -/
def mwf {α : Type} [DecidableEq α] (d : Nat → α) (m : KMap α) : Bool :=
  mrising none m && m.all (fun p => p.2 ≠ d p.1)

/-- Apply `f` to every listed value. -/
def mmap {α β : Type} (f : Nat → α → β) (m : KMap α) : KMap β :=
  m.map (fun p => (p.1, f p.1 p.2))

/-- The keys whose values satisfy `p`. -/
def mkeys {α : Type} (p : Nat → α → Bool) (m : KMap α) : List Nat :=
  (m.filter (fun e => p e.1 e.2)).map (fun e => e.1)

/-- The first key from `k`, of `n` keys, that is not listed. -/
def mfree {α : Type} (m : KMap α) : Nat → Nat → Nat
  | k, 0 => k
  | k, n + 1 => if (mfind m k).isNone then k else mfree m (k + 1) n

end Sys2Proof.Machine
end

