-- ==== Sys2Proof/Machine/Bits.lean ====
section
/-! DEFINITION. Bit fields, sign extension and byte order (R8), saturating counters, 32-bit arithmetic (R281). -/
namespace Sys2Proof.Machine

/-- Bits [lo + len - 1 : lo] of a number (R8). -/
def bitsAt (n lo len : Nat) : Nat := n / 2 ^ lo % 2 ^ len

/-- Bit `i` of a number. -/
def bitAt (n i : Nat) : Bool := n / 2 ^ i % 2 = 1

/-- `n` with bits [lo + len - 1 : lo] replaced by the low bits of `v`. -/
def putBits (n lo len v : Nat) : Nat :=
  n - bitsAt n lo len * 2 ^ lo + (v % 2 ^ len) * 2 ^ lo

/-- A Bool as a bit. -/
def b2n (b : Bool) : Nat := if b then 1 else 0

/-- The number of 1 bits among the low `w` bits. -/
def popCount : Nat → Nat → Nat
  | 0, _ => 0
  | w + 1, n => n % 2 + popCount w (n / 2)

/-- The set bits below `w`, in rising order. -/
def setBitsOf (w n : Nat) : List Nat := (List.range w).filter (bitAt n)

/-- The mask with exactly the listed bits set. -/
def maskOf (l : List Nat) : Nat := l.eraseDups.foldl (fun a i => a + 2 ^ i) 0

/-- A `w`-bit two's-complement number as an integer. -/
def sext (w n : Nat) : Int :=
  if n % 2 ^ w < 2 ^ (w - 1) then (n % 2 ^ w : Nat) else ((n % 2 ^ w : Nat) : Int) - 2 ^ w

/-- An integer modulo 2^w as a number. -/
def wrapTo (w : Nat) (i : Int) : Nat := (i % (2 ^ w : Int)).toNat

/-- Clamp an integer into [lo, hi]. -/
def clampInt (lo hi i : Int) : Int := if i < lo then lo else if hi < i then hi else i

/-- Ceiling division. -/
def ceilDiv (a b : Nat) : Nat := (a + b - 1) / b

/-- `a` rounded up to a multiple of `b`. -/
def roundUp (a b : Nat) : Nat := ceilDiv a b * b

/-- The `n` bytes of a number, least significant first (R8). -/
def toLE : Nat → Nat → List Byte
  | 0, _ => []
  | n + 1, v => BitVec.ofNat 8 v :: toLE n (v / 256)

/-- The number spelled by bytes, least significant first (R8). -/
def ofLE : List Byte → Nat
  | [] => 0
  | b :: r => b.toNat + 256 * ofLE r

/-- The number spelled by bytes, most significant first (R435, R441). -/
def ofBE (l : List Byte) : Nat := ofLE l.reverse

/-- The `n` bytes of a number, most significant first (R435, R441). -/
def toBE (n v : Nat) : List Byte := (toLE n v).reverse

/-- `n` bytes from offset `off`, zero past the end of the list. -/
def sliceB (l : List Byte) (off n : Nat) : List Byte :=
  let t := (l.drop off).take n
  t ++ List.replicate (n - t.length) 0

/-- The little-endian number in `n` bytes at `off`. -/
def leAt (l : List Byte) (off n : Nat) : Nat := ofLE (sliceB l off n)

/-- The big-endian number in `n` bytes at `off`. -/
def beAt (l : List Byte) (off n : Nat) : Nat := ofBE (sliceB l off n)

/-- Bytes `l` replaced from `off` by `new`, the list padded with zeros where `new` reaches past its end. -/
def patchB (l : List Byte) (off : Nat) (new : List Byte) : List Byte :=
  let padded := l ++ List.replicate (off + new.length - l.length) 0
  padded.take off ++ new ++ padded.drop (off + new.length)

/-- The 64 bytes of a line. -/
def lineBytes (l : Line) : List Byte := toLE 64 l.toNat

/-- The line of (up to) 64 bytes, zero past their end. -/
def bytesLine (l : List Byte) : Line := BitVec.ofNat 512 (ofLE (l.take 64))

/-- Cut a list into pieces of `n` (`fuel` pieces at most). -/
def chunksOf {α : Type} (n : Nat) : Nat → List α → List (List α)
  | 0, _ => []
  | _, [] => []
  | fuel + 1, x :: r => (x :: r).take n :: chunksOf n fuel ((x :: r).drop n)

/-- A 32-bit counter raised by `n`, saturating at 0xFFFF_FFFF. -/
def satAdd32 (w : Word) (n : Nat) : Word := BitVec.ofNat 32 (min (w.toNat + n) 0xFFFFFFFF)

/-- The base-2 logarithm, rounded down; 0 for 0. -/
def log2Floor (n : Nat) : Nat := Nat.log2 n

/-- The 32-bit word in half `hi` of a 64-bit register. -/
def halfOf (hi : Bool) (d : Nat) : Nat := if hi then d / 2 ^ 32 % 2 ^ 32 else d % 2 ^ 32

end Sys2Proof.Machine
end

