-- ==== Sys2Proof/Machine/StateRadio.lean ====
section
/-! DEFINITION. Plain data of the radio pipeline and of the repair unit (chapters 14, 23). -/
namespace Sys2Proof.Machine

/-- A cell configuration record (R389). -/
structure CellCfg where
  mu : Nat
  fr : Nat
  prb : Nat
  tx : Nat
  rx : Nat
  dlAhead : Nat
  ulRing : Nat
  tag : Nat
  inst : Nat
  ulOfs : Nat
  start : Nat
  stage : Nat
  listObj : Nat
  dlObj : Nat
  relObj : Nat
  flagObj : Nat
  flow : Nat
  frer : Bool
deriving DecidableEq, Repr

/-- One record of a slot work list (R394). -/
structure SlotRec where
  kind : Nat
  flags : Nat
  rnti : Nat
  prbStart : Nat
  prbCount : Nat
  symStart : Nat
  symCount : Nat
  layers : Nat
  qm : Nat
  tbs : Nat
  harq : Nat
  rv : Nat
  bg : Nat
  dmrs : Nat
  beam : Nat
  tbOff : Nat
  nid : Nat
  param : Nat
deriving DecidableEq, Repr

/-- A slot of a cell that is staged and not yet reported, or flagged (R392, R396, R405): whether its list is staged and
was missing, its records, the tag and status address of its KIND 0 entry, the status collected so far, the downlink symbols
that have latched ready and left, the symbols whose C-plane left, the uplink flags set, the PRB-stream-symbols received
(keyed by symbol × 8,192 + stream × 512 + PRB, PRACH streams from 8), and the phases complete. -/
structure CellSlot where
  staged : Bool
  missing : Bool
  sfn : Nat
  slotNo : Nat
  recs : List SlotRec
  aux : Option (Nat × Nat)
  late : Nat
  damaged : Bool
  doneNs : Nat
  ulDrop : Nat
  dlFill : Nat
  erased : Nat
  ready : Nat
  latched : Nat
  left : Nat
  cplane : Nat
  flags : Nat
  got : KMap Bool
  phases : Nat
deriving DecidableEq, Repr

/-- A slot of which nothing is known. -/
def CellSlot.blank : CellSlot :=
  ⟨false, false, 0, 0, [], none, 0, false, 0, 0, 0, 0, 0, 0, 0, 0, 0, [], 0⟩

/-- A bound cell context (R387): partition, slice, launch and serving context (none once orphaned), configuration, slots by
number, the first slot it no longer serves, the slots counted in LIST_OBJ so far, and the status records written. -/
structure Cell where
  part : Nat
  slice : Nat
  launch : Nat
  ctx : Option Nat
  cfg : CellCfg
  slots : KMap CellSlot
  stop : Option Nat
  raised : Nat
  reported : Nat
deriving DecidableEq, Repr

/-- What an unbound cell number stands for. -/
def Cell.blank : Cell :=
  { part := 0, slice := 0, launch := 0, ctx := none,
    cfg := ⟨0, 1, 1, 1, 1, 1, 2, 0, 0, 0, 0, 0, 0, 0, 0, 0, 0, false⟩,
    slots := [], stop := none, raised := 0, reported := 0 }

/-- An error record (R561). -/
structure ErrRec where
  time : Nat
  seqNo : Nat
  block : Nat
  inst : Nat
  kind : Nat
  sev : Nat
  part : Nat
  addr : Nat
  detail : Nat
deriving DecidableEq, Repr

/-- An entry of the dutchman table (R545). -/
structure DtEntry where
  kind : Nat
  origin : Nat
  loc : Nat
  spare : Nat
  start : Nat
deriving DecidableEq, Repr

/-- A sparing in progress (R551): the failing site, the time of its acceptance, whether it was commanded through `REP_CMD`, and
the leaf states to return to. -/
structure Sparing where
  site : Nat
  since : Nat
  byCmd : Bool
  st0 : Nat
  st1 : Nat
deriving DecidableEq, Repr

/-- The repair unit (chapter 23): error records, oldest first, and their next number; the working copy, copies A and B of the
dutchman table and the field repair area; the sparing in progress; per site the corrected errors of the current hour and
when that hour began, the latest and least slack, and whether it lies below the warning; partitions whose partition-table
record differs between its copies, with the mills that the two copies name. -/
structure Rep where
  recs : List ErrRec
  nextSeq : Nat
  dt : List DtEntry
  dtA : List DtEntry
  dtB : List DtEntry
  field : List DtEntry
  sparing : Option Sparing
  ce : KMap (Nat × Nat)
  slack : KMap Nat
  least : KMap Nat
  below : KMap Bool
  partConf : KMap (Nat × Nat)
deriving DecidableEq, Repr

end Sys2Proof.Machine
end

