-- ==== Sys2Proof/Machine/StateMill.lean ====
section
/-! DEFINITION. Plain data of the compute side: Motik modules as loaded (R160 to R196), contexts, leaves, stones and mills
(chapters 03 to 07). -/
namespace Sys2Proof.Machine

/-- One 32-byte step record (R167, R168), word 0 in bits 31:0. -/
abbrev Rec := BitVec 256

/-- A buffer declaration (R172). -/
structure BufDecl where
  id : Nat
  kind : Nat
  fmt : Nat
  flags : Nat
  census : Nat
  skip : Nat
  scales : Nat
  align : Nat
  arg : Nat
  bind : Nat
  maxBytes : Nat
  inner : Nat
deriving DecidableEq, Repr

/-- A queue declaration (R177). -/
structure QueueDecl where
  q : Nat
  prod : Nat
  cons : Nat
  depth : Nat
deriving DecidableEq, Repr

/-- A sync object declaration (R178). -/
structure SyncDecl where
  loc : Nat
  typ : Nat
  scope : Nat
  arg : Nat
  init : Nat
  param : Nat
deriving DecidableEq, Repr

/-- One live range of a cheap point (R187). -/
structure LiveRange where
  buf : Nat
  start : Nat
  len : Nat
deriving DecidableEq, Repr

/-- A cheap-point declaration (R187). -/
structure CheapDecl where
  id : Nat
  save : Nat
  queues : Nat
  ranges : List LiveRange
deriving DecidableEq, Repr

/-- A digest-point declaration (R193). -/
structure DigestDecl where
  id : Nat
  flags : Nat
  tensor : Nat
  layer : Nat
deriving DecidableEq, Repr

/-- One phase of a radio slot (R195). -/
structure PhaseDecl where
  trigger : Nat
  targ : Nat
  deadline : Nat
  start : Nat
  stop : Nat
  done : Nat
deriving DecidableEq, Repr

/-- The radio timing section (R195). -/
structure RadioTiming where
  mu : Nat
  cells : Nat
  phases : List PhaseDecl
deriving DecidableEq, Repr

/-- One INIT_DATA record (R176). -/
structure InitRec where
  buf : Nat
  off : Nat
  data : List Byte
deriving DecidableEq, Repr

/-- A module as the loader reads it (R160 to R195). `tables` is keyed by engine index. -/
structure Module where
  flags : Nat
  entry : Nat
  instMax : Nat
  args : Nat
  tables : KMap (List Rec)
  code : List DWord
  bufs : List BufDecl
  queues : List QueueDecl
  syncs : List SyncDecl
  cheap : List CheapDecl
  digests : List DigestDecl
  masks : List Nat
  inits : List InitRec
  reqs : List (Nat × Nat)
  timing : Option RadioTiming
deriving DecidableEq, Repr

/-- An empty module: what an unused launch number stands for. -/
def Module.blank : Module := ⟨0, 0, 1, 0, [], [], [], [], [], [], [], [], [], [], .none⟩

/-- Class of an accumulator tile (R99). -/
inductive TileClass where
  | none | int | float | complex
deriving DecidableEq, Repr

/-- Class code of R324. -/
def TileClass.code : TileClass → Nat
  | .none => 0 | .int => 1 | .float => 2 | .complex => 3

/-- The class of a code of R232 or R324. -/
def TileClass.ofCode : Nat → TileClass
  | 1 => .int | 2 => .float | 3 => .complex | _ => .none

/-- An accumulator tile: class, 16-bit signed anchor and up to 1,024 words in row-major order; unlisted words are 0
(R98, R99). -/
structure Tile where
  cls : TileClass
  anchor : Int
  words : KMap DWord
deriving DecidableEq, Repr

/-- A tile after a load or a clear (R99, R319). -/
def Tile.zero : Tile := ⟨.none, -512, []⟩

/-- An operand queue: its entries, oldest first, and its head counter modulo twice the depth (R63, R324). -/
structure OpQueue where
  ents : List Line
  head : Nat
deriving DecidableEq, Repr

/-- One open hardware loop: latched count, passes done, index of its first record (R57, R325). -/
structure LoopLv where
  count : Nat
  done : Nat
  first : Nat
deriving DecidableEq, Repr

/-- What an engine waits on (R294): a sync object (`sat` once an evaluation of R284 found its condition true), an operand queue, a hopper, a multicast descriptor, its gang. -/
inductive Wait where
  | sync (loc cond : Nat) (cmp : Word) (sat : Bool)
  | pop (q : Nat)
  | push (q : Nat)
  | hopper
  | mcastSend
  | mcastRecv
  | gang
  | seqFull (e : Nat)
  | take (loc : Nat)
deriving DecidableEq, Repr

/-- A hoist step in progress (R69, R70, R206, R207): the resolved pattern, the on-chip side and how many transfers are
done. `list` is the DMEM address of the index list and the gather stride. `buf` holds queue entries read or popped for the
transfer in hand; `line` counts the 64-byte lines already delivered of a multicast step. -/
structure HoistOp where
  step : Nat
  inbound : Bool
  offSp : Nat
  onSp : Nat
  hb : Nat
  base : DWord
  e0 : Nat
  ext : List Nat
  str : List Int
  list : Option (Nat × Nat)
  total : Nat
  done : Nat
  onAddr : Nat
  stone : Nat
  part : Nat
  q : Nat
  post : Option Int
  mcast : Nat
  seqNo : Nat
  detached : Bool
  buf : List Line
  line : Nat
deriving DecidableEq, Repr

/-- A stone operation in progress (R213): its record, resolved extents, stones of the gang, whether it holds them, and
the hopper bytes it has taken. -/
structure MmaOp where
  step : Nat
  eng : Nat
  rcd : Rec
  m : Nat
  n : Nat
  k : Nat
  stones : List Nat
  held : Bool
  stat : List Byte
  strm : List Byte
deriving DecidableEq, Repr

/-- Kinds of granary atomic (R108, R149, R116): byte maximum, byte AND, plain byte write. -/
inductive AtomKind where
  | max | and | put
deriving DecidableEq, Repr

/-- One update of a census, anchor or skip-map byte that a spout store sends to the granary (R155). -/
structure Atom where
  addr : Nat
  kind : AtomKind
  val : Byte
deriving DecidableEq, Repr

/-- A spout store in progress: the bytes it has yet to write to data memory, the entries it has yet to push, and the
granary updates still to be made (R154, R155, R218). -/
structure StoreOp where
  step : Nat
  rows : List (Nat × List Byte)
  q : Nat
  ents : List Line
  atoms : List Atom
deriving DecidableEq, Repr

/-- A flume operation in progress: its record, the queue bytes it has taken and still needs, and the entries it has yet
to push once computed (R222, R224). -/
structure FlumeOp where
  step : Nat
  rcd : Rec
  len : Nat
  needA : Nat
  needB : Nat
  gotA : List Byte
  gotB : List Byte
  out : Option (List Line)
deriving DecidableEq, Repr

/-- What an engine has issued and not yet completed (R181). -/
inductive EngOp where
  | hoist (h : HoistOp)
  | mma (m : MmaOp)
  | store (s : StoreOp)
  | flume (f : FlumeOp)
deriving DecidableEq, Repr

/-- The sequencer and engine state of one step-table engine of a context (R56, R57, R188, R325). `cur` is the current
segment, `next` the record it issues next. -/
structure Eng where
  cur : Option Nat
  next : Nat
  loops : List LoopLv
  pend : List Nat
  op : Option EngOp
  wait : Option Wait
  held : Bool
  cut : Option Nat
deriving DecidableEq, Repr

/-- An idle engine with no pending segment (R180). -/
def Eng.idle : Eng := ⟨none, 0, [], [], none, none, false, none⟩

/-- The miller of one context (R66, R235). The loop stack holds offsets of the `mloop` and of its `br.loop`. -/
structure Miller where
  s : KMap Word
  lc : KMap Word
  ofs : KMap Word
  pc : Nat
  loops : List (Nat × Nat)
  wait : Option Wait
  ended : Bool
  held : Bool
  cut : Option Nat
deriving DecidableEq, Repr

/-- The miller at load, before its pc is set to the module's entry (R66). -/
def Miller.zero : Miller := ⟨[], [], [], 0, [], none, false, false, none⟩

/-- What a LOCAL of a SYNCS section names for a context (R179, R288). -/
inductive SyncBind where
  | obj (n : Nat)
  | remote (win n : Nat)
deriving DecidableEq, Repr

/-- A multicast send descriptor that a member has not yet consumed (R265), with its send number (R264), the lines
delivered by multicast so far and whether the member detached (R266). -/
structure SendDesc where
  seqNo : Nat
  base : DWord
  e0 : Nat
  ext : List Nat
  str : List Int
  got : Nat
  detached : Bool
deriving DecidableEq, Repr

/-- Where a context is: in a leaf of a site, or saved only (R308). -/
inductive Place where
  | leaf (site lf : Nat)
  | saved
deriving DecidableEq, Repr

/-- A context: everything R66, R69, R73, R98, R99, R156, R157, R190 give it. Memory addresses are relative to its own
regions (R74); unlisted bytes, words and tiles are those of a cleared leaf (R319). `launch` names its launch,
`saveUnits` the 4 KiB units it holds in the save area (R309), `lastMove` the fantail time at which one of its engines
last issued, completed or stopped waiting, or, while it does not run, the time for which none had (R294), `placedAt` when it
was last placed (R315), `savedAt` the order in which it was saved (R315), `started` whether it has ever run (R180), `radioFrom` the
boundary of the first slot that it serves and `phaseCnt` the signals of each phase so far (R400). -/
structure Ctx where
  launch : Nat
  inst : Nat
  part : Nat
  slice : Nat
  place : Place
  miller : Miller
  engs : KMap Eng
  hbIn : KMap DWord
  hbOut : KMap DWord
  queues : KMap OpQueue
  tiles : KMap Tile
  dmem : KMap Byte
  mdm : KMap Byte
  digests : KMap DWord
  satCnt : Word
  syncs : KMap SyncBind
  bufBase : KMap Nat
  mcSeqTx : Nat
  mcSeqRx : Nat
  descs : List SendDesc
  freezing : Bool
  freezeFrom : Nat
  freezeWhy : Nat
  saveUnits : List Nat
  lastMove : Nat
  placedAt : Nat
  savedAt : Nat
  started : Bool
  killed : Bool
  radioFrom : Option Nat
  phaseCnt : KMap Nat
deriving DecidableEq, Repr

/-- The context that an unused context number stands for. -/
def Ctx.blank : Ctx :=
  { launch := 0, inst := 0, part := 0, slice := 0, place := .saved, miller := Miller.zero, engs := [], hbIn := [],
    hbOut := [], queues := [], tiles := [], dmem := [], mdm := [], digests := [], satCnt := 0, syncs := [],
    bufBase := [], mcSeqTx := 0, mcSeqRx := 0, descs := [], freezing := false, freezeFrom := 0, freezeWhy := 0,
    saveUnits := [], lastMove := 0, placedAt := 0, savedAt := 0, started := false, killed := false,
    radioFrom := .none, phaseCnt := [] }

/-- States of a leaf (R77). -/
inductive LeafSt where
  | empty | loading | resident | running | frozen | faulted
deriving DecidableEq, Repr

/-- Code of a leaf state (R77). -/
def LeafSt.code : LeafSt → Nat
  | .empty => 0 | .loading => 1 | .resident => 2 | .running => 3 | .frozen => 4 | .faulted => 5

/-- Bases and counts of a leaf's regions, in the units of R73, and the stones it may drive (R87). -/
structure Bounds where
  dmemBase : Nat
  dmemCnt : Nat
  accBase : Nat
  accCnt : Nat
  qBase : Nat
  qCnt : Nat
  mdmBase : Nat
  mdmCnt : Nat
  stones : Nat
deriving DecidableEq, Repr

/-- No region at all: the bounds of an EMPTY leaf. -/
def Bounds.zero : Bounds := ⟨0, 0, 0, 0, 0, 0, 0, 0, 0⟩

/-- A context leaf (R77, R87). `ctx` is the number of the context in it, `runFrom` the fantail time at which it last
became RUNNING, `activeClk` the clocks it has spent RUNNING, `gang` the gang mode of its latest stone operation (R159),
`imem` the lines of its instruction leaf (R73), `want` the saved context chosen for it (R315). -/
structure Leaf where
  st : LeafSt
  ctx : Option Nat
  part : Nat
  slice : Nat
  bnd : Bounds
  faultCode : Nat
  faultEng : Nat
  faultStep : Nat
  activeClk : DWord
  runFrom : Nat
  gang : Nat
  imem : KMap Line
  want : Option Nat
deriving DecidableEq, Repr

/-- An EMPTY leaf: every field of R87 reads 0. -/
def Leaf.empty : Leaf := ⟨.empty, none, 0, 0, Bounds.zero, 0, 0, 0, 0, 0, 0, [], none⟩

/-- What a leaf keeps when its context leaves it: its instruction lines (R73) and its gang mode (R159). -/
def Leaf.vacant (l : Leaf) : Leaf := { Leaf.empty with imem := l.imem, gang := l.gang }

/-- A stone: the bytes waiting in its stationary and stream hoppers (R124), and the leaf and driving engine that hold it
with the fantail time since when (R130, R318), and when an operation last left it (R495). -/
structure Stone where
  stat : List Byte
  strm : List Byte
  heldBy : Option (Nat × Nat)
  heldFrom : Nat
  leftAt : Option Nat
deriving DecidableEq, Repr

/-- A stone that nothing uses. -/
def Stone.idle : Stone := ⟨[], [], none, 0, none⟩

/-- A mill site: two leaves, the leaf selected (R87), split mode (R82), a requested switch and the state that the
outgoing leaf takes (R79), the stones, the stores waiting in the spout as (leaf, engine), oldest first (R55), and since when
some gang has waited on a hopper (R159). -/
structure Mill where
  leaf0 : Leaf
  leaf1 : Leaf
  runLeaf : Nat
  split : Bool
  swTo : Option Nat
  stones : KMap Stone
  spout : List (Nat × Nat)
  hopFrom : Option Nat
deriving DecidableEq, Repr

/-- A mill after reset: both leaves EMPTY, leaf 0 selected (R87). -/
def Mill.zero : Mill := ⟨Leaf.empty, Leaf.empty, 0, false, .none, [], [], .none⟩

/-- What a mill keeps while its row is OFF: the gang modes (R88, R159). -/
def Mill.off (m : Mill) : Mill :=
  { Mill.zero with leaf0 := { Leaf.empty with gang := m.leaf0.gang }, leaf1 := { Leaf.empty with gang := m.leaf1.gang } }

/-- One of the two leaves of a mill. -/
def Mill.leaf (m : Mill) (l : Nat) : Leaf := if l = 0 then m.leaf0 else m.leaf1

/-- Replace one of the two leaves of a mill. -/
def Mill.setLeaf (m : Mill) (l : Nat) (x : Leaf) : Mill := if l = 0 then { m with leaf0 := x } else { m with leaf1 := x }

/-- What a load report says of an accepted module (R246), and `accRegion`, the tiles that a leaf must have for its ACC buffers (R173)
and its records (R249). -/
structure LoadSizes where
  freezeClocks : Nat
  saveMax : Nat
  imemBytes : Nat
  accTiles : Nat
  accRegion : Nat
  queueEntries : Nat
  dmemBytes : Nat
  mdmBytes : Nat
  syncObjects : Nat
  phaseClocks : List Nat
deriving DecidableEq, Repr

/-- The report of nothing. -/
def LoadSizes.zero : LoadSizes := ⟨0, 0, 0, 0, 0, 0, 0, 0, 0, []⟩

/-- The sum of the phase clocks (R246). -/
def LoadSizes.slotClocks (z : LoadSizes) : Nat := z.phaseClocks.foldl (· + ·) 0

/-- A launch: whose it is, its completion tag and FLAGS (R369), its module and its bytes, instances, argument words, grid
width; the objects its SHARED declarations hold; how many of its contexts still exist; its load report (R258, R329). -/
structure Launch where
  part : Nat
  slice : Nat
  tag : Nat
  flags : Nat
  modl : Module
  bytes : List Byte
  instances : Nat
  args : List DWord
  grid : Nat
  shared : KMap Nat
  left : Nat
  sizes : LoadSizes
deriving DecidableEq, Repr

/-- What an unused launch number stands for. -/
def Launch.blank : Launch := ⟨0, 0, 0, 0, Module.blank, [], 0, [], 0, [], 0, LoadSizes.zero⟩

end Sys2Proof.Machine
end

