-- ==== Sys2Proof/Machine/StateSys.lean ====
section
/-! DEFINITION. Plain data of the register hub, the sync unit, the scheduler, main memory and the granary
(chapters 02, 08 to 12). -/
namespace Sys2Proof.Machine

/-- A message the device has sent (R45): the vector and the address and data of its table entry. -/
structure Msg where
  vec : Nat
  addr : DWord
  data : Word
deriving DecidableEq, Repr

/-- The register hub (chapter 02). `words` holds every register word that is not computed from other state, keyed by its
BAR0 offset (windowed registers 2^26 × (item + 1) above it), unlisted words at their reset value; `latch` and `hold` are
the valid read latches and write holds of R35, keyed by the offset of the low half; `msix` and `pba` the MSI-X table words
and pending bits of R33, R45; `funcMask` the MSI-X function mask; `sent` the messages sent; `reply` what the latest read
or responder returned. -/
structure Bus where
  words : KMap Word
  latch : KMap Word
  hold : KMap Word
  msix : KMap Word
  pba : KMap Bool
  funcMask : Bool
  sent : List Msg
  reply : DWord
deriving DecidableEq, Repr

/-- Types of a sync object (R280). -/
inductive ObjType where
  | none | counter | barrier | flag | work | timed
deriving DecidableEq, Repr

/-- Type code of R280, 0xFF for NONE (R296). -/
def ObjType.code : ObjType → Nat
  | .counter => 0 | .barrier => 1 | .flag => 2 | .work => 3 | .timed => 4 | .none => 0xFF

/-- The type of a code of R280. -/
def ObjType.ofCode : Nat → ObjType
  | 0 => .counter | 1 => .barrier | 2 => .flag | 3 => .work | 4 => .timed | _ => .none

/-- A sync object (R279). -/
structure SyncObj where
  typ : ObjType
  value : Word
  param : Word
  arrivals : Nat
deriving DecidableEq, Repr

/-- An object that is not allocated (R279). -/
def SyncObj.blank : SyncObj := ⟨.none, 0, 0, 0⟩

/-- The sync unit: objects 0 to 65,535 and the partition of each block, 63 when free (R278, R296). -/
structure Sync where
  objs : KMap SyncObj
  owner : KMap Nat
deriving DecidableEq, Repr

/-- States of a partition (R302). -/
inductive PartSt where
  | free | creating | active | freezing | frozen | restoring | teardown
deriving DecidableEq, Repr

/-- Code of a partition state (R302). -/
def PartSt.code : PartSt → Nat
  | .free => 0 | .creating => 1 | .active => 2 | .freezing => 3 | .frozen => 4 | .restoring => 5 | .teardown => 6

/-- A partition descriptor (R299). Sets are bit masks. -/
structure PartDesc where
  radio : Bool
  flags : Nat
  mu : Nat
  quantum : Nat
  seed : Nat
  sliceBase : Nat
  sliceCount : Nat
  weirBase : Nat
  weirCount : Nat
  keySlots : Nat
  mills : Nat
  grn : Nat
  ways : Nat
  bolter : Nat
  memFloor : Nat
  blocks : Nat
  saveBase : Nat
  saveGran : Nat
  slot0 : Nat
deriving DecidableEq, Repr

/-- A descriptor with nothing in it. -/
def PartDesc.blank : PartDesc := ⟨false, 0, 0, 0, 0, 0, 0, 0, 0, 0, 0, 0, 0, 0, 0, 0, 0, 0, 0⟩

/-- An accepted resize (R303): mills to add and remove, and the slot boundary at which it takes effect. -/
structure Resize where
  add : Nat
  rem : Nat
  at_ : Nat
deriving DecidableEq, Repr

/-- A partition: state, descriptor, mills held now (a mask), an accepted resize, a slice command in
progress (operation, slice), and the fantail time of the next slot boundary to be given as an event (R486). -/
structure Part where
  st : PartSt
  desc : PartDesc
  mills : Nat
  resize : Option Resize
  sliceCmd : Option (Nat × Nat)
  slots : Nat
deriving DecidableEq, Repr

/-- A partition that does not exist (R302). -/
def Part.free : Part := ⟨.free, PartDesc.blank, 0, none, none, 0⟩

/-- States of a slice (R333). -/
inductive SliceSt where
  | none | active | paused | teardown
deriving DecidableEq, Repr

/-- Code of a slice state (R333). -/
def SliceSt.code : SliceSt → Nat
  | .none => 0 | .active => 1 | .paused => 2 | .teardown => 3

/-- A slice (R305, R314, R318). -/
structure Slice where
  st : SliceSt
  part : Nat
  pasid : Nat
  share : Nat
  stream : Word
  vt : DWord
  millNs : DWord
  stoneNs : DWord
deriving DecidableEq, Repr

/-- A slice that is not created. -/
def Slice.blank : Slice := ⟨.none, 0, 0, 0, 0, 0, 0, 0⟩

/-- What a load that passed its checks has reserved (R242 step 4): its module, bytes, arguments, report and whether the
translation cache held it; the leaves, and the objects of its SHARED and of each context's PRIVATE declarations. -/
structure LoadPlan where
  modl : Module
  bytes : List Byte
  args : List DWord
  sizes : LoadSizes
  cached : Bool
  places : List (Nat × Nat)
  shared : KMap Nat
  priv : List (KMap Nat)
deriving DecidableEq, Repr

/-- A load that has been requested and not finished (R242, R369): who asked, what the LAUNCH entry names, and what the load
has reserved. -/
structure Load where
  part : Nat
  slice : Nat
  mailbox : Bool
  tag : Nat
  flags : Nat
  modAddr : Nat
  modBytes : Nat
  argAddr : Nat
  argCount : Nat
  instances : Nat
  grid : Nat
  reportAddr : Nat
  plan : Option LoadPlan
deriving DecidableEq, Repr

/-- What an unused load number stands for. -/
def Load.blank : Load := ⟨0, 0, false, 0, 0, 0, 0, 0, 0, 0, 0, 0, none⟩

/-- A context being torn down whose drain has not ended (R320): its launch, instance, partition, slice, fault code, engine,
step and time of the fault. -/
structure Drain where
  launch : Nat
  inst : Nat
  part : Nat
  slice : Nat
  code : Nat
  eng : Nat
  step : Nat
  since : Nat
deriving DecidableEq, Repr

/-- What an unused drain number stands for. -/
def Drain.blank : Drain := ⟨0, 0, 0, 0, 0, 0, 0, 0⟩

/-- A mailbox command in progress (R373): its code, the partition it concerns, and its result once known. -/
structure MbxCmd where
  op : Nat
  part : Nat
  res : Option Nat
deriving DecidableEq, Repr

/-- The scheduler and the workshop's loader (chapters 08, 11): partitions, slices, contexts and launches by number, loads
and teardowns in progress; the borrower of each lent mill; the partition that received the previous loan (R310); reclaims
requested and when (R312); the number of saves so far (R315); the mailbox command in progress (R373); whether the workshop
answers its mailboxes (R18); the translation cache's keys, latest use first (R241). -/
structure Sched where
  parts : KMap Part
  slices : KMap Slice
  ctxs : KMap Ctx
  launches : KMap Launch
  loads : KMap Load
  drains : KMap Drain
  lent : KMap Nat
  lastLoan : Nat
  reclaims : KMap Nat
  saves : Nat
  mbx : Option MbxCmd
  workshop : Bool
  cache : List Nat
deriving DecidableEq, Repr

/-- A granary line that is held (R269, R271, R275): its owner, way, whether it is dirty, whether it is LOST, and when it was
last used. -/
structure GLine where
  owner : Nat
  way : Nat
  dirty : Bool
  lost : Bool
  used : Nat
deriving DecidableEq, Repr

/-- The granary (chapter 09): lines held, keyed by line number (address / 64) × 64 + slice; the dedication of a slice and
the owner of each way (63 none), keyed by slice and slice × 16 + way; a use counter. -/
structure Granary where
  lines : KMap GLine
  dedic : KMap Nat
  ways : KMap Nat
  clock : Nat
deriving DecidableEq, Repr

/-- An OWN command in progress (R350, R351): operation, first granule, count, entry, what it signals, and the entries that its
granules had. -/
structure OwnCmd where
  op : Nat
  first : Nat
  count : Nat
  entry : Word
  sig : Option Nat
  old : List Word
deriving DecidableEq, Repr

/-- A key slot (R344, R576, R577): the identity of the key it holds, the partition that holds the slot (63 none), the
partition that SET_TARGET_KEY or IMPORT_KEYS bound it to, and whether SET_TARGET_KEY loaded it. -/
structure KeySlot where
  key : Option Nat
  owner : Nat
  bound : Option Nat
  tsp : Bool
deriving DecidableEq, Repr

/-- An empty, unheld slot. -/
def KeySlot.empty : KeySlot := ⟨none, 63, none, false⟩

/-- Main memory and the ownership table (chapter 12): the plaintext bytes of device memory; for each line the identity of
the key under which its bytes were written; the error pattern standing in each line's 68 stored bytes (R339); copies A and
B of the ownership table, unlisted entries per R345; uncorrectable copies (bit 0 A, bit 1 B) by granule; granules fenced by a
table conflict (R557); the OWN command in progress; the key slots; the next fresh key identity; OWN's cached entries, latest
first (R347). `lineKey` is 0 for a line that nothing has written. -/
structure Mem where
  cells : List (Nat × BitVec 8)
  lineKey : KMap Nat
  errs : KMap Nat
  ownA : KMap Word
  ownB : KMap Word
  tblUe : KMap Nat
  fenced : KMap Bool
  cmd : Option OwnCmd
  slots : KMap KeySlot
  nextKey : Nat
  cached : List (Nat × Word)
deriving DecidableEq, Repr

end Sys2Proof.Machine
end

