-- ==== Sys2Proof/Machine/CmdTypes.lean ====
section
/-! DEFINITION. The operand types of the commands: what the world outside the block supplies with them (log 4). -/
namespace Sys2Proof

/-- A mill site 16 × row + site (R2). -/
abbrev Site := Fin 256
/-- A context leaf of a mill. -/
abbrev LeafNo := Fin 2
/-- An engine index (R53). -/
abbrev EngNo := Fin 8

/-- A register access: an offset into BAR0 (64 MiB) or into BAR2 (32 MiB) (R28). -/
inductive BusAddr where
  | bar0 (a : BitVec 26)
  | bar2 (a : BitVec 25)
deriving DecidableEq, Repr

/-- The size of an access: 32 bits, 64 bits, or any other, which is refused (R34). -/
inductive AccSize where
  | w32 | w64 | other
deriving DecidableEq, Repr

/-- The answer of ATS to a translation request (R374): log2 of the page size, the host-physical page base, and the read and
write permissions. -/
structure AtsAns where
  log : Nat
  hpa : Nat
  rd : Bool
  wr : Bool
deriving DecidableEq, Repr

/-- What the world answers one transfer of a hoist (R71): the answers of ATS for the pages the
device TLB does not hold (none: refused), the bytes returned to a read (of the peer; of the host, the 64 bytes of each line
that the host line cache does not hold), bit errors that appear in stored lines (line address, error pattern over the 68 stored
bytes of R339), and an error of the granary slice on the line (R275: corrected, or uncorrectable). -/
structure XferEnv where
  ats : List (Option AtsAns)
  data : List (BitVec 8)
  upset : List (Nat × Nat)
  slice : Option Bool
deriving DecidableEq, Repr

/-- A fabric atomic (R360): its kind and whether it is 64 bits wide. -/
inductive AtomOp where
  | fetchAdd | swap | cas
deriving DecidableEq, Repr

/-- A request that reaches the completion timeout (R362): a transfer of a context's engine, a fetch of a slice's submission
ring, or the oldest write of a slice's rings that awaits its response. -/
inductive TimedOut where
  | xfer (site : Site) (lf : LeafNo) (e : EngNo)
  | fetch (slice : BitVec 13)
  | write (slice : BitVec 13)
deriving DecidableEq, Repr

/-- What a servo is given for one update (R476), in units of 2^−16 ns: the four times of a PTP exchange, those of the device as the
fantail stamps them, with the sum of the correction fields; or the seconds of the last ToD message and the stamp of a PPS edge. -/
inductive ServoIn where
  | ptp (t1 t2 t3 t4 corr : Int)
  | pps (sec : Nat) (stamp : Int)
deriving DecidableEq, Repr

/-- Clock inputs that have a monitor (R504). -/
inductive ClockIn where
  | ao | cxl | eth0 | eth1 | synce
deriving DecidableEq, Repr

/-- Rails that have a monitor (R592, R595). -/
inductive Rail where
  | ao | iod | srd | puf | millA | millB
  | ddr (g : Fin 6)
deriving DecidableEq, Repr

/-- A configuration record (R525) as step 11 reads it: RECORD_ID, SVN, BOARD (W, and the energies in R492's classes), the capabilities
that are listed, GPIO, LANES and TRAIN, REPAIRS, LOCKS (page offset, `INT_VEC` value), ID_DIGEST, and the
digest of its signed bytes. -/
structure CfgRecord where
  recordId : DWord
  svn : Word
  boardMax : Nat
  floorBase : Nat
  rowRadio : Nat
  energies : List Nat
  caps : List Nat
  gpioDir : BitVec 16
  gpioLevel : BitVec 16
  lanes : Word
  train : List Byte
  repairs : List Machine.DtEntry
  locks : List (Nat × Nat)
  idDigest : List Byte
  digest : List Byte
deriving DecidableEq, Repr

/-- What a story-stick step finds out (R518): the header of the boot image (SVN, firmware version, Ubvovar version, BODY_DIGEST) at
step 7, the digest of the identity key at step 10, the record at step 11; nothing at the other steps. -/
inductive StepData where
  | plain
  | image (svn fw ubv : Word) (digest : List Byte)
  | identity (digest : List Byte)
  | record (r : CfgRecord)
deriving DecidableEq, Repr

/-- What the patrol scrub reads (R342): a line with the errors found in its stored bytes, an ownership entry with the difference of its
copies and which copies are uncorrectable, a partition-table record with the mills that its two copies name, or an entry of copy
B of the dutchman table. -/
inductive ScrubItem where
  | line (ln : BitVec 33) (pat : BitVec 544)
  | own (g : BitVec 24) (diff : Word) (ue : BitVec 2)
  | part (p : Fin 32) (a b : BitVec 240)
  | dutchman (i : Fin 4096) (b : Machine.DtEntry)
deriving DecidableEq, Repr

/-- Transports of the SPDM responder (R572): CXL DOE, MCTP on I3C_A, MCTP on CXL.io. -/
inductive Transport where
  | doe | i3c | mctp
deriving DecidableEq, Repr

namespace Machine

/-- A partition image (R329): DFP of the source, kind, descriptor, slices, contexts, sync objects, launches, and the migration key that
seals it. -/
structure Image where
  dfp : DWord
  full : Bool
  desc : PartDesc
  slices : KMap Slice
  ctxs : KMap Ctx
  objs : KMap SyncObj
  launches : KMap Launch
  km : List Byte
deriving DecidableEq, Repr

end Machine

end Sys2Proof
end

