-- ==== Sys2Proof/Syntax.lean ====
section
/-! DEFINITION. The commands the EQH-7240 takes, one constructor per row of the opcode table, with their operands. What the
world outside the block supplies (bytes a host or a peer returns, frames, sensor readings, bit errors, choices the spec
leaves to the scheduler or to Ubvovar) is an operand of the command that meets it (log 4). -/
namespace Sys2Proof

/-- The commands of the block: one constructor per row of the opcode table, in the table's order. -/
inductive Instr where
  /-- REGISTER_WRITE (R38): A BAR0 or BAR2 write to a register that has no row of its own takes effect by its access code, in arrival order. -/
  | registerWrite (a : BusAddr) (sz : AccSize) (v : DWord)
  /-- RC_READ (R38): A read of a read-to-clear register returns its value and clears it. -/
  | rcRead (a : BusAddr) (sz : AccSize)
  /-- LOW_HALF_READ (R35): A 32-bit read of a 64-bit register's low half returns it and loads the high half into the read latch. -/
  | lowHalfRead (a : BitVec 26)
  /-- HIGH_HALF_READ (R35): A 32-bit read of a 64-bit register's high half returns the valid latch and invalidates it, or else returns the live high half. -/
  | highHalfRead (a : BitVec 26)
  /-- LOW_HALF_WRITE (R35): A 32-bit write to a 64-bit register's low half is held in the write hold. -/
  | lowHalfWrite (a : BitVec 26) (v : Word)
  /-- HIGH_HALF_WRITE (R35): A 32-bit write to a 64-bit register's high half writes both halves when a low half is held, or else the high half alone. -/
  | highHalfWrite (a : BitVec 26) (v : Word)
  /-- UNMAPPED_ACCESS (R33): An access to an unassigned BAR0 offset reads 0 or is discarded, and it records the offset in ROOT. -/
  | unmappedAccess (a : BitVec 26) (wr : Bool)
  /-- INT_SET_WRITE (R40): Writing 1 to INT_SET sets the matching INT_STAT bits for test. -/
  | intSetWrite (a : BitVec 26) (v : Word)
  /-- LOCK_WRITE (R41): Writing LOCK.LOCKED locks the page's RWL fields until full reset. -/
  | lockWrite (a : BitVec 26) (v : Word)
  /-- LOOP_BEGIN (R58): A sequencer enters a hardware loop, latching and range-checking its count or skipping the body when the count is 0. -/
  | loopBegin (site : Site) (lf : LeafNo) (e : EngNo)
  /-- LOOP_END (R57): A sequencer closes the innermost loop and returns to its start or exits. -/
  | loopEnd (site : Site) (lf : LeafNo) (e : EngNo)
  /-- MARK_CHEAP (R188): A cut record issues, and its engine holds there when a freeze is pending. -/
  | markCheap (site : Site) (lf : LeafNo) (e : EngNo)
  /-- SYNC_WAIT (R282): A step-table engine waits on a sync object until its condition holds. -/
  | syncWait (site : Site) (lf : LeafNo) (e : EngNo)
  /-- SYNC_SIGNAL (R281): A step-table engine signals ADD or SET on a sync object after its earlier records complete. -/
  | syncSignal (site : Site) (lf : LeafNo) (e : EngNo)
  /-- SYNC_TAKE (R283): A step-table engine performs an atomic fetch-and-add on a WORK object and pushes the old value. -/
  | syncTake (site : Site) (lf : LeafNo) (e : EngNo) (ans : Word)
  /-- HOIST_LOAD (R206): HOIST_IN runs a pattern transfer into the mill, with its hoist.dims continuation. -/
  | hoistLoad (site : Site) (lf : LeafNo)
  /-- HOIST_GATHER (R207): HOIST_IN runs an indexed transfer into the mill, with its hoist.list continuation. -/
  | hoistGather (site : Site) (lf : LeafNo)
  /-- HOIST_STORE (R206): HOIST_OUT runs a pattern transfer out of the mill. -/
  | hoistStore (site : Site) (lf : LeafNo)
  /-- HOIST_SCATTER (R207): HOIST_OUT runs an indexed transfer out of the mill. -/
  | hoistScatter (site : Site) (lf : LeafNo)
  /-- HOIST_TRANSFER (R71): One transfer of a hoist step is checked and moves its data, or faults the context. -/
  | hoistTransfer (site : Site) (lf : LeafNo) (e : EngNo) (env : XferEnv)
  /-- HOIST_STEP_DONE (R72): All transfers of a hoist step are complete and visible, and the base register is post-modified. -/
  | hoistStepDone (site : Site) (lf : LeafNo) (e : EngNo)
  /-- MEMBER_DETACH (R266): A multicast member whose hopper refused a line for 64 clocks detaches and reads the rest itself. -/
  | memberDetach (site : Site) (lf : LeafNo)
  /-- STONE_MMA (R217): A stone operation issues on its gang, folding M, N and K into passes. -/
  | stoneMma (site : Site) (lf : LeafNo) (e : EngNo)
  /-- GANG_ACQUIRE (R130): A waiting stone operation takes all stones of its gang once none is held. -/
  | gangAcquire (site : Site) (lf : LeafNo) (e : EngNo)
  /-- HOPPER_RESUME (R126): A stone waiting on an empty stream hopper resumes when a complete column arrives. -/
  | hopperResume (site : Site) (lf : LeafNo) (e : EngNo)
  /-- MMA_LANDED (R138): The last products of a stone operation land in the accumulator and its gang is freed. -/
  | mmaLanded (site : Site) (lf : LeafNo) (e : EngNo)
  /-- SPOUT_STORE (R218): The spout converts and stores a region of accumulator words with census, skip map, dither and digest. -/
  | spoutStore (site : Site) (lf : LeafNo) (e : EngNo)
  /-- STORE_COMPLETE (R154): The last destination byte of a spout store is written. -/
  | storeComplete (site : Site) (lf : LeafNo) (e : EngNo)
  /-- GRANARY_ATOMIC (R272): A census maximum, skip-map AND or take spill is performed at the home slice. -/
  | granaryAtomic (site : Site) (lf : LeafNo) (e : EngNo)
  /-- SPOUT_DIGEST (R220): A digest register is emitted to the slice's digest path, and cleared when CLEAR_ON_EMIT is set. -/
  | spoutDigest (site : Site) (lf : LeafNo) (e : EngNo)
  /-- SPOUT_STATUS (R221): The leaf's saturation count is pushed to a queue and optionally cleared. -/
  | spoutStatus (site : Site) (lf : LeafNo) (e : EngNo)
  /-- FLUME_ADD (R223): The flume computes O = A + B. -/
  | flumeAdd (site : Site) (lf : LeafNo)
  /-- FLUME_SUB (R223): The flume computes O = A − B. -/
  | flumeSub (site : Site) (lf : LeafNo)
  /-- FLUME_MUL (R223): The flume computes O = A × B. -/
  | flumeMul (site : Site) (lf : LeafNo)
  /-- FLUME_FMA (R223): The flume computes O = A × B + O in FP32. -/
  | flumeFma (site : Site) (lf : LeafNo)
  /-- FLUME_TAPM (R227): The flume filters with optional history move. -/
  | flumeTapm (site : Site) (lf : LeafNo)
  /-- FLUME_CONV (R122): The flume converts A to FMT_O. -/
  | flumeConv (site : Site) (lf : LeafNo)
  /-- FLUME_CENSUS (R228): The flume writes the exponent census of A. -/
  | flumeCensus (site : Site) (lf : LeafNo)
  /-- FLUME_DEMAP (R229): The flume turns equalised resource elements into LLRs. -/
  | flumeDemap (site : Site) (lf : LeafNo)
  /-- FLUME_EXP2 (R230): The flume computes 2^A in FP32. -/
  | flumeExp2 (site : Site) (lf : LeafNo)
  /-- FLUME_RECIP (R230): The flume computes 1/A in FP32. -/
  | flumeRecip (site : Site) (lf : LeafNo)
  /-- FLUME_SUM (R231): The flume reduces A to one FP32 sum in fixed order. -/
  | flumeSum (site : Site) (lf : LeafNo)
  /-- FLUME_MAX (R231): The flume reduces A to one FP32 maximum in fixed order. -/
  | flumeMax (site : Site) (lf : LeafNo)
  /-- FLUME_TLD (R232): The flume loads ACC64 words and anchors into tiles. -/
  | flumeTld (site : Site) (lf : LeafNo)
  /-- FLUME_TADD (R232): The flume adds ACC64 words into tiles under R102. -/
  | flumeTadd (site : Site) (lf : LeafNo)
  /-- FLUME_NEG (R223): The flume computes O = −A. -/
  | flumeNeg (site : Site) (lf : LeafNo)
  /-- FLUME_RESULT (R224): A flume operation writes its last result. -/
  | flumeResult (site : Site) (lf : LeafNo)
  /-- ADD (R234): Miller ALU add. -/
  | aluAdd (site : Site) (lf : LeafNo)
  /-- SUB (R234): Miller ALU subtract. -/
  | aluSub (site : Site) (lf : LeafNo)
  /-- AND (R234): Miller ALU bitwise and. -/
  | aluAnd (site : Site) (lf : LeafNo)
  /-- OR (R234): Miller ALU bitwise or. -/
  | aluOr (site : Site) (lf : LeafNo)
  /-- XOR (R234): Miller ALU bitwise exclusive or. -/
  | aluXor (site : Site) (lf : LeafNo)
  /-- SHL (R234): Miller shift left. -/
  | aluShl (site : Site) (lf : LeafNo)
  /-- SHR (R234): Miller logical shift right. -/
  | aluShr (site : Site) (lf : LeafNo)
  /-- SRA (R234): Miller arithmetic shift right. -/
  | aluSra (site : Site) (lf : LeafNo)
  /-- MUL (R234): Miller multiply, low 32 bits. -/
  | aluMul (site : Site) (lf : LeafNo)
  /-- MULHU (R234): Miller multiply, high 32 bits unsigned. -/
  | aluMulhu (site : Site) (lf : LeafNo)
  /-- SLT (R234): Miller signed set-less-than. -/
  | aluSlt (site : Site) (lf : LeafNo)
  /-- SLTU (R234): Miller unsigned set-less-than. -/
  | aluSltu (site : Site) (lf : LeafNo)
  /-- MINU (R234): Miller unsigned minimum. -/
  | aluMinu (site : Site) (lf : LeafNo)
  /-- MAXU (R234): Miller unsigned maximum. -/
  | aluMaxu (site : Site) (lf : LeafNo)
  /-- LDW (R234): The miller loads a word from its data memory. -/
  | ldw (site : Site) (lf : LeafNo)
  /-- STW (R234): The miller stores a word to its data memory. -/
  | stw (site : Site) (lf : LeafNo)
  /-- LDB (R234): The miller loads a byte from its data memory. -/
  | ldb (site : Site) (lf : LeafNo)
  /-- STB (R234): The miller stores a byte to its data memory. -/
  | stb (site : Site) (lf : LeafNo)
  /-- WHB (R234): The miller writes a hoist base register. -/
  | whb (site : Site) (lf : LeafNo)
  /-- BF (R234): The miller takes a forward branch when its condition holds. -/
  | bf (site : Site) (lf : LeafNo)
  /-- MLOOP (R235): The miller opens a counted loop, range-checking or skipping it. -/
  | mloop (site : Site) (lf : LeafNo)
  /-- BR_LOOP (R234): The miller decrements its loop count and branches back while it is not 0. -/
  | brLoop (site : Site) (lf : LeafNo)
  /-- WLC (R234): The miller writes an lc register. -/
  | wlc (site : Site) (lf : LeafNo)
  /-- WOFS (R234): The miller writes an ofs register. -/
  | wofs (site : Site) (lf : LeafNo)
  /-- SEQ_RUN (R56): The miller queues a segment on an engine, or raises CF_SEGMENT_RANGE. -/
  | seqRun (site : Site) (lf : LeafNo)
  /-- SEGMENT_START (R56): An engine starts its next pending segment after the current one's last record issues. -/
  | segmentStart (site : Site) (lf : LeafNo) (e : EngNo)
  /-- QPOP (R234): The miller pops a queue entry into its data memory. -/
  | qpop (site : Site) (lf : LeafNo)
  /-- QPUSH (R234): The miller pushes a queue entry from its data memory. -/
  | qpush (site : Site) (lf : LeafNo)
  /-- QUEUE_RESUME (R63): An engine waiting to push to a full queue or pop an empty one resumes. -/
  | queueResume (site : Site) (lf : LeafNo) (e : EngNo)
  /-- MILLER_SYNC_WAIT (R234): The miller waits on a sync object at a cut record. -/
  | millerSyncWait (site : Site) (lf : LeafNo)
  /-- MILLER_SYNC_SIGNAL (R234): The miller signals a sync object. -/
  | millerSyncSignal (site : Site) (lf : LeafNo)
  /-- MILLER_SYNC_TAKE (R234): The miller takes a ticket from a WORK object. -/
  | millerSyncTake (site : Site) (lf : LeafNo) (ans : Word)
  /-- MILLER_MARK_CHEAP (R234): The miller issues a cut record. -/
  | millerMarkCheap (site : Site) (lf : LeafNo)
  /-- MILLER_END (R234): The miller ends its part of the context. -/
  | millerEnd (site : Site) (lf : LeafNo)
  /-- WAIT_SATISFIED (R284): A change of an object's VALUE satisfies a resident context's wait and releases its engine. -/
  | waitSatisfied (site : Site) (lf : LeafNo) (e : EngNo)
  /-- CONTEXT_END (R186): A context ends once the miller has ended, every engine is idle and all transfers are visible. -/
  | contextEnd (site : Site) (lf : LeafNo)
  /-- STALL_WATCHDOG (R294): A context stalled longer than its partition's limit faults with CF_STALL. -/
  | stallWatchdog (site : Site) (lf : LeafNo)
  /-- IMEM_WRITE (R78): A workshop write to an instruction leaf is accepted in LOADING, or refused, logged and counted. -/
  | imemWrite (site : Site) (lf : LeafNo) (line : Fin 512) (data : Line)
  /-- CONTEXT_SWITCH (R79): At a context boundary the mill switches to or starts a RESIDENT leaf over 16 clocks. -/
  | contextSwitch (site : Site) (lf : LeafNo) (split : Bool)
  /-- QUANTUM_EXPIRY (R315): A context's quantum expires and the scheduler decides for its leaf. -/
  | quantumExpiry (site : Site) (lf : LeafNo)
  /-- BLOCKED_SWAP (R316): With every resident context on a mill blocked, the scheduler swaps one out at once. -/
  | blockedSwap (site : Site)
  /-- FREEZE_COMPLETE (R188): Every engine holds, and the context becomes FROZEN. -/
  | freezeComplete (site : Site) (lf : LeafNo)
  /-- FREEZE_TIMEOUT (R328): A freeze not complete within FREEZE_LIMIT faults the context with CF_FREEZE_TIMEOUT. -/
  | freezeTimeout (site : Site) (lf : LeafNo)
  /-- SAVE_DONE (R308): A frozen context's live set is in the save area, and its leaf is cleared to EMPTY. -/
  | saveDone (site : Site) (lf : LeafNo)
  /-- TEARDOWN_DRAIN_DONE (R320): The transfers of a torn-down context have drained, its objects are released, and its fault entry is written. -/
  | teardownDrainDone (ctx : Nat)
  /-- SLICE_CREATE (R306): SLICE_CMD CREATE binds a slice to a PASID with its share and stream ID. -/
  | sliceCreate (p : Fin 32) (n : BitVec 13)
  /-- SLICE_TEARDOWN (R321): SLICE_CMD TEARDOWN tears down every context of the slice. -/
  | sliceTeardown (p : Fin 32) (n : BitVec 13)
  /-- SLICE_TEARDOWN_DONE (R321): Every context of the slice has reported complete, the PASID is unbound, and the result is set. -/
  | sliceTeardownDone (n : BitVec 13)
  /-- SET_SHARE (R305): SLICE_CMD SET_SHARE replaces a slice's share. -/
  | setShare (p : Fin 32) (n : BitVec 13)
  /-- SLICE_PAUSE (R305): SLICE_CMD PAUSE freezes and swaps out every context of the slice. -/
  | slicePause (p : Fin 32) (n : BitVec 13)
  /-- SLICE_RESUME (R305): SLICE_CMD RESUME makes the slice's contexts schedulable again. -/
  | sliceResume (p : Fin 32) (n : BitVec 13)
  /-- LEND (R310): A radio partition sets a LEND bit, and the mill is lent to a compute partition. -/
  | lend (p : Fin 32) (n : Fin 240)
  /-- RECLAIM (R312): Clearing a LEND bit requests the reclaim of a lent mill. -/
  | reclaim (p : Fin 32) (n : Fin 240)
  /-- RECLAIM_DONE (R312): The lent mill's contexts are saved, its leaves are cleared, and the mill is back with its radio partition. -/
  | reclaimDone (n : Fin 240)
  /-- PART_CREATE (R299): A mailbox command creates a partition from its descriptor. -/
  | partCreate (req : List (BitVec 8))
  /-- PART_RESIZE (R303): A mailbox command requests a radio partition resize. -/
  | partResize (req : List (BitVec 8))
  /-- RESIZE_APPLY (R304): At the first eligible slot boundary, removed mills return to the pool and added mills join. -/
  | resizeApply (p : Fin 32)
  /-- PART_TEARDOWN (R322): A mailbox command tears down a partition. -/
  | partTeardown (req : List (BitVec 8))
  /-- PARTITION_TEARDOWN_DONE (R322): Every teardown step has ended, and the partition becomes FREE. -/
  | partitionTeardownDone (p : Fin 32)
  /-- FREEZE (R327): A mailbox command freezes every context of a partition for migration. -/
  | freeze (req : List (BitVec 8))
  /-- EXPORT (R329): A mailbox command writes the sealed partition image to a host buffer. -/
  | exportImage (req : List (BitVec 8))
  /-- IMPORT (R330): A mailbox command restores a partition image into a RESTORING partition. -/
  | importImage (req : List (BitVec 8)) (image : Option Machine.Image)
  /-- PART_RESUME (R327): A mailbox command returns a partition to ACTIVE. -/
  | partResume (req : List (BitVec 8))
  /-- MBX_LAUNCH (R373): A mailbox command launches a module for a slice. -/
  | mbxLaunch (req : List (BitVec 8))
  /-- MAILBOX_DONE (R373): The workshop ends a mailbox command, writes MBX_STAT and sets MBX_DONE. -/
  | mailboxDone
  /-- LOAD_COMPLETE (R242): Ubvovar finishes a load, making every leaf RESIDENT or unwinding it, and writes the load report. -/
  | loadComplete (load : Nat) (mod : XferEnv) (arg : XferEnv) (rep : List (Option AtsAns))
  /-- OBJ_VALUE_WRITE (R296): A host write to OBJ_VALUE acts as a SET at the object's holder. -/
  | objValueWrite (v : Word)
  /-- REMOTE_POLL (R288): Every 1 µs a held REMOTE wait reads the peer's VALUE through its window. -/
  | remotePoll (site : Site) (lf : LeafNo) (e : EngNo) (v : Word)
  /-- INBOUND_ADD_SIGNAL (R382): An inbound fabric write at 8n applies an ADD signal to object n, if accepted. -/
  | inboundAddSignal (win : Fin 4) (n : BitVec 16) (v : Word)
  /-- INBOUND_SET_SIGNAL (R382): An inbound fabric write at 8n + 4 applies a SET signal to object n, if accepted. -/
  | inboundSetSignal (win : Fin 4) (n : BitVec 16) (v : Word)
  /-- INBOUND_TAKE (R382): An inbound FetchAdd at 8n is a take, accepted or discarded. -/
  | inboundTake (win : Fin 4) (n : BitVec 16) (inc : Word)
  /-- INBOUND_VALUE_READ (R382): An inbound read at 8n returns the object's VALUE. -/
  | inboundValueRead (win : Fin 4) (n : BitVec 16)
  /-- INBOUND_READ (R382): An inbound fabric read of device memory is accepted or refused. -/
  | inboundRead (win : Fin 4) (off : BitVec 37) (n : Fin 4097) (upset : List (Nat × Nat))
  /-- INBOUND_WRITE (R382): An inbound fabric write of device memory is accepted or refused. -/
  | inboundWrite (win : Fin 4) (off : BitVec 37) (data : List Byte) (upset : List (Nat × Nat))
  /-- INBOUND_ATOMIC (R382): An inbound fabric atomic on device memory is accepted or refused. -/
  | inboundAtomic (win : Fin 4) (off : BitVec 37) (op : AtomOp) (wide : Bool) (v : DWord) (cmp : DWord) (upset : List (Nat × Nat))
  /-- LINK_CRC_ERROR (R277): A mesh or die-to-die link repeats a packet after a CRC error. -/
  | linkCrcError (q : Fin 4)
  /-- LINK_DOWN (R277): A link fails its retries, faulting its contexts and requiring full reset. -/
  | linkDown (q : Fin 4) (ctxs : List Nat)
  /-- SET (R351): An OWN SET command changes ownership entries. -/
  | ownSet (sig : Bool)
  /-- SET_ZERO (R351): An OWN SET_ZERO command changes entries and zeroes the granules. -/
  | ownSetZero (sig : Bool)
  /-- BUMP (R351): An OWN BUMP command raises the GEN of entries. -/
  | ownBump (sig : Bool)
  /-- OWN_COMMAND_DONE (R351): After draining and write-back, OWN writes the new entries, sets RESULT and signals SIG_OBJ. -/
  | ownCommandDone
  /-- GDDR7_RETRY (R338): A GDDR7 transfer that fails its link CRC is repeated. -/
  | gddr7Retry (d : Fin 24)
  /-- SCRUB_READ (R342): The patrol scrub reads and checks a line and the mirrored tables. -/
  | scrubRead (x : ScrubItem)
  /-- FLOOR_WINDOW (R354): A 10 µs bandwidth-floor window ends, and a shortfall is counted. -/
  | floorWindow (p : Fin 32) (n : Fin 97)
  /-- ECC_MODE_WRITE (R340): A write to MEM ECC MODE takes effect, or is discarded while any partition exists. -/
  | eccModeWrite (v : Word)
  /-- HOST_MEM_READ (R349): A host CXL.mem read is served or refused by bias and ownership. -/
  | hostMemRead (ln : BitVec 33) (upset : BitVec 544)
  /-- HOST_MEM_WRITE (R349): A host CXL.mem write is served or discarded by bias and ownership. -/
  | hostMemWrite (ln : BitVec 33) (mask : BitVec 64) (data : Line) (upset : BitVec 544)
  /-- SQ_TAIL (R365): A doorbell write makes the new submission tail known, or stops fetching. -/
  | sqTail (n : BitVec 13) (v : Word)
  /-- CQ_HEAD (R366): A doorbell write frees completion entries. -/
  | cqHead (n : BitVec 13) (v : Word)
  /-- ENTRY_FETCH (R365): A submission entry arrives from host memory and is acted on in index order. -/
  | entryFetch (n : BitVec 13) (env : XferEnv)
  /-- KICK (R368): A KICK entry signals an object and may start a watch. -/
  | kick (n : BitVec 13)
  /-- WATCH_SATISFIED (R368): A KICK watch's GE condition holds, and the completion entry is written. -/
  | watchSatisfied (n : BitVec 13)
  /-- LAUNCH (R369): A LAUNCH entry requests loading and launching a module. -/
  | launch (n : BitVec 13)
  /-- LEASE (R380): A LEASE entry renews or revokes the partition's fabric lease. -/
  | lease (n : BitVec 13)
  /-- LEASE_REVOKE (R380): A host write to LEASE_REVOKE sets a partition's lease expiry to 0. -/
  | leaseRevoke (v : Word)
  /-- LEASE_LAPSE (R381): A partition's lease expires, and it becomes self-fenced. -/
  | leaseLapse (p : Fin 32) (waiting : List Nat)
  /-- HELD_FAULT_DROP (R372): A fault entry held for 1 ms on a full completion ring is dropped. -/
  | heldFaultDrop (n : BitVec 13)
  /-- COMPLETION_TIMEOUT (R362): A non-posted request reaches the completion timeout and ends with a fault or a stopped ring. -/
  | completionTimeout (r : TimedOut)
  /-- LATE_COMPLETION (R362): A completion arriving after its request timed out is discarded and counted. -/
  | lateCompletion
  /-- RING_ENABLE (R363): RING_CMD ENABLE starts a slice's rings, or is refused. -/
  | ringEnable
  /-- RING_DISABLE (R363): RING_CMD DISABLE stops fetching and drops queued completion entries. -/
  | ringDisable
  /-- ATS_INVALIDATION (R375): An ATS invalidation retires matching TLB entries. -/
  | atsInvalidation (pasid : BitVec 20) (va : DWord) (log : Fin 64)
  /-- INVALIDATION_COMPLETE (R375): Once the requests using matching entries end, the HIF sends the invalidation completion. -/
  | invalidationComplete
  /-- SNP_DATA (R376): The host line cache answers a SnpData clean. -/
  | snpData (ln : BitVec 58)
  /-- SNP_INV (R376): The host line cache drops the line on a SnpInv. -/
  | snpInv (ln : BitVec 58)
  /-- SNP_CUR (R376): The host line cache answers a SnpCur clean. -/
  | snpCur (ln : BitVec 58)
  /-- CXL_LINK_DOWN (R361): The CXL link goes down, and outstanding transfers await their timeouts. -/
  | cxlLinkDown
  /-- SLOT_WORK_LIST (R392): A slot work list is checked, staged and counted on LIST_OBJ. -/
  | slotWorkList (n : BitVec 13) (env : XferEnv) (tbs : List XferEnv)
  /-- CONFIGURE_CELL (R390): A cell configuration is admitted, binding its flow, objects and bolter share, or refused. -/
  | configureCell (n : BitVec 13) (env : XferEnv)
  /-- REMOVE_CELL (R391): A removal entry schedules the cell's removal at STOP_NS. -/
  | removeCell (n : BitVec 13)
  /-- CELL_REMOVE_APPLY (R391): At STOP_NS, once earlier slots complete, the cell's objects return to NONE and it is freed. -/
  | cellRemoveApply (cell : Fin 512)
  /-- LIST_DEADLINE (R396): At a list deadline with no staged list, the HIF stages a LIST_MISSING header. -/
  | listDeadline (cell : Fin 512) (k : Word)
  /-- SLOT_STATUS_WRITE (R406): After slot k's phases, symbols and flags end, the HIF writes its slot status record and completion. -/
  | slotStatusWrite (cell : Fin 512) (k : Word)
  /-- DL_LATCH (R445): At a downlink symbol's latch time the sluice judges readiness, compresses the symbol and queues it, or fills it with zeros. -/
  | dlLatch (cell : Fin 512) (k : Word) (sym : Fin 14) (upset : List (Nat × Nat))
  /-- CPLANE_RELEASE (R440): The sluice builds and releases a record's C-plane message at its window. -/
  | cplaneRelease (cell : Fin 512) (k : Word) (i : Fin 1024)
  /-- UL_WINDOW_CLOSE (R447): An uplink receive window closes, missing PRBs are erased, and the symbol flag is set. -/
  | ulWindowClose (cell : Fin 512) (k : Word) (sym : Fin 14)
  /-- FRAME_RECEIVE (R462): A received frame is checked and steered to the fantail, the sluice, a steering ring or a drop. -/
  | frameReceive (port : Fin 16) (bytes : List (BitVec 8)) (good : Bool)
  /-- ESMC_TX_LEN (R432): Writing ESMC_TX_LEN sends the held ESMC frame once. -/
  | esmcTxLen (port : Fin 16) (n : BitVec 8)
  /-- ESMC_RX_POP (R450): Writing ESMC_RX_POP removes the oldest ESMC frame. -/
  | esmcRxPop (port : Fin 16)
  /-- MODE_WRITE (R427): A port MODE write reconfigures the port and retrains it, or is discarded. -/
  | modeWrite (p : Fin 16) (m : Fin 4)
  /-- LANE_MAP_WRITE (R428): A LANE_MAP write rebinds port lanes and retrains, or is discarded. -/
  | laneMapWrite (p : Fin 16) (v : Word)
  /-- LINK_UP (R429): A retraining port's link comes up. -/
  | linkUp (p : Fin 16)
  /-- LOSS_OF_SIGNAL (R430): A lane loses signal, and its SyncE output squelches. -/
  | lossOfSignal (l : Fin 18)
  /-- SYNCE_TX_SRC_WRITE (R431): A write selects the transmit reference, or is discarded while ports run. -/
  | synceTxSrcWrite (src : Bool)
  /-- TX_START (R454): A free transmitter starts the next frame in the weir's egress order. -/
  | txStart (p : Fin 16)
  /-- FRAME_SENT (R458): A frame leaves the port, and the done object is raised for tenant frames. -/
  | frameSent (p : Fin 16)
  /-- LATE_DROP (R455): A fronthaul packet not started by its close time is discarded. -/
  | lateDrop (q : BitVec 12)
  /-- QUEUE_ENABLE (R458): QCFG ENABLE starts a tenant queue's ring, or is refused. -/
  | queueEnable (v : Word)
  /-- STEER_ENABLE (R463): S_CTRL ENABLE starts a steering entry, or is refused. -/
  | steerEnable (v : Word)
  /-- DEPTH_SAMPLE (R466): Every SAMPLE_US the weir latches each queue's depth. -/
  | depthSample
  /-- BOLTER_RING_ENABLE (R411): Setting a ring's ENABLE bit starts a bolter ring, or is refused. -/
  | bolterRingEnable (i : Fin 8) (r : Fin 2)
  /-- BOLTER_RING_DISABLE (R424): Clearing a ring's ENABLE bit stops its units. -/
  | bolterRingDisable (i : Fin 8) (r : Fin 2)
  /-- DESCRIPTOR_FETCH (R412): A raised tail object makes the bolters read the next descriptor, or stop the ring on overrun. -/
  | descriptorFetch (i : Fin 8) (r : Fin 2) (upset : List (Nat × Nat))
  /-- UNIT_START (R413): A free bolter takes a work unit by weighted round-robin. -/
  | unitStart (b : Fin 20)
  /-- UNIT_DONE (R421): A bolter finishes coding one unit. -/
  | unitDone (b : Fin 20) (upset : List (Nat × Nat))
  /-- DESCRIPTOR_COMPLETE (R413): A descriptor's units and writes are done, and the done object rises in ring order. -/
  | descriptorComplete (i : Fin 8) (r : Fin 2)
  /-- BOLTER_PARITY (R424): A bolter parity error reruns the unit elsewhere and spares the bolter. -/
  | bolterParity (b : Fin 20)
  /-- STEP_NS (R472): A write to STEP_NS steps fantail time, or is refused while cells are bound. -/
  | stepNs (v : DWord)
  /-- COMPAT_ADJ (R474): A write to COMPAT_ADJ steps fantail time as STEP_NS. -/
  | compatAdj (v : Word)
  /-- COMPAT_EN_WRITE (R474): A write to COMPAT_EN enters or leaves the compatibility clock, or is discarded. -/
  | compatEnWrite (on : Bool)
  /-- SERVO_SWITCH (R480): The selected servo changes, and its offset is slewed out. -/
  | servoSwitch (d : Fin 2)
  /-- SERVO_UPDATE (R476): A servo applies one update from a PTP exchange or PPS edge. -/
  | servoUpdate (d : Fin 2) (inp : ServoIn)
  /-- SERVO_HOLDOVER (R478): Four missing updates put a servo in HOLDOVER. -/
  | servoHoldover (d : Fin 2)
  /-- SLEW_DONE (R480): VIRT_OFS reaches 0, and RATE follows the new servo alone. -/
  | slewDone
  /-- REF_LOST (R479): Holdover beyond HOLDOVER_MS marks the time reference lost. -/
  | refLost
  /-- TICKER_ENABLE (R483): Enabling a ticker arms it, firing at once when its target is past. -/
  | tickerEnable (v : Word)
  /-- TICKER_EVENT (R483): A ticker target is reached: the event fires, outputs pulse, and TIMED objects advance. -/
  | tickerEvent (t : Fin 16)
  /-- PPS_IN_EDGE (R485): A TIME_PPS_IN rising edge is captured. -/
  | ppsInEdge (d : Fin 2)
  /-- TOD_RX_BYTE (R484): A TOD_RX byte enters the FIFO. -/
  | todRxByte (b : BitVec 8)
  /-- TOD_RX_POP (R488): A read of TOD_RX_POP returns and removes the oldest byte. -/
  | todRxPop
  /-- TS_POP (R488): A write to TS_POP removes the oldest transmit stamp. -/
  | tsPop
  /-- TIME_NOW_READ (R488): A read of TIME_NOW snapshots TIME_FRAC and COUNT. -/
  | timeNowRead (wide : Bool)
  /-- TIME_SEC_READ (R488): A read of TIME_SEC snapshots TIME_NSEC. -/
  | timeSecRead (wide : Bool)
  /-- ROW_WAKE_TIMER (R487): The fantail requests a parked row's wake 6 µs before its next trigger. -/
  | rowWakeTimer (r : Fin 16)
  /-- CAP_WRITE (R489): A write to CAP_W sets the cap, clamped to the floor and BOARD_MAX. -/
  | capWrite (v : Word)
  /-- POWER_WINDOW (R492): At the end of each 1 µs window the governor updates B_cap. -/
  | powerWindow (p : BitVec 20) (pc : BitVec 20)
  /-- DVFS_STEP (R494): After the dwell, eligible rows step one operating point down or up. -/
  | dvfsStep
  /-- SOFT_START_RELEASE (R495): A held stone is released after its group delay. -/
  | softStartRelease (site : Site) (stone : Fin 4)
  /-- DIP_START (R496): A row supply falls below WARN, and B_dip becomes 63. -/
  | dipStart (r : Fin 16)
  /-- DIP_END (R496): The supply rises above WARN, and a DIP record is written. -/
  | dipEnd (r : Fin 16) (mv : BitVec 16)
  /-- DIP_HOLD_EXPIRY (R496): DIP_HOLD_US after a dip, B_dip starts to ramp down. -/
  | dipHoldExpiry
  /-- RAMP_STEP (R496): Every RAMP_NS B_dip falls by 1. -/
  | rampStep
  /-- THERMAL_SAMPLE (R497): Every 10 µs the sensors are sampled and B_therm is updated. -/
  | thermalSample (temps : List (BitVec 16))
  /-- THERMAL_TRIP (R498): A sensor at 115 °C trips the device, turning rows off and asserting THERM_TRIP_N. -/
  | thermalTrip (sensor : Fin 64) (t : BitVec 16)
  /-- EV_POP (R501): A write to EV_POP removes the oldest governor record. -/
  | evPop (v : Word)
  /-- ROW_PARK (R505): An idle row moves from RUNNING to PARKED. -/
  | rowPark (r : Fin 16)
  /-- ROW_OFF (R505): A long-idle parked row is power-gated OFF. -/
  | rowOff (r : Fin 16)
  /-- ROW_WAKE (R506): A wake request starts moving a row to RUNNING. -/
  | rowWake (r : Fin 16)
  /-- ROW_RUNNING (R506): A waking row reaches RUNNING, and its pages become ready. -/
  | rowRunning (r : Fin 16)
  /-- CLOCK_LOSS (R504): A clock input monitor sees its input lost. -/
  | clockLoss (c : ClockIn)
  /-- RAIL_FAULT (R595): A supply monitor sees a rail leave tolerance. -/
  | railFault (r : Rail)
  /-- RST_CTRL_GO (R512): A write of GO with the key to RST_CTRL starts a full reset. -/
  | rstCtrlGo (v : Word)
  /-- PERST_N_ASSERT (R511): PERST_N asserted starts a full reset with link reset. -/
  | perstNAssert
  /-- CXL_RESET (R511): A CXL Reset starts a full reset, keeping the link. -/
  | cxlReset
  /-- ROW_UNDERVOLT (R511): A row supply below the reset level starts a full reset. -/
  | rowUndervolt (r : Fin 16)
  /-- D3HOT_ENTRY (R510): A move to D3hot starts a full reset held until D0. -/
  | d3hotEntry
  /-- D0_RETURN (R510): A return to D0 releases the held reset and runs the story stick. -/
  | d0Return
  /-- AO_POWER_ON (R511): VDD_AO rising causes a cold power-on. -/
  | aoPowerOn
  /-- PWRGD_RISE (R511): PWRGD rising causes a main power-on and starts the story stick. -/
  | pwrgdRise
  /-- PWRGD_FALL (R511): PWRGD falling holds the device in reset. -/
  | pwrgdFall
  /-- STEP_COMPLETE (R519): A story-stick step completes, and ready steps start. -/
  | stepComplete (step : Fin 41) (d : StepData)
  /-- STEP_LIMIT (R520): A story-stick step reaches its limit and fails under its policy. -/
  | stepLimit (step : Fin 41) (marks : List Machine.DtEntry)
  /-- MEMO_CLR (R523): A write to MEMO_CLR with key and CLR clears every memo from the next start. -/
  | memoClr (v : Word)
  /-- SVN_COMMIT (R568): A write to SVN_COMMIT with key and GO raises the anti-rollback floors. -/
  | svnCommit (v : Word)
  /-- SPARE_SITE (R550): A REP SPARE_SITE command starts sparing a mill site. -/
  | spareSite
  /-- SPARE_COPY_DONE (R551): The site copy ends, and the logical column is remapped to site 15. -/
  | spareCopyDone (lost : List LeafNo) (failed15 : Bool)
  /-- SPARE_SITE_TIMEOUT (R553): A failing site that stops answering for 1,000 clocks loses both leaves' contexts. -/
  | spareSiteTimeout
  /-- MARK (R560): A REP MARK command records a lane move. -/
  | repMark
  /-- TABLE_PICK (R559): A REP TABLE_PICK command resolves a dutchman conflict with one copy. -/
  | tablePick
  /-- AGE_MONITOR (R549): Every 1 ms each site's slack is measured and low slack is reported. -/
  | ageMonitor (slack : List (BitVec 8)) (ce : List (Site × BitVec 16))
  /-- REC_POP (R563): A write to REC_POP removes the oldest error record. -/
  | recPop (v : Word)
  /-- ERASE (R578): KEY_CMD ERASE zeroes a key slot of a FREE partition, or is refused. -/
  | keyErase (v : Word)
  /-- OPEN (R581): DBG_CMD OPEN opens the debug gate with a valid token, erasing slots 0–62. -/
  | openGate (token : List (BitVec 8))
  /-- CLOSE (R582): DBG_CMD CLOSE closes the gate by a full reset. -/
  | closeGate
  /-- OFFER (R580): MIGR_CMD OFFER generates an ML-KEM key pair and a signed blob. -/
  | migrOffer
  /-- ACCEPT (R580): MIGR_CMD ACCEPT verifies the offer, encapsulates and holds K_m. -/
  | migrAccept (blob : List (BitVec 8)) (chain : List (BitVec 8))
  /-- MIGR_COMPLETE (R580): MIGR_CMD COMPLETE decapsulates to the same K_m. -/
  | migrComplete (ct : List (BitVec 8)) (src : List (BitVec 8))
  /-- EXPORT_KEYS (R580): MIGR_CMD EXPORT_KEYS wraps a frozen partition's slots under K_m. -/
  | exportKeys (p : Fin 32)
  /-- IMPORT_KEYS (R580): MIGR_CMD IMPORT_KEYS loads wrapped slots into empty slots. -/
  | importKeys (p : Fin 32) (blob : List (BitVec 8))
  /-- MIGR_CLEAR (R580): MIGR_CMD CLEAR erases K_m. -/
  | migrClear
  /-- GET_VERSION (R572): The SPDM responder answers GET_VERSION. -/
  | getVersion (t : Transport)
  /-- GET_CAPABILITIES (R572): The SPDM responder answers GET_CAPABILITIES. -/
  | getCapabilities (t : Transport)
  /-- NEGOTIATE_ALGORITHMS (R572): The SPDM responder answers NEGOTIATE_ALGORITHMS. -/
  | negotiateAlgorithms (t : Transport)
  /-- GET_DIGESTS (R572): The SPDM responder returns certificate digests. -/
  | getDigests (t : Transport)
  /-- GET_CERTIFICATE (R571): The SPDM responder returns the slot 0 chain. -/
  | getCertificate (t : Transport) (slot : Fin 8) (off : BitVec 16) (len : BitVec 16)
  /-- CHALLENGE (R572): The SPDM responder signs a challenge with the identity key. -/
  | challenge (t : Transport) (slot : Fin 8) (nonce : List (BitVec 8))
  /-- GET_MEASUREMENTS (R573): The SPDM responder returns measurement blocks. -/
  | getMeasurements (t : Transport) (idx : BitVec 8) (nonce : List (BitVec 8))
  /-- KEY_EXCHANGE (R572): The SPDM responder opens a session, or refuses a fifth. -/
  | keyExchange (t : Transport) (ek : List (BitVec 8))
  /-- FINISH (R572): The SPDM responder completes session setup. -/
  | finish (t : Transport) (sess : Nat)
  /-- KEY_UPDATE (R572): The SPDM responder updates session keys. -/
  | keyUpdate (t : Transport) (sess : Nat)
  /-- HEARTBEAT (R572): The SPDM responder answers a session heartbeat. -/
  | heartbeat (t : Transport) (sess : Nat)
  /-- END_SESSION (R572): The SPDM responder ends a session. -/
  | endSession (t : Transport) (sess : Nat)
  /-- IDE_KM (R574): An IDE_KM request in a secured session programs IDE keys. -/
  | ideKm (t : Transport) (sess : Nat) (stream : Fin 9) (key : List (BitVec 8))
  /-- SET_TARGET_KEY (R576): A TSP request loads a key into a slot and binds it to a partition number. -/
  | setTargetKey (t : Transport) (sess : Nat) (slot : Fin 64) (p : Fin 32) (key : BitVec 512)
  /-- LOCK_TARGET_CONFIGURATION (R576): A TSP request sets TSP_LOCKED and freezes the named settings. -/
  | lockTargetConfiguration (t : Transport) (sess : Nat)
  /-- GET_TARGET_CAPABILITIES (R576): A TSP request returns the target's capabilities. -/
  | getTargetCapabilities (t : Transport) (sess : Nat)
  /-- GET_TARGET_CONFIGURATION_REPORT (R576): A TSP request returns the signed configuration report. -/
  | getTargetConfigurationReport (t : Transport) (sess : Nat)
  /-- IDE_FAIL (R574): Data failing an IDE integrity check is discarded. -/
  | ideFail (stream : Fin 9)
  /-- DIG_ENABLE (R537): Setting DIG_CTRL ENABLE starts a slice's digest ring, or is refused. -/
  | digEnable (v : Word)
  /-- DIGEST_PUBLISH (R538): The HIF publishes a digest emission, then compares or delivers it to the ring. -/
  | digestPublish (n : BitVec 13) (upset : List (Nat × Nat))
  /-- COMPARE_READ_RETURN (R540): A read of the primary's slot returns and the comparison is judged. -/
  | compareReadReturn (n : BitVec 13) (i : Fin 64) (data : Option (List (BitVec 8)))
  /-- COMPARE_RETRY (R540): 1 µs after an unavailable read, the slot is read again. -/
  | compareRetry (n : BitVec 13) (i : Fin 64)
  /-- DIG_WAIT_EXPIRY (R540): DIG_WAIT_US expires, and the record is delivered NOT_AVAILABLE. -/
  | digWaitExpiry (n : BitVec 13) (i : Fin 64)
  /-- I3C_B_READ (R591): I3C_B answers a private status read. -/
  | i3cBRead (off : BitVec 8)
  /-- I3C_A_HALT_READ (R527): After a HALT, I3C_A returns RET and BOOT_STEP on a private read. -/
  | i3cAHaltRead
  /-- PERST_N_DEASSERT (R526): PERST_N rises, and CXL link training starts, with READY timed from the rise. -/
  | perstNDeassert
  /-- RAIL_RECOVERY (R595): A faulted VDD_IOD, VDD_SRD or VDD_PUF has stayed in tolerance for 1 ms, and the device acts as on PWRGD rising. -/
  | railRecovery
  /-- SIGNAL_RETURN (R430): A lane's receive signal returns, and a squelched SyncE output restarts. -/
  | signalReturn (l : Fin 18)
  /-- CXL_LINK_UP (R361): A CXL link that went down retrains and comes up again. -/
  | cxlLinkUp
  /-- PORT_DOWN (R449): An Ethernet port's link is lost without a configuration write; queued downlink packets are discarded at release and uplink windows yield erasures. -/
  | portDown (p : Fin 16)
  /-- SLOT_BOUNDARY (R486): A radio partition's slot boundary passes; TIMED objects of source SLOT advance, and SLOT phases trigger. -/
  | slotBoundary (p : Fin 32)
  /-- STEP_ERROR (R520): A story-stick step reports an error and fails under its policy. -/
  | stepError (step : Fin 41) (marks : List Machine.DtEntry)
  /-- GLOBAL_OBSERVATION_RESPONSE (R371): The global-observation response of a completion-entry or status write returns, and the entry becomes visible and requests its MSI-X message. -/
  | globalObservationResponse (n : BitVec 13) (ats : List (Option AtsAns))
  /-- WORKSHOP_STOPS_RESPONDING (R18): The workshop stops answering its mailboxes, so loads and partition requests stall while running work continues. -/
  | workshopStopsResponding
  /-- PPS_PULSE_END (R484): T_WIDTH after a ticker event, the TIME_PPS_OUT output returns to its inactive level. -/
  | ppsPulseEnd (n : Fin 4)
  /-- PTP_MESSAGE_SEND (R475): At its message interval, the PTP master sends a Sync, Announce or other message toward the radio units. -/
  | ptpMessageSend (port : Fin 16) (event : Bool) (bytes : List (BitVec 8))
deriving DecidableEq, Repr

end Sys2Proof
end

