-- ==== Sys2Proof/Decode.lean ====
section
/-! DEFINITION. The command that a word spells. No row of spec/opcode_table.json gives its command bits (its "fields" are empty):
commands reach the block as register accesses, ring entries, packets, pins and events, never as words. -/
namespace Sys2Proof

/-- No word spells a command (log 3). -/
def decodeTableWord (_nbits _w : Nat) : Option Instr := none

end Sys2Proof
end

