-- ==== Sys2Proof/Config.lean ====
section
/-! DEFINITION. What the spec leaves open, as constants without a body: nothing can be proved of their values (log 5). -/
namespace Sys2Proof.Config

/-- The n-th free value: a value the spec does not give (log 5). -/
opaque freeValue : Nat → BitVec 64

/-- What an AES block (R343) reads as under a key other than the one it was written under: written key, reading key, block
address, content. -/
opaque wrongKeyBlock : Nat → Nat → Nat → BitVec 128 → BitVec 128

/-- Bytes of the IP headers that the sluice builds which R438 does not give: version, byte offset in the header. -/
opaque ipByte : Nat → Nat → BitVec 8

/-- What a PRACH record's PARAM stands for in a type 3 message, by TS 38.211 clause 6.3.3 (R440): filterIndex (4 bits), timeOffset
(16), frameStructure (8), cpLength (16), for a numerology and a PARAM. -/
opaque prachFields : Nat → Nat → BitVec 4 × BitVec 16 × BitVec 8 × BitVec 16

/-- frameStructure of a type 0 message at a numerology (R440). -/
opaque guardStructure : Nat → BitVec 8

/-- The base graphs of TS 38.212 clause 5.3.2: graph, lifting size, row, column; the shift where the row checks the column. -/
opaque ldpcShift : Nat → Nat → Nat → Nat → Option Nat

/-- The codeword of TS 38.212 clause 5.3.2, punctured bits included: graph, lifting size, information bits. -/
opaque ldpcCodeword : Nat → Nat → List Bool → List Bool

/-- The coded bits of TS 38.212 clauses 5.3.1, 5.4.1, 6.3.1, 7.1 and 7.3.2 for a polar unit: kind, payload bits, rate-matched bits,
RNTI, payload. -/
opaque polarCode : Nat → Nat → Nat → Nat → List Bool → List Bool

/-- Base-2 logarithm of the mother code length of a polar unit: kind, payload bits, rate-matched bits. -/
opaque polarLog : Nat → Nat → Nat → Nat

/-- Rate dematching of a polar unit: kind, payload bits, rate-matched bits, LLRs in received order. -/
opaque polarDematch : Nat → Nat → Nat → List Int → List Int

/-- The value of a frozen or parity bit of a polar unit, by the reliability sequence of clause 5.3.1.2; none for an information bit:
kind, payload bits, rate-matched bits, position, the bits before it. -/
opaque polarFixed : Nat → Nat → Nat → Nat → List Bool → Option Bool

/-- The payload of a polar unit's decided bits and whether its CRC passes: kind, payload bits, RNTI, information bits. -/
opaque polarCheck : Nat → Nat → Nat → List Bool → List Bool × Bool

/-- What Ubvovar finds by following every path of a module (R61, R76, R117, R134, R183, R191, R211, R252, R253): refusal code, Ubvovar
version, module bytes; the section, item and DETAIL of the first failure, if there is one. -/
opaque ubvVerdict : Nat → BitVec 32 → List (BitVec 8) → Option (Nat × Nat × Nat)

/-- What Ubvovar computes on the translated code (R192, R196, R239, R246): 0 FREEZE_CLOCKS, 1 SAVE_MAX, 2 IMEM_BYTES, 3 + j the clocks of
phase j; Ubvovar version, module bytes. -/
opaque ubvNumber : Nat → BitVec 32 → List (BitVec 8) → Nat

/-- The SHA3-512 digest of bytes. -/
opaque sha3 : List (BitVec 8) → List (BitVec 8)

/-- The first bytes of SHAKE256 of bytes (R570, R580). -/
opaque shake256 : List (BitVec 8) → Nat → List (BitVec 8)

/-- VROOT (false) and VDEBUG (true) of the mask ROM (R564). -/
opaque romDigest : Bool → List (BitVec 8)

/-- The certificate chain in the flash of the device with an ID_DIGEST (R571). -/
opaque certChain : List (BitVec 8) → List (BitVec 8)

/-- The public key of a certificate chain that verifies under the vendor root (R571, R580). -/
opaque chainKey : List (BitVec 8) → Option (List (BitVec 8))

/-- HashML-DSA-87 verification: public key, message, signature (R565, R581). -/
opaque verify : List (BitVec 8) → List (BitVec 8) → List (BitVec 8) → Bool

/-- The signature of the identity key with an ID_DIGEST: a random number, message (R572). -/
opaque sign : List (BitVec 8) → Nat → List (BitVec 8) → List (BitVec 8)

/-- The encapsulation key of an ML-KEM-1024 decapsulation key (R580). -/
opaque kemPublic : List (BitVec 8) → List (BitVec 8)

/-- ML-KEM-1024 encapsulation: ciphertext and shared secret for an encapsulation key and random bytes. -/
opaque kemEncaps : List (BitVec 8) → List (BitVec 8) → List (BitVec 8) × List (BitVec 8)

/-- ML-KEM-1024 decapsulation: the shared secret for a decapsulation key and a ciphertext. -/
opaque kemDecaps : List (BitVec 8) → List (BitVec 8) → List (BitVec 8)

/-- AES-256-GCM sealing under a key, and opening: none where the tag fails (R580). -/
opaque gcmSeal : List (BitVec 8) → List (BitVec 8) → List (BitVec 8)
opaque gcmOpen : List (BitVec 8) → List (BitVec 8) → Option (List (BitVec 8))

/-- The value of a fresh key by its identity (R577). -/
opaque keyValue : Nat → BitVec 512

/-- The digests of the workshop firmware (false) and of Ubvovar (true) within the image with a BODY_DIGEST (R573). -/
opaque imagePart : Bool → List (BitVec 8) → List (BitVec 8)

/-- `KHZ` of a clock domain whose frequency the spec states in no whole number of kHz that the field holds: SerDes and CXL PHY rates, the
GDDR7 PHYs, and CD00 on its internal oscillator (R502, R504, R517). -/
opaque domKhz : Nat → BitVec 24

end Sys2Proof.Config
end

