-- ==== Sys2Proof/Machine/Arith.lean ====
section
/-! DEFINITION. Number formats and arithmetic (chapter 04): decoding operands, products and anchors, the accumulator word,
conversion on store, dither (Philox), the digest CRC, FP32 lane operations, exponential and reciprocal. -/
namespace Sys2Proof.Machine

/-- A decoded real operand: a finite value (−1)^neg × mag × 2^q, an infinity, or a NaN (R90, R103). -/
inductive Num where
  | fin (neg : Bool) (mag : Nat) (q : Int)
  | inf (neg : Bool)
  | nan
deriving DecidableEq, Repr

/-- Layout of a float format (R90): exponent bits, fraction bits, bias, and how it spells special values: 0 none, 1 only
the all-ones pattern is a NaN (E4M3), 2 as IEEE 754. -/
structure FloatFmt where
  e : Nat
  m : Nat
  bias : Nat
  special : Nat
deriving DecidableEq, Repr

/-- The float encoding of a format code of R89, of the element for MX formats (R90, R94). -/
def floatFmt : Nat → Option FloatFmt
  | 2 => some ⟨4, 3, 7, 1⟩
  | 3 => some ⟨5, 2, 15, 2⟩
  | 4 => some ⟨3, 2, 3, 0⟩
  | 5 => some ⟨2, 3, 1, 0⟩
  | 6 => some ⟨2, 1, 1, 0⟩
  | 7 => some ⟨4, 3, 7, 1⟩
  | 8 => some ⟨5, 2, 15, 2⟩
  | 9 => some ⟨3, 2, 3, 0⟩
  | 10 => some ⟨2, 3, 1, 0⟩
  | 11 => some ⟨2, 1, 1, 0⟩
  | 13 => some ⟨8, 7, 127, 2⟩
  | 14 => some ⟨5, 10, 15, 2⟩
  | 16 => some ⟨8, 23, 127, 2⟩
  | _ => none

/-- Bits of one element in memory (R96); 0 for a reserved code. -/
def fmtBits : Nat → Nat
  | 0 => 8 | 1 => 4 | 2 => 8 | 3 => 8 | 4 => 6 | 5 => 6 | 6 => 4 | 7 => 8 | 8 => 8 | 9 => 6 | 10 => 6 | 11 => 4
  | 12 => 8 | 13 => 16 | 14 => 16 | 15 => 48 | 16 => 32 | 17 => 16 | 18 => 32 | 19 => 32 | 20 => 24 | 21 => 64 | _ => 0

/-- Whether a format is an MX format (R94). -/
def isMx (f : Nat) : Bool := 7 ≤ f && f ≤ 12

/-- The emax column of R90 and R94, used by MX bounds (R109). -/
def fmtEmax : Nat → Int
  | 2 => 8 | 3 => 15 | 4 => 4 | 5 => 2 | 6 => 2 | 7 => 8 | 8 => 15 | 9 => 4 | 10 => 2 | 11 => 2 | 12 => 0
  | 13 => 127 | 14 => 15 | 16 => 127 | _ => 0

/-- Operand class of a stone format (R97). -/
def fmtClass (f : Nat) : TileClass :=
  if f = 0 ∨ f = 1 then .int
  else if (2 ≤ f ∧ f ≤ 14) then .float
  else if f = 15 then .complex
  else .none

/-- Decode a float encoding (R90, R91). -/
def decodeFloat (ff : FloatFmt) (b : Nat) : Num :=
  let s := bitAt b (ff.e + ff.m)
  let ex := bitsAt b ff.m ff.e
  let fr := bitsAt b 0 ff.m
  let top := 2 ^ ff.e - 1
  if ff.special = 2 ∧ ex = top then (if fr = 0 then .inf s else .nan)
  else if ff.special = 1 ∧ ex = top ∧ fr = 2 ^ ff.m - 1 then .nan
  else if ex = 0 then .fin s fr (1 - (ff.bias : Int) - ff.m)
  else .fin s (2 ^ ff.m + fr) ((ex : Int) - ff.bias - ff.m)

/-- An integer as an operand with LSB exponent `q`. -/
def numOfInt (i : Int) (q : Int) : Num := .fin (i < 0) i.natAbs q

/-- Decode one real element of a format (R90, R93, R94, R120 for the flume's integers is `laneOf`). -/
def decodeElem (f b : Nat) : Num :=
  match floatFmt f with
  | some ff => decodeFloat ff b
  | none =>
    if f = 0 then numOfInt (sext 8 b) 0
    else if f = 1 then numOfInt (sext 4 b) 0
    else if f = 12 then numOfInt (sext 8 b) (-6)
    else if f = 17 then numOfInt (sext 16 b) 0
    else if f = 18 then numOfInt (sext 32 b) 0
    else if f = 20 then numOfInt (sext 24 b) (-23)
    else .nan

/-- Apply an MX block scale (R94): 2^(s − 127), or NaN for 0xFF. -/
def mxScale (n : Num) (s : Nat) : Num :=
  if s = 0xFF then .nan
  else match n with
    | .fin g m q => .fin g m (q + (s : Int) - 127)
    | x => x

/-- Element `i` of a packed run of elements of `w` bits (R96). -/
def elemAt (bs : List Byte) (w i : Nat) : Nat :=
  bitsAt (leAt bs (w * i / 8) ((w + 7) / 8 + 1)) (w * i % 8) w

/-- Bytes of `n` packed elements of `w` bits (R96). -/
def packedLen (w n : Nat) : Nat := ceilDiv (w * n) 8

/-- Pack elements of `w` bits (R96). -/
def packElems (w : Nat) (es : List Nat) : List Byte :=
  toLE (packedLen w es.length) (es.foldr (fun e a => e % 2 ^ w + 2 ^ w * a) 0)

/-! ### The accumulator word (R98, R100) -/

/-- VALUE of an accumulator word as an integer (R98). -/
def accVal (w : DWord) : Int := sext 56 (bitsAt w.toNat 0 56)

/-- SPECIAL of an accumulator word (R98). -/
def accSpec (w : DWord) : Nat := bitsAt w.toNat 56 2

/-- The word of a value, taken modulo 2^56, and a special state; bits 63:58 are 0 (R98). -/
def accWord (v : Int) (sp : Nat) : DWord := BitVec.ofNat 64 (wrapTo 56 v + sp % 4 * 2 ^ 56)

/-- The join of special states (R100). -/
def specJoin (a b : Nat) : Nat :=
  if a = 0 then b else if b = 0 then a else if a = b then a else 3

/-- Add a value and a special state into a word (R100). -/
def accAdd (w : DWord) (v : Int) (sp : Nat) : DWord := accWord (accVal w + v) (specJoin (accSpec w) sp)

/-- Two ACC64 words added across anchors (R102): the word of the lower anchor is shifted right first. Returns the sum at
the higher anchor. -/
def accAddAnchored (w1 : DWord) (a1 : Int) (w2 : DWord) (a2 : Int) : DWord × Int :=
  if a1 ≤ a2 then
    (accWord (accVal w1 / 2 ^ (a2 - a1).toNat + accVal w2) (specJoin (accSpec w1) (accSpec w2)), a2)
  else
    (accWord (accVal w1 + accVal w2 / 2 ^ (a1 - a2).toNat) (specJoin (accSpec w1) (accSpec w2)), a1)

/-! ### Products (R103 to R105) -/

/-- A product: what it adds to VALUE before alignment, its LSB exponent, and the special state it adds (R103, R104). -/
structure Prod where
  p : Int
  q : Int
  sp : Nat
deriving DecidableEq, Repr

/-- Whether an operand is a zero. -/
def Num.isZero : Num → Bool
  | .fin _ m _ => m = 0
  | _ => false

/-- The sign of an operand. -/
def Num.neg : Num → Bool
  | .fin s _ _ => s
  | .inf s => s
  | .nan => false

/-- The product of two real operands (R103, R104). -/
def prodOf (a b : Num) : Prod :=
  match a, b with
  | .fin sa ma qa, .fin sb mb qb =>
    ⟨if sa = sb then ((ma * mb : Nat) : Int) else -((ma * mb : Nat) : Int), qa + qb, 0⟩
  | .nan, _ => ⟨0, 0, 3⟩
  | _, .nan => ⟨0, 0, 3⟩
  | a, b => if a.isZero || b.isZero then ⟨0, 0, 3⟩ else ⟨0, 0, if a.neg = b.neg then 1 else 2⟩

/-- Align a finite product to a tile's anchor (R105). -/
def alignP (p q anchor : Int) : Int :=
  let sh := anchor - 47 - q
  if sh ≤ 0 then p * 2 ^ (-sh).toNat
  else if 64 ≤ sh then (if p < 0 then -1 else 0)
  else p / 2 ^ sh.toNat

/-- Add a list of products into a word at an anchor (R100, R105). -/
def accProds (anchor : Int) (w : DWord) (ps : List Prod) : DWord :=
  ps.foldl (fun a x => accAdd a (alignP x.p x.q anchor) x.sp) w

/-! ### Anchors (R108 to R110) -/

/-- The anchor of an empty scope (R110). -/
def anchorEmpty : Int := -512

/-- The census byte of a group (R108): 0 without a finite non-zero value, else from the largest ⌊log2|x|⌋. -/
def censusByte (g : List Num) : Nat :=
  g.foldl (fun a x => match x with
    | .fin _ m q => if m = 0 then a
        else max a (Int.toNat (clampInt 1 254 (127 + ((Nat.log2 m : Int) + q))))
    | _ => a) 0

/-- The bound of census bytes (R110): the largest c − 127 over bytes that are not 0. -/
def censusBound (gs : List Nat) : Option Int :=
  (gs.filter (· ≠ 0)).foldl
    (fun (a : Option Int) (c : Nat) => some (match a with | none => (c : Int) - 127 | some x => max x ((c : Int) - 127))) none

/-- The bound of MX scales (R109, R110): (s − 127) + emax, a scale of 0xFF contributing none. -/
def mxBound (emax : Int) (ss : List Nat) : Option Int :=
  (ss.filter (· ≠ 0xFF)).foldl
    (fun (a : Option Int) (s : Nat) => some (match a with | none => (s : Int) - 127 + emax | some x => max x ((s : Int) - 127 + emax))) none

/-- ⌈log2 n⌉. -/
def ceilLog2 (n : Nat) : Nat := if n ≤ 1 then 0 else Nat.log2 (n - 1) + 1

/-- The largest listed bound. -/
def maxBound (l : List (Option Int)) : Option Int :=
  l.foldl (fun a x => match a, x with
    | none, x => x
    | a, none => a
    | some p, some q => some (max p q)) none

/-- The anchor of a float tile (R110). -/
def tileAnchor (rows cols : List (Option Int)) (k : Nat) : Int :=
  match maxBound rows, maxBound cols with
  | some a, some b => a + b + 2 + (if k > 256 then (ceilLog2 k : Int) - 8 else 0)
  | _, _ => anchorEmpty

/-! ### Store conversion (R112 to R116) -/

/-- The largest finite encoding of a float format, without sign (R90). -/
def maxFinite (ff : FloatFmt) : Nat :=
  if ff.special = 2 then (2 ^ ff.e - 1) * 2 ^ ff.m - 1
  else if ff.special = 1 then 2 ^ (ff.e + ff.m) - 2
  else 2 ^ (ff.e + ff.m) - 1

/-- The sign bit of a float format. -/
def signBit (ff : FloatFmt) (neg : Bool) : Nat := if neg then 2 ^ (ff.e + ff.m) else 0

/-- `pack` of R113: the encoding of n × 2^q with a sign, and whether it was saturated. -/
def packFloat (ff : FloatFmt) (neg : Bool) (n : Nat) (q : Int) : Nat × Bool :=
  if n = 0 then (signBit ff neg, false)
  else
    let (n, q) := if n = 2 ^ (ff.m + 1) then (n / 2, q + 1) else (n, q)
    if n < 2 ^ ff.m then (signBit ff neg + n, false)
    else
      let ex := q + ff.m + ff.bias
      if ex < 0 then (signBit ff neg, false)
      else
        let enc := ex.toNat * 2 ^ ff.m + (n - 2 ^ ff.m)
        if maxFinite ff < enc then (signBit ff neg + maxFinite ff, true) else (signBit ff neg + enc, false)

/-- Narrow a magnitude mag × 2^lsb with a sign to a float format by truncation, adding dither bits of `r` below the ulp
where asked (R112, R113). -/
def narrowFloat (ff : FloatFmt) (neg : Bool) (mag : Nat) (lsb : Int) (dither : Option Nat) : Nat × Bool :=
  if mag = 0 then (signBit ff neg, false)
  else
    let emin : Int := 1 - (ff.bias : Int)
    let e := max ((Nat.log2 mag : Int) + lsb) emin
    let q := e - ff.m
    let sh := q - lsb
    if 0 < sh then
      let mag := match dither with
        | none => mag
        | some r => let d := min sh.toNat 24
                    mag + r / 2 ^ (32 - d) * 2 ^ (sh.toNat - d)
      packFloat ff neg (mag / 2 ^ sh.toNat) q
    else packFloat ff neg (mag * 2 ^ (-sh).toNat) q

/-- The encoding of a special state in a float format (R114): 1 +Inf, 2 −Inf, 3 NaN. -/
def specialFloat (ff : FloatFmt) (sp : Nat) : Nat :=
  if sp = 3 then
    (if ff.special = 1 then 2 ^ (ff.e + ff.m) - 1
     else if ff.m = 2 then 0x7F
     else (2 ^ ff.e - 1) * 2 ^ ff.m + 2 ^ (ff.m - 1))
  else signBit ff (sp = 2) + (if ff.special = 2 then (2 ^ ff.e - 1) * 2 ^ ff.m else maxFinite ff)

/-- Convert an accumulator word for a float output (R112, R113, R114), and whether it saturated. -/
def storeFloat (ff : FloatFmt) (w : DWord) (anchor : Int) (dither : Option Nat) : Nat × Bool :=
  if accSpec w ≠ 0 then (specialFloat ff (accSpec w), false)
  else
    let v := accVal w
    if v = 0 then (0, false) else narrowFloat ff (v < 0) v.natAbs (anchor - 47) dither

/-- The fixed-point encoding of a special state (R114): the marker for NaN, the greatest or least value for an infinity. -/
def specialFixed (sp w : Nat) : Int :=
  if sp = 3 then -(2 ^ (w - 1)) else if sp = 1 then 2 ^ (w - 1) - 1 else -(2 ^ (w - 1) - 1)

/-- Narrow v × 2^lsb to a fixed output of `w` bits with LSB exponent `oexp` (R115), and whether it saturated. -/
def narrowFixed (w : Nat) (v lsb oexp : Int) (dither : Option Nat) : Int × Bool :=
  let sh := oexp - lsb
  let n :=
    if 0 < sh then
      let v := match dither with
        | none => v
        | some r => let d := min sh.toNat 24
                    v + ((r / 2 ^ (32 - d) * 2 ^ (sh.toNat - d) : Nat) : Int)
      v / 2 ^ sh.toNat
    else v * 2 ^ (-sh).toNat
  let lim : Int := 2 ^ (w - 1) - 1
  (clampInt (-lim) lim n, n < -lim || lim < n)

/-- Convert an accumulator word for a fixed output (R115), and whether it saturated. -/
def storeFixed (w : Nat) (x : DWord) (anchor oexp : Int) (dither : Option Nat) : Int × Bool :=
  if accSpec x ≠ 0 then (specialFixed (accSpec x) w, false)
  else narrowFixed w (accVal x) (anchor - 47) oexp dither

/-- Bits of one part of a fixed output format (R114); 0 for other formats. -/
def fixedPart : Nat → Nat
  | 0 => 8 | 15 => 24 | 17 => 16 | 18 => 32 | 19 => 16 | 20 => 24 | _ => 0

/-- Convert one accumulator word to one part of an output format (R112 to R116): the encoded part and whether it
saturated. -/
def storePart (f : Nat) (w : DWord) (anchor oexp : Int) (dither : Option Nat) : Nat × Bool :=
  match floatFmt f with
  | some ff => storeFloat ff w anchor dither
  | none =>
    if f = 21 then (w.toNat, false)
    else
      let (v, s) := storeFixed (fixedPart f) w anchor oexp dither
      (wrapTo (fixedPart f) v, s)

/-! ### Dither (R119) -/

/-- Ten rounds of Philox-4×32 (R119). -/
def philoxRounds : Nat → List Nat → Nat → Nat → List Nat
  | 0, c, _, _ => c
  | n + 1, c, k0, k1 =>
    let c0 := c.getD 0 0; let c1 := c.getD 1 0; let c2 := c.getD 2 0; let c3 := c.getD 3 0
    let p0 := 0xD2511F53 * c0
    let p1 := 0xCD9E8D57 * c2
    philoxRounds n
      [(p1 / 2 ^ 32) ^^^ c1 ^^^ k0, p1 % 2 ^ 32, (p0 / 2 ^ 32) ^^^ c3 ^^^ k1, p0 % 2 ^ 32]
      ((k0 + 0x9E3779B9) % 2 ^ 32) ((k1 + 0xBB67AE85) % 2 ^ 32)

/-- The dither value r of an element (R119): `seed` of the partition, `stream` of the slice, `tensor` of the store. -/
def ditherR (seed stream tensor index : Nat) : Nat :=
  (philoxRounds 10 [bitsAt index 2 32, bitsAt index 34 30, tensor % 2 ^ 32, stream % 2 ^ 32]
    (bitsAt seed 0 32) (bitsAt seed 32 32)).getD (index % 4) 0

/-! ### CRC-64/ECMA-182 (R157) -/

/-- One bit of the CRC: shift left and reduce. -/
def crcBit : Nat → Nat → Nat
  | 0, c => c
  | n + 1, c => crcBit n (if bitAt c 63 then (c * 2 % 2 ^ 64) ^^^ 0x42F0E1EBA9EA3693 else c * 2)

/-- CRC-64/ECMA-182 of bytes, from a running value (R157). -/
def crc64From (c : Nat) (l : List Byte) : Nat :=
  l.foldl (fun c b => crcBit 8 (c ^^^ (b.toNat * 2 ^ 56))) c

/-- CRC-64/ECMA-182 of bytes (R157). -/
def crc64 (l : List Byte) : Nat := crc64From 0 l

/-! ### FP32 lanes (R121, R230, R231) -/

/-- FP32 (code 16). -/
def fp32 : FloatFmt := ⟨8, 23, 127, 2⟩

/-- An exact real value with a sign of zero, an infinity, or a NaN, as a lane computes it before narrowing (R121). -/
abbrev Lane := Num

/-- The signed integer of a finite value at LSB exponent `lsb`, which is at most its own. -/
def Num.at (x : Num) (lsb : Int) : Int :=
  match x with
  | .fin s m q => let v : Int := ((m * 2 ^ (q - lsb).toNat : Nat) : Int)
                  if s then -v else v
  | _ => 0

/-- The LSB exponent of a finite value. -/
def Num.lsb : Num → Int
  | .fin _ _ q => q
  | _ => 0

/-- The exact sum of two values (R121); an exact zero sum of opposite signs is +0, of two −0 is −0. -/
def laneAdd (a b : Num) : Num :=
  match a, b with
  | .nan, _ => .nan
  | _, .nan => .nan
  | .inf s, .inf t => if s = t then .inf s else .nan
  | .inf s, _ => .inf s
  | _, .inf t => .inf t
  | .fin s _ q, .fin t _ r =>
    let l := min q r
    let v := a.at l + b.at l
    if v = 0 then .fin (s && t) 0 l else .fin (v < 0) v.natAbs l

/-- A value with its sign reversed. -/
def laneNeg : Num → Num
  | .fin s m q => .fin (!s) m q
  | .inf s => .inf (!s)
  | .nan => .nan

/-- The exact product of two values (R121). -/
def laneMul (a b : Num) : Num :=
  match a, b with
  | .nan, _ => .nan
  | _, .nan => .nan
  | .fin s m q, .fin t n r => .fin (s != t) (m * n) (q + r)
  | a, b => if a.isZero || b.isZero then .nan else .inf (a.neg != b.neg)

/-- Narrow an exact value to a float format by truncation (R121, R122); every NaN produced is canonical (R114). -/
def laneNarrow (ff : FloatFmt) (x : Num) : Nat :=
  match x with
  | .nan => specialFloat ff 3
  | .inf s => specialFloat ff (if s then 2 else 1)
  | .fin s m q => (narrowFloat ff s m q none).1

/-- The greater of two FP32 values (R231): NaN wins over every value and +0 over −0. -/
def laneMax (a b : Num) : Num :=
  match a, b with
  | .nan, _ => .nan
  | _, .nan => .nan
  | .inf s, x => if s then x else .inf false
  | x, .inf s => if s then x else .inf false
  | .fin s _ q, .fin t _ r =>
    let l := min q r
    if a.at l = b.at l then (if s && !t then b else a)
    else if a.at l < b.at l then b else a

/-- One step of reducing adjacent pairs (R231). -/
def pairUp {α : Type} (op : α → α → α) : List (Option α) → List (Option α)
  | a :: b :: r => (match a, b with
      | none, b => b
      | a, none => a
      | some x, some y => some (op x y)) :: pairUp op r
  | l => l

/-- The 16 lane values of a reduction: lane i mod 16 in index order (R231). -/
def laneFold {α : Type} (op : α → α → α) : Nat → List α → List (Option α) → List (Option α)
  | _, [], ls => ls
  | i, x :: r, ls =>
    let j := i % 16
    let y := match ls.getD j none with
      | none => x
      | some p => op p x
    laneFold op (i + 1) r (ls.set j (some y))

/-- The fixed-order reduction of R231; none for an empty list. -/
def reduceLanes {α : Type} (op : α → α → α) (v : List α) : Option α :=
  (pairUp op (pairUp op (pairUp op (pairUp op (laneFold op 0 v (List.replicate 16 none)))))).getD 0 none

/-- Integer square root by bits, most significant first. -/
def isqrtBits : Nat → Nat → Nat → Nat
  | 0, _, r => r
  | b + 1, n, r =>
    let r' := r + 2 ^ b
    isqrtBits b n (if r' * r' ≤ n then r' else r)

/-- 2^(2^−k) × 2^P for k = 1, 2, …, with P = 200, by repeated square roots, times those that bits of `f` (24 bits, most
significant first) select: 2^(f / 2^24) × 2^200 (R230; the precision is far beyond what truncation to 24 bits needs). -/
def exp2Frac : Nat → Nat → Nat → Nat → Nat
  | 0, _, _, acc => acc
  | b + 1, f, c, acc =>
    let c := isqrtBits 202 (c * 2 ^ 200) 0
    exp2Frac b f c (if bitAt f b then acc * c / 2 ^ 200 else acc)

/-- `flume.exp2` (R230): x is first quantised to a multiple of 2^−24 toward −∞, and 2^u is truncated to FP32. -/
def fpExp2 (x : Num) : Nat :=
  match x with
  | .nan => 0x7FC00000
  | .inf s => if s then 0 else 0x7F800000
  | .fin _ _ q =>
    let u : Int := if q < -24 then x.at q / 2 ^ (-24 - q).toNat else x.at (-24)
    let i := u / 2 ^ 24
    let f := (u % 2 ^ 24).toNat
    if 128 ≤ i then 0x7F7FFFFF
    else if i < -160 then 0
    else (narrowFloat fp32 false (exp2Frac 24 f (2 ^ 201) (2 ^ 200)) (i - 200) none).1

/-- `flume.recip` (R230): the exact value 1/x truncated to FP32. -/
def fpRecip (x : Num) : Nat :=
  match x with
  | .nan => 0x7FC00000
  | .inf s => if s then 0x80000000 else 0
  | .fin s m q =>
    if m = 0 then (if s then 0xFF800000 else 0x7F800000)
    else
      let sh := Nat.log2 m + 200
      (narrowFloat fp32 s (2 ^ sh / m) (-(sh : Int) - q) none).1

/-! ### The flume's fixed lanes (R120) -/

/-- Width of one part, bits the part is shifted up to Q1.23, and whether the format is complex, for the fixed formats the
flume takes (R120). -/
def laneFmt : Nat → Option (Nat × Nat × Bool)
  | 0 => some (8, 16, false)
  | 17 => some (16, 8, false)
  | 20 => some (24, 0, false)
  | 15 => some (24, 0, true)
  | 19 => some (16, 8, true)
  | _ => none

/-- The Q1.23 parts of a fixed element (R120); the imaginary part of a real element is 0. -/
def laneOf (f b : Nat) : Int × Int :=
  match laneFmt f with
  | some (w, sh, cx) =>
    (sext w (bitsAt b 0 w) * 2 ^ sh, if cx then sext w (bitsAt b w w) * 2 ^ sh else 0)
  | none => (0, 0)

/-- Whether a format is one of the flume's fixed formats (R602). -/
def isFixedFmt (f : Nat) : Bool := (laneFmt f).isSome

/-- Whether a format is complex. -/
def isCplx (f : Nat) : Bool := f = 15 || f = 19

/-- Encode a fixed result held at LSB 2^−46 in a fixed format (R115, R120): both parts where the format is complex. -/
def fixedOut (f : Nat) (re im oexp : Int) : Nat :=
  let w := fixedPart f
  let r := wrapTo w (narrowFixed w re (-46) oexp none).1
  if isCplx f then r + 2 ^ w * wrapTo w (narrowFixed w im (-46) oexp none).1 else r

end Sys2Proof.Machine
end

