-- ==== Sys2Proof/Machine/BolCode.lean ====
section
/-! DEFINITION. Channel coding as the bolters do it (R409, R415 to R421). Segmentation, CRC polynomials, rate matching and the
scrambling sequence are those of TS 38.212 and TS 38.211, which the spec names without repeating them (log 13); the base graphs
and the polar tables are constants of Config. -/
namespace Sys2Proof.Machine

/-! ### Bits (R417) and CRCs -/

/-- The bits of bytes, most significant first (R417). -/
def bytesBits (l : List Byte) : List Bool := l.flatMap (fun b => (List.range 8).map (fun i => bitAt b.toNat (7 - i)))

/-- The number that bits spell, most significant first. -/
def bitsNum (l : List Bool) : Nat := l.foldl (fun a b => 2 * a + b2n b) 0

/-- Bits packed most significant first, the last byte filled with zeros (R417). -/
def bitsBytes (l : List Bool) : List Byte :=
  (chunksOf 8 l.length l).map (fun c => BitVec.ofNat 8 (bitsNum (c ++ List.replicate (8 - c.length) false)))

/-- The `w` bits of a number, most significant first. -/
def numBits (w v : Nat) : List Bool := (List.range w).map (fun i => bitAt v (w - 1 - i))

/-- The CRC of bits for a polynomial of degree `w`. -/
def crcOf (w poly : Nat) (l : List Bool) : List Bool :=
  numBits w (l.foldl (fun c b => (c * 2 % 2 ^ w) ^^^ (if bitAt c (w - 1) = b then 0 else poly)) 0)

/-- Transport-block CRC: 24A above 3,824 bits, else 16. -/
def tbCrc (l : List Bool) : List Bool := if 3824 < l.length then crcOf 24 0x864CFB l else crcOf 16 0x1021 l

/-- CRC24B. -/
def cbCrc (l : List Bool) : List Bool := crcOf 24 0x800063 l

/-! ### The scrambling sequence (TS 38.211 clause 5.2.1) -/

/-- One step of the two shift registers. -/
def goldStep (x : Nat × Nat) : Nat × Nat :=
  let b (v i : Nat) : Nat := v / 2 ^ i % 2
  (x.1 / 2 + (b x.1 3 + b x.1 0) % 2 * 2 ^ 30, x.2 / 2 + (b x.2 3 + b x.2 2 + b x.2 1 + b x.2 0) % 2 * 2 ^ 30)

/-- The registers after `n` steps. -/
def goldSkip : Nat → Nat × Nat → Nat × Nat
  | 0, x => x
  | n + 1, x => goldSkip n (goldStep x)

/-- The next `n` bits. -/
def goldRun : Nat → Nat × Nat → List Bool
  | 0, _ => []
  | n + 1, x => ((x.1 + x.2) % 2 = 1) :: goldRun n (goldStep x)

/-- `n` bits of the sequence from bit `off` on. -/
def goldBits (cinit off n : Nat) : List Bool := goldRun n (goldSkip (1600 + off) (1, cinit % 2 ^ 31))

/-! ### Descriptors (R415) -/

def dOp (d : List Byte) : Nat := leAt d 0 1
def dFlag (d : List Byte) (i : Nat) : Bool := bitAt (leAt d 1 1) i
def dBg (d : List Byte) : Nat := leAt d 2 1
def dRv (d : List Byte) : Nat := leAt d 3 1
def dQm (d : List Byte) : Nat := leAt d 4 1
def dLayers (d : List Byte) : Nat := leAt d 5 1
def dIter (d : List Byte) : Nat := leAt d 6 1
def dSoftW (d : List Byte) : Nat := leAt d 7 1
def dA (d : List Byte) : Nat := leAt d 8 4
def dG (d : List Byte) : Nat := leAt d 12 4
def dCinit (d : List Byte) : Nat := leAt d 16 4
def dNref (d : List Byte) : Nat := leAt d 20 4
def dIn (d : List Byte) : Nat := leAt d 24 8
def dOut (d : List Byte) : Nat := leAt d 32 8
def dSoft (d : List Byte) : Nat := leAt d 40 8
def dRnti (d : List Byte) : Nat := leAt d 48 2
def dCell (d : List Byte) : Nat := leAt d 50 2
def dSlot (d : List Byte) : Nat := leAt d 52 4

/-- Bytes of one LLR (R417). -/
def dLlr (d : List Byte) : Nat := if dFlag d 3 then 2 else 1

/-- Whether a descriptor reads or writes a soft buffer. -/
def dSofts (d : List Byte) : Bool := dOp d = 2 && (dFlag d 1 || dFlag d 2)

/-! ### LDPC segmentation and rate matching (TS 38.212 clauses 5.2.2, 5.4.2) -/

/-- The lifting sizes. -/
def liftSizes : List Nat :=
  [2, 3, 5, 7, 9, 11, 13, 15].flatMap (fun a => ((List.range 8).map (fun j => a * 2 ^ j)).filter (fun z => z ≤ 384))

/-- KC of a base graph (R418). -/
def kcOf (bg : Nat) : Nat := if bg = 1 then 22 else 10

/-- ROWS of a base graph (R418). -/
def rowsOf (bg : Nat) : Nat := if bg = 1 then 46 else 42

/-- Bits of a transport block with its CRC. -/
def dB (d : List Byte) : Nat := dA d + (if 3824 < dA d then 24 else 16)

/-- Code blocks of an LDPC descriptor. -/
def dC (d : List Byte) : Nat :=
  let kcb := if dBg d = 1 then 8448 else 3840
  if dB d ≤ kcb then 1 else ceilDiv (dB d) (kcb - 24)

/-- CRC bits of each code block. -/
def dL (d : List Byte) : Nat := if dC d = 1 then 0 else 24

/-- K′: bits of a code block without fillers. -/
def dKp (d : List Byte) : Nat := (dB d + dC d * dL d) / dC d

/-- Zc. -/
def dZc (d : List Byte) : Nat :=
  let kb := if dBg d = 1 then 22 else if 640 < dB d then 10 else if 560 < dB d then 9 else if 192 < dB d then 8 else 6
  ((liftSizes.filter (fun z => dKp d ≤ kb * z)).foldl (fun a z => min a z) 384)

/-- K. -/
def dK (d : List Byte) : Nat := kcOf (dBg d) * dZc d

/-- Ncb. -/
def dNcb (d : List Byte) : Nat :=
  let n := (if dBg d = 1 then 66 else 50) * dZc d
  if dNref d = 0 then n else min n (dNref d)

/-- E_r. -/
def dEr (d : List Byte) (r : Nat) : Nat :=
  let u := dLayers d * dQm d
  let t := dG d / u
  u * (if r < dC d - t % dC d then t / dC d else ceilDiv t (dC d))

/-- Where the rate-matched bits of code block `r` begin. -/
def dEOfs (d : List Byte) (r : Nat) : Nat := (List.range r).foldl (fun a i => a + dEr d i) 0

/-- k0 of a redundancy version. -/
def dK0 (d : List Byte) : Nat :=
  let m := match dRv d with
    | 0 => 0
    | 1 => if dBg d = 1 then 17 else 13
    | 2 => if dBg d = 1 then 33 else 25
    | _ => if dBg d = 1 then 56 else 43
  m * dNcb d / ((if dBg d = 1 then 66 else 50) * dZc d) * dZc d

/-- Positions of the circular buffer in the order of transmission, fillers left out. -/
def dOrder (d : List Byte) : List Nat :=
  let lo := dKp d - 2 * dZc d
  let hi := dK d - 2 * dZc d
  ((List.range (dNcb d)).map (fun i => (dK0 d + i) % dNcb d)).filter (fun i => i < lo || hi ≤ i)

/-- Interleave the bits of a code block. -/
def interleave {α : Type} (z : α) (qm : Nat) (e : List α) : List α :=
  (List.range e.length).map (fun k => e.getD (k % qm * (e.length / qm) + k / qm) z)

/-- Undo the interleaving. -/
def deinterleave {α : Type} (z : α) (qm : Nat) (f : List α) : List α :=
  (List.range f.length).map (fun k => f.getD (k / (f.length / qm) + k % (f.length / qm) * qm) z)

/-- The transport block of payload bits, with its CRC. -/
def tbBits (l : List Bool) : List Bool := l ++ tbCrc l

/-- Code block `r` of a payload: K bits, fillers zero. -/
def codeBlock (d : List Byte) (payload : List Bool) (r : Nat) : List Bool :=
  let n := dKp d - dL d
  let c := ((tbBits payload).drop (r * n)).take n
  let c := if dL d = 0 then c else c ++ cbCrc c
  c ++ List.replicate (dK d - c.length) false

/-- The rate-matched, interleaved bits of code block `r`, before scrambling. -/
def ldpcEncode (d : List Byte) (payload : List Bool) (r : Nat) : List Bool :=
  let w := (Config.ldpcCodeword (dBg d) (dZc d) (codeBlock d payload r)).drop (2 * dZc d)
  let o := dOrder d
  interleave false (dQm d) ((List.range (dEr d r)).map (fun k => w.getD (o.getD (k % o.length) 0) false))

/-! ### LDPC decoding (R418, R419) -/

/-- Symmetric saturation. -/
def satS (m : Int) (x : Int) : Int := clampInt (-m) m x

/-- The LLRs of code block `r`, descrambled and deinterleaved. -/
def llrsOf (d : List Byte) (off : Nat) (raw : List Byte) (n : Nat) : List Int :=
  let g := if dFlag d 0 then goldBits (dCinit d) off n else List.replicate n false
  (List.range n).map (fun i =>
    let v := sext (8 * dLlr d) (leAt raw (dLlr d * i) (dLlr d))
    if g.getD i false then -v else v)

/-- Rate dematching: repeated positions add with saturation to ±127, in received order. -/
def dematch (d : List Byte) (e : List Int) : List Int :=
  let o := dOrder d
  let m := (e.zipIdx).foldl (fun (m : KMap Int) x =>
    let k := o.getD (x.2 % o.length) 0
    mput m k (satS 127 (mget 0 m k + x.1))) []
  (List.range (dNcb d)).map (mget 0 m)

/-- A stored soft value (R419). -/
def softUp (w : Nat) (f : Int) : Int := f * 2 ^ (8 - w)

/-- What is stored of a combined value (R419). -/
def softDown (w : Nat) (v : Int) : Int := clampInt (-(2 ^ (w - 1) - 1)) (2 ^ (w - 1) - 1) (v / 2 ^ (8 - w))

/-- Bytes of the soft values of one code block. -/
def softLen (d : List Byte) : Nat := packedLen (dSoftW d) (dNcb d)

/-- Where code block `r` begins in the soft buffer. -/
def softAt (d : List Byte) (r : Nat) : Nat := dSoft d + r * (ceilDiv (dNcb d * dSoftW d) 512 * 64)

/-- The combined values of step 3. -/
def combine (d : List Byte) (cb : List Int) (stored : List Byte) : List Int :=
  (cb.zipIdx).map (fun x => satS 127 (x.1 + softUp (dSoftW d) (sext (dSoftW d) (elemAt stored (dSoftW d) x.2))))

/-- The bytes stored for combined values. -/
def softBytes (d : List Byte) (v : List Int) : List Byte :=
  packElems (dSoftW d) (v.map (fun x => wrapTo (dSoftW d) (softDown (dSoftW d) x)))

/-- Step 4: the values that enter the decoder. -/
def ldpcInput (d : List Byte) (v : List Int) : List Int :=
  (List.range ((if dBg d = 1 then 68 else 52) * dZc d)).map (fun i =>
    if i < 2 * dZc d then 0
    else if dKp d ≤ i ∧ i < dK d then 127
    else v.getD (i - 2 * dZc d) 0)

/-- Posteriors, and check messages by check × 68 + column. -/
structure LdpcSt where
  p : List Int
  r : KMap Int

/-- The columns and bits of lifted check `i` of a row. -/
def checkBits (bg zc row i : Nat) : List (Nat × Nat) :=
  (List.range 68).filterMap (fun col => (Config.ldpcShift bg zc row col).map (fun sh => (col, col * zc + (i + sh) % zc)))

/-- One lifted check of the layered offset min-sum decoder. -/
def checkNode (base : Nat) (bs : List (Nat × Nat)) (st : LdpcSt) : LdpcSt :=
  let q := bs.map (fun x => (x, satS 511 (st.p.getD x.2 0 - mget 0 st.r (base + x.1))))
  match q with
  | [] => st
  | h :: t =>
    let first := t.foldl (fun (b : (Nat × Nat) × Int) x => if x.2.natAbs < b.2.natAbs then x else b) h
    let m1 := first.2.natAbs
    let m2 := (q.filter (fun x => x.1 ≠ first.1)).foldl (fun a x => min a x.2.natAbs) 512
    let sgn : Int := q.foldl (fun a x => if x.2 < 0 then -a else a) 1
    q.foldl (fun st x =>
      let mag : Int := ((if x.1 = first.1 then m2 else m1) - 1 : Nat)
      let v := satS 127 (sgn * (if x.2 < 0 then -1 else 1) * mag)
      { p := st.p.set x.1.2 (satS 511 (x.2 + v)), r := mput st.r (base + x.1.1) v }) st

/-- One iteration over the first `l` rows. -/
def ldpcPass (bg zc l : Nat) (st : LdpcSt) : LdpcSt :=
  (List.range l).foldl (fun st row =>
    (List.range zc).foldl (fun st i => checkNode ((row * zc + i) * 68) (checkBits bg zc row i) st) st) st

/-- Whether every check of the first `l` rows holds. -/
def ldpcHolds (bg zc l : Nat) (p : List Int) : Bool :=
  (List.range l).all (fun row => (List.range zc).all (fun i =>
    ((checkBits bg zc row i).filter (fun x => p.getD x.2 0 < 0)).length % 2 = 0))

/-- Iterate: `fuel` iterations are left after `it` of them. -/
def ldpcLoop (bg zc l : Nat) : Nat → Nat → LdpcSt → List Int × Nat
  | 0, it, st => (st.p, it)
  | fuel + 1, it, st =>
    let st := ldpcPass bg zc l st
    if ldpcHolds bg zc l st.p then (st.p, it + 1) else ldpcLoop bg zc l fuel (it + 1) st

/-- The number of rows used in decoding code block `r`. -/
def dRows (d : List Byte) (r : Nat) : Nat :=
  let n := if dRv d = 0 ∧ !dFlag d 1 then dEr d r else dNcb d
  min (rowsOf (dBg d)) (max 4 (ceilDiv n (dZc d) + 2 - kcOf (dBg d)))

/-- Decode the combined values of code block `r`: K bits and the iterations run. -/
def ldpcDecode (d : List Byte) (r : Nat) (v : List Int) : List Bool × Nat :=
  let (p, it) := ldpcLoop (dBg d) (dZc d) (dRows d r) (dIter d) 0 ⟨ldpcInput d v, []⟩
  ((p.take (dK d)).map (fun x => decide (x < 0)), it)

/-! ### Polar codes (R420) -/

/-- Units of a polar descriptor: UCI in two code blocks when it is long (clause 5.2.1). -/
def polarUnits (d : List Byte) : Nat :=
  if dBg d = 2 ∧ ((360 ≤ dA d ∧ 1088 ≤ dG d) ∨ 1013 ≤ dA d) then 2 else 1

/-- Payload bits of a polar unit. -/
def polarA (d : List Byte) : Nat := ceilDiv (dA d) (polarUnits d)

/-- Rate-matched bits of a polar unit. -/
def polarE (d : List Byte) : Nat := dG d / polarUnits d

/-- The payload of polar unit `r`: an odd payload in two blocks starts with a zero bit. -/
def polarPart (d : List Byte) (payload : List Bool) (r : Nat) : List Bool :=
  let pad := List.replicate (polarA d * polarUnits d - dA d) false
  ((pad ++ payload).drop (r * polarA d)).take (polarA d)

/-- f of R420. -/
def polarF (a b : Int) : Int := (if (a < 0) ≠ (b < 0) then -1 else 1) * (min a.natAbs b.natAbs : Nat)

/-- g of R420. -/
def polarG (u : Bool) (a b : Int) : Int := satS 511 (if u then b - a else b + a)

/-- The polar transform. -/
def polarXform : Nat → List Bool → List Bool
  | 0, u => u
  | n + 1, u =>
    let x1 := polarXform n (u.take (2 ^ n))
    let x2 := polarXform n (u.drop (2 ^ n))
    List.zipWith xor x1 x2 ++ x2

/-- The LLR of the bit that follows the bits `u`. -/
def polarLlr : Nat → List Int → List Bool → Int
  | 0, l, _ => l.headD 0
  | n + 1, l, u =>
    let a := l.take (2 ^ n)
    let b := l.drop (2 ^ n)
    if u.length < 2 ^ n then polarLlr n (List.zipWith polarF a b) u
    else
      let x := polarXform n (u.take (2 ^ n))
      polarLlr n (List.zipWith (fun (v : Bool) (ab : Int × Int) => polarG v ab.1 ab.2) x (List.zip a b)) (u.drop (2 ^ n))

/-- A path of the list: its bits and its metric. -/
abbrev PolarPath := List Bool × Nat

/-- A path with one more decision. -/
def polarStep (n : Nat) (llr : List Int) (x : PolarPath) (b : Bool) : PolarPath :=
  let v := polarLlr n llr x.1
  (x.1 ++ [b], if (v < 0) = (b = true) then x.2 else x.2 + v.natAbs)

/-- The 8 least metrics survive; ties go to the lower index. -/
def polarKeep (l : List PolarPath) : List PolarPath :=
  ((l.zipIdx).filter (fun x =>
    ((l.zipIdx).filter (fun y => y.1.2 < x.1.2 || (y.1.2 = x.1.2 && y.2 < x.2))).length < 8)).map (fun x => x.1)

/-- Decide the remaining `left` bits of a list of paths. -/
def polarList (kind a e n : Nat) (llr : List Int) : Nat → List PolarPath → List PolarPath
  | 0, l => l
  | left + 1, l =>
    let next := l.flatMap (fun x =>
      match Config.polarFixed kind a e x.1.length x.1 with
      | some b => [polarStep n llr x b]
      | none => [polarStep n llr x false, polarStep n llr x true])
    polarList kind a e n llr left (polarKeep next)

/-- The information bits of a path. -/
def polarInfo (kind a e : Nat) (u : List Bool) : List Bool :=
  (u.zipIdx).filterMap (fun x => match Config.polarFixed kind a e x.2 (u.take x.2) with | some _ => none | none => some x.1)

/-- Decode one polar unit: its payload and whether its CRC passes. -/
def polarDecode (d : List Byte) (llr : List Int) : List Bool × Bool :=
  let kind := dBg d
  let a := polarA d
  let e := polarE d
  let n := Config.polarLog kind a e
  let ends := (polarList kind a e n (Config.polarDematch kind a e llr) (2 ^ n) [([], 0)]).map (fun x =>
    (x.2, Config.polarCheck kind a (dRnti d) (polarInfo kind a e x.1)))
  let least (l : List (Nat × List Bool × Bool)) : Option (List Bool × Bool) :=
    match l with
    | [] => none
    | h :: t => some (t.foldl (fun (b : Nat × List Bool × Bool) x => if x.1 < b.1 then x else b) h).2
  match least (ends.filter (fun x => x.2.2)) with
  | some x => x
  | none => (least ends).getD ([], false)

/-! ### What a descriptor may hold (R409, R415, R416) -/

/-- Units of a descriptor (R413). -/
def dUnits (d : List Byte) : Nat := if dOp d ≤ 2 then dC d else polarUnits d

/-- Whether every field keeps to R409 and R415. -/
def descOk (ring : Nat) (d : List Byte) : Bool :=
  let ldpc := dOp d = 1 || dOp d = 2
  [1, 2, 3, 4].contains (dOp d) && (dOp d ≠ 1 || ring = 1) && (dOp d ≠ 2 || ring = 0)
    && leAt d 1 1 < 16 && [1, 2, 4, 6, 8].contains (dQm d) && 1 ≤ dLayers d && dLayers d ≤ 4
    && (if ldpc then (dBg d = 1 || dBg d = 2) && dRv d ≤ 3 else dBg d ≤ 2 && dRv d = 0)
    && (if dOp d = 2 then 1 ≤ dIter d && dIter d ≤ 32 else dIter d = 0)
    && (if dFlag d 1 || dFlag d 2 then [4, 6, 8].contains (dSoftW d) else dSoftW d = 0)
    && dSoft d % 64 = 0
    && (if ldpc then dA d ≤ 1277992 && dC d ≤ 152
        else (dBg d ≠ 2 || (12 ≤ dA d && dA d ≤ 1706))
          && Config.polarLog (dBg d) (polarA d) (polarE d) ≤ (if dBg d = 2 then 10 else 9))

/-- Clocks of a unit (R421) after `it` iterations. -/
def unitClocks (d : List Byte) (r it : Nat) : Nat :=
  match dOp d with
  | 1 => 9 + max (ceilDiv (dK d) 72) (ceilDiv (dEr d r) 512)
  | 2 => 38 + it * dRows d r * ceilDiv (dZc d) 32 + (if dSofts d then ceilDiv (dNcb d * dSoftW d) 2048 else 0)
  | 3 => 16 + ceilDiv (2 ^ Config.polarLog (dBg d) (polarA d) (polarE d)) 32
  | _ => 64 + 3 * 2 ^ Config.polarLog (dBg d) (polarA d) (polarE d)

end Sys2Proof.Machine
end

