-- ==== Sys2Proof/Machine/RegTable.lean ====
section
/-! DEFINITION. The BAR0 address map (R31, R32) and the field tables of every register page (R40, R48, R86, R87, R159,
R276, R296, R332, R333, R358, R359, R373, R385, R408, R425, R450, R451, R468, R469, R488, R501, R517, R528, R542,
R543, R563, R585). A reset value that the spec does not state as a number ("per map", "per training", …) is listed as 0
here; those registers are computed from the state (Machine/View.lean) or written when the machine learns them
(log 6, log 7). -/
namespace Sys2Proof.Machine

/-- The register blocks of R31. -/
inductive Block where
  | root | sec | gov | ftl | eth | slu | weir | hif | mem | own | syn | sch | bol | grn | noc | mill | rep | mgt
deriving DecidableEq, Repr

/-- PAGE_ID type code, base, pages, primary pages and extension base of a block (R31). -/
def blockInfo : Block → Nat × Nat × Nat × Nat × Nat
  | .root => (1, 0x0, 1, 1, 0)
  | .sec => (2, 0x1000, 4, 4, 0)
  | .gov => (3, 0x8000, 32, 8, 0x800000)
  | .ftl => (4, 0x10000, 8, 8, 0)
  | .eth => (5, 0x20000, 34, 32, 0x818000)
  | .slu => (6, 0x40000, 16, 16, 0)
  | .weir => (7, 0x50000, 32, 32, 0)
  | .hif => (8, 0x80000, 16, 16, 0)
  | .mem => (9, 0x100000, 30, 16, 0x820000)
  | .own => (10, 0x110000, 4, 4, 0)
  | .syn => (11, 0x120000, 16, 16, 0)
  | .sch => (12, 0x130000, 33, 16, 0x830000)
  | .bol => (13, 0x140000, 20, 20, 0)
  | .grn => (14, 0x160000, 64, 64, 0)
  | .noc => (15, 0x200000, 4, 4, 0)
  | .mill => (16, 0x400000, 256, 256, 0)
  | .rep => (17, 0x600000, 8, 8, 0)
  | .mgt => (18, 0x700000, 16, 16, 0)

/-- Every block, in the order of R31. -/
def allBlocks : List Block :=
  [.root, .sec, .gov, .ftl, .eth, .slu, .weir, .hif, .mem, .own, .syn, .sch, .bol, .grn, .noc, .mill, .rep, .mgt]

/-- PAGE_ID.BLOCK_TYPE of a block (R31). -/
def Block.code (b : Block) : Nat := (blockInfo b).1

/-- Number of pages of a block (R31). -/
def Block.pages (b : Block) : Nat := (blockInfo b).2.2.1

/-- BAR0 offset of page `i` of a block (R32). -/
def pageBase (b : Block) (i : Nat) : Nat :=
  let (_, base, _, primary, ext) := blockInfo b
  if i < primary then base + i * 0x1000 else ext + (i - primary) * 0x1000

/-- BAR0 offset of the register at `off` in page `i` of a block. -/
def reg (b : Block) (i off : Nat) : Nat := pageBase b i + off

/-- The page index of a page number (offset / 0x1000) within one block, if the block holds it (R31, R32). -/
def pageIn (b : Block) (pn : Nat) : Option Nat :=
  let (_, base, pages, primary, ext) := blockInfo b
  let lo := base / 0x1000
  let hi := ext / 0x1000
  if lo ≤ pn ∧ pn < lo + primary then some (pn - lo)
  else if hi ≤ pn ∧ primary < pages ∧ pn < hi + (pages - primary) then some (pn - hi + primary)
  else none

/-- The block and page index that a BAR0 offset falls in (R31); none where R31 assigns no page. -/
def pageAt (addr : Nat) : Option (Block × Nat) :=
  allBlocks.findSome? (fun b => (pageIn b (addr / 0x1000)).map (fun i => (b, i)))

/-- The access codes of R38. -/
inductive Acc where
  | ro | rw | w1c | w1s | wo | rwl | rc
deriving DecidableEq, Repr

/-- One register field: lowest bit, width, access code, reset value, and the values a write may give it where some
encodings are reserved (R11); an empty list means that every value is allowed. -/
structure Fld where
  lo : Nat
  len : Nat
  acc : Acc
  rst : Nat
  ok : List (Nat × Nat)
deriving DecidableEq, Repr

/-- A read-only field. -/
def Fld.ro (lo len : Nat) (rst : Nat := 0) (ok : List (Nat × Nat) := []) : Fld := ⟨lo, len, Acc.ro, rst, ok⟩
/-- A read and write field. -/
def Fld.rw (lo len : Nat) (rst : Nat := 0) (ok : List (Nat × Nat) := []) : Fld := ⟨lo, len, Acc.rw, rst, ok⟩
/-- A write-1-to-clear field. -/
def Fld.w1c (lo len : Nat) (rst : Nat := 0) (ok : List (Nat × Nat) := []) : Fld := ⟨lo, len, Acc.w1c, rst, ok⟩
/-- A write-1-to-set field. -/
def Fld.w1s (lo len : Nat) (rst : Nat := 0) (ok : List (Nat × Nat) := []) : Fld := ⟨lo, len, Acc.w1s, rst, ok⟩
/-- A write-only field. -/
def Fld.wo (lo len : Nat) (rst : Nat := 0) (ok : List (Nat × Nat) := []) : Fld := ⟨lo, len, Acc.wo, rst, ok⟩
/-- A field that is read and write until the page is locked. -/
def Fld.rwl (lo len : Nat) (rst : Nat := 0) (ok : List (Nat × Nat) := []) : Fld := ⟨lo, len, Acc.rwl, rst, ok⟩
/-- A read-to-clear field. -/
def Fld.rc (lo len : Nat) (rst : Nat := 0) (ok : List (Nat × Nat) := []) : Fld := ⟨lo, len, Acc.rc, rst, ok⟩

/-- One row of a field table: pages `p0` to `p1` of the block hold `n` registers from offset `off`, `stride` bytes
apart; `wide` for 64-bit registers; `sel` is the BAR0 offset of the selector register where the row shows the registers
of a selected item. -/
structure RegRow where
  p0 : Nat
  p1 : Nat
  off : Nat
  n : Nat
  stride : Nat
  wide : Bool
  sel : Option Nat
  flds : List Fld
deriving DecidableEq, Repr

/-- Registers of the ROOT pages. -/
def regsRoot : List RegRow := [
  ⟨0, 0, 0x100, 1, 4, false, none, [.ro 0 16 0x7240, .ro 16 8]⟩, -- DEVICE_ID
  ⟨0, 0, 0x108, 1, 4, true, none, [.ro 0 64]⟩, -- DFP
  ⟨0, 0, 0x110, 1, 4, false, none, [.ro 0 32]⟩, -- PEND_BLOCK
  ⟨0, 0, 0x114, 1, 4, false, none, [.ro 0 26]⟩, -- UNMAPPED_ADDR
  ⟨0, 0, 0x120, 8, 4, false, none, [.ro 0 32]⟩ -- DFP_SRCi
  ]

/-- Registers of the SEC pages. -/
def regsSec : List RegRow := [
  ⟨0, 0, 0x14, 1, 4, false, none, [.ro 0 1, .ro 1 1, .ro 2 1, .ro 3 1]⟩, -- STAT
  ⟨0, 0, 0x100, 1, 4, false, none, [.ro 0 32]⟩, -- IMG_SVN
  ⟨0, 0, 0x104, 1, 4, false, none, [.ro 0 32]⟩, -- CFG_SVN
  ⟨0, 0, 0x108, 1, 4, false, none, [.ro 0 32]⟩, -- IMG_FLOOR
  ⟨0, 0, 0x10C, 1, 4, false, none, [.ro 0 32]⟩, -- CFG_FLOOR
  ⟨0, 0, 0x110, 1, 4, false, none, [.wo 0 16, .wo 31 1]⟩, -- SVN_COMMIT
  ⟨0, 0, 0x114, 1, 4, false, none, [.ro 0 1]⟩, -- IMG_COPY
  ⟨0, 0, 0x140, 16, 4, false, none, [.ro 0 32]⟩, -- ID_DIGESTi
  ⟨1, 1, 0x100, 1, 4, false, none, [.wo 0 2, .wo 8 6]⟩, -- KEY_CMD
  ⟨1, 1, 0x104, 1, 4, false, none, [.ro 0 3, .ro 31 1]⟩, -- KEY_RESULT
  ⟨1, 1, 0x108, 1, 4, false, none, [.rc 0 32]⟩, -- KEY_ERASE_CNT
  ⟨2, 2, 0x100, 1, 4, false, none, [.ro 0 1, .ro 2 2]⟩, -- DBG_STAT
  ⟨2, 2, 0x108, 1, 4, true, none, [.rw 0 64]⟩, -- DBG_TOKEN
  ⟨2, 2, 0x110, 1, 4, false, none, [.wo 0 2]⟩, -- DBG_CMD
  ⟨2, 2, 0x114, 1, 4, false, none, [.ro 0 3]⟩, -- DBG_RESULT
  ⟨2, 2, 0x120, 8, 4, false, none, [.ro 0 32]⟩, -- DBG_NONCEi
  ⟨3, 3, 0x100, 1, 4, true, none, [.rw 0 64]⟩, -- MIGR_ADDR
  ⟨3, 3, 0x108, 1, 4, false, none, [.wo 0 3, .wo 8 5]⟩, -- MIGR_CMD
  ⟨3, 3, 0x10C, 1, 4, false, none, [.ro 0 3, .ro 31 1]⟩, -- MIGR_RESULT
  ⟨3, 3, 0x110, 1, 4, false, none, [.ro 0 1]⟩, -- MIGR_STAT
  ⟨3, 3, 0x114, 1, 4, false, none, [.ro 0 3]⟩, -- SPDM_SESS
  ⟨3, 3, 0x118, 1, 4, false, none, [.ro 0 1, .ro 4 8]⟩, -- IDE_STAT
  ⟨3, 3, 0x11C, 1, 4, false, none, [.rc 0 32]⟩ -- IDE_FAIL_CNT
  ]

/-- Registers of the GOV pages, part 1. -/
def regsGov0 : List RegRow := [
  ⟨0, 0, 0x14, 1, 4, false, none, [.ro 0 1, .ro 1 1]⟩, -- STAT
  ⟨0, 0, 0x100, 1, 4, false, none, [.rw 0 10 550]⟩, -- CAP_W
  ⟨0, 0, 0x104, 1, 4, false, none, [.ro 0 10]⟩, -- BOARD_MAX_W
  ⟨0, 0, 0x108, 1, 4, false, none, [.ro 0 10]⟩, -- FLOOR_W
  ⟨0, 0, 0x10C, 1, 4, false, none, [.ro 0 10 550]⟩, -- CAP_EFF_W
  ⟨0, 0, 0x110, 1, 4, false, none, [.ro 0 20]⟩, -- POWER_MW
  ⟨0, 0, 0x114, 1, 4, false, none, [.ro 0 20]⟩, -- POWER_AVG_MW
  ⟨0, 0, 0x118, 1, 4, false, none, [.ro 0 6, .ro 8 6, .ro 16 6, .ro 24 6]⟩, -- BUBBLE
  ⟨0, 0, 0x11C, 1, 4, false, none, [.rw 0 8 5 [(1, 50)]]⟩, -- HYST_W
  ⟨0, 0, 0x120, 1, 4, false, none, [.rw 0 16 100 [(10, 10000)], .rw 16 3 7, .rw 31 1 1]⟩, -- DVFS_CTRL
  ⟨0, 0, 0x124, 2, 4, false, none, [.ro 0 32]⟩, -- ROW_OPPk
  ⟨0, 0, 0x130, 1, 4, true, none, [.ro 0 64]⟩, -- SOFT_START_CNT
  ⟨0, 0, 0x138, 1, 4, true, none, [.ro 0 64]⟩, -- THROTTLE_NS
  ⟨1, 1, 0x100, 1, 4, false, none, [.rw 0 10 960 [(940, 980)]]⟩, -- WARN_PM
  ⟨1, 1, 0x104, 1, 4, false, none, [.rw 0 14 20 [(1, 10000)]]⟩, -- DIP_HOLD_US
  ⟨1, 1, 0x108, 1, 4, false, none, [.rw 0 14 100 [(16, 10000)]]⟩, -- RAMP_NS
  ⟨1, 1, 0x10C, 1, 4, false, none, [.rc 0 32]⟩, -- DIP_CNT
  ⟨1, 1, 0x110, 1, 4, false, none, [.ro 0 16, .ro 16 4]⟩, -- DIP_LAST
  ⟨1, 1, 0x114, 1, 4, false, none, [.ro 0 32]⟩, -- DIP_LAST_NS
  ⟨2, 2, 0x14, 1, 4, false, none, [.ro 0 1]⟩, -- STAT
  ⟨2, 2, 0x100, 1, 4, false, none, [.rw 0 7 100 [(85, 105)]]⟩, -- THROT_C
  ⟨2, 2, 0x104, 1, 4, false, none, [.rw 0 6]⟩, -- TSEL
  ⟨2, 2, 0x108, 1, 4, false, none, [.ro 0 16]⟩, -- TEMP
  ⟨2, 2, 0x10C, 1, 4, false, none, [.ro 0 16, .ro 16 6]⟩, -- TMAX
  ⟨3, 3, 0x100, 1, 4, false, none, [.ro 0 9]⟩, -- EV_STAT
  ⟨3, 3, 0x108, 4, 4, false, none, [.ro 0 32]⟩, -- EV_DATAi
  ⟨3, 3, 0x118, 1, 4, false, none, [.wo 0 1]⟩, -- EV_POP
  ⟨3, 3, 0x11C, 1, 4, false, none, [.rc 0 32]⟩, -- EV_OVF_CNT
  ⟨4, 31, 0x100, 8, 16, false, none, [.ro 0 6, .ro 8 2, .ro 12 1, .ro 13 1, .ro 31 1]⟩, -- DOMj_STAT
  ⟨4, 31, 0x104, 8, 16, false, none, [.ro 0 24]⟩, -- DOMj_FREQ
  ⟨4, 31, 0x108, 8, 16, true, none, [.ro 0 64]⟩, -- DOMj_RUN_NS
  ⟨4, 4, 0x180, 1, 4, false, none, [.ro 0 3 1]⟩, -- DEV_STATE
  ⟨4, 4, 0x184, 1, 4, false, none, [.wo 0 16, .wo 31 1]⟩, -- RST_CTRL
  ⟨4, 4, 0x188, 1, 4, false, none, [.ro 0 4, .ro 8 4, .ro 16 1]⟩, -- RST_CAUSE
  ⟨4, 4, 0x18C, 1, 4, false, none, [.ro 0 32]⟩, -- RST_CNT
  ⟨5, 20, 0x180, 1, 4, false, none, [.rw 0 1 1, .rw 1 1 1]⟩, -- ROW_CTRL
  ⟨5, 20, 0x184, 1, 4, false, none, [.rw 0 16 20 [(1, 0xFFFF)], .rw 16 16 100 [(1, 0xFFFF)]]⟩, -- ROW_IDLE
  ⟨5, 20, 0x188, 1, 4, false, none, [.ro 0 2, .ro 2 1, .ro 3 1]⟩, -- ROW_STATE
  ⟨5, 20, 0x18C, 1, 4, false, none, [.rc 0 32]⟩, -- WAKE_CNT
  ⟨5, 20, 0x190, 1, 4, false, none, [.rc 0 32]⟩ -- WAKE_MAX_NS
  ]

/-- Registers of the GOV pages, part 2. -/
def regsGov1 : List RegRow := [
  ⟨5, 20, 0x198, 1, 4, true, none, [.ro 0 64]⟩ -- OFF_NS
  ]

/-- Registers of the GOV pages. -/
def regsGov : List RegRow := regsGov0 ++ regsGov1

/-- Registers of the FTL pages, part 1. -/
def regsFtl0 : List RegRow := [
  ⟨0, 0, 0x10, 1, 4, false, none, [.rw 0 1, .rw 1 1, .rw 2 1]⟩, -- CTRL
  ⟨0, 0, 0x14, 1, 4, false, none, [.ro 0 2, .ro 2 1 1]⟩, -- STAT
  ⟨0, 0, 0x100, 1, 4, true, none, [.ro 0 64]⟩, -- TIME_NOW
  ⟨0, 0, 0x108, 1, 4, false, none, [.ro 0 32]⟩, -- TIME_FRAC
  ⟨0, 0, 0x110, 1, 4, true, none, [.ro 0 64]⟩, -- COUNT
  ⟨0, 0, 0x118, 1, 4, true, none, [.ro 0 64 0x0000CCCCCCCCCCCD]⟩, -- RATE
  ⟨0, 0, 0x120, 1, 4, true, none, [.wo 0 64]⟩, -- STEP_NS
  ⟨0, 0, 0x128, 1, 4, false, none, [.rw 0 17 10000 [(1, 100000)]]⟩, -- SLEW_PPB
  ⟨0, 0, 0x12C, 1, 4, false, none, [.rw 0 16 1000 [(1, 0xFFFF)]]⟩, -- HOLDOVER_MS
  ⟨0, 0, 0x130, 1, 4, true, none, [.rw 0 40 0x00CCCCCCCD]⟩, -- COMPAT_INCR
  ⟨0, 0, 0x138, 1, 4, false, none, [.wo 0 32]⟩, -- COMPAT_ADJ
  ⟨0, 0, 0x140, 1, 4, true, none, [.ro 0 48]⟩, -- TIME_SEC
  ⟨0, 0, 0x148, 1, 4, false, none, [.ro 0 30]⟩, -- TIME_NSEC
  ⟨1, 2, 0x10, 1, 4, false, none, [.rw 0 1, .rw 1 2 0 [(0, 2)]]⟩, -- CTRL
  ⟨1, 2, 0x14, 1, 4, false, none, [.ro 0 2]⟩, -- STAT
  ⟨1, 2, 0x100, 1, 4, false, none, [.rw 0 8 24 [(24, 43)]]⟩, -- DOMAIN
  ⟨1, 2, 0x104, 1, 4, false, none, [.rw 0 16]⟩, -- SLAVE_PORTS
  ⟨1, 2, 0x108, 1, 4, false, none, [.rw 0 16]⟩, -- MASTER_PORTS
  ⟨1, 2, 0x10C, 1, 4, false, none, [.rw 0 16 0x4000, .rw 16 16 0x0400]⟩, -- GAIN
  ⟨1, 2, 0x110, 1, 4, false, none, [.rw 0 17 100000]⟩, -- MAX_PPB
  ⟨1, 2, 0x114, 1, 4, false, none, [.rw 0 16 100]⟩, -- LOCK_NS
  ⟨1, 2, 0x118, 1, 4, false, none, [.ro 0 32]⟩, -- OFFSET
  ⟨1, 2, 0x11C, 1, 4, false, none, [.ro 0 32]⟩, -- ADJ_PPB
  ⟨1, 2, 0x120, 1, 4, true, none, [.ro 0 64]⟩, -- VIRT_OFS
  ⟨1, 2, 0x128, 1, 4, true, none, [.ro 0 64]⟩, -- UPDATES
  ⟨3, 3, 0x100, 1, 4, false, none, [.rw 0 16]⟩, -- ONE_STEP
  ⟨3, 3, 0x180, 16, 8, false, none, [.rw 0 32]⟩, -- TX_LATp
  ⟨3, 3, 0x184, 16, 8, false, none, [.rw 0 32]⟩, -- RX_LATp
  ⟨4, 4, 0x100, 1, 4, false, none, [.rw 0 4]⟩, -- TSEL
  ⟨4, 4, 0x104, 1, 4, false, (some 0x14100), [.rw 0 1, .rw 1 1]⟩, -- T_CTRL
  ⟨4, 4, 0x108, 1, 4, true, (some 0x14100), [.rw 0 64]⟩, -- T_START
  ⟨4, 4, 0x110, 1, 4, true, (some 0x14100), [.rw 0 64]⟩, -- T_PERIOD
  ⟨4, 4, 0x118, 1, 4, false, (some 0x14100), [.rw 0 32 100]⟩, -- T_WIDTH
  ⟨4, 4, 0x120, 1, 4, true, (some 0x14100), [.ro 0 64]⟩, -- T_COUNT
  ⟨4, 4, 0x128, 1, 4, false, (some 0x14100), [.rc 0 32]⟩, -- T_MISSED
  ⟨5, 5, 0x100, 4, 4, false, none, [.rw 0 4, .rw 8 1, .rw 9 1]⟩, -- PPS_OUTn
  ⟨5, 5, 0x120, 2, 16, true, none, [.ro 0 64]⟩, -- CAPn
  ⟨5, 5, 0x128, 2, 16, false, none, [.ro 0 16, .rc 31 1]⟩, -- CAPn_INFO
  ⟨5, 5, 0x180, 16, 4, false, none, [.rw 0 32]⟩, -- TOD_TX_DATA
  ⟨5, 5, 0x1C0, 1, 4, false, none, [.rc 0 8]⟩ -- TOD_RX_POP
  ]

/-- Registers of the FTL pages, part 2. -/
def regsFtl1 : List RegRow := [
  ⟨6, 6, 0x100, 1, 4, false, none, [.ro 0 7]⟩, -- TS_STAT
  ⟨6, 6, 0x108, 1, 4, true, none, [.ro 0 64]⟩, -- TS_TIME
  ⟨6, 6, 0x110, 1, 4, false, none, [.ro 0 16, .ro 16 4, .ro 24 4, .ro 28 1]⟩, -- TS_INFO
  ⟨6, 6, 0x114, 1, 4, false, none, [.wo 0 1]⟩, -- TS_POP
  ⟨6, 6, 0x118, 1, 4, false, none, [.rc 0 32]⟩ -- TS_OVF_CNT
  ]

/-- Registers of the FTL pages. -/
def regsFtl : List RegRow := regsFtl0 ++ regsFtl1

/-- Registers of the ETH pages. -/
def regsEth : List RegRow := [
  ⟨0, 15, 0x10, 1, 4, false, none, [.rw 0 2]⟩, -- CTRL
  ⟨0, 15, 0x14, 1, 4, false, none, [.ro 0 1, .ro 1 1, .ro 2 1]⟩, -- STAT
  ⟨0, 15, 0x100, 1, 4, false, none, [.rw 0 5 31 [(0, 17), (31, 31)], .rw 8 5 31 [(0, 17), (31, 31)], .rw 16 5 31 [(0, 17), (31, 31)], .rw 24 5 31 [(0, 17), (31, 31)]]⟩, -- LANE_MAP
  ⟨0, 15, 0x108, 1, 4, true, none, [.rw 0 48]⟩, -- MAC_ADDR
  ⟨0, 15, 0x110, 1, 4, true, none, [.ro 0 64]⟩, -- RX_FRAMES
  ⟨0, 15, 0x118, 1, 4, true, none, [.ro 0 64]⟩, -- TX_FRAMES
  ⟨0, 15, 0x120, 1, 4, true, none, [.ro 0 64]⟩, -- FEC_CORR
  ⟨0, 15, 0x128, 1, 4, false, none, [.rc 0 32]⟩, -- FEC_UNCORR_CNT
  ⟨0, 15, 0x12C, 1, 4, false, none, [.rc 0 32]⟩, -- FCS_ERR_CNT
  ⟨0, 15, 0x130, 1, 4, false, none, [.rc 0 32]⟩, -- UNKNOWN_DROP_CNT
  ⟨0, 15, 0x134, 1, 4, false, none, [.rc 0 32]⟩, -- TX_DROP_CNT
  ⟨0, 15, 0x138, 1, 4, false, none, [.rc 0 32]⟩, -- LINK_DOWN_CNT
  ⟨0, 15, 0x180, 32, 4, false, none, [.ro 0 32]⟩, -- ESMC_RX
  ⟨0, 15, 0x200, 1, 4, false, none, [.ro 0 4, .ro 16 8]⟩, -- ESMC_RX_STAT
  ⟨0, 15, 0x204, 1, 4, false, none, [.wo 0 1]⟩, -- ESMC_RX_POP
  ⟨0, 15, 0x208, 1, 4, false, none, [.wo 0 8]⟩, -- ESMC_TX_LEN
  ⟨0, 15, 0x280, 32, 4, false, none, [.rw 0 32]⟩, -- ESMC_TX
  ⟨0, 0, 0x300, 2, 4, false, none, [.rw 0 5 31 [(0, 17), (31, 31)], .rw 8 1, .rw 16 1, .ro 24 1]⟩, -- SYNCE_OUTn
  ⟨0, 0, 0x308, 1, 4, false, none, [.rw 0 1]⟩, -- SYNCE_TX_SRC
  ⟨0, 0, 0x30C, 1, 4, false, none, [.rw 0 16 1000 [(1, 0xFFFF)]]⟩, -- FRER_RESET_US
  ⟨16, 33, 0x10, 1, 4, false, none, [.rw 0 1]⟩, -- CTRL
  ⟨16, 33, 0x14, 1, 4, false, none, [.ro 0 1, .ro 1 1, .ro 4 5, .ro 9 2]⟩, -- STAT
  ⟨16, 33, 0x100, 1, 4, false, none, [.rc 0 32]⟩ -- BER_CNT
  ]

/-- Registers of the SLU pages. -/
def regsSlu : List RegRow := [
  ⟨0, 0, 0x100, 1, 4, false, none, [.ro 0 16]⟩, -- SRAM_USED
  ⟨0, 0, 0x104, 1, 4, false, none, [.ro 0 10]⟩, -- FLOWS_BOUND
  ⟨1, 1, 0x100, 1, 4, false, none, [.rw 0 9]⟩, -- FLOW_SEL
  ⟨1, 1, 0x104, 1, 4, false, (some 0x41100), [.ro 0 1, .ro 4 9]⟩, -- FLOW_STAT
  ⟨1, 1, 0x180, 32, 4, false, (some 0x41100), [.rw 0 32]⟩, -- FLOW_DESCi
  ⟨2, 2, 0x100, 1, 4, true, (some 0x41100), [.ro 0 64]⟩, -- UL_RX_CNT
  ⟨2, 2, 0x108, 1, 4, false, (some 0x41100), [.rc 0 32]⟩, -- UL_LATE_CNT
  ⟨2, 2, 0x10C, 1, 4, false, (some 0x41100), [.rc 0 32]⟩, -- UL_EARLY_CNT
  ⟨2, 2, 0x110, 1, 4, false, (some 0x41100), [.rc 0 32]⟩, -- UL_DUP_CNT
  ⟨2, 2, 0x114, 1, 4, false, (some 0x41100), [.rc 0 32]⟩, -- UL_UNSOL_CNT
  ⟨2, 2, 0x118, 1, 4, false, (some 0x41100), [.rc 0 32]⟩, -- UL_CLIP_CNT
  ⟨2, 2, 0x11C, 1, 4, false, (some 0x41100), [.rc 0 32]⟩, -- SEQ_GAP_CNT
  ⟨2, 2, 0x120, 1, 4, true, (some 0x41100), [.ro 0 64]⟩, -- FRER_ELIM_CNT
  ⟨2, 2, 0x128, 1, 4, false, (some 0x41100), [.rc 0 32]⟩, -- FRER_ROGUE_CNT
  ⟨2, 2, 0x130, 1, 4, true, (some 0x41100), [.ro 0 64]⟩, -- DL_PKT_CNT
  ⟨2, 2, 0x138, 1, 4, true, (some 0x41100), [.ro 0 64]⟩ -- CP_MSG_CNT
  ]

/-- Registers of the WEIR pages. -/
def regsWeir : List RegRow := [
  ⟨0, 0, 0x100, 1, 4, false, none, [.rw 0 10 10 [(1, 1000)]]⟩, -- SAMPLE_US
  ⟨1, 1, 0x100, 1, 4, false, none, [.rw 0 12]⟩, -- QSEL
  ⟨1, 1, 0x104, 1, 4, false, (some 0x51100), [.rw 0 1, .rw 1 1]⟩, -- QCFG
  ⟨1, 1, 0x108, 1, 4, false, (some 0x51100), [.ro 0 2, .ro 8 6 63]⟩, -- QSTAT
  ⟨1, 1, 0x110, 1, 4, true, (some 0x51100), [.rw 0 64]⟩, -- RING_BASE
  ⟨1, 1, 0x118, 1, 4, false, (some 0x51100), [.rw 0 4 4 [(4, 12)]]⟩, -- RING_SIZE
  ⟨1, 1, 0x11C, 1, 4, false, (some 0x51100), [.rw 0 16, .rw 16 16]⟩, -- RING_OBJ
  ⟨1, 1, 0x120, 1, 4, true, (some 0x51100), [.rw 0 48]⟩, -- SRC_MAC
  ⟨1, 1, 0x128, 1, 4, false, (some 0x51100), [.rw 0 16 9216 [(64, 0xFFFF)]]⟩, -- QUANTUM
  ⟨1, 1, 0x12C, 1, 4, false, (some 0x51100), [.rw 0 20 0 [(0, 800000)]]⟩, -- SHAPE_RATE
  ⟨1, 1, 0x130, 1, 4, false, (some 0x51100), [.rw 0 24 65536 [(9216, 0xFFFFFF)]]⟩, -- SHAPE_BURST
  ⟨1, 1, 0x138, 1, 4, true, (some 0x51100), [.ro 0 64]⟩, -- TX_FRAMES
  ⟨1, 1, 0x140, 1, 4, true, (some 0x51100), [.ro 0 64]⟩, -- TX_BYTES
  ⟨1, 1, 0x148, 1, 4, false, (some 0x51100), [.rc 0 32]⟩, -- LATE_DROP_CNT
  ⟨1, 1, 0x14C, 1, 4, false, (some 0x51100), [.rc 0 32]⟩, -- SPOOF_DROP_CNT
  ⟨1, 1, 0x150, 1, 4, false, (some 0x51100), [.rc 0 32]⟩, -- TX_DROP_CNT
  ⟨1, 1, 0x154, 1, 4, false, (some 0x51100), [.ro 0 24]⟩, -- DEPTH_LAST
  ⟨1, 1, 0x158, 1, 4, false, (some 0x51100), [.rc 0 24]⟩, -- DEPTH_MAX
  ⟨1, 1, 0x15C, 1, 4, false, (some 0x51100), [.ro 0 32]⟩, -- DELAY_LAST
  ⟨1, 1, 0x160, 1, 4, false, (some 0x51100), [.rc 0 32]⟩, -- DELAY_MAX
  ⟨2, 2, 0x100, 1, 4, false, none, [.rw 0 8]⟩, -- SSEL
  ⟨2, 2, 0x108, 1, 4, true, (some 0x52100), [.rw 0 48, .rw 48 12, .rw 60 1]⟩, -- S_MATCH
  ⟨2, 2, 0x110, 1, 4, false, (some 0x52100), [.rw 0 1, .rw 8 5, .rw 16 4 4 [(4, 12)], .rw 24 1, .rw 25 1, .rw 26 1]⟩, -- S_CTRL
  ⟨2, 2, 0x118, 1, 4, true, (some 0x52100), [.rw 0 64]⟩, -- S_RING
  ⟨2, 2, 0x120, 1, 4, false, (some 0x52100), [.rw 0 16, .rw 16 16]⟩, -- S_OBJ
  ⟨2, 2, 0x124, 1, 4, false, (some 0x52100), [.rw 0 20]⟩, -- P_CIR
  ⟨2, 2, 0x128, 1, 4, false, (some 0x52100), [.rw 0 20]⟩, -- P_PEIR
  ⟨2, 2, 0x12C, 1, 4, false, (some 0x52100), [.rw 0 24]⟩, -- P_CBS
  ⟨2, 2, 0x130, 1, 4, false, (some 0x52100), [.rw 0 24]⟩, -- P_PEBS
  ⟨2, 2, 0x138, 1, 4, true, (some 0x52100), [.ro 0 64]⟩, -- GREEN_CNT
  ⟨2, 2, 0x140, 1, 4, true, (some 0x52100), [.ro 0 64]⟩, -- YELLOW_CNT
  ⟨2, 2, 0x148, 1, 4, false, (some 0x52100), [.rc 0 32]⟩, -- RED_CNT
  ⟨2, 2, 0x14C, 1, 4, false, (some 0x52100), [.rc 0 32]⟩ -- RX_FULL_CNT
  ]

/-- Registers of the HIF pages. -/
def regsHif : List RegRow := [
  ⟨0, 0, 0x14, 1, 4, false, none, [.ro 0 1]⟩, -- STAT
  ⟨0, 0, 0x100, 1, 4, false, none, [.rw 0 32]⟩, -- SHADOW
  ⟨0, 0, 0x104, 1, 4, false, none, [.rc 0 32]⟩, -- LATE_CPL_CNT
  ⟨0, 0, 0x108, 1, 4, false, none, [.rc 0 32]⟩, -- XLATE_FAIL_CNT
  ⟨0, 0, 0x110, 1, 4, true, none, [.ro 0 64]⟩, -- INVAL_CNT
  ⟨0, 0, 0x118, 1, 4, true, none, [.ro 0 64]⟩, -- HLC_HIT
  ⟨0, 0, 0x120, 1, 4, true, none, [.ro 0 64]⟩, -- HLC_MISS
  ⟨0, 0, 0x128, 1, 4, false, none, [.rc 0 32]⟩, -- BAR2_REFUSED_CNT
  ⟨1, 1, 0x100, 1, 4, false, none, [.rw 0 13]⟩, -- RING_SEL
  ⟨1, 1, 0x108, 1, 4, true, (some 0x81100), [.rw 0 64]⟩, -- SQ_BASE
  ⟨1, 1, 0x110, 1, 4, true, (some 0x81100), [.rw 0 64]⟩, -- CQ_BASE
  ⟨1, 1, 0x118, 1, 4, false, (some 0x81100), [.rw 0 5 4 [(4, 16)], .rw 8 5 4 [(4, 16)]]⟩, -- RING_SIZE
  ⟨1, 1, 0x11C, 1, 4, false, (some 0x81100), [.rw 0 11, .rw 16 1, .rw 17 1]⟩, -- RING_CTRL
  ⟨1, 1, 0x120, 1, 4, false, (some 0x81100), [.wo 0 2]⟩, -- RING_CMD
  ⟨1, 1, 0x124, 1, 4, false, (some 0x81100), [.ro 0 3]⟩, -- RING_STATE
  ⟨1, 1, 0x128, 1, 4, false, (some 0x81100), [.rc 0 32]⟩, -- CQ_DROP_CNT
  ⟨6, 6, 0x100, 32, 8, true, none, [.ro 0 64]⟩, -- LEASE_EXPp
  ⟨6, 6, 0x200, 1, 4, false, none, [.wo 0 32]⟩, -- LEASE_REVOKE
  ⟨6, 6, 0x204, 1, 4, false, none, [.ro 0 32 0xFFFFFFFF]⟩, -- LEASE_STAT
  ⟨6, 6, 0x208, 1, 4, false, none, [.rc 0 32]⟩, -- FENCED_CNT
  ⟨7, 7, 0x100, 4, 32, true, none, [.rw 0 64]⟩, -- IN_BASEi
  ⟨7, 7, 0x108, 4, 32, false, none, [.rw 0 23, .rw 24 1, .rw 31 1]⟩, -- IN_CTLi
  ⟨7, 7, 0x110, 4, 32, true, none, [.rw 0 64]⟩, -- IN_DPAi
  ⟨7, 7, 0x180, 1, 4, false, none, [.rc 0 32]⟩, -- IN_REFUSE_CNT
  ⟨1, 1, 0x130, 1, 4, true, (some 0x81100), [.rw 0 64]⟩, -- DIG_BASE
  ⟨1, 1, 0x138, 1, 4, false, (some 0x81100), [.rw 0 1, .rw 1 1, .rw 4 4 4 [(4, 12)]]⟩, -- DIG_CTRL
  ⟨1, 1, 0x13C, 1, 4, false, (some 0x81100), [.rw 0 16, .rw 16 16]⟩, -- DIG_OBJ
  ⟨1, 1, 0x140, 1, 4, true, (some 0x81100), [.rw 0 64]⟩, -- DIG_PUB
  ⟨1, 1, 0x148, 1, 4, true, (some 0x81100), [.rw 0 64]⟩, -- DIG_CMP
  ⟨1, 1, 0x150, 1, 4, false, (some 0x81100), [.rw 0 20 1000 [(1, 1000000)]]⟩, -- DIG_WAIT_US
  ⟨1, 1, 0x158, 1, 4, true, (some 0x81100), [.ro 0 64]⟩, -- DIG_REC_CNT
  ⟨1, 1, 0x160, 1, 4, false, (some 0x81100), [.rc 0 32]⟩, -- DIG_DROP_CNT
  ⟨1, 1, 0x164, 1, 4, false, (some 0x81100), [.rc 0 32]⟩, -- DIG_MISMATCH_CNT
  ⟨1, 1, 0x168, 1, 4, false, (some 0x81100), [.rc 0 32]⟩, -- DIG_NA_CNT
  ⟨2, 5, 0x100, 128, 16, false, none, [.rw 0 22, .rw 31 1]⟩, -- window APER
  ⟨2, 5, 0x104, 128, 16, false, none, [.rw 0 23]⟩, -- window SIZE
  ⟨2, 5, 0x108, 128, 16, true, none, [.rw 0 12, .rw 14 50]⟩ -- window TARGET
  ]

/-- Registers of the MEM pages. -/
def regsMem : List RegRow := [
  ⟨0, 0, 0x14, 1, 4, false, none, [.ro 0 1, .ro 1 1]⟩, -- STAT
  ⟨0, 0, 0x100, 1, 4, false, none, [.ro 0 2]⟩, -- RATE
  ⟨0, 0, 0x104, 1, 4, false, none, [.rw 0 2 0 [(0, 2)]]⟩, -- ECC_CTRL
  ⟨0, 0, 0x108, 1, 4, false, none, [.rw 0 8 24 [(0, 168)]]⟩, -- SCRUB_HOURS
  ⟨0, 0, 0x10C, 1, 4, false, none, [.ro 0 32]⟩, -- SCRUB_DONE
  ⟨0, 0, 0x110, 1, 4, false, none, [.rc 0 32]⟩, -- CE_CNT
  ⟨0, 0, 0x114, 1, 4, false, none, [.rc 0 32]⟩, -- UE_CNT
  ⟨0, 0, 0x118, 1, 4, true, none, [.ro 0 64]⟩, -- UE_ADDR
  ⟨0, 0, 0x120, 1, 4, false, none, [.ro 0 6]⟩, -- UE_AGENT
  ⟨0, 0, 0x124, 1, 4, false, none, [.ro 0 16]⟩, -- FLOOR_LIMIT
  ⟨0, 0, 0x128, 1, 4, false, none, [.ro 0 16]⟩, -- FLOOR_SUM
  ⟨1, 24, 0x100, 1, 4, false, none, [.rc 0 32]⟩, -- CE_CNT
  ⟨1, 24, 0x104, 1, 4, false, none, [.rc 0 32]⟩, -- UE_CNT
  ⟨1, 24, 0x108, 1, 4, false, none, [.rc 0 32]⟩, -- LINK_RETRY_CNT
  ⟨1, 24, 0x10C, 1, 4, false, none, [.ro 0 4]⟩, -- TRAIN_TRIES
  ⟨1, 24, 0x110, 1, 4, false, none, [.ro 0 8]⟩, -- SPARE_ROWS
  ⟨25, 28, 0x100, 8, 32, false, none, [.ro 0 16]⟩, -- FLOOR
  ⟨25, 28, 0x108, 8, 32, true, none, [.ro 0 64]⟩, -- BYTES
  ⟨25, 28, 0x110, 8, 32, false, none, [.rc 0 32]⟩, -- FLOOR_MISS
  ⟨29, 29, 0x100, 2, 4, false, none, [.ro 0 32]⟩, -- KEY_LOADEDk
  ⟨29, 29, 0x110, 15, 4, false, none, [.ro 0 32]⟩, -- KEY_OWNERk
  ⟨29, 29, 0x14c, 1, 4, false, none, [.ro 0 32 0x3E3F3F3F]⟩ -- KEY_OWNER15
  ]

/-- Registers of the OWN pages. -/
def regsOwn : List RegRow := [
  ⟨0, 0, 0x100, 1, 4, false, none, [.wo 0 2, .wo 8 1]⟩, -- CMD
  ⟨0, 0, 0x104, 1, 4, false, none, [.rw 0 24]⟩, -- GRANULE
  ⟨0, 0, 0x108, 1, 4, false, none, [.rw 0 17]⟩, -- COUNT
  ⟨0, 0, 0x10C, 1, 4, false, none, [.rw 0 32]⟩, -- NEW_ENTRY
  ⟨0, 0, 0x110, 1, 4, false, none, [.rw 0 16]⟩, -- SIG_OBJ
  ⟨0, 0, 0x114, 1, 4, false, none, [.ro 0 3, .ro 31 1]⟩, -- RESULT
  ⟨0, 0, 0x118, 1, 4, false, none, [.ro 0 17]⟩, -- DONE_CNT
  ⟨1, 1, 0x100, 32, 4, false, none, [.rw 0 32]⟩, -- SHARE_GRANTp
  ⟨2, 2, 0x100, 1, 4, false, none, [.rw 0 24]⟩, -- ENT_SEL
  ⟨2, 2, 0x104, 1, 4, false, none, [.ro 0 32]⟩, -- ENT_A
  ⟨2, 2, 0x108, 1, 4, false, none, [.ro 0 32]⟩, -- ENT_B
  ⟨2, 2, 0x10C, 1, 4, false, none, [.ro 0 2]⟩, -- ENT_STAT
  ⟨3, 3, 0x100, 1, 4, false, none, [.rc 0 32]⟩, -- CHECK_FAIL_CNT
  ⟨3, 3, 0x104, 1, 4, false, none, [.ro 0 24, .ro 24 6, .ro 30 2]⟩, -- LAST_FAIL
  ⟨3, 3, 0x108, 1, 4, true, none, [.ro 0 64]⟩ -- MISS_CNT
  ]

/-- Registers of the SYN pages. -/
def regsSyn : List RegRow := [
  ⟨0, 0, 0x100, 1, 4, false, none, [.rw 0 16]⟩, -- OBJ_SEL
  ⟨0, 0, 0x104, 1, 4, false, none, [.ro 0 8 0xFF]⟩, -- OBJ_TYPE
  ⟨0, 0, 0x108, 1, 4, false, none, [.rw 0 32]⟩, -- OBJ_VALUE
  ⟨0, 0, 0x10C, 1, 4, false, none, [.ro 0 32]⟩, -- OBJ_PARAM
  ⟨0, 0, 0x110, 1, 4, false, none, [.rc 0 32]⟩, -- STALL_CNT
  ⟨0, 0, 0x114, 1, 4, false, none, [.rc 0 32]⟩, -- DISCARD_CNT
  ⟨0, 0, 0x118, 1, 4, true, none, [.ro 0 64]⟩, -- TAKE_CNT
  ⟨1, 1, 0x100, 64, 4, false, none, [.ro 0 32 0x3F3F3F3F]⟩, -- BLOCK_OWNERk
  ⟨2, 2, 0x100, 32, 4, false, none, [.rw 0 32 100000 [(1, 0xFFFFFFFF)]]⟩, -- WDOG_LIMITp
  ⟨3, 3, 0x100, 8, 4, false, none, [.rw 0 32]⟩ -- REMOTE_OKk
  ]

/-- Registers of the SCH pages, part 1. -/
def regsSch0 : List RegRow := [
  ⟨0, 0, 0x100, 1, 4, false, none, [.ro 0 32]⟩, -- PART_ACTIVE
  ⟨0, 0, 0x104, 1, 4, false, none, [.ro 0 32]⟩, -- RADIO_CLASS
  ⟨0, 0, 0x108, 1, 4, false, none, [.ro 0 8 240]⟩, -- POOL_FREE
  ⟨0, 0, 0x110, 8, 4, false, none, [.ro 0 32]⟩, -- POOL_MAPk
  ⟨0, 0, 0x130, 1, 4, true, none, [.ro 0 64]⟩, -- SWAP_CNT
  ⟨0, 0, 0x138, 1, 4, true, none, [.ro 0 64]⟩, -- RECLAIM_CNT
  ⟨0, 0, 0x140, 1, 4, false, none, [.rc 0 32]⟩, -- RECLAIM_MAX
  ⟨1, 32, 0x10, 1, 4, false, none, [.rw 0 1, .rw 1 1]⟩, -- CTRL
  ⟨1, 32, 0x14, 1, 4, false, none, [.ro 0 3, .ro 3 1]⟩, -- STAT
  ⟨1, 32, 0x100, 1, 4, false, none, [.rw 0 17 0 [(50, 100000)]]⟩, -- QUANTUM_US
  ⟨1, 32, 0x104, 1, 4, false, none, [.rw 0 17 10000 [(1, 0x1FFFF)]]⟩, -- FREEZE_LIMIT
  ⟨1, 32, 0x108, 1, 4, true, none, [.ro 0 64]⟩, -- SEED
  ⟨1, 32, 0x110, 1, 4, true, none, [.ro 0 64]⟩, -- SAVE_BASE
  ⟨1, 32, 0x118, 1, 4, false, none, [.ro 0 32]⟩, -- SAVE_FREE
  ⟨1, 32, 0x120, 8, 4, false, none, [.ro 0 32]⟩, -- MILLSk
  ⟨1, 32, 0x140, 8, 4, false, none, [.rw 0 32]⟩, -- LENDk
  ⟨1, 32, 0x160, 8, 4, false, none, [.ro 0 32]⟩, -- LENTk
  ⟨1, 32, 0x180, 1, 4, false, none, [.wo 0 13, .wo 13 3]⟩, -- SLICE_CMD
  ⟨1, 32, 0x184, 1, 4, false, none, [.rw 0 20]⟩, -- SLICE_PASID
  ⟨1, 32, 0x188, 1, 4, false, none, [.rw 0 16]⟩, -- SLICE_SHARE
  ⟨1, 32, 0x18C, 1, 4, false, none, [.rw 0 32]⟩, -- SLICE_STREAM
  ⟨1, 32, 0x190, 1, 4, false, none, [.ro 0 3, .ro 31 1]⟩, -- SLICE_RESULT
  ⟨1, 32, 0x194, 1, 4, false, none, [.rw 0 13]⟩, -- SLICE_SEL
  ⟨1, 32, 0x198, 1, 4, false, none, [.ro 0 2, .ro 8 8]⟩, -- SLICE_STAT
  ⟨1, 32, 0x1A0, 1, 4, true, none, [.ro 0 64]⟩, -- SLICE_MILL_NS
  ⟨1, 32, 0x1A8, 1, 4, true, none, [.ro 0 64]⟩, -- SLICE_STONE_NS
  ⟨1, 32, 0x1B0, 1, 4, true, none, [.ro 0 64]⟩, -- SLICE_VT
  ⟨1, 32, 0x1B8, 1, 4, false, none, [.ro 0 8, .ro 8 3, .ro 16 13]⟩, -- LAST_FAULT
  ⟨1, 32, 0x1BC, 1, 4, false, none, [.rc 0 32]⟩, -- FAULT_CNT
  ⟨1, 32, 0x200, 1, 4, false, none, [.rw 0 10 100 [(0, 1000)], .rw 16 1]⟩, -- RADIO_CTRL
  ⟨1, 32, 0x204, 1, 4, false, none, [.rw 0 10 20 [(5, 1000)]]⟩, -- LIST_LEAD_US
  ⟨1, 32, 0x208, 1, 4, false, none, [.ro 0 10]⟩, -- CELLS_BOUND
  ⟨1, 32, 0x20C, 1, 4, false, none, [.ro 0 10]⟩, -- LOAD_PM
  ⟨1, 32, 0x210, 1, 4, true, none, [.ro 0 64]⟩, -- SLOT_CNT
  ⟨1, 32, 0x218, 1, 4, false, none, [.rc 0 32]⟩, -- LATE_SLOT_CNT
  ⟨1, 32, 0x21C, 1, 4, false, none, [.rc 0 32]⟩, -- DAMAGED_CNT
  ⟨1, 32, 0x220, 1, 4, false, none, [.rc 0 32]⟩, -- LIST_MISSING_CNT
  ⟨1, 32, 0x224, 1, 4, false, none, [.rc 0 32]⟩, -- LOST_CNT
  ⟨1, 32, 0x228, 1, 4, true, none, [.ro 0 64]⟩, -- UL_LATE_DROP_CNT
  ⟨1, 32, 0x230, 1, 4, true, none, [.ro 0 64]⟩ -- ERASED_CNT
  ]

/-- Registers of the SCH pages, part 2. -/
def regsSch1 : List RegRow := [
  ⟨1, 32, 0x238, 1, 4, true, none, [.ro 0 64]⟩ -- DL_LATE_FILL_CNT
  ]

/-- Registers of the SCH pages. -/
def regsSch : List RegRow := regsSch0 ++ regsSch1

/-- Registers of the BOL pages. -/
def regsBol : List RegRow := [
  ⟨0, 19, 0x14, 1, 4, false, none, [.ro 0 2, .ro 4 5]⟩, -- STAT
  ⟨0, 19, 0x100, 1, 4, true, none, [.ro 0 64]⟩, -- UNIT_CNT
  ⟨0, 19, 0x108, 1, 4, true, none, [.ro 0 64]⟩, -- BUSY_CLK
  ⟨0, 19, 0x110, 1, 4, true, none, [.ro 0 64]⟩, -- ITER_SUM
  ⟨0, 19, 0x118, 1, 4, false, none, [.rc 0 32]⟩, -- PARITY_CNT
  ⟨0, 7, 0x200, 1, 4, false, none, [.rw 0 5, .rw 31 1]⟩, -- PART
  ⟨0, 7, 0x208, 2, 8, true, none, [.rw 0 64]⟩, -- BASEr
  ⟨0, 7, 0x218, 1, 4, false, none, [.rw 0 4 4 [(4, 12)], .rw 8 4 4 [(4, 12)]]⟩, -- SIZE
  ⟨0, 7, 0x21C, 2, 4, false, none, [.rw 0 16, .rw 16 16]⟩, -- OBJr
  ⟨0, 7, 0x224, 1, 4, false, none, [.rw 0 2]⟩, -- CTRL
  ⟨0, 7, 0x228, 1, 4, false, none, [.rw 0 32]⟩, -- SLOT_WORK
  ⟨0, 7, 0x22C, 1, 4, false, none, [.w1c 0 1]⟩, -- RING_ERR
  ⟨0, 7, 0x230, 1, 4, true, none, [.ro 0 64]⟩, -- DESC_CNT
  ⟨0, 7, 0x238, 1, 4, false, none, [.rc 0 32]⟩, -- CRC_FAIL_CNT
  ⟨0, 0, 0x300, 1, 4, false, none, [.ro 0 5 18]⟩, -- IN_SERVICE
  ⟨0, 0, 0x304, 1, 4, false, none, [.ro 0 11]⟩ -- SHARE_SUM
  ]

/-- Registers of the GRN pages. -/
def regsGrn : List RegRow := [
  ⟨0, 63, 0x14, 1, 4, false, none, [.ro 0 1]⟩, -- STAT
  ⟨0, 63, 0x100, 1, 4, false, none, [.ro 0 6 63, .ro 8 1]⟩, -- ASSIGN
  ⟨0, 63, 0x104, 4, 4, false, none, [.ro 0 32 0x3F3F3F3F]⟩, -- WAY_OWNERk
  ⟨0, 63, 0x118, 1, 4, true, none, [.ro 0 64]⟩, -- HIT_CNT
  ⟨0, 63, 0x120, 1, 4, true, none, [.ro 0 64]⟩, -- MISS_CNT
  ⟨0, 63, 0x128, 1, 4, true, none, [.ro 0 64]⟩, -- WB_CNT
  ⟨0, 63, 0x130, 1, 4, true, none, [.ro 0 64]⟩, -- ATOMIC_CNT
  ⟨0, 63, 0x138, 1, 4, false, none, [.rc 0 32]⟩, -- ECC_CE_CNT
  ⟨0, 63, 0x13C, 1, 4, false, none, [.ro 0 16]⟩ -- LOST_CNT
  ]

/-- Registers of the NOC pages. -/
def regsNoc : List RegRow := [
  ⟨0, 3, 0x100, 1, 4, true, none, [.ro 0 64]⟩, -- TC0_BYTES
  ⟨0, 3, 0x108, 1, 4, true, none, [.ro 0 64]⟩, -- TC1_BYTES
  ⟨0, 3, 0x110, 1, 4, true, none, [.ro 0 64]⟩, -- TC2_BYTES
  ⟨0, 3, 0x118, 1, 4, true, none, [.ro 0 64]⟩, -- DETACH_CNT
  ⟨0, 3, 0x120, 1, 4, false, none, [.rc 0 32]⟩ -- RETRY_CNT
  ]

/-- Registers of the MILL pages. -/
def regsMill : List RegRow := [
  ⟨0, 255, 0x14, 1, 4, false, none, [.ro 0 2, .ro 2 2]⟩, -- STAT
  ⟨0, 255, 0x100, 1, 4, false, none, [.ro 0 8, .ro 31 1]⟩, -- LOGICAL
  ⟨0, 255, 0x104, 1, 4, false, none, [.ro 0 3, .ro 4 3, .ro 8 1, .ro 9 1, .ro 10 1]⟩, -- CTX_STAT
  ⟨0, 255, 0x108, 1, 4, false, none, [.ro 0 8, .ro 8 3, .ro 16 16]⟩, -- LEAF0_FAULT
  ⟨0, 255, 0x10C, 1, 4, false, none, [.ro 0 8, .ro 8 3, .ro 16 16]⟩, -- LEAF1_FAULT
  ⟨0, 255, 0x120, 2, 32, false, none, [.ro 0 5, .ro 16 13]⟩, -- OWNER
  ⟨0, 255, 0x124, 2, 32, false, none, [.ro 0 8, .ro 8 8]⟩, -- DMEM
  ⟨0, 255, 0x128, 2, 32, false, none, [.ro 0 5, .ro 8 5]⟩, -- ACC
  ⟨0, 255, 0x12c, 2, 32, false, none, [.ro 0 9, .ro 16 10]⟩, -- QSTORE
  ⟨0, 255, 0x130, 2, 32, false, none, [.ro 0 5, .ro 8 6]⟩, -- MDM
  ⟨0, 255, 0x134, 2, 32, false, none, [.ro 0 4]⟩, -- STONES
  ⟨0, 255, 0x160, 1, 4, false, none, [.ro 0 1, .ro 1 3, .ro 4 1, .ro 16 9, .ro 31 1]⟩, -- IMEM_LOG
  ⟨0, 255, 0x164, 1, 4, false, none, [.rc 0 32]⟩, -- IMEM_REFUSED_CNT
  ⟨0, 255, 0x168, 1, 4, false, none, [.ro 0 8, .ro 8 8]⟩, -- ENG_STAT
  ⟨0, 255, 0x170, 1, 4, true, none, [.ro 0 64]⟩, -- LEAF0_ACTIVE_CLK
  ⟨0, 255, 0x178, 1, 4, true, none, [.ro 0 64]⟩, -- LEAF1_ACTIVE_CLK
  ⟨0, 255, 0x180, 1, 4, true, none, [.ro 0 64]⟩, -- STONE_CLK0
  ⟨0, 255, 0x188, 1, 4, true, none, [.ro 0 64]⟩, -- STONE_CLK1
  ⟨0, 255, 0x190, 1, 4, true, none, [.ro 0 64]⟩, -- STONE_CLK2
  ⟨0, 255, 0x198, 1, 4, true, none, [.ro 0 64]⟩, -- STONE_CLK3
  ⟨0, 255, 0x1A0, 1, 4, true, none, [.ro 0 64]⟩, -- HOPPER_WAIT_CLK
  ⟨0, 255, 0x1A8, 1, 4, true, none, [.ro 0 64]⟩, -- SKIP_SLICES
  ⟨0, 255, 0x1B0, 1, 4, true, none, [.ro 0 64]⟩, -- SPOUT_WORDS
  ⟨0, 255, 0x1B8, 1, 4, false, none, [.ro 0 2, .ro 4 2, .ro 8 4]⟩, -- GANG_STAT
  ⟨0, 255, 0x1BC, 1, 4, false, none, [.ro 0 4, .ro 8 1]⟩ -- SPOUT_STAT
  ]

/-- Registers of the REP pages. -/
def regsRep : List RegRow := [
  ⟨0, 0, 0x14, 1, 4, false, none, [.ro 0 1]⟩, -- STAT
  ⟨0, 0, 0x100, 1, 4, false, none, [.wo 0 2]⟩, -- REP_CMD
  ⟨0, 0, 0x104, 1, 4, false, none, [.rw 0 32]⟩, -- REP_ARG0
  ⟨0, 0, 0x108, 1, 4, false, none, [.rw 0 32]⟩, -- REP_ARG1
  ⟨0, 0, 0x10C, 1, 4, false, none, [.ro 0 3, .ro 31 1]⟩, -- REP_RESULT
  ⟨0, 0, 0x110, 1, 4, false, none, [.rw 0 1, .rw 8 16 64 [(1, 0xFFFF)]]⟩, -- REP_CTRL
  ⟨0, 0, 0x120, 8, 4, false, none, [.w1c 0 32]⟩, -- SPARE_WANTEDk
  ⟨1, 1, 0x100, 1, 4, false, none, [.ro 0 11]⟩, -- REC_STAT
  ⟨1, 1, 0x108, 8, 4, false, none, [.ro 0 32]⟩, -- REC_DATAi
  ⟨1, 1, 0x128, 1, 4, false, none, [.wo 0 1]⟩, -- REC_POP
  ⟨1, 1, 0x12C, 1, 4, false, none, [.rc 0 32]⟩, -- REC_OVF_CNT
  ⟨1, 1, 0x130, 1, 4, true, none, [.ro 0 64]⟩, -- REC_TOTAL
  ⟨2, 2, 0x100, 1, 4, false, none, [.rw 0 12, .rw 12 2 0 [(0, 2)]]⟩, -- DT_SEL
  ⟨2, 2, 0x104, 4, 4, false, none, [.ro 0 32]⟩, -- DT_ENTRYi
  ⟨2, 2, 0x114, 1, 4, false, none, [.ro 0 13]⟩, -- DT_COUNT
  ⟨2, 2, 0x118, 1, 4, false, none, [.ro 0 11]⟩, -- DT_FIELD_FREE
  ⟨3, 3, 0x100, 1, 4, false, none, [.rw 0 8]⟩, -- AGE_SEL
  ⟨3, 3, 0x104, 1, 4, false, none, [.ro 0 8]⟩, -- AGE_SLACK
  ⟨3, 3, 0x108, 1, 4, false, none, [.ro 0 8]⟩, -- AGE_MIN
  ⟨3, 3, 0x10C, 1, 4, false, none, [.rw 0 8 30 [(10, 80)]]⟩ -- AGE_WARN_PM
  ]

/-- Registers of the MGT pages. -/
def regsMgt : List RegRow := [
  ⟨1, 1, 0x14, 1, 4, false, none, [.ro 0 1]⟩, -- STAT
  ⟨1, 1, 0x100, 1, 4, false, none, [.ro 0 8]⟩, -- BOOT_STEP
  ⟨1, 1, 0x108, 1, 4, true, none, [.ro 0 64]⟩, -- BOOT_DONE
  ⟨1, 1, 0x110, 1, 4, true, none, [.ro 0 64]⟩, -- BOOT_MARKED
  ⟨1, 1, 0x118, 1, 4, true, none, [.ro 0 16, .ro 16 8, .ro 24 2, .ro 32 8, .ro 40 2, .ro 44 2, .ro 63 1]⟩, -- RET
  ⟨1, 1, 0x120, 1, 4, false, none, [.ro 0 8]⟩, -- ALT_STAT
  ⟨1, 1, 0x124, 1, 4, false, none, [.ro 0 32]⟩, -- START_NO
  ⟨1, 1, 0x128, 1, 4, false, none, [.wo 0 16, .wo 31 1]⟩, -- MEMO_CLR
  ⟨1, 1, 0x130, 1, 4, true, none, [.ro 0 64]⟩, -- RECORD_ID
  ⟨1, 1, 0x138, 1, 4, false, none, [.ro 0 32]⟩, -- BOOT_US
  ⟨0, 0, 0x100, 1, 4, true, none, [.rw 0 64]⟩, -- MBX_ADDR
  ⟨0, 0, 0x108, 1, 4, false, none, [.wo 0 8]⟩, -- MBX_CMD
  ⟨0, 0, 0x10C, 1, 4, false, none, [.ro 0 8, .ro 31 1]⟩ -- MBX_STAT
  ]
/-- The field tables of a block. -/
def regRows : Block → List RegRow
  | .root => regsRoot | .sec => regsSec | .gov => regsGov | .ftl => regsFtl | .eth => regsEth | .slu => regsSlu
  | .weir => regsWeir | .hif => regsHif | .mem => regsMem | .own => regsOwn | .syn => regsSyn | .sch => regsSch
  | .bol => regsBol | .grn => regsGrn | .noc => regsNoc | .mill => regsMill | .rep => regsRep | .mgt => regsMgt

/-- The writable registers of the common header (R39, R40): ERR_STAT, ERR_MASK, INT_STAT, INT_EN, INT_SET, LOCK,
INT_VEC, and the read-only PAGE_ID, PAGE_REV, CAP_NEXT, PAGE_SIZE. CTRL and STAT are rows of the block tables. -/
def headerRow : Nat → Option RegRow
  | 0x000 => some ⟨0, 255, 0x000, 1, 4, false, none, [.ro 0 16, .ro 16 8, .ro 24 8]⟩
  | 0x004 => some ⟨0, 255, 0x004, 1, 4, false, none, [.ro 0 8, .ro 8 8]⟩
  | 0x008 => some ⟨0, 255, 0x008, 1, 4, false, none, [.ro 0 24]⟩
  | 0x00C => some ⟨0, 255, 0x00C, 1, 4, false, none, [.ro 0 32]⟩
  | 0x018 => some ⟨0, 255, 0x018, 1, 4, false, none, [.w1c 0 32]⟩
  | 0x01C => some ⟨0, 255, 0x01C, 1, 4, false, none, [.rw 0 32]⟩
  | 0x020 => some ⟨0, 255, 0x020, 1, 4, false, none, [.w1c 0 32]⟩
  | 0x024 => some ⟨0, 255, 0x024, 1, 4, false, none, [.rw 0 32]⟩
  | 0x028 => some ⟨0, 255, 0x028, 1, 4, false, none, [.wo 0 32]⟩
  | 0x02C => some ⟨0, 255, 0x02C, 1, 4, false, none, [.w1s 0 1, .ro 1 1]⟩
  | 0x030 => some ⟨0, 255, 0x030, 1, 4, false, none, [.rwl 0 11]⟩
  | _ => none

/-- Whether the 4-byte word at offset `o` of page `i` lies in the row: the index of the register and the half. -/
def RegRow.hit (r : RegRow) (i o : Nat) : Option (Nat × Bool) :=
  if r.p0 ≤ i ∧ i ≤ r.p1 ∧ r.off ≤ o ∧ 0 < r.stride then
    let st := if r.wide then max 8 r.stride else r.stride
    let k := (o - r.off) / st
    let d := (o - r.off) % st
    if k < r.n then
      if d = 0 then some (k, false) else if d = 4 ∧ r.wide then some (k, true) else none
    else none
  else none

/-- What a BAR0 word is: its block, page, row, and whether it is the high half of a 64-bit register. -/
structure RegHit where
  blk : Block
  page : Nat
  row : RegRow
  hi : Bool
deriving DecidableEq, Repr

/-- The register that a 4-byte aligned BAR0 offset names; none where the page holds none there. -/
def regAt (addr : Nat) : Option RegHit :=
  match pageAt addr with
  | none => none
  | some (b, i) =>
    let o := addr % 0x1000
    match headerRow o with
    | some r => some ⟨b, i, r, false⟩
    | none => (regRows b).findSome? (fun r => (r.hit i o).map (fun (_, hi) => ⟨b, i, r, hi⟩))

/-- The reset value of the word at a BAR0 offset, as the field tables state it. -/
def resetAt (addr : Nat) : Word :=
  match regAt addr with
  | none => 0
  | some h => BitVec.ofNat 32 (halfOf h.hi (h.row.flds.foldl (fun a f => a + f.rst * 2 ^ f.lo) 0))

/-- The reset value of a stored word: windowed registers are keyed 2^26 × (item + 1) above their offset. -/
def resetKey (key : Nat) : Word := resetAt (key % 2 ^ 26)

end Sys2Proof.Machine
end

