-- ==== Sys2Proof/Machine/StateGov.lean ====
section
/-! DEFINITION. Plain data of the governor, the clock domains and rows (chapters 19, 20). -/
namespace Sys2Proof.Machine

/-- States of a mill row (R505, R506). -/
inductive RowSt where
  | off | parked | starting | running
deriving DecidableEq, Repr

/-- A mill row (R494, R496, R505, R506): its state and since when, whether a wake in progress is from OFF, whether an OFF entry is
in progress with a wake latched behind it, its operating point, the dip in progress (start, least mV), and the fantail time it
has spent RUNNING and OFF before the present state. -/
structure Row where
  st : RowSt
  fromOff : Bool
  since : Nat
  opp : Nat
  dip : Option Nat
  runNs : Nat
  offNs : Nat
deriving DecidableEq, Repr

/-- A row that is OFF. -/
def Row.blank : Row := ⟨.off, false, 0, 0, none, 0, 0⟩

/-- A clock domain other than a row's (R502, R503): state (0 OFF, 1 STOPPED, 2 STARTING, 3 RUNNING), whether its clock input was
lost, since when it is in this state, and the fantail time it has spent RUNNING before. -/
structure Dom where
  st : Nat
  fault : Bool
  since : Nat
  runNs : Nat
deriving DecidableEq, Repr

/-- A domain that is OFF. -/
def Dom.blank : Dom := ⟨0, false, 0, 0⟩

/-- A governor record (R499). -/
structure EvRec where
  time : Nat
  typ : Nat
  val : Nat
  aux16 : Nat
  aux32 : Nat
deriving DecidableEq, Repr

/-- The governor (R489 to R500): rows and domains; the powers of the latest windows in mW, newest first; the three parts of B;
since when B is at least 16, and since when B is 0 with power to spare; the end of the latest dip while its hold runs, and when
B_dip last fell; sensor temperatures in quarter degrees; when stones left idle in the latest microsecond; the stones held by soft
start and when each is released; since when B is not zero; event records, oldest first; per row, when a leaf of it last was neither
EMPTY nor RESIDENT, and when one last was not EMPTY (R505). -/
structure Gov where
  rows : KMap Row
  doms : KMap Dom
  powers : List Nat
  bCap : Nat
  bTherm : Nat
  bDip : Nat
  highFrom : Option Nat
  lowFrom : Option Nat
  dipHold : Option Nat
  rampAt : Option Nat
  temps : KMap Int
  starts : List Nat
  softHeld : List (Nat × Nat)
  throttleFrom : Option Nat
  evs : List EvRec
  actAt : KMap Nat
  fullAt : KMap Nat
deriving DecidableEq, Repr

end Sys2Proof.Machine
end

