-- ==== Sys2Proof/Machine/StateIo.lean ====
section
/-! DEFINITION. Plain data of the host interface and of what leaves the block (chapters 13, 22). -/
namespace Sys2Proof.Machine

/-- A write to host memory (R72, R370): under a PASID at an I/O virtual address, or at a host-physical address. -/
structure HostWr where
  pasid : Option Nat
  addr : Nat
  data : List Byte
deriving DecidableEq, Repr

/-- Kinds of fabric request (R379). -/
inductive FabKind where
  | read | write | fetchAdd
deriving DecidableEq, Repr

/-- A request that left for a peer (R379). -/
structure FabReq where
  kind : FabKind
  dpid : Nat
  addr : DWord
  data : List Byte
deriving DecidableEq, Repr

/-- A watch of a KICK entry (R368); `sat` once its condition held. -/
structure Watch where
  slice : Nat
  obj : Nat
  cmp : Word
  tag : Nat
  sat : Bool
deriving DecidableEq, Repr

/-- A completion entry the HIF holds while the ring is full (R372): its fields, and when it was held. -/
structure HeldCpl where
  tag : Nat
  kind : Nat
  status : Nat
  code : Nat
  inst : Nat
  eng : Nat
  step : Nat
  since : Nat
deriving DecidableEq, Repr

/-- A slice's rings (R363 to R372): enable and error bits, submission head and tail, completion write index and head, the
phase of the entries now written, entries held, the writes that await their global-observation response, oldest first
(R371), and a submission entry that was fetched and is not acted on yet. -/
structure Ring where
  enabled : Bool
  sqErr : Bool
  xlateErr : Bool
  sqHead : Nat
  sqTail : Nat
  cqWrite : Nat
  cqHead : Nat
  phase : Bool
  held : List HeldCpl
  awaiting : List HostWr
  entry : Option Line
deriving DecidableEq, Repr

/-- A ring that is disabled. -/
def Ring.off : Ring := ⟨false, false, false, 0, 0, 0, 0, true, [], [], none⟩

/-- A translation in the device TLB (R374): PASID, page base, log2 of the page size, host-physical page base, permissions. -/
structure TlbEnt where
  pasid : Nat
  va : Nat
  log : Nat
  hpa : Nat
  rd : Bool
  wr : Bool
deriving DecidableEq, Repr

/-- A host-memory line held in the host line cache, and when it was last used (R376). -/
structure HlcLine where
  data : Line
  used : Nat
deriving DecidableEq, Repr

/-- A digest record handed to the HIF and not yet published (R536, R538). -/
structure DigRec where
  part : Nat
  slice : Nat
  digest : DWord
  tensor : Nat
  layer : Nat
  inst : Nat
  point : Nat
deriving DecidableEq, Repr

/-- A digest comparison in progress (R539, R540): the record and its emission number, when its first read issued, and when a
read that found nothing yet is issued again (none while a read is outstanding). -/
structure DigCmp where
  rcd : DigRec
  emit : Nat
  since : Nat
  retryAt : Option Nat
deriving DecidableEq, Repr

/-- The host interface (chapters 13, 22): rings by slice, watches, the device TLB, invalidations that await completion, the
line cache's lines, whether the CXL link is up, partitions whose lease lapse has been acted on, requests
that timed out and whose completion may still come; digest records not yet published, the records delivered
to each slice's digest ring, comparisons in progress; what was written to host memory and sent to peers; what host reads of
device memory, snoops and peers were answered, none for an Unsupported Request; the address in the CXL RAS header log (R378). -/
structure Hif where
  rings : KMap Ring
  watches : List Watch
  tlb : List TlbEnt
  inval : List (Nat × Nat × Nat)
  hlc : KMap HlcLine
  hlcClock : Nat
  linkUp : Bool
  lapsed : KMap Bool
  timedOut : Nat
  digQ : List DigRec
  digNext : KMap Nat
  digCmps : List DigCmp
  hostW : List HostWr
  fab : List FabReq
  answers : List (Option (List Byte))
  ras : Option Nat
deriving DecidableEq, Repr

/-- A servo (R476 to R480): its state, integrator and last output in ppb, its rate, its latest outputs (at most 16, latest first), the
updates in a row below LOCK_NS, its VIRT_OFS in units of 2^−48 ns as it stood at a count, and when it entered HOLDOVER. -/
structure Servo where
  st : Nat
  integ : Int
  rate : DWord
  hist : List Int
  good : Nat
  virt : Int
  virtAt : Nat
  since : Nat
deriving DecidableEq, Repr

/-- The nominal RATE (R470). -/
def nominalRate : DWord := 0x0000CCCCCCCCCCCD

/-- A servo at cold power-on. -/
def Servo.zero : Servo := ⟨0, 0, nominalRate, [], 0, 0, 0, 0⟩

/-- A stamp in the transmit FIFO (R482): time in ns, sequenceId, messageType, port, servo index of its domain. -/
structure TsEnt where
  ns : Nat
  seqId : Nat
  typ : Nat
  port : Nat
  dom : Nat
deriving DecidableEq, Repr

/-- The fantail (chapter 18): COUNT, RATE and OFFSET (R470); the servos; whether a switch is being slewed out (R480) and whether the
reference is lost (R479); the snapshots of R488; per ticker its next target (R483), per output the end of its pulse (R484); the
captures not yet read (R485); ToD bytes to send at the next event of ticker 0, sent and received; transmit stamps (R482), oldest
first; PTP frames handed to the workshop, with their ports and stamps. -/
structure Ftl where
  count : DWord
  rate : DWord
  offset : Nat
  servos : KMap Servo
  slewing : Bool
  refLost : Bool
  snapFrac : Word
  snapCount : DWord
  snapNsec : Word
  tickers : KMap Nat
  pulses : KMap Nat
  unread : KMap Bool
  todArmed : Bool
  todSent : List (Nat × List Byte)
  todRx : List Byte
  stamps : List TsEnt
  ptpRx : List (Nat × Nat × List Byte)
deriving DecidableEq, Repr

end Sys2Proof.Machine
end

