-- ==== Sys2Proof/Machine/StateNet.lean ====
section
/-! DEFINITION. Plain data of the Ethernet ports, the sluice, the weir and the bolters (chapters 15, 16, 17). -/
namespace Sys2Proof.Machine

/-- A frame in an egress queue, without its FCS: its bytes (none for a tenant frame that was dropped and waits for its turn in
ring order), its release and close times (classes 1 and 2, R455), when it was
queued, the downlink symbol it carries (cell, slot, symbol), and the partition whose ring it came from (R458). -/
structure Frame where
  bytes : List Byte
  window : Option (Nat × Nat)
  queued : Nat
  symbol : Option (Nat × Nat × Nat)
  tenant : Option Nat
deriving DecidableEq, Repr

/-- An egress queue (R458 to R461): frames, oldest first; the next descriptor to fetch and descriptors done; the shaper's credit
in bytes × 8,000 and when it was last brought up to date; the deficit. -/
structure TxQueue where
  frames : List Frame
  next : Nat
  done : Nat
  stopped : Bool
  credit : Nat
  creditAt : Nat
  deficit : Nat
deriving DecidableEq, Repr

/-- A queue that holds nothing. -/
def TxQueue.empty : TxQueue := ⟨[], 0, 0, false, 0, 0, 0⟩

/-- A port (R429, R432, R454): whether its link is up or retraining; the frame in transmission with its queue; class 0 credit in
bytes × 8,000 and when it was brought up to date; the queue last served in each tenant class, and the queue of each class whose
visit goes on (R461); ESMC frames received, oldest first. -/
structure Port where
  up : Bool
  training : Bool
  sending : Option (Nat × Frame)
  ptpCredit : Nat
  ptpAt : Nat
  last : KMap Nat
  visit : KMap Nat
  esmc : List (List Byte)
deriving DecidableEq, Repr

/-- A port after reset: MODE 0, no link. -/
def Port.off : Port := ⟨false, false, none, 0, 0, [], [], []⟩

/-- FRER recovery of a flow (R433): the highest sequence number passed, a bit for each of the 32 numbers up to it, and when a
frame last passed. -/
structure Recovery where
  top : Nat
  hist : Nat
  at_ : Nat
deriving DecidableEq, Repr

/-- A bound flow (R433, R437 to R439): its cell; the next R-TAG number; the recovery state once a frame passed; next eCPRI
sequence ids sent and last ids received, keyed by eAxC offset (and direction); the index of its queues on each port. -/
structure Flow where
  cell : Nat
  rtag : Nat
  rec_ : Option Recovery
  txSeq : KMap Nat
  rxSeq : KMap Nat
  qA : Nat
  qB : Nat
deriving DecidableEq, Repr

/-- A steering entry at work (R463, R464): slots written, and the two buckets with their time. -/
structure Steer where
  written : Nat
  tc : Nat
  tp : Nat
  last : Nat
deriving DecidableEq, Repr

/-- A steering entry that is off. -/
def Steer.off : Steer := ⟨0, 0, 0, 0⟩

/-- The ports, bound flows by number, egress queues and steering entries; lanes that receive a signal; the frames that left, with
their ports; the PTP frames that received time-stamps are in the fantail. -/
structure Net where
  ports : KMap Port
  flows : KMap Flow
  queues : KMap TxQueue
  steers : KMap Steer
  signal : KMap Bool
  sent : List (Nat × List Byte)
deriving DecidableEq, Repr

/-- A descriptor of a bolter ring in flight (R413): ring, index, its 64 bytes; units not yet taken, and the number not yet done; the
result so far, the largest iteration count, the code blocks that failed, the bits of each unit that is done, and the
place of its fetch among all. -/
structure BolDesc where
  ring : Nat
  idx : Nat
  bytes : List Byte
  todo : List Nat
  undone : Nat
  result : Nat
  iter : Nat
  fails : Nat
  bits : KMap (List Bool)
  ord : Nat
deriving DecidableEq, Repr

/-- A bolter ring set (R411 to R413): the next descriptor of each ring to read; descriptors in flight, oldest first; the ring whose
descriptor comes next; rings stopped by an overrun, a bit each. -/
structure BolSet where
  next0 : Nat
  next1 : Nat
  descs : List BolDesc
  turn : Nat
  stop : Nat
deriving DecidableEq, Repr

/-- A ring set that holds nothing. -/
def BolSet.empty : BolSet := ⟨0, 0, [], 0, 0⟩

/-- A unit that a physical bolter runs (R413): ring set, ring, descriptor index, code block, and when it started. -/
structure BolUnit where
  set : Nat
  ring : Nat
  idx : Nat
  cb : Nat
  since : Nat
deriving DecidableEq, Repr

/-- The bolters: ring sets, the unit that each physical bolter runs, the units each partition has been served (R422), and the
descriptors fetched so far. -/
structure Bolters where
  sets : KMap BolSet
  units : KMap BolUnit
  served : KMap Nat
  fetched : Nat
deriving DecidableEq, Repr

end Sys2Proof.Machine
end

