-- ==== Sys2Proof/Machine/StateSec.lean ====
section
/-! DEFINITION. Plain data of the start sequence, of the flash it writes, and of the security unit (chapters 21, 24). -/
namespace Sys2Proof.Machine

/-- A story-stick step in progress (R518, R520): its alternate, the attempts that failed, and when the attempt began. -/
structure BootRun where
  step : Nat
  alt : Nat
  tries : Nat
  since : Nat
deriving DecidableEq, Repr

/-- An entry of the flash log (R522). -/
structure LogEnt where
  startNo : Nat
  cause : Nat
  outcome : Nat
  failStep : Nat
  failAlt : Nat
  failKind : Nat
  done : Nat
  marked : Nat
deriving DecidableEq, Repr

/-- The boot sequencer, its inputs and the flash log (R511, R518 to R527, R595): VDD_AO valid, PWRGD high, PERST_N high, a core rail out of
tolerance, held in D3hot; no start yet since AO power-on; when PWRGD and PERST_N rose and when the start began; steps in
progress; whether a HALT is in force; `RET` as the previous start left it; alternates in use; the memos that this start uses; in
flash, the header's memos and newest START_NO and the log, oldest entry first; whether step 6 passed; a memo clear that awaits
the next start; the RECORD_ID last verified; CARD_RESET_N released; Memory_Info_Valid and Memory_Active; the image that runs; what the
I3C ports answered. -/
structure Boot where
  aoOn : Bool
  pwrgd : Bool
  perst : Bool
  railBad : Bool
  d3 : Bool
  aoFresh : Bool
  pwrgdAt : Nat
  perstAt : Nat
  from_ : Nat
  running : List BootRun
  halted : Bool
  prevRet : DWord
  alts : KMap Nat
  memo : KMap Nat
  hdrMemo : KMap Nat
  hdrNo : Nat
  log : List LogEnt
  logOk : Bool
  memoClr : Bool
  lastRecord : Option DWord
  cardReleased : Bool
  memValid : Bool
  memActive : Bool
  image : Option (Word × Word × Word × List Byte)
  i3c : List (List Byte)
deriving DecidableEq, Repr

/-- The sequencer at AO power-on. -/
def Boot.zero : Boot :=
  { aoOn := true, pwrgd := false, perst := false, railBad := false, d3 := false, aoFresh := true, pwrgdAt := 0, perstAt := 0,
    from_ := 0, running := [], halted := false, prevRet := 0, alts := [], memo := [], hdrMemo := [], hdrNo := 0, log := [],
    logOk := false, memoClr := false, lastRecord := none, cardReleased := false, memValid := false, memActive := false,
    image := none, i3c := [] }

/-- The signed configuration record as the start read it (R489, R525, R544). -/
structure Card where
  caps : List Nat
  boardMax : Nat
  floorBase : Nat
  rowRadio : Nat
  repairs : List DtEntry
  rcd : Option CfgRecord
deriving DecidableEq, Repr

/-- A floor record in flash (R567): IMG_FLOOR, CFG_FLOOR, COMMIT_NO. -/
structure FloorRec where
  img : Nat
  cfg : Nat
  no : Nat
deriving DecidableEq, Repr

/-- An SPDM session (R572): its transport, whether FINISH completed it, and its key updates. -/
structure Session where
  transport : Transport
  ready : Bool
  keyGen : Nat
deriving DecidableEq, Repr

/-- What the SPDM responder answers (R572 to R576). -/
inductive SpdmRsp where
  | version
  | capabilities
  | algorithms
  | digests (d : List Byte)
  | certificate (part : List Byte) (left : Nat)
  | challengeAuth (sig : List Byte)
  | measurements (blocks : List (Nat × List Byte)) (sig : List Byte)
  | keyExchange (session : Nat) (ct sig : List Byte)
  | finish (session : Nat)
  | keyUpdate (session : Nat)
  | heartbeat (session : Nat)
  | endSession (session : Nat)
  | vendor (session : Nat) (ok : Bool)
  | tspCapabilities (session : Nat)
  | tspReport (session : Nat) (locked : Bool) (bound : List (Nat × Nat)) (settings : List Nat)
  | error (code : Nat)
deriving DecidableEq, Repr

/-- The security unit (chapter 24): the migration key K_m; the decapsulation key and nonce of the latest OFFER; partition images
exported, with their buffer addresses; the copies of the floor record in flash, none when not authentic; how far each
transport's SPDM negotiation is (0 none, 1 version, 2 capabilities, 3 algorithms); sessions by number and the next number;
answers given, oldest first; IDE keys, stream 0 the link and 1 to 8 selective; ID_DIGEST of the identity; the
measurement blocks fixed at step 40 (R573). -/
structure Sec where
  km : Option (List Byte)
  kem : Option (List Byte × List Byte)
  exports : List (Nat × Image)
  floorA : Option FloorRec
  floorB : Option FloorRec
  conns : KMap Nat
  sessions : KMap Session
  nextSess : Nat
  rsp : List (Transport × SpdmRsp)
  ide : KMap (List Byte)
  idDigest : List Byte
  meas : KMap (List Byte)
deriving DecidableEq, Repr

/-- A security unit that holds nothing. -/
def Sec.zero : Sec := ⟨none, none, [], none, none, [], [], 1, [], [], [], []⟩

end Sys2Proof.Machine
end

