-- ==== Sys2Proof/Machine/State.lean ====
section
/-! DEFINITION. The state of the block: everything the spec gives it, as plain data, and the state after reset. -/
namespace Sys2Proof.Machine

/-- Why the machine stops. The spec gives every command an effect, and no rule of it stops the block: there is no reason to name. -/
inductive Fault
deriving DecidableEq, Repr

/-- Why a command has no meaning. -/
inductive Refusal where
  /-- Raised by arms of `exec` that have no meaning; there is none left. Safe: nothing could be proved of what such a command does. -/
  | notModelled (mnemonic : String)
deriving DecidableEq, Repr

/-- The state of the block. `pending` holds the commands that wait, first in first out. `freshNo` numbers the free values
used so far (the model's own). -/
structure State where
  pending : List Instr
  freshNo : Nat
  bus : Bus
  mills : KMap Mill
  sync : Sync
  sched : Sched
  mem : Mem
  grn : Granary
  hif : Hif
  ftl : Ftl
  cells : KMap Cell
  rep : Rep
  gov : Gov
  net : Net
  bol : Bolters
  card : Card
  boot : Boot
  sec : Sec
deriving DecidableEq, Repr

/-- What a command answers. -/
abbrev Res := Host.Outcome State Fault Refusal

/-! ### The state after reset: AO power-on, with PWRGD low (R511, R513). Lists of what left the block are empty. -/

def Bus.zero : Bus := ⟨[], [], [], [], [], false, [], 0⟩
def Sync.zero : Sync := ⟨[], []⟩

/-- No partition exists; the loan after the first goes to the lowest partition (log 7). -/
def Sched.zero : Sched := ⟨[], [], [], [], [], [], [], 31, [], 0, none, false, []⟩

/-- Slot 63 belongs to the device and is empty until step 17 (R344, R579). -/
def Mem.zero : Mem := ⟨[], [], [], [], [], [], [], none, [(63, { KeySlot.empty with owner := 62 })], 1, []⟩
def Granary.zero : Granary := ⟨[], [], [], 0⟩
def Hif.zero : Hif := ⟨[], [], [], [], [], 0, false, [], 0, [], [], [], [], [], [], none⟩

/-- COUNT, OFFSET and servo states 0, RATE nominal (R470); no reference yet (R488). -/
def Ftl.zero : Ftl := ⟨0, nominalRate, 0, [], false, true, 0, 0, 0, [], [], [], false, [], [], [], []⟩
def Rep.zero : Rep := ⟨[], 0, [], [], [], [], none, [], [], [], [], []⟩

/-- Only CD00 runs (R502). -/
def Gov.zero : Gov := ⟨[], [(0, ⟨3, false, 0, 0⟩)], [], 0, 0, 0, none, none, none, none, [], [], [], none, [], [], []⟩
def Net.zero : Net := ⟨[], [], [], [], [], []⟩
def Bolters.zero : Bolters := ⟨[], [], [], 0⟩

/-- What stands for the signed record until a start reads it (log 7). -/
def Card.zero : Card := ⟨[0x10, 0x20, 0x30, 0x31, 0x32, 0x33, 0x40, 0x41, 0x50, 0x60, 0x61], 550, 70, 26, [], none⟩

/-- The machine right after AO power-on. -/
def State.reset : State :=
  { pending := [], freshNo := 0, bus := Bus.zero, mills := [], sync := Sync.zero, sched := Sched.zero, mem := Mem.zero,
    grn := Granary.zero, hif := Hif.zero, ftl := Ftl.zero, cells := [], rep := Rep.zero, gov := Gov.zero, net := Net.zero,
    bol := Bolters.zero, card := Card.zero, boot := Boot.zero, sec := Sec.zero }

end Sys2Proof.Machine
end

