-- ==== Sys2Proof/Machine/Flags.lean ====
section
/-! DEFINITION. Register words, error flags and interrupt flags of the register pages, and MSI-X messages (R33, R38, R40,
R44 to R46). Every read and write of a stored register word goes through `getW` and `setW`. -/
namespace Sys2Proof.Machine

/-- The stored word under a key (a BAR0 offset, or 2^26 × (item + 1) above it for windowed registers). -/
def getW (s : State) (a : Nat) : Word := mget (resetKey a) s.bus.words a

/-- Store a word; a word at its reset value is not listed. -/
def setW (s : State) (a : Nat) (v : Word) : State :=
  { s with bus := { s.bus with words := mset (resetKey a) s.bus.words a v } }

/-- The stored 64-bit register whose low half is under a key (R34). -/
def getD64 (s : State) (a : Nat) : DWord := (getW s (a + 4)) ++ (getW s a)

/-- Store a 64-bit register. -/
def setD64 (s : State) (a : Nat) (v : DWord) : State :=
  setW (setW s a (v.setWidth 32)) (a + 4) ((v >>> 32).setWidth 32)

/-- A field of a stored word. -/
def getF (s : State) (a lo len : Nat) : Nat := bitsAt (getW s a).toNat lo len

/-- Replace a field of a stored word. -/
def setF (s : State) (a lo len v : Nat) : State := setW s a (BitVec.ofNat 32 (putBits (getW s a).toNat lo len v))

/-- Raise a saturating 32-bit counter. -/
def bump32 (s : State) (a n : Nat) : State := setW s a (satAdd32 (getW s a) n)

/-- Raise a 64-bit counter, modulo 2^64. -/
def bump64 (s : State) (a n : Nat) : State := setD64 s a (getD64 s a + BitVec.ofNat 64 n)

/-- Key of a windowed register: the register at offset `a` as it stands for item `k` of its selector. -/
def winKey (k a : Nat) : Nat := 2 ^ 26 * (k + 1) + a

/-! ### MSI-X (R33, R45) -/

/-- A word of the MSI-X table: word `j` of vector `v`. Vectors are masked after reset (log 9). -/
def msixWord (s : State) (v j : Nat) : Word := mget (if j = 3 then 1 else 0) s.bus.msix (v * 4 + j)

/-- Whether a vector is masked, by its own mask bit or by the function mask (R45). -/
def msixMasked (s : State) (v : Nat) : Bool := s.bus.funcMask || (msixWord s v 3).toNat % 2 = 1

/-- Send the message of a vector. -/
def msixSend (s : State) (v : Nat) : State :=
  let m : Msg := ⟨v, msixWord s v 1 ++ msixWord s v 0, msixWord s v 2⟩
  { s with bus := { s.bus with sent := s.bus.sent ++ [m], pba := mset false s.bus.pba v false } }

/-- Request a message on a vector (R45): sent at once, or pending while the vector is masked. -/
def msixRequest (s : State) (v : Nat) : State :=
  if msixMasked s v then { s with bus := { s.bus with pba := mset false s.bus.pba v true } } else msixSend s v

/-! ### Page output (R44) -/

/-- Whether a page's output is 1 (R44). -/
def pageOut (s : State) (b : Block) (i : Nat) : Bool :=
  (getW s (reg b i 0x20) &&& getW s (reg b i 0x24)) ≠ 0

/-- Request a message on the page's vector (R44). -/
def pageRequest (s : State) (b : Block) (i : Nat) : State := msixRequest s (getF s (reg b i 0x30) 0 11)

/-- Set bits of INT_STAT; a message is requested when the output goes from 0 to 1 (R44). -/
def orInt (s : State) (b : Block) (i : Nat) (m : Word) : State :=
  let was := pageOut s b i
  let s' := setW s (reg b i 0x20) (getW s (reg b i 0x20) ||| m)
  if !was && pageOut s' b i then pageRequest s' b i else s'

/-- Raise one interrupt cause of a page. -/
def raiseInt (s : State) (b : Block) (i bit : Nat) : State := orInt s b i (BitVec.ofNat 32 (2 ^ bit))

/-- Set an ERR_STAT bit; INT_STAT.ERR is set when an unmasked bit goes from 0 to 1 (R40). -/
def raiseErr (s : State) (b : Block) (i bit : Nat) : State :=
  let a := reg b i 0x18
  let fresh := !bitAt (getW s a).toNat bit
  let s' := setW s a (getW s a ||| BitVec.ofNat 32 (2 ^ bit))
  if fresh && !bitAt (getW s (reg b i 0x1C)).toNat bit then raiseInt s' b i 0 else s'

/-- After a write to INT_STAT, INT_EN or INT_SET that leaves the output at 1, a message is requested (R44). -/
def afterIntWrite (s : State) (b : Block) (i : Nat) : State :=
  if pageOut s b i then pageRequest s b i else s

end Sys2Proof.Machine
end

