-- ==== Sys2Proof/Machine/Ops.lean ====
section
/-! DEFINITION. Named operations shared by the meanings: fantail time, free values, access to contexts, leaves, slices and
launches, accounting, and raising a context fault (R81, R320). -/
namespace Sys2Proof.Machine

/-- The 96-bit fantail time value T in units of 2^−32 ns (R470). -/
def ftlT (s : State) : Nat := (s.ftl.offset + s.ftl.count.toNat * s.ftl.rate.toNat / 2 ^ 16) % 2 ^ 96

/-- Fantail time in ns (R470). -/
def nowNs (s : State) : Nat := ftlT s / 2 ^ 32 % 2 ^ 64

/-- Whether an event at target `t` has come (R473): s64(now − t) ≥ 0. -/
def reached (now t : Nat) : Bool := (now + 2 ^ 64 - t % 2 ^ 64) % 2 ^ 64 < 2 ^ 63

/-- The number of the next free value, and the state in which it is used (log 5). -/
def freshId (s : State) : Nat × State := (s.freshNo, { s with freshNo := s.freshNo + 1 })

/-! ### Contexts, launches, slices, partitions -/

def getCtx (s : State) (c : Nat) : Ctx := mget Ctx.blank s.sched.ctxs c
def setCtx (s : State) (c : Nat) (x : Ctx) : State := { s with sched := { s.sched with ctxs := mput s.sched.ctxs c x } }
def delCtx (s : State) (c : Nat) : State := { s with sched := { s.sched with ctxs := mdel s.sched.ctxs c } }
def getLaunch (s : State) (l : Nat) : Launch := mget Launch.blank s.sched.launches l
def setLaunch (s : State) (l : Nat) (x : Launch) : State :=
  { s with sched := { s.sched with launches := mput s.sched.launches l x } }
def delLaunch (s : State) (l : Nat) : State := { s with sched := { s.sched with launches := mdel s.sched.launches l } }
def getSlice (s : State) (n : Nat) : Slice := mget Slice.blank s.sched.slices n
def setSlice (s : State) (n : Nat) (x : Slice) : State :=
  { s with sched := { s.sched with slices := mset Slice.blank s.sched.slices n x } }
def getPart (s : State) (p : Nat) : Part := mget Part.free s.sched.parts p
def setPart (s : State) (p : Nat) (x : Part) : State :=
  { s with sched := { s.sched with parts := mset Part.free s.sched.parts p x } }
def getMill (s : State) (site : Nat) : Mill := mget Mill.zero s.mills site
def setMill (s : State) (site : Nat) (m : Mill) : State := { s with mills := mset Mill.zero s.mills site m }
def getLeaf (s : State) (site lf : Nat) : Leaf := (getMill s site).leaf lf
def getRow (s : State) (r : Nat) : Row := mget Row.blank s.gov.rows r
def setRow (s : State) (r : Nat) (x : Row) : State := { s with gov := { s.gov with rows := mset Row.blank s.gov.rows r x } }

/-- Whether the row of a site is RUNNING. -/
def rowRuns (s : State) (site : Nat) : Bool := (getRow s (site / 16)).st = .running

/-- Whether a leaf state counts against parking (R505). -/
def LeafSt.acts (x : LeafSt) : Bool := x ≠ .empty && x ≠ .resident

/-- A leaf of a row leaves a state or enters one: the times from which the row has been idle (R505). -/
def rowActs (g : Gov) (now r : Nat) (x y : LeafSt) : Gov :=
  { g with
    actAt := if x.acts || y.acts then mput g.actAt r now else g.actAt
    fullAt := if x ≠ .empty || y ≠ .empty then mput g.fullAt r now else g.fullAt }

def setLeaf (s : State) (site lf : Nat) (x : Leaf) : State :=
  let s' := { s with gov := rowActs s.gov (nowNs s) (site / 16) (getLeaf s site lf).st x.st }
  setMill s' site ((getMill s site).setLeaf lf x)
def getStone (s : State) (site k : Nat) : Stone := mget Stone.idle (getMill s site).stones k
def setStone (s : State) (site k : Nat) (x : Stone) : State :=
  let m := getMill s site
  setMill s site { m with stones := mset Stone.idle m.stones k x }

/-- The module of a context. -/
def ctxModule (s : State) (c : Ctx) : Module := (getLaunch s c.launch).modl

/-- The state of a step-table engine of a context. -/
def Ctx.eng (c : Ctx) (e : Nat) : Eng := mget Eng.idle c.engs e

/-- Replace the state of a step-table engine of a context. -/
def Ctx.setEng (c : Ctx) (e : Nat) (x : Eng) : Ctx := { c with engs := mset Eng.idle c.engs e x }

/-- The context that runs in a leaf: its number and itself. Engines issue only while the leaf is RUNNING (R77) and its row is
clocked (R505). -/
def runningAt (s : State) (site lf : Nat) : Option (Nat × Ctx) :=
  let l := getLeaf s site lf
  match l.st, l.ctx with
  | .running, some c => if rowRuns s site then some (c, getCtx s c) else none
  | _, _ => none

/-- Whether an engine of a RUNNING leaf of the site waits on a hopper (R126). -/
def hopWaits (s : State) (site : Nat) : Bool :=
  [0, 1].any (fun lf => match runningAt s site lf with
    | some (_, c) => c.engs.any (fun e => decide (e.2.wait = some .hopper))
    | none => false)

/-- Follow the time for which a gang of the site has waited on a hopper: `HOPPER_WAIT_CLK` (R159, log 15). -/
def hopMark (s : State) (site : Nat) : State :=
  let m := getMill s site
  match m.hopFrom, hopWaits s site with
  | none, true => setMill s site { m with hopFrom := some (nowNs s) }
  | some t, false =>
    bump64 (setMill s site { m with hopFrom := none }) (reg .mill site 0x1A0) ((nowNs s - t) * 3 / 2)
  | _, _ => s

/-- The context in a leaf, whatever the leaf's state. -/
def ctxAt (s : State) (site lf : Nat) : Option (Nat × Ctx) :=
  (getLeaf s site lf).ctx.map (fun c => (c, getCtx s c))

/-- Note that an engine of the context issued, completed or stopped waiting: the stall count restarts (R294). -/
def Ctx.moved (c : Ctx) (s : State) : Ctx := { c with lastMove := nowNs s }

/-! ### Accounting (R314, R318) -/

/-- Virtual time after running `ran` ns (R314). -/
def chargeVt (vt : DWord) (ran share : Nat) (split : Bool) : DWord :=
  let ns := if split then ran / 2 else ran
  vt + BitVec.ofNat 64 (ns * 2 ^ 16 / share)

/-- Charge the slice of a RUNNING leaf for the time since it started, and count the leaf's clocks (R87, R314, R318). Clocks
are counted at the nominal 1.5 GHz (log 15). -/
def chargeLeaf (s : State) (site lf : Nat) : State :=
  let l := getLeaf s site lf
  if l.st = .running then
    let m := getMill s site
    let ran := nowNs s - l.runFrom
    let sl := getSlice s l.slice
    let sl := { sl with
      vt := chargeVt sl.vt ran sl.share m.split
      millNs := sl.millNs + BitVec.ofNat 64 (if m.split then ran / 2 else ran) }
    let s := if sl.st = .none then s else setSlice s l.slice sl
    setLeaf s site lf { l with activeClk := l.activeClk + BitVec.ofNat 64 (ran * 3 / 2), runFrom := nowNs s }
  else s

/-- Free the stones of a leaf that `p` selects by driving engine, charging the slice for the time they were held (R318). -/
def releaseStones (s : State) (site lf : Nat) (p : Nat → Bool) : State :=
  [0, 1, 2, 3].foldl (fun s k =>
    let st := getStone s site k
    match st.heldBy with
    | some (l, e) =>
      if l = lf ∧ p e then
        let slNo := (getLeaf s site lf).slice
        let sl := getSlice s slNo
        let s := if sl.st = .none then s
          else setSlice s slNo { sl with stoneNs := sl.stoneNs + BitVec.ofNat 64 (nowNs s - st.heldFrom) }
        setStone s site k { st with heldBy := none, heldFrom := 0, leftAt := some (nowNs s) }
      else s
    | none => s) s

/-- Empty the hoppers of the stones that a leaf may drive (R76). -/
def dropHoppers (s : State) (site lf : Nat) : State :=
  let mask := (getLeaf s site lf).bnd.stones
  [0, 1, 2, 3].foldl (fun s k =>
    if bitAt mask k then
      let st := getStone s site k
      setStone s site k { st with stat := [], strm := [] }
    else s) s

/-- An engine with its operation squashed and its wait ended (R81). -/
def Eng.squash (e : Eng) : Eng := { e with op := none, wait := none }

/-- The engines of a context stopped: operations squashed, no engine waits (R81). -/
def Ctx.squash (c : Ctx) : Ctx :=
  { c with engs := mmap (fun _ e => e.squash) c.engs, miller := { c.miller with wait := none } }

/-! ### Fault codes (R331) -/

def cfCountRange : Nat := 0x01
def cfSegmentRange : Nat := 0x02
def cfDmemBounds : Nat := 0x03
def cfAccBounds : Nat := 0x04
def cfAccClass : Nat := 0x05
def cfMcastAlone : Nat := 0x06
def cfOwnership : Nat := 0x10
def cfMemUncorrectable : Nat := 0x11
def cfHostXlate : Nat := 0x12
def cfHostTimeout : Nat := 0x13
def cfFabricWindow : Nat := 0x14
def cfFabricFenced : Nat := 0x15
def cfStall : Nat := 0x20
def cfFreezeTimeout : Nat := 0x21
def cfSpareLost : Nat := 0x30
def cfTableConflict : Nat := 0x31
def cfKilled : Nat := 0x40

/-- The PRIVATE objects of a context: those its PRIVATE declarations are bound to (R179, R320). -/
def privateObjs (m : Module) (c : Ctx) : List Nat :=
  (m.syncs.filter (fun d => d.scope = 0)).filterMap (fun d =>
    match mfind c.syncs d.loc with
    | some (.obj n) => some n
    | _ => none)

/-- Raise a context fault (R81, R320 step 1): engines stop, operations are squashed, the leaf becomes FAULTED, the fault is
recorded in the leaf, in the partition page (R333) and by interrupts, and the teardown of the context begins. A context
that holds no leaf is only torn down. A context that already faulted keeps its first fault. -/
def ctxFault (s : State) (cid code eng step : Nat) : State :=
  let c := getCtx s cid
  if (mfind s.sched.ctxs cid).isNone || c.killed then s
  else
    let s := match c.place with
      | .saved => s
      | .leaf site lf =>
        let s := chargeLeaf s site lf
        let s := releaseStones s site lf (fun _ => true)
        let m := getMill s site
        let s := setMill s site { m with spout := m.spout.filter (fun r => r.1 ≠ lf) }
        let l := getLeaf s site lf
        let s := setLeaf s site lf { l with st := .faulted, faultCode := code, faultEng := eng, faultStep := step % 2 ^ 16 }
        raiseInt (hopMark s site) .mill site (1 + lf)
    let s := setCtx s cid { c.squash with killed := true, freezing := false }
    let d : Drain := ⟨c.launch, c.inst, c.part, c.slice, code, eng, step % 2 ^ 16, nowNs s⟩
    let s := { s with sched := { s.sched with drains := mput s.sched.drains cid d } }
    let pg := 1 + c.part
    let s := setW s (reg .sch pg 0x1B8) (BitVec.ofNat 32 (code + eng * 2 ^ 8 + c.slice * 2 ^ 16))
    let s := bump32 s (reg .sch pg 0x1BC) 1
    raiseInt s .sch pg 1

/-- Fault every context that `p` selects. -/
def faultAll (s : State) (p : Ctx → Bool) (code eng step : Nat) : State :=
  (mkeys (fun _ c => p c) s.sched.ctxs).foldl (fun s c => ctxFault s c code eng step) s

end Sys2Proof.Machine
end

