-- ==== Sys2Proof/Machine/Follow.lean ====
section
/-! DEFINITION. What follows the state without a command: the states of the clock domains (R502, R503, R508) and the rows of radio
partitions (R403, R494). Every command ends in `done`, which brings both up to date. -/
namespace Sys2Proof.Machine

/-- `DEV_STATE` of R509. -/
def devState (s : State) : Nat := getF s (reg .gov 4 0x180) 0 3

/-- Whether the device is up: READY, or RESET_REQUIRED (R509). -/
def deviceUp (s : State) : Bool := devState s = 2 || devState s = 3

/-! ### Rows (R505, R506) -/

/-- Close the time that a row has spent in its present state, before it moves (R517). -/
def Row.close (x : Row) (now : Nat) : Row :=
  { x with
    runNs := if x.st = .running then x.runNs + (now - x.since) else x.runNs
    offNs := if x.st = .off then x.offNs + (now - x.since) else x.offNs
    since := now }

/-- A wake request (R505); one to a row that is STARTING merges with the wake in progress (R507). -/
def wakeRow (s : State) (r : Nat) : State :=
  let x := getRow s r
  if devState s = 6 then s
  else match x.st with
  | .off => setRow s r { x.close (nowNs s) with st := .starting, fromOff := true }
  | .parked => setRow s r { x.close (nowNs s) with st := .starting, fromOff := false }
  | _ => s

/-- Whether a row holds a mill of a radio-class partition, lent or not (R403). -/
def radioRow (s : State) (r : Nat) : Bool :=
  s.sched.parts.any (fun e => e.2.st ≠ .free && e.2.desc.radio && (List.range 15).any (fun c => bitAt e.2.mills (r * 15 + c)))

/-- Rows that hold a radio mill are never OFF, and they run at OPP0 (R403, R494). -/
def radioRowsUp (s : State) : State :=
  (List.range 16).foldl (fun s r =>
    if radioRow s r then
      let s := if (getRow s r).st = .off then wakeRow s r else s
      setRow s r { getRow s r with opp := 0 }
    else s) s

/-! ### Clock domains (R502, R503, R508) -/

/-- Whether some port of a list has a non-zero MODE. -/
def anyMode (s : State) (l : List Nat) : Bool := l.any (fun p => getF s (reg .eth p 0x10) 0 2 ≠ 0)

/-- Whether a lane of a SerDes group is bound by a `LANE_MAP` or selected by a `SYNCE_OUTn`. -/
def serdesUsed (s : State) (g : Nat) : Bool :=
  (List.range 16).any (fun p => [0, 8, 16, 24].any (fun o => getF s (reg .eth p 0x100) o 5 / 3 = g))
    || [0, 1].any (fun n => getF s (reg .eth 0 (0x300 + 4 * n)) 16 1 = 1 && getF s (reg .eth 0 (0x300 + 4 * n)) 0 5 / 3 = g)

/-- The state of R503 that a domain other than a row's takes. -/
def domWant (s : State) (d : Nat) : Nat :=
  if d = 0 then (if s.boot.aoOn then 3 else 0)
  else if !s.boot.pwrgd ∨ s.boot.railBad then 0
  else if 29 ≤ d ∧ d ≤ 32 then
    if devState s = 6 ∨ devState s = 4 ∨ (devState s ≠ 2 ∧ devState s ≠ 3 ∧ getF s (reg .mgt 1 0x108) 19 1 = 0) then 0
    else if (List.range 8).any (fun i => getF s (reg .bol i 0x224) 0 2 ≠ 0) then 3 else 1
  else if 33 ≤ d ∧ d ≤ 35 then (if anyMode s (List.range 16) then 3 else 1)
  else if d = 36 then (if anyMode s (List.range 8) then 3 else 1)
  else if d = 37 then (if anyMode s ((List.range 8).map (· + 8)) then 3 else 1)
  else if 38 ≤ d ∧ d ≤ 43 then (if serdesUsed s (d - 38) then 3 else 0)
  else 3

def getDom (s : State) (d : Nat) : Dom := mget Dom.blank s.gov.doms d

/-- Move a domain to a state: the time it spent RUNNING is kept (R517). -/
def setDom (s : State) (d st : Nat) : State :=
  let x := getDom s d
  if x.st = st then s
  else
    let run := if x.st = 3 then x.runNs + (nowNs s - x.since) else x.runNs
    { s with gov := { s.gov with doms := mset Dom.blank s.gov.doms d { x with st := st, since := nowNs s, runNs := run } } }

/-- Domains other than the rows'. -/
def plainDoms : List Nat := [0, 1, 2, 3, 4] ++ (List.range 39).map (· + 21)

/-- Every domain takes the state that its condition asks (R502, R508). -/
def domsFollow (s : State) : State := plainDoms.foldl (fun s d => setDom s d (domWant s d)) s

/-- What follows a command: rows of radio partitions are up while the device is, and every domain takes its state. -/
def settle (s : State) : State := domsFollow (if deviceUp s then radioRowsUp s else s)

/-- A command ends. -/
def done (s : State) : Res := .next (settle s)

end Sys2Proof.Machine
end

