-- ==== Sys2Proof/Machine/SyncOps.lean ====
section
/-! DEFINITION. Operations on sync objects (R279 to R284, R289, R290): signals, waits, takes, and the evaluation of waits
after a change. -/
namespace Sys2Proof.Machine

/-- The object of a number (R279). -/
def getObj (s : State) (n : Nat) : SyncObj := mget SyncObj.blank s.sync.objs n

/-- Whether a wait's condition holds (R282): 0 GE, 1 EQ, 2 NE. Never for type NONE. -/
def waitCond (o : SyncObj) (cond : Nat) (c : Word) : Bool :=
  match o.typ with
  | .none => false
  | t =>
    if cond = 1 then o.value = c
    else if cond = 2 then o.value ≠ c
    else match t with
      | .counter | .work => c.toNat ≤ o.value.toNat
      | .flag => (o.value &&& c) = c
      | _ => decide (0 ≤ (o.value - c).toInt)

/-- Evaluate a held wait against an object after a change (R284). -/
def evalWait (bind : KMap SyncBind) (n : Nat) (o : SyncObj) (w : Option Wait) : Option Wait :=
  match w with
  | some (.sync loc cond c sat) =>
    if mfind bind loc = some (.obj n) ∧ waitCond o cond c then some (.sync loc cond c true) else some (.sync loc cond c sat)
  | w => w

/-- Evaluate the waits of a context that is resident (R284). -/
def Ctx.evalWaits (c : Ctx) (n : Nat) (o : SyncObj) : Ctx :=
  match c.place with
  | .saved => c
  | .leaf _ _ =>
    { c with
      engs := mmap (fun _ e => { e with wait := evalWait c.syncs n o e.wait }) c.engs
      miller := { c.miller with wait := evalWait c.syncs n o c.miller.wait } }

/-- Evaluate a KICK watch after a change of an object (R368): once its GE condition holds, it is satisfied. -/
def evalWatch (n : Nat) (o : SyncObj) (w : Watch) : Watch :=
  if w.obj = n ∧ waitCond o 0 w.cmp then { w with sat := true } else w

/-- Change an object; every wait of a resident context and every watch on it is evaluated again (R284, R368). -/
def setObj (s : State) (n : Nat) (o : SyncObj) : State :=
  { s with
    sync := { s.sync with objs := mset SyncObj.blank s.sync.objs n o }
    sched := { s.sched with ctxs := mmap (fun _ c => c.evalWaits n o) s.sched.ctxs }
    hif := { s.hif with watches := s.hif.watches.map (evalWatch n o) } }

/-- What a signal does to an object (R281, R290). -/
inductive SigRes where
  | done (o : SyncObj)
  | discard
  | overflow
deriving DecidableEq, Repr

/-- A signal of value `v`, ADD or SET, on an object (R281). -/
def sigObj (o : SyncObj) (set : Bool) (v : Word) : SigRes :=
  match o.typ with
  | .none | .timed => .discard
  | .counter => .done { o with value := if set then v else o.value + v }
  | .flag => .done { o with value := if set then v else o.value ||| v }
  | .barrier =>
    if set ∨ o.param = 0 then .discard
    else
      let sum := o.arrivals + v.toNat
      .done { o with value := o.value + BitVec.ofNat 32 (sum / o.param.toNat), arrivals := sum % o.param.toNat }
  | .work =>
    if set then .discard
    else if 0xFFFFFFFF < o.value.toNat + v.toNat then .overflow
    else .done { o with value := o.value + v }

/-- Count a discarded operation (R289, R290). -/
def discardOp (s : State) : State := raiseErr (bump32 s (reg .syn 0 0x114) 1) .syn 0 8

/-- A signal from a block, the host or a peer: what the object's type does not accept is discarded (R281, R290). -/
def signalExt (s : State) (n : Nat) (set : Bool) (v : Word) : State :=
  match sigObj (getObj s n) set v with
  | .done o => setObj s n o
  | _ => discardOp s

/-- What a take does (R283). -/
inductive TakeRes where
  | got (old : Word) (o : SyncObj)
  | range
  | notWork
deriving DecidableEq, Repr

/-- A take with increment `i` (R283). -/
def takeObj (o : SyncObj) (i : Word) : TakeRes :=
  if o.typ = .work then
    if i = 0 ∨ 0xFFFFFFFF < o.value.toNat + i.toNat then .range
    else .got o.value { o with value := o.value + i }
  else .notWork

/-- Count a successful take (R296). -/
def countTake (s : State) : State := bump64 s (reg .syn 0 0x118) 1

/-- A fantail event reaches a TIMED object (R279, R486): VALUE rises by 1. -/
def advanceTimed (s : State) (n : Nat) : State :=
  let o := getObj s n
  if o.typ = .timed then setObj s n { o with value := o.value + 1 } else s

/-- Set an object to NONE (R291, R320). -/
def freeObj (s : State) (n : Nat) : State := setObj s n SyncObj.blank

/-- The partition that holds the block of an object, 63 when free (R278). -/
def objOwner (s : State) (n : Nat) : Nat := mget 63 s.sync.owner (n / 256)

end Sys2Proof.Machine
end

