-- ==== Sys2Proof/Machine/Operands.lean ====
section
/-! DEFINITION. Operand forms: fields of step records and the descriptors of R168, R169 and R199, buffer references, the
memories of a context, and which record an engine issues next (R56, R57, R167). -/
namespace Sys2Proof.Machine

/-! ### Fields of a step record (R168) -/

/-- Word `w` of a record. -/
def recW (r : Rec) (w : Nat) : Nat := bitsAt r.toNat (32 * w) 32

/-- Bits [lo + len - 1 : lo] of word `w` of a record. -/
def recF (r : Rec) (w lo len : Nat) : Nat := bitsAt r.toNat (32 * w + lo) len

/-- One bit of word `w` of a record. -/
def recB (r : Rec) (w i : Nat) : Bool := bitAt r.toNat (32 * w + i)

def recOp (r : Rec) : Nat := recF r 0 0 10
def recEos (r : Rec) : Bool := recB r 0 13
def recCheap (r : Rec) : Nat := recF r 0 16 10
def recQA (r : Rec) : Option Nat := if recB r 1 7 then some (recF r 1 0 5) else none
def recQB (r : Rec) : Option Nat := if recB r 1 15 then some (recF r 1 8 5) else none
def recQO (r : Rec) : Option Nat := if recB r 1 23 then some (recF r 1 16 5) else none

/-! ### Descriptors -/

/-- The value of an `lc` register (R66). -/
def Miller.lcv (m : Miller) (i : Nat) : Nat := (mget 0 m.lc i).toNat

/-- A COUNT descriptor (R169): none when the register holds more than the declared maximum (R58). -/
def countOf (m : Miller) (d : Nat) : Option Nat :=
  let v := bitsAt d 0 24
  if bitAt d 31 then
    let n := m.lcv (bitsAt d 24 4)
    if n ≤ v then some n else none
  else some v

/-- The constant or declared maximum of a COUNT descriptor. -/
def countMax (d : Nat) : Nat := bitsAt d 0 24

/-- A DIM16 field (R199). -/
def dimOf (m : Miller) (d : Nat) : Option Nat :=
  let v := bitsAt d 0 11
  if bitAt d 15 then
    let n := m.lcv (bitsAt d 11 4)
    if n ≤ v then some n else none
  else some v

/-- The constant or declared maximum of a DIM16 field. -/
def dimMax (d : Nat) : Nat := bitsAt d 0 11

/-- A STRIDE descriptor (R169). -/
def strideOf (m : Miller) (d : Nat) : Int :=
  if bitAt d 31 then (mget 0 m.ofs (bitsAt d 24 4)).toInt else sext 24 (bitsAt d 0 24)

/-- Buffer ID of a BUFREF (R169). -/
def refBuf (d : Nat) : Nat := bitsAt d 0 10

/-- Byte offset of a BUFREF (R169). -/
def refOff (d : Nat) : Nat := bitsAt d 10 22 * 16

/-! ### Declarations of a module -/

/-- A buffer that an unused ID stands for. -/
def BufDecl.blank : BufDecl := ⟨0, 0, 0xFF, 0, 0xFFFF, 0xFFFF, 0xFFFF, 6, 0xFF, 0, 0, 0⟩

/-- The declaration of a buffer. -/
def Module.buf (m : Module) (id : Nat) : BufDecl := (m.bufs.find? (fun b => b.id = id)).getD BufDecl.blank

/-- Where a buffer starts in its context's region (R173). -/
def Ctx.base (c : Ctx) (id : Nat) : Nat := mget 0 c.bufBase id

/-- The region-relative address a BUFREF names. -/
def Ctx.refAddr (c : Ctx) (d : Nat) : Nat := c.base (refBuf d) + refOff d

/-- The depth of a declared queue; 0 where it is not declared (R62). -/
def Module.depth (m : Module) (q : Nat) : Nat := ((m.queues.find? (fun d => d.q = q)).map (fun d => d.depth)).getD 0

/-- The records of an engine's step table. -/
def Module.table (m : Module) (e : Nat) : List Rec := mget [] m.tables e

/-! ### Memories of a context -/

/-- The bounds of the leaf that a context is in. -/
def ctxBounds (s : State) (c : Ctx) : Bounds :=
  match c.place with
  | .leaf site lf => (getLeaf s site lf).bnd
  | .saved => Bounds.zero

/-- Bytes of data memory in a context's region. -/
def dmemSize (s : State) (c : Ctx) : Nat := (ctxBounds s c).dmemCnt * 4096

/-- Bytes of miller data memory in a context's region. -/
def mdmSize (s : State) (c : Ctx) : Nat := (ctxBounds s c).mdmCnt * 1024

/-- `n` bytes of a sparse byte memory from `a`. -/
def readMap (m : KMap Byte) (a n : Nat) : List Byte := (List.range n).map (fun i => mget 0 m (a + i))

/-- Write bytes into a sparse byte memory from `a`; zero bytes are not listed. -/
def writeMap (m : KMap Byte) (a : Nat) (l : List Byte) : KMap Byte :=
  (l.zipIdx).foldl (fun m p => mset 0 m (a + p.2) p.1) m

/-- `n` bytes of a context's data memory. -/
def Ctx.dmemRead (c : Ctx) (a n : Nat) : List Byte := readMap c.dmem a n

/-- Write bytes of a context's data memory. -/
def Ctx.dmemWrite (c : Ctx) (a : Nat) (l : List Byte) : Ctx := { c with dmem := writeMap c.dmem a l }

/-- `n` bytes of a context's miller data memory. -/
def Ctx.mdmRead (c : Ctx) (a n : Nat) : List Byte := readMap c.mdm a n

/-- Write bytes of a context's miller data memory. -/
def Ctx.mdmWrite (c : Ctx) (a : Nat) (l : List Byte) : Ctx := { c with mdm := writeMap c.mdm a l }

/-- A tile of a context (R99). -/
def Ctx.tile (c : Ctx) (t : Nat) : Tile := mget Tile.zero c.tiles t

/-- Replace a tile. -/
def Ctx.setTile (c : Ctx) (t : Nat) (x : Tile) : Ctx := { c with tiles := mset Tile.zero c.tiles t x }

/-- Word (r, k) of a tile. -/
def Tile.word (t : Tile) (r k : Nat) : DWord := mget 0 t.words (r * 32 + k)

/-- Replace word (r, k) of a tile. -/
def Tile.setWord (t : Tile) (r k : Nat) (w : DWord) : Tile := { t with words := mset 0 t.words (r * 32 + k) w }

/-! ### Queues (R62, R63) -/

/-- A queue with nothing in it. -/
def OpQueue.blank : OpQueue := ⟨[], 0⟩

/-- A queue of a context. -/
def Ctx.queue (c : Ctx) (q : Nat) : OpQueue := mget OpQueue.blank c.queues q

/-- Pop up to `n` entries: the entries and the context without them. -/
def Ctx.pop (c : Ctx) (depth q n : Nat) : List Line × Ctx :=
  let x := c.queue q
  let got := x.ents.take n
  let x' : OpQueue := ⟨x.ents.drop n, (x.head + got.length) % (2 * max 1 depth)⟩
  (got, { c with queues := mset OpQueue.blank c.queues q x' })

/-- Push as many of the entries as fit: the entries that did not fit and the context. -/
def Ctx.push (c : Ctx) (depth q : Nat) (es : List Line) : List Line × Ctx :=
  let x := c.queue q
  let room := depth - x.ents.length
  let x' : OpQueue := { x with ents := x.ents ++ es.take room }
  (es.drop room, { c with queues := mset OpQueue.blank c.queues q x' })

/-- The queue entries that bytes fill, the last padded with zeros (R218, R222). -/
def bytesToEntries (l : List Byte) : List Line := (chunksOf 64 l.length l).map bytesLine

/-! ### Which record an engine issues (R56, R57, R167) -/

/-- A record about to issue: its context, engine, index and module. -/
structure Issue where
  cid : Nat
  c : Ctx
  m : Module
  eng : Eng
  e : Nat
  idx : Nat
  rcd : Rec
deriving DecidableEq, Repr

/-- The record that a step-table engine may issue now, if its opcode is one of `ops`: the leaf is RUNNING, the engine is in a
segment, does not hold or wait, and has no operation in progress (log 16). -/
def issueAt (s : State) (site lf e : Nat) (ops : List Nat) : Option Issue :=
  match runningAt s site lf with
  | none => none
  | some (cid, c) =>
    let eng := c.eng e
    let m := ctxModule s c
    match eng.cur, eng.op, eng.wait, eng.held, (m.table e)[eng.next]? with
    | some _, none, none, false, some r =>
      if e ≠ 0 ∧ recOp r ∈ ops then some ⟨cid, c, m, eng, e, eng.next, r⟩ else none
    | _, _, _, _, _ => none

/-- The engine after the record at `idx` issued: its segment ends when that record carries EOS (R167). -/
def Eng.past (e : Eng) (r : Rec) (idx : Nat) : Eng :=
  if recEos r then { e with cur := none, next := idx + 1 } else { e with next := idx + 1 }

/-- The engine after the record issued. -/
def Issue.adv (i : Issue) : Eng := i.eng.past i.rcd i.idx

/-- The index of the engine that runs a step table in the mill (R162): in leaf 1 a SPLIT module's stone tables run on stones 2
and 3. -/
def physEng (m : Module) (lf e : Nat) : Nat := if bitAt m.flags 2 ∧ lf = 1 ∧ 3 ≤ e ∧ e ≤ 4 then e + 2 else e

/-- Store the engine and the context of an issued record; the stall count restarts (R294). -/
def putEng (s : State) (cid : Nat) (c : Ctx) (e : Nat) (x : Eng) : State := setCtx s cid ((c.setEng e x).moved s)

/-- Raise a context fault found while a record issues. -/
def Issue.fault (i : Issue) (s : State) (lf code : Nat) : State := ctxFault s i.cid code (physEng i.m lf i.e) i.idx

end Sys2Proof.Machine
end

