-- ==== Sys2Proof/Machine/MemOps.lean ====
section
/-! DEFINITION. Main memory, the ownership check and the granary as every access meets them: address decode (R336),
Reed–Solomon protection (R339 to R342), keys (R343, R344), ownership (R345 to R349, R557), error records (R561), granary
lines (R269 to R275), and what an uncorrectable read leads to (R356, R357). -/
namespace Sys2Proof.Machine

/-! ### Error records (R561) -/

/-- Write an error record; when 1,024 are held the oldest is overwritten. -/
def errRecord (s : State) (b : Block) (inst kind sev part addr detail : Nat) : State :=
  let full := 1024 ≤ s.rep.recs.length
  let r : ErrRec := ⟨nowNs s, s.rep.nextSeq % 2 ^ 32, b.code, inst, kind, sev, part, addr, detail⟩
  let kept := if full then s.rep.recs.drop 1 else s.rep.recs
  let s := { s with rep := { s.rep with recs := kept ++ [r], nextSeq := s.rep.nextSeq + 1 } }
  let s := if full then bump32 s (reg .rep 1 0x12C) 1 else s
  raiseInt (bump64 s (reg .rep 1 0x130) 1) .rep 0 1

/-- Change `DEV_STATE` (R509) and set STATE_CHANGE. -/
def setDevState (s : State) (v : Nat) : State :=
  if devState s = v then s else raiseInt (setF s (reg .gov 4 0x180) 0 3 v) .gov 4 1

/-- The device needs a full reset (R277, R357, R504, R509): every context faults with the given code. -/
def requireReset (s : State) (code : Nat) : State :=
  setDevState (faultAll s (fun _ => true) code 0 0) 3

/-- Both copies of a mirrored table, or another device-reserve line, are uncorrectable (R357). -/
def reserveLost (s : State) : State :=
  let a := reg .mem 0 0x14
  let was := bitAt (getW s a).toNat 1
  let s := setF s a 1 1 1
  let s := if was then s else raiseInt s .mem 0 2
  requireReset s cfMemUncorrectable

/-! ### Address decode (R336) -/

/-- Channel, device, group, raw address and check-byte address of a data line. -/
def locate (a : Nat) : Nat × Nat × Nat × Nat × Nat :=
  let l := a / 64
  let q := l / 96
  let ch := (l % 96 + 41 * (q % 96)) % 96
  let b := q / 15
  let slot := q % 15
  (ch, ch / 4, ch / 16, b * 1024 + slot * 64, b * 1024 + 960 + slot * 4)

/-- The GDDR7 device that holds a line. -/
def lineDevice (a : Nat) : Nat := (locate a).2.1

/-! ### GF(2^8) and the code of R339 -/

/-- Multiply by x modulo 0x11D. -/
def gfX (a : Nat) : Nat := if 128 ≤ a then (a * 2) ^^^ 0x11D else a * 2

/-- Product in GF(2^8), over the low `n` bits of the second factor. -/
def gfMulN : Nat → Nat → Nat → Nat
  | 0, _, _ => 0
  | n + 1, a, b => (if b % 2 = 1 then a else 0) ^^^ gfMulN n (gfX a) (b / 2)

def gfMul (a b : Nat) : Nat := gfMulN 8 a b

/-- α^n. -/
def gfPow : Nat → Nat
  | 0 => 1
  | n + 1 => gfX (gfPow n)

/-- The inverse a^254 = a^2 · a^4 · … · a^128. -/
def gfInv (a : Nat) : Nat :=
  let a2 := gfMul a a
  let a4 := gfMul a2 a2
  let a8 := gfMul a4 a4
  let a16 := gfMul a8 a8
  let a32 := gfMul a16 a16
  let a64 := gfMul a32 a32
  gfMul (gfMul (gfMul a2 a4) (gfMul a8 a16)) (gfMul (gfMul a32 a64) (gfMul a64 a64))

/-- The stored bytes of a line are 68; byte i is the coefficient of x^(67 − i). -/
def patByte (p i : Nat) : Nat := bitsAt p (8 * i) 8

/-- Horner evaluation of an error pattern at `x`, over bytes from `i` on. -/
def patEval (p x : Nat) : Nat := (List.range 68).foldl (fun acc i => gfMul acc x ^^^ patByte p i) 0

/-- The four syndromes of an error pattern. -/
def syndromes (p : Nat) : Nat × Nat × Nat × Nat := (patEval p 1, patEval p 2, patEval p 4, patEval p 8)

/-- The pattern with value `v` at byte position `i`. -/
def patAt (i v : Nat) : Nat := v * 2 ^ (8 * i)

/-- The error the decoder finds at one byte position, if one explains the syndromes. -/
def solveOne (sy : Nat × Nat × Nat × Nat) : Option Nat :=
  let (s0, s1, s2, s3) := sy
  if s0 = 0 ∨ s1 = 0 then none
  else
    let x := gfMul s1 (gfInv s0)
    if gfMul s1 x = s2 ∧ gfMul s2 x = s3 then
      match (List.range 68).find? (fun k => gfPow k = x) with
      | some k => some (patAt (67 - k) s0)
      | none => none
    else none

/-- The error the decoder finds at two byte positions, if two explain the syndromes. -/
def solveTwo (sy : Nat × Nat × Nat × Nat) : Option Nat :=
  let (s0, s1, s2, s3) := sy
  let det := gfMul s1 s1 ^^^ gfMul s0 s2
  if det = 0 then none
  else
    let di := gfInv det
    let g1 := gfMul (gfMul s1 s2 ^^^ gfMul s0 s3) di
    let g2 := gfMul (gfMul s2 s2 ^^^ gfMul s1 s3) di
    match (List.range 68).filter (fun k => gfMul (gfPow k) (gfPow k) ^^^ gfMul g1 (gfPow k) ^^^ g2 = 0) with
    | [k1, k2] =>
      let x1 := gfPow k1
      let x2 := gfPow k2
      let v2 := gfMul (s1 ^^^ gfMul s0 x1) (gfInv (x1 ^^^ x2))
      let v1 := s0 ^^^ v2
      if v1 = 0 ∨ v2 = 0 then none else some (patAt (67 - k1) v1 ^^^ patAt (67 - k2) v2)
    | _ => none

/-- What the decoder makes of an error pattern in an ECC mode (R340): none when it reports the line uncorrectable, otherwise
the error it takes away (0 for a line delivered as clean). -/
def rsDecode (mode p : Nat) : Option Nat :=
  let sy := syndromes p
  if sy = (0, 0, 0, 0) then some 0
  else if mode = 2 then none
  else match solveOne sy with
    | some e => some e
    | none => if mode = 0 then solveTwo sy else none

/-! ### Lines of device memory -/

/-- ECC MODE (R340). -/
def eccMode (s : State) : Nat := getF s (reg .mem 0 0x104) 0 2

/-- The plaintext bytes of a line as they were written (an unwritten byte reads 0, log 10). -/
def lineCells (s : State) (ln : Nat) : List Byte := readMap64 s.mem.cells (ln * 64)
where
  readMap64 (m : List (Nat × Byte)) (a : Nat) : List Byte := (List.range 64).map (fun i => mget 0 m (a + i))

/-- What a line reads as under a key (R343): its bytes under the key it was written with, otherwise what the wrong key makes
of each AES block. -/
def linePlain (s : State) (ln key : Nat) : List Byte :=
  let kw := mget 0 s.mem.lineKey ln
  let bs := lineCells s ln
  if kw = 0 ∨ kw = key then bs
  else (List.range 4).flatMap (fun b =>
    toLE 16 (Config.wrongKeyBlock kw key (ln * 64 + 16 * b) (BitVec.ofNat 128 (leAt bs (16 * b) 16))).toNat)

/-- Write bytes into the sparse cells; a zero byte is not listed. -/
def cellsWrite (m : List (Nat × Byte)) (a : Nat) (l : List Byte) : List (Nat × Byte) :=
  (l.zipIdx).foldl (fun m p => mset 0 m (a + p.2) p.1) m

/-- The canonical form of memory: addresses rising, no entry that holds what an unlisted byte reads as. -/
def Memory.wf (m : List (Nat × Byte)) : Bool := mwf (fun _ => 0) m

/-- Replace a whole line under a key. -/
def linePut (s : State) (ln key : Nat) (l : List Byte) : State :=
  { s with mem := { s.mem with cells := cellsWrite s.mem.cells (ln * 64) (sliceB l 0 64), lineKey := mset 0 s.mem.lineKey ln key } }

/-- Clear the error pattern of a line whose stored bytes are written afresh. -/
def errsClear (s : State) (ln : Nat) : State := { s with mem := { s.mem with errs := mdel s.mem.errs ln } }

/-- Bit errors appear in a stored line. -/
def errsAdd (s : State) (ln pat : Nat) : State :=
  { s with mem := { s.mem with errs := mset 0 s.mem.errs ln ((mget 0 s.mem.errs ln ^^^ pat) % 2 ^ 544) } }

/-- Bit errors appear in stored lines, named by an address within each. -/
def upsetLines (s : State) (l : List (Nat × Nat)) : State := l.foldl (fun s p => errsAdd s (p.1 / 64) p.2) s

/-- 16 free bytes (log 5). -/
def freeBlock (s : State) : List Byte × State :=
  let (i, s) := freshId s
  let (j, s) := freshId s
  (toLE 8 (Config.freeValue i).toNat ++ toLE 8 (Config.freeValue j).toNat, s)

/-- Replace the selected AES blocks of a line by free bytes: their ciphertext is no longer what was written. -/
def garble (s : State) (ln : Nat) (hit : Nat → Bool) : State :=
  [0, 1, 2, 3].foldl (fun s b =>
    if hit b then
      let (l, s) := freeBlock s
      { s with mem := { s.mem with cells := cellsWrite s.mem.cells (ln * 64 + 16 * b) l } }
    else s) s

/-- Count a corrected error (R342). -/
def countCe (s : State) (ln : Nat) : State :=
  let s := bump32 s (reg .mem 0 0x110) 1
  let s := bump32 s (reg .mem (1 + lineDevice (ln * 64)) 0x100) 1
  raiseErr s .mem 0 8

/-- Record an uncorrectable read for an agent: a partition, 62 device, 63 host (R356). -/
def countUe (s : State) (ln agent : Nat) : State :=
  let s := bump32 s (reg .mem 0 0x114) 1
  let s := bump32 s (reg .mem (1 + lineDevice (ln * 64)) 0x104) 1
  let s := setD64 s (reg .mem 0 0x118) (BitVec.ofNat 64 (ln * 64))
  let s := setF s (reg .mem 0 0x120) 0 6 agent
  let s := raiseInt (raiseErr s .mem 0 9) .mem 0 1
  errRecord s .mem (1 + lineDevice (ln * 64)) 1 1 agent (ln * 64) 0

/-- What an ECC-checked read of a stored line finds. -/
inductive EccRes where
  | clean | corrected | bad
deriving DecidableEq, Repr

/-- Read and check a stored line (R339, R340, R342): corrections are written back; a miscorrected line holds free bytes in the
AES blocks that now differ from what was written. -/
def eccRead (s : State) (ln : Nat) : EccRes × State :=
  let p := mget 0 s.mem.errs ln
  if p = 0 then (.clean, s)
  else match rsDecode (eccMode s) p with
    | none => (.bad, s)
    | some e =>
      let left := p ^^^ e
      let s := garble (errsClear s ln) ln (fun b => bitsAt left (128 * b) 128 ≠ 0)
      if e = 0 then (.clean, s) else (.corrected, countCe s ln)

/-! ### The ownership table (R345 to R348, R557) -/

/-- First granule of the fabric aperture. -/
def aperFirst : Nat := 12582912

/-- The entry of a granule that nothing has set (R345). -/
def ownDefault (g : Nat) : Word := if 8781824 ≤ g ∧ g < 8847360 then 0x3F7E else 0x3F

/-- A granule whose entry is fixed (R345). -/
def ownFixed (g : Nat) : Bool := 8781824 ≤ g && g < aperFirst

def ownA (s : State) (g : Nat) : Word := mget (ownDefault g) s.mem.ownA g
def ownB (s : State) (g : Nat) : Word := mget (ownDefault g) s.mem.ownB g
def setOwnA (s : State) (g : Nat) (w : Word) : State :=
  { s with mem := { s.mem with ownA := mset (ownDefault g) s.mem.ownA g w, tblUe := mset 0 s.mem.tblUe g (mget 0 s.mem.tblUe g / 2 * 2) } }
def setOwnB (s : State) (g : Nat) (w : Word) : State :=
  { s with mem := { s.mem with ownB := mset (ownDefault g) s.mem.ownB g w, tblUe := mset 0 s.mem.tblUe g (mget 0 s.mem.tblUe g % 2) } }

/-- Put an entry into OWN's cache of 65,536 entries (R347); the oldest leaves. -/
def ownCache (s : State) (g : Nat) (w : Word) : State :=
  { s with mem := { s.mem with cached := ((g, w) :: s.mem.cached.filter (fun p => p.1 ≠ g)).take 65536 } }

/-- Take an entry out of OWN's cache. -/
def ownUncache (s : State) (g : Nat) : State :=
  { s with mem := { s.mem with cached := s.mem.cached.filter (fun p => p.1 ≠ g) } }

def entOwner (w : Word) : Nat := bitsAt w.toNat 0 6
def entState (w : Word) : Nat := bitsAt w.toNat 6 2
def entKey (w : Word) : Nat := bitsAt w.toNat 8 6
def entBias (w : Word) : Bool := bitAt w.toNat 14
def entExport (w : Word) : Bool := bitAt w.toNat 15
def entGen (w : Word) : Nat := bitsAt w.toNat 16 8

/-- Two clean copies that differ (R557): the granule is fenced, the partitions that either copy names lose their contexts, and
a record is written. -/
def ownConflict (s : State) (g : Nat) : State :=
  let a := ownA s g
  let b := ownB s g
  let s := { s with mem := { s.mem with fenced := mset false s.mem.fenced g true } }
  let s := faultAll s (fun c => c.part = entOwner a ∨ c.part = entOwner b) cfTableConflict 0 0
  let s := errRecord s .rep 0 5 1 62 g ((a ^^^ b).toNat % 2 ^ 24 * 2 ^ 8)
  raiseInt s .rep 0 4

/-- One copy of an entry was uncorrectable: it is rewritten from the other (R347). -/
def tableCopy (s : State) (g : Nat) : State :=
  errRecord (raiseErr s .mem 0 10) .mem 0 4 0 62 g 0

/-- The entry of a granule as OWN finds it, none when it has no entry to use (R347, R357, R557). -/
def ownLookup (s : State) (g : Nat) : Option Word × State :=
  if mget false s.mem.fenced g then (none, s)
  else match s.mem.cached.find? (fun p => p.1 = g) with
    | some p => (some p.2, s)
    | none =>
      let s := bump64 s (reg .own 3 0x108) 1
      match mget 0 s.mem.tblUe g with
      | 0 =>
        if ownA s g = ownB s g then (some (ownA s g), ownCache s g (ownA s g)) else (none, ownConflict s g)
      | 1 => let w := ownB s g; (some w, ownCache (tableCopy (setOwnA s g w) g) g w)
      | 2 => let w := ownA s g; (some w, ownCache (tableCopy (setOwnB s g w) g) g w)
      | _ => (none, reserveLost s)

/-- The key in a slot (R344). -/
def slotKey (s : State) (k : Nat) : Option Nat := (mget KeySlot.empty s.mem.slots k).key

/-- The partition that holds a slot, 63 when none. -/
def slotOwner (s : State) (k : Nat) : Nat := (mget KeySlot.empty s.mem.slots k).owner

/-- Whether a partition is of the radio class. -/
def isRadio (s : State) (p : Nat) : Bool := (getPart s p).st ≠ .free && (getPart s p).desc.radio

/-- Whether an entry admits an access of partition `p` to an allocatable granule (R348). -/
def ownAdmits (s : State) (p : Nat) (w : Word) (wr : Bool) : Bool :=
  let o := entOwner w
  let keyOk := (slotKey s (entKey w)).isSome && slotOwner s (entKey w) = o
  let pass :=
    if o = p then entState w = 1 || (entState w = 2 && !wr)
    else o < 32 && entState w = 2 && !wr && bitAt (getW s (reg .own 1 (0x100 + 4 * o))).toNat p
      && !isRadio s o && !isRadio s p
  keyOk && pass

/-- Record a failed check (R348, R359): kind 0 read, 1 write or atomic, 2 host. -/
def ownFail (s : State) (g agent kind : Nat) : State :=
  let s := bump32 s (reg .own 3 0x100) 1
  setW s (reg .own 3 0x104) (BitVec.ofNat 32 (g % 2 ^ 24 + agent % 64 * 2 ^ 24 + kind % 4 * 2 ^ 30))

/-- The ownership check of the granules `gs` for partition `p` (R348): the first failure is recorded. -/
def ownCheckList (p : Nat) (wr : Bool) : List Nat → State → Bool × State
  | [], s => (true, s)
  | g :: r, s =>
    if 8781824 ≤ g then (false, ownFail s g p (b2n wr))
    else
      match ownLookup s g with
      | (some w, s) => if ownAdmits s p w wr then ownCheckList p wr r s else (false, ownFail s g p (b2n wr))
      | (none, s) => (false, ownFail s g p (b2n wr))

/-- The numbers of the `k`-sized pieces that [a, a + n) touches. -/
def piecesOf (k a n : Nat) : List Nat := if n = 0 then [] else (List.range ((a + n - 1) / k - a / k + 1)).map (fun i => a / k + i)

/-- The ownership check of an access of partition `p` to [a, a + n). -/
def ownCheck (s : State) (p a n : Nat) (wr : Bool) : Bool × State := ownCheckList p wr (piecesOf 16384 a n) s

/-- The entry in force for a granule, with no effect on caches: what an access that passed its check uses. -/
def ownNow (s : State) (g : Nat) : Word :=
  match s.mem.cached.find? (fun p => p.1 = g) with
  | some p => p.2
  | none => if mget 0 s.mem.tblUe g = 1 then ownB s g else ownA s g

/-! ### The granary (R269 to R275) -/

/-- The hash of R269. -/
def grnHash (a : Nat) : Nat :=
  let x := a / 64
  (x ^^^ (x / 2 ^ 12) ^^^ (x / 2 ^ 24) ^^^ (x / 2 ^ 36)) % 4096

/-- Home slice and set of an address in the slice set of its owner (R269); none when the owner holds no slice. -/
def grnHome (s : State) (owner a : Nat) : Option (Nat × Nat) :=
  let slices := setBitsOf 64 (getPart s owner).desc.grn
  match slices[grnHash a % max 1 slices.length]? with
  | some sl => some (sl, grnHash a % 3072)
  | none => none

/-- Ways of a slice that a partition may use (R270). -/
def grnWays (s : State) (owner : Nat) : List Nat :=
  let d := (getPart s owner).desc
  if d.radio then List.range 16 else setBitsOf 16 d.ways

/-- Key of a line held in a slice. -/
def grnKey (ln sl : Nat) : Nat := ln * 64 + sl

/-- The line held in its home slice under its owner's tag (R271). -/
def grnFind (s : State) (owner ln sl : Nat) : Option GLine :=
  match mfind s.grn.lines (grnKey ln sl) with
  | some g => if g.owner = owner then some g else none
  | none => none

def grnSetLine (s : State) (ln sl : Nat) (g : GLine) : State :=
  { s with grn := { s.grn with lines := mput s.grn.lines (grnKey ln sl) g } }

/-- Drop a held line: a dirty line is written back first (R272, R274); what a LOST line leaves in memory is free. -/
def grnDrop (s : State) (key : Nat) : State :=
  match mfind s.grn.lines key with
  | none => s
  | some g =>
    let ln := key / 64
    let sl := key % 64
    let s := { s with grn := { s.grn with lines := mdel s.grn.lines key } }
    if g.lost then
      let s := setF s (reg .grn sl 0x13C) 0 16 (getF s (reg .grn sl 0x13C) 0 16 - 1)
      garble s ln (fun _ => true)
    else if g.dirty then bump64 (errsClear s ln) (reg .grn sl 0x128) 1
    else s

/-- Drop every held line that `p` selects. -/
def grnDropAll (s : State) (p : Nat → GLine → Bool) : State := (mkeys p s.grn.lines).foldl grnDrop s

/-- Mark a held line used now, dirty if it is written. -/
def grnTouch (s : State) (ln sl : Nat) (g : GLine) (wr : Bool) : State :=
  let s := { s with grn := { s.grn with clock := s.grn.clock + 1 } }
  grnSetLine s ln sl { g with dirty := g.dirty || wr, used := s.grn.clock }

/-- The keys of the lines that an owner holds in a set of a slice. -/
def grnSet (s : State) (owner sl set : Nat) : List (Nat × GLine) :=
  s.grn.lines.filter (fun e => e.1 % 64 = sl ∧ e.2.owner = owner ∧ grnHash (e.1 / 64 * 64) % 3072 = set)

/-- Allocate a line in a way of its owner, evicting the least recently used of the owner's lines in the set if every way is
taken (R271). -/
def grnAlloc (s : State) (owner ln sl set : Nat) (wr : Bool) : State :=
  let held := grnSet s owner sl set
  let ways := grnWays s owner
  match ways.find? (fun w => !held.any (fun e => e.2.way = w)) with
  | some w => grnTouch s ln sl ⟨owner, w, false, false, 0⟩ wr
  | none =>
    match held with
    | [] => s
    | h :: t =>
      let v := t.foldl (fun b e => if e.2.used < b.2.used then e else b) h
      grnTouch (grnDrop s v.1) ln sl ⟨owner, v.2.way, false, false, 0⟩ wr

/-- A dirty line is lost (R275). -/
def grnLose (s : State) (ln sl : Nat) (g : GLine) : State :=
  let s := grnSetLine s ln sl { g with lost := true }
  let s := setF s (reg .grn sl 0x13C) 0 16 (getF s (reg .grn sl 0x13C) 0 16 + 1)
  let s := raiseInt (raiseErr s .grn sl 9) .grn sl 1
  errRecord s .grn sl 3 1 g.owner (ln * 64) 0

/-- How a line access ended. -/
inductive LineRes where
  | ok | bad
deriving DecidableEq, Repr

/-- A line is read from GDDR7 for an agent (R342, R356). -/
def dramLine (s : State) (ln agent : Nat) : LineRes × State :=
  match eccRead s ln with
  | (.bad, s) => (.bad, countUe s ln agent)
  | (_, s) => (.ok, s)

/-- Make a line readable through the granary for its owner (R271, R272, R275): `alloc` for DEV, not for DEV_STREAM; `whole`
when every byte is about to be written, so that nothing is fetched; `err` an error the slice's SECDED finds. -/
def grnLine (s : State) (agent owner ln : Nat) (alloc whole wr : Bool) (err : Option Bool) : LineRes × State :=
  match grnHome s owner (ln * 64) with
  | none =>
    if whole then (.ok, errsClear s ln)
    else match dramLine s ln agent with
      | (.ok, s) => (.ok, if wr then errsClear s ln else s)
      | r => r
  | some (sl, set) =>
    match grnFind s owner ln sl with
    | some g =>
      let s := bump64 s (reg .grn sl 0x118) 1
      if g.lost then (.bad, s)
      else match err with
        | some false =>
          if g.dirty then (.bad, grnLose s ln sl g)
          else
            let s := raiseErr (grnDrop s (grnKey ln sl)) .grn sl 9
            match (if whole then (.ok, s) else dramLine s ln agent) with
            | (.ok, s) => (.ok, grnAlloc s owner ln sl set wr)
            | r => r
        | some true => (.ok, grnTouch (bump32 (raiseErr s .grn sl 8) (reg .grn sl 0x138) 1) ln sl g wr)
        | none => (.ok, grnTouch s ln sl g wr)
    | none =>
      let s := bump64 s (reg .grn sl 0x120) 1
      match (if whole then (.ok, s) else dramLine s ln agent) with
      | (.ok, s) =>
        if alloc then (.ok, grnAlloc s owner ln sl set wr) else (.ok, if wr then errsClear s ln else s)
      | r => r

/-! ### Accesses for a partition -/

/-- Owner, key and bias under which an access that passed its check proceeds. -/
def lineTerms (s : State) (ln : Nat) : Nat × Nat × Bool :=
  let w := ownNow s (ln / 256)
  (entOwner w, (slotKey s (entKey w)).getD 0, entBias w)

/-- Reach a line: through the granary, or GDDR7 directly in host bias (R349). -/
def reachLine (s : State) (agent ln : Nat) (alloc whole wr : Bool) (err : Option Bool) : LineRes × State :=
  let (owner, _, bias) := lineTerms s ln
  if bias then
    if whole then (.ok, errsClear s ln)
    else match dramLine s ln agent with
      | (.ok, s) => (.ok, if wr then errsClear s ln else s)
      | r => r
  else grnLine s agent owner ln alloc whole wr err

/-- Count the bytes served to a partition (R358). -/
def countBytes (s : State) (p n : Nat) : State :=
  if p < 32 then bump64 s (reg .mem (25 + p / 8) (0x108 + 0x20 * (p % 8))) n else s

/-- Read the lines `lns` for an agent: the bytes of every line, or none once one is uncorrectable. -/
def readLines (agent : Nat) (alloc : Bool) : List Nat → Option Bool → State → Option (List Byte) × State
  | [], _, s => (some [], s)
  | ln :: r, err, s =>
    match reachLine s agent ln alloc false false err with
    | (.bad, s) => (none, s)
    | (.ok, s) =>
      let bs := linePlain s ln (lineTerms s ln).2.1
      match readLines agent alloc r none s with
      | (some l, s) => (some (bs ++ l), s)
      | (none, s) => (none, s)

/-- A checked read of [a, a + n) that has passed its ownership check. -/
def readPassed (s : State) (p a n : Nat) (alloc : Bool) (err : Option Bool) : Option (List Byte) × State :=
  match readLines p alloc (piecesOf 64 a n) err s with
  | (some l, s) => (some (sliceB l (a % 64) n), countBytes s p n)
  | (none, s) => (none, s)

/-- Write one line's share of a run: bytes [lo, lo + l.length) of line `ln` (R341). -/
def writeLine (s : State) (agent ln lo : Nat) (l : List Byte) (alloc : Bool) (err : Option Bool) : LineRes × State :=
  let whole := lo = 0 && l.length = 64
  match reachLine s agent ln alloc whole true err with
  | (.bad, s) => (.bad, s)
  | (.ok, s) =>
    let key := (lineTerms s ln).2.1
    let bs := if whole then l else patchB (linePlain s ln key) lo l
    (.ok, linePut s ln key bs)

/-- Write a run of bytes line by line. -/
def writeLines (agent a : Nat) (l : List Byte) (alloc : Bool) : List Nat → Option Bool → State → LineRes × State
  | [], _, s => (.ok, s)
  | ln :: r, err, s =>
    let lo := if a / 64 = ln then a % 64 else 0
    let hi := min 64 (a + l.length - ln * 64)
    match writeLine s agent ln lo (sliceB l (ln * 64 + lo - a) (hi - lo)) alloc err with
    | (.bad, s) => (.bad, s)
    | (.ok, s) => writeLines agent a l alloc r none s

/-- A checked write that has passed its ownership check. -/
def writePassed (s : State) (p a : Nat) (l : List Byte) (alloc : Bool) (err : Option Bool) : LineRes × State :=
  match writeLines p a l alloc (piecesOf 64 a l.length) err s with
  | (.ok, s) => (.ok, countBytes s p l.length)
  | r => r

/-- How an access for a partition ended. -/
inductive DevRes where
  | ok (l : List Byte)
  | denied
  | bad
deriving DecidableEq, Repr

/-- A read of device memory for partition `p` (R71, R348, R357). -/
def devRead (s : State) (p a n : Nat) (alloc : Bool) (err : Option Bool) : DevRes × State :=
  match ownCheck s p a n false with
  | (false, s) => (.denied, s)
  | (true, s) =>
    match readPassed s p a n alloc err with
    | (some l, s) => (.ok l, s)
    | (none, s) => (.bad, s)

/-- A write of device memory for partition `p`. -/
def devWrite (s : State) (p a : Nat) (l : List Byte) (alloc : Bool) (err : Option Bool) : DevRes × State :=
  match ownCheck s p a l.length true with
  | (false, s) => (.denied, s)
  | (true, s) =>
    match writePassed s p a l alloc err with
    | (.ok, s) => (.ok [], s)
    | (.bad, s) => (.bad, s)

/-- One byte atomic at the home slice (R108, R116, R149, R272): it always allocates. -/
def devAtomic (s : State) (p : Nat) (x : Atom) : DevRes × State :=
  match ownCheck s p x.addr 1 true with
  | (false, s) => (.denied, s)
  | (true, s) =>
    let ln := x.addr / 64
    match reachLine s p ln true false true none with
    | (.bad, s) => (.bad, s)
    | (.ok, s) =>
      let (owner, key, bias) := lineTerms s ln
      let bs := linePlain s ln key
      let old := (bs.getD (x.addr % 64) 0)
      let v : Byte := match x.kind with
        | .max => if old.toNat < x.val.toNat then x.val else old
        | .and => old &&& x.val
        | .put => x.val
      let s := linePut s ln key (patchB bs (x.addr % 64) [v])
      let s := match grnHome s owner x.addr with
        | some (sl, _) => if bias then s else bump64 s (reg .grn sl 0x130) 1
        | none => s
      (.ok [], countBytes s p 1)

/-! ### Damaged slots (R357, R405) -/

/-- The slot of a cell in progress at a fantail time (R392). -/
def slotNow (c : Cell) (now : Nat) : Nat :=
  if reached now c.cfg.start then ((now + 2 ^ 64 - c.cfg.start) % 2 ^ 64) / (1000000 / 2 ^ c.cfg.mu) % 2 ^ 32 else 0

/-- A slot of a cell. -/
def Cell.slot (c : Cell) (k : Nat) : CellSlot := mget CellSlot.blank c.slots k

/-- Replace a slot of a cell. -/
def Cell.setSlot (c : Cell) (k : Nat) (x : CellSlot) : Cell := { c with slots := mset CellSlot.blank c.slots k x }

/-- Flag the current slot of every cell that a context serves DAMAGED (R357). -/
def damageCells (s : State) (cid : Nat) : State :=
  let now := nowNs s
  { s with cells := mmap (fun _ c =>
      if c.ctx = some cid then
        let k := slotNow c now
        c.setSlot k { c.slot k with damaged := true }
      else c) s.cells }

/-- An uncorrectable read of a context (R357): its cells' slots are damaged and it faults. -/
def ctxUncorrectable (s : State) (cid eng step : Nat) : State :=
  ctxFault (damageCells s cid) cid cfMemUncorrectable eng step

end Sys2Proof.Machine
end

