-- ==== Sys2Proof/Machine/HifOps.lean ====
section
/-! DEFINITION. What the host interface does for others: address translation (R374), the host line cache (R376), the outbound
fabric check (R379, R380, R384) and completion entries (R370 to R372). -/
namespace Sys2Proof.Machine

/-! ### Translation (R374) -/

/-- The TLB entry that covers an address. -/
def tlbFind (s : State) (pasid va : Nat) : Option TlbEnt :=
  s.hif.tlb.find? (fun e => e.pasid = pasid ∧ va / 2 ^ e.log = e.va / 2 ^ e.log)

/-- Put a translation into the TLB of 4,096 entries; the oldest leaves. -/
def tlbPut (s : State) (e : TlbEnt) : State := { s with hif := { s.hif with tlb := (e :: s.hif.tlb).take 4096 } }

/-- Translate one address: the host-physical address if the access is permitted, the answers of ATS left, the state. -/
def translate (s : State) (pasid va : Nat) (wr : Bool) (ats : List (Option AtsAns)) :
    Option Nat × List (Option AtsAns) × State :=
  match tlbFind s pasid va with
  | some e => (if (if wr then e.wr else e.rd) then some (e.hpa + va % 2 ^ e.log) else none, ats, s)
  | none =>
    match ats with
    | some a :: r =>
      let e : TlbEnt := ⟨pasid, va / 2 ^ a.log * 2 ^ a.log, a.log, a.hpa, a.rd, a.wr⟩
      (if (if wr then a.wr else a.rd) then some (a.hpa + va % 2 ^ a.log) else none, r, tlbPut s e)
    | none :: r => (none, r, s)
    | [] => (none, [], s)

/-- Count a refused translation (R374). -/
def xlateFail (s : State) : State := bump32 s (reg .hif 0 0x108) 1

/-! ### The host line cache (R376): 8,192 sets of 16 ways, least recently used (log 18) -/

/-- Allocate a line, evicting the least recently used of its set when all 16 ways are taken. -/
def hlcPut (s : State) (ln : Nat) (d : Line) : State :=
  let set := s.hif.hlc.filter (fun e => e.1 % 8192 = ln % 8192)
  let kept := match set with
    | h :: t => if 16 ≤ set.length then
        mdel s.hif.hlc (t.foldl (fun b e => if e.2.used < b.2.used then e else b) h).1 else s.hif.hlc
    | [] => s.hif.hlc
  { s with hif := { s.hif with hlc := mput kept ln ⟨d, s.hif.hlcClock⟩, hlcClock := s.hif.hlcClock + 1 } }

/-- Drop a line. -/
def hlcDrop (s : State) (ln : Nat) : State := { s with hif := { s.hif with hlc := mdel s.hif.hlc ln } }

/-- Read a host line: from the cache, or from the bytes the host returned; none while they have not come. -/
def hlcRead (s : State) (ln : Nat) (data : List Byte) : Option (Line × List Byte × State) :=
  match mfind s.hif.hlc ln with
  | some l =>
    let s := bump64 s (reg .hif 0 0x118) 1
    some (l.data, data, { s with hif := { s.hif with hlc := mput s.hif.hlc ln ⟨l.data, s.hif.hlcClock⟩, hlcClock := s.hif.hlcClock + 1 } })
  | none =>
    if data.length < 64 then none
    else
      let l := bytesLine data
      some (l, data.drop 64, hlcPut (bump64 s (reg .hif 0 0x120) 1) ln l)

/-- How an access to host memory ended: its bytes, a refused translation, or not complete yet. -/
inductive HostRes where
  | ok (l : List Byte)
  | refused
  | wait
deriving DecidableEq, Repr

/-- Read the host lines `lns` (line numbers of I/O virtual addresses) under a PASID. -/
def hostLines (pasid : Nat) : List Nat → List (Option AtsAns) → List Byte → State → HostRes × State
  | [], _, _, s => (.ok [], s)
  | ln :: r, ats, data, s =>
    match translate s pasid (ln * 64) false ats with
    | (none, _, s) => (.refused, s)
    | (some hpa, ats, s) =>
      match hlcRead s (hpa / 64) data with
      | none => (.wait, s)
      | some (l, data, s) =>
        match hostLines pasid r ats data s with
        | (.ok bs, s) => (.ok (lineBytes l ++ bs), s)
        | x => x

/-- A HOST read of [va, va + n) under a PASID (R374, R376). An access that is not complete yet changes nothing. -/
def hostRead (s : State) (pasid va n : Nat) (ats : List (Option AtsAns)) (data : List Byte) : HostRes × State :=
  match hostLines pasid (piecesOf 64 va n) ats data s with
  | (.ok l, s) => (.ok (sliceB l (va % 64) n), s)
  | (.refused, s) => (.refused, xlateFail s)
  | (.wait, _) => (.wait, s)

/-- Translate and drop from the cache the host lines that a write touches. -/
def hostWriteLines (pasid : Nat) : List Nat → List (Option AtsAns) → State → Bool × State
  | [], _, s => (true, s)
  | ln :: r, ats, s =>
    match translate s pasid (ln * 64) true ats with
    | (none, _, s) => (false, s)
    | (some hpa, ats, s) => hostWriteLines pasid r ats (hlcDrop s (hpa / 64))

/-- Record a write of host memory whose global-observation response has returned (R371). -/
def hostPut (s : State) (w : HostWr) : State := { s with hif := { s.hif with hostW := s.hif.hostW ++ [w] } }

/-- A HOST write under a PASID, complete with its response (R72, R371). -/
def hostWrite (s : State) (pasid va : Nat) (l : List Byte) (ats : List (Option AtsAns)) : HostRes × State :=
  match hostWriteLines pasid (piecesOf 64 va l.length) ats s with
  | (false, s) => (.refused, xlateFail s)
  | (true, s) => (.ok [], hostPut s ⟨some pasid, va, l⟩)

/-! ### The outbound fabric check (R379) -/

/-- Offset of the registers of window `w` of partition `p`. -/
def winReg (p w : Nat) : Nat := reg .hif (2 + p / 8) (0x100 + 0x100 * (p % 8) + 0x10 * w)

/-- First byte of the fabric aperture (R345). -/
def aperBase : Nat := 0x3000000000

/-- Whether window `w` of partition `p` is enabled and holds [a, a + n): the target PBR ID and remote address. -/
def winHit (s : State) (p a n w : Nat) : Option (Nat × Nat) :=
  let k := winReg p w
  let base := aperBase + getF s k 0 22 * 16384
  let size := getF s (k + 4) 0 23 * 16384
  let t := (getD64 s (k + 8)).toNat
  if getF s k 31 1 = 1 ∧ base ≤ a ∧ a + n ≤ base + size then
    some (t % 4096, (t / 2 ^ 14 * 2 ^ 14 + (a - base)) % 2 ^ 64)
  else none

/-- Whether every aperture granule of a request is the partition's (R379, checks 2 and 3). -/
def aperOk (p : Nat) (wr : Bool) : List Nat → State → Bool × State
  | [], s => (true, s)
  | g :: r, s =>
    match ownLookup s g with
    | (none, s) => (false, s)
    | (some e, s) =>
      if entOwner e = p ∧ (entState e = 1 ∨ (entState e = 2 ∧ wr = false)) ∧ (wr = false ∨ entExport e) then aperOk p wr r s
      else (false, s)

/-- The lease expiry of a partition (R380). -/
def leaseExp (s : State) (p : Nat) : Nat := (getD64 s (reg .hif 6 (0x100 + 8 * p))).toNat

/-- Whether a partition's lease is valid (R380). -/
def leaseValid (s : State) (p : Nat) : Bool := !reached (nowNs s) (leaseExp s p)

/-- How an outbound request fares (R379). -/
inductive FabRes where
  | pass (dpid addr : Nat)
  | fault (code : Nat)
deriving DecidableEq, Repr

/-- The outbound check of a request of partition `p` (R379). -/
def fabCheck (s : State) (p a n : Nat) (wr : Bool) : FabRes × State :=
  match (List.range 16).findSome? (winHit s p a n) with
  | none => (.fault cfFabricWindow, s)
  | some (dpid, addr) =>
    match aperOk p wr (piecesOf 16384 a n) s with
    | (false, s) => (.fault cfFabricWindow, s)
    | (true, s) => if wr && !leaseValid s p then (.fault cfFabricFenced, s) else (.pass dpid addr, s)

/-- A request leaves for its peer; in shadow mode a store, atomic or signal is dropped (R384). -/
def fabSend (s : State) (p : Nat) (r : FabReq) : State :=
  if r.kind ≠ .read ∧ bitAt (getW s (reg .hif 0 0x100)).toNat p then s
  else { s with hif := { s.hif with fab := s.hif.fab ++ [r] } }

/-- The address of a REMOTE object's operation: object `n` behind window `w`, at offset `d` of its place in the peer's sync
aperture (R288, R382). The window's own range starts at its first granule. -/
def remoteAddr (s : State) (p w n d : Nat) : Nat := aperBase + getF s (winReg p w) 0 22 * 16384 + 8 * n + d

/-! ### Completion entries (R370 to R372) -/

def getRing (s : State) (sl : Nat) : Ring := mget Ring.off s.hif.rings sl
def setRing (s : State) (sl : Nat) (r : Ring) : State := { s with hif := { s.hif with rings := mset Ring.off s.hif.rings sl r } }

/-- A register of HIF page 1 as it stands for a slice. -/
def ringReg (sl off : Nat) : Nat := winKey sl (reg .hif 1 off)

/-- Entries of a slice's completion ring. -/
def cqSize (s : State) (sl : Nat) : Nat := 2 ^ getF s (ringReg sl 0x118) 8 5

/-- Entries of a slice's submission ring. -/
def sqSize (s : State) (sl : Nat) : Nat := 2 ^ getF s (ringReg sl 0x118) 0 5

/-- The 32 bytes of a completion entry (R370). -/
def cplBytes (e : HeldCpl) (phase : Bool) : List Byte :=
  toLE 8 e.tag ++ toLE 1 e.kind ++ toLE 1 e.status ++ toLE 1 e.code ++ toLE 1 0 ++ toLE 4 e.inst ++ toLE 1 e.eng ++ toLE 1 0
    ++ toLE 2 e.step ++ toLE 11 0 ++ toLE 1 (b2n phase)

/-- Whether the completion ring is full (R366). -/
def cqFull (s : State) (sl : Nat) : Bool :=
  let r := getRing s sl
  (r.cqWrite + 1) % cqSize s sl = r.cqHead

/-- Count completion entries dropped (R363, R372). -/
def cqDrop (s : State) (sl n : Nat) : State := bump32 s (ringReg sl 0x128) n

/-- Issue the write of a completion entry: it is visible once its response has returned (R371, log 19). -/
def cplIssue (s : State) (sl : Nat) (e : HeldCpl) : State :=
  let r := getRing s sl
  let size := cqSize s sl
  let w : HostWr := ⟨some (getSlice s sl).pasid, (getD64 s (ringReg sl 0x110)).toNat + 32 * r.cqWrite, cplBytes e r.phase⟩
  let nw := (r.cqWrite + 1) % size
  setRing s sl { r with cqWrite := nw, phase := if nw = 0 then !r.phase else r.phase, awaiting := r.awaiting ++ [w] }

/-- A completion entry for a slice: written, held while the ring is full, or dropped when the ring is disabled or 256 are
held (R363, R372, log 20). -/
def complete (s : State) (sl : Nat) (e : HeldCpl) : State :=
  let r := getRing s sl
  if !r.enabled then cqDrop s sl 1
  else if cqFull s sl || !r.held.isEmpty then
    if 256 ≤ r.held.length then cqDrop s sl 1
    else setRing s sl { r with held := r.held ++ [{ e with since := nowNs s }] }
  else cplIssue s sl e

/-- Write held entries while the ring has room (`fuel` at most). -/
def cplFlush : Nat → Nat → State → State
  | 0, _, s => s
  | fuel + 1, sl, s =>
    let r := getRing s sl
    match r.held with
    | [] => s
    | e :: t => if cqFull s sl then s else cplFlush fuel sl (cplIssue (setRing s sl { r with held := t }) sl e)

/-- A KIND 0 completion entry: status and code (R370). -/
def completeEntry (s : State) (sl tag status code : Nat) : State := complete s sl ⟨tag, 0, status, code, 0, 0, 0, 0⟩

end Sys2Proof.Machine
end

