-- ==== Sys2Proof/Machine/RadioOps.lean ====
section
/-! DEFINITION. Operations of the radio pipeline that other blocks call: slot times (R392), slot status records (R405, R406),
objects bound to fixed blocks (R287, R294), and cells that lose their serving context (R387). -/
namespace Sys2Proof.Machine

/-- A cell context. -/
def getCell (s : State) (n : Nat) : Cell := mget Cell.blank s.cells n

/-- Whether a cell context is bound (R387). -/
def cellBound (s : State) (n : Nat) : Bool := (mfind s.cells n).isSome

def setCell (s : State) (n : Nat) (c : Cell) : State := { s with cells := mput s.cells n c }

/-- Length of a slot in ns at a numerology. -/
def slotNs (mu : Nat) : Nat := 1000000 / 2 ^ mu

/-- Boundary of slot `k` of a cell, the slot number counted from its start (R392). -/
def Cell.slotAt (c : Cell) (k : Nat) : Nat := (c.cfg.start + k * slotNs c.cfg.mu) % 2 ^ 64

/-- The 64 bytes of a slot status record (R405). -/
def statusBytes (n : Nat) (c : Cell) (k : Nat) (x : CellSlot) (lost : Bool) (done : Nat) : List Byte :=
  toLE 2 n ++ toLE 1 (b2n (x.late ≠ 0) + 2 * b2n x.damaged + 4 * b2n lost) ++ toLE 1 0 ++ toLE 4 x.late ++ toLE 8 (c.slotAt k)
    ++ toLE 8 done ++ toLE 2 (min x.ulDrop 0xFFFF) ++ toLE 2 x.dlFill ++ toLE 4 x.erased ++ toLE 32 0

/-- A register of the SCH page of a partition (R332, R333, R408). -/
def schReg (p off : Nat) : Nat := reg .sch (1 + p) off

/-- Count a status record, and its flags (R408). -/
def countStatus (s : State) (p : Nat) (x : CellSlot) (lost : Bool) : State :=
  let s := bump64 s (schReg p 0x210) 1
  let s := if x.late ≠ 0 then raiseInt (bump32 s (schReg p 0x218) 1) .sch (1 + p) 5 else s
  let s := if x.damaged then raiseInt (bump32 s (schReg p 0x21C) 1) .sch (1 + p) 6 else s
  if lost then bump32 s (schReg p 0x224) 1 else s

/-- A slot status record is written, and its KIND 0 completion entry after it (R405, R406). -/
def reportSlot (s : State) (n k : Nat) (lost : Bool) (done : Nat) : State :=
  let c := getCell s n
  let x := c.slot k
  match x.aux with
  | none => s
  | some (tag, addr) =>
    let w : HostWr := ⟨some (getSlice s c.slice).pasid, addr, statusBytes n c k x lost done⟩
    let r := getRing s c.slice
    let s := setRing s c.slice { r with awaiting := r.awaiting ++ [w] }
    let s := setCell s n { c.setSlot k { x with aux := none } with reported := c.reported + 1 }
    completeEntry (countStatus s c.part x lost) c.slice tag 0 0

/-- Report every slot of a cell that is staged and not reported, with CONTEXT_LOST (R406). DONE_NS is the fault's stamp `done`, or
that of the last phase completion where no fault ended the context. -/
def reportLost (s : State) (n : Nat) (done : Option Nat) : State :=
  (mkeys (fun _ x => x.staged && x.aux.isSome) (getCell s n).slots).foldl (fun s k =>
    reportSlot s n k true (done.getD ((getCell s n).slot k).doneNs)) s

/-- The cells that a context serves. -/
def cellsOf (s : State) (cid : Nat) : List Nat := mkeys (fun _ c => c.ctx = some cid) s.cells

/-- The serving context of its cells exists no more: their slots are reported (R405, R406), and they are orphaned (R387). -/
def orphanCells (s : State) (cid : Nat) (torn : Option Nat) : State :=
  (cellsOf s cid).foldl (fun s n =>
    let s := reportLost s n torn
    let s := setCell s n { getCell s n with ctx := none }
    raiseInt s .sch (1 + (getCell s n).part) 7) s

/-! ### Phases (R400) -/

/-- The slot of a cell whose boundary is at a fantail time, if there is one. -/
def Cell.slotOf (c : Cell) (t : Nat) : Option Nat :=
  let d := (t + 2 ^ 64 - c.cfg.start % 2 ^ 64) % 2 ^ 64
  if d < 2 ^ 63 ∧ d % slotNs c.cfg.mu = 0 then some (d / slotNs c.cfg.mu % 2 ^ 32) else none

/-- Phase `j` of a context completes for the slot whose boundary is `t`: every cell it serves notes it. -/
def phaseDone (s : State) (cid j t : Nat) (ph : PhaseDecl) : State :=
  let now := nowNs s
  (cellsOf s cid).foldl (fun s n =>
    let c := getCell s n
    match c.slotOf t with
    | none => s
    | some k =>
      let x := c.slot k
      let late := !reached (t + ph.deadline) now
      setCell s n (c.setSlot k { x with
        phases := x.phases ||| 2 ^ j, late := if late then x.late ||| 2 ^ j else x.late, doneNs := now })) s

/-- A context signals what a LOCAL names: when a phase names it as DONE, its n-th ADD completes the phase for the n-th slot that
the context serves. -/
def phaseStamp (s : State) (cid loc : Nat) (set : Bool) : State :=
  let c := getCtx s cid
  match (ctxModule s c).timing, c.radioFrom with
  | some tm, some t0 =>
    if set then s
    else (tm.phases.zipIdx).foldl (fun s p =>
      if p.1.done ≠ loc then s
      else
        let c := getCtx s cid
        let n := mget 0 c.phaseCnt p.2
        let s := setCtx s cid { c with phaseCnt := mset 0 c.phaseCnt p.2 (n + 1) }
        phaseDone s cid p.2 ((t0 + n * slotNs tm.mu) % 2 ^ 64) p.1) s
  | _, _ => s

/-- Whether any cell of a partition is bound. -/
def partHasCells (s : State) (p : Nat) : Bool := s.cells.any (fun e => e.2.part = p)

/-- Whether a cell configuration names an object (R389). -/
def CellCfg.names (c : CellCfg) (n : Nat) : Bool :=
  n = c.listObj || n = c.dlObj || n = c.relObj || (c.flagObj ≤ n && n < c.flagObj + 14)

/-- Whether an enabled ring of a bolter ring set names an object (R411, R425). -/
def bolterNames (s : State) (n : Nat) : Bool :=
  (List.range 8).any (fun i => (List.range 2).any (fun r =>
    getF s (reg .bol i 0x224) r 1 = 1 && (getF s (reg .bol i (0x21C + 4 * r)) 0 16 = n || getF s (reg .bol i (0x21C + 4 * r)) 16 16 = n)))

/-- Whether an object is bound to the HIF, the sluice or the bolters (R287, R294). -/
def boundObj (s : State) (n : Nat) : Bool := s.cells.any (fun e => e.2.cfg.names n) || bolterNames s n

/-! ### Waits that the watchdog does not count (R294) -/

/-- Whether a RADIO context has not yet come to the start of its first cell (R294). -/
def awaitsCell (s : State) (c : Ctx) : Bool :=
  bitAt (ctxModule s c).flags 0 && (match c.radioFrom with | none => true | some t => !reached (nowNs s) t)

/-- Whether a wait is on a TIMED object or one bound to a fixed block (R294); until the first cell starts, an object that is NONE
counts as one that a configuration has yet to bind (log 146). -/
def waitExcused (s : State) (c : Ctx) (w : Option Wait) : Bool :=
  match w with
  | some (.sync loc _ _ _) =>
    match mfind c.syncs loc with
    | some (.obj n) => (getObj s n).typ = .timed || boundObj s n || ((getObj s n).typ = .none && awaitsCell s c)
    | _ => false
  | _ => false

/-- Whether a context of a radio-class partition is not stalled for one of its waits (R294). -/
def excused (s : State) (c : Ctx) : Bool :=
  isRadio s c.part && (waitExcused s c c.miller.wait || c.engs.any (fun e => waitExcused s c e.2.wait))

/-- After a step from `s0` to `s` that unbinds objects, the count of a context that may be stalled again starts afresh (R294). -/
def recount (s0 s : State) : State :=
  (mkeys (fun _ c => excused s0 c && !excused s c) s.sched.ctxs).foldl (fun s k =>
    let c := getCtx s k
    let runs : Bool := match c.place with | .leaf site lf => (getLeaf s site lf).st = .running | .saved => false
    setCtx s k { c with lastMove := if runs then nowNs s else 0 }) s

end Sys2Proof.Machine
end

