-- ==== Sys2Proof/Machine/Seq.lean ====
section
/-! DEFINITION. Sequencer records of the step-table engines: loops (R57, R58, R201), cut records (R188, R202), sync records
(R203 to R205, R281 to R284, R288), and the start of segments (R56). -/
namespace Sys2Proof.Machine

/-! ### Loops and segments -/

/-- The index of the `loop.end` that closes the loop whose body starts at `i`, `d` loops deeper (`fuel` records at most). -/
def matchEnd (t : List Rec) : Nat → Nat → Nat → Nat
  | 0, i, _ => i
  | fuel + 1, i, d =>
    match t[i]? with
    | none => i
    | some r =>
      if recOp r = 1 then matchEnd t fuel (i + 1) (d + 1)
      else if recOp r = 2 then (if d = 0 then i else matchEnd t fuel (i + 1) (d - 1))
      else matchEnd t fuel (i + 1) d

/-- The first record of segment `n` (R167): the record after the n-th EOS. -/
def segStart (t : List Rec) (n : Nat) : Nat :=
  if n = 0 then 0
  else match ((List.range t.length).filter (fun i => match t[i]? with | some r => recEos r | none => false))[n - 1]? with
    | some i => i + 1
    | none => t.length

/-- The number of segments of a table (R167). -/
def segCount (t : List Rec) : Nat := (t.filter recEos).length

/-- Enter a loop (R57, R58): count 0 passes the matching `loop.end` at once, a count above its maximum faults. -/
def loopEnter (i : Issue) (s : State) (lf : Nat) : State :=
  match countOf i.c.miller (recW i.rcd 2) with
  | none => i.fault s lf cfCountRange
  | some 0 =>
    let t := i.m.table i.e
    let j := matchEnd t t.length (i.idx + 1) 0
    putEng s i.cid i.c i.e (i.eng.past (t.getD j i.rcd) j)
  | some n => putEng s i.cid i.c i.e { i.eng with loops := i.eng.loops ++ [⟨n, 0, i.idx + 1⟩], next := i.idx + 1 }

/-- Close the innermost loop (R57, R167): back to its first record while passes remain. -/
def loopLeave (i : Issue) (s : State) : State :=
  match i.eng.loops.getLast? with
  | none => putEng s i.cid i.c i.e i.adv
  | some l =>
    let outer := i.eng.loops.dropLast
    if l.done + 1 < l.count then
      putEng s i.cid i.c i.e { i.eng with loops := outer ++ [{ l with done := l.done + 1 }], next := l.first }
    else putEng s i.cid i.c i.e { i.adv with loops := outer }

def execLoopBegin (site : Site) (lf : LeafNo) (e : EngNo) (s : State) : Res :=
  done (match issueAt s site lf e [1] with
    | some i => loopEnter i s lf
    | none => s)

def execLoopEnd (site : Site) (lf : LeafNo) (e : EngNo) (s : State) : Res :=
  done (match issueAt s site lf e [2] with
    | some i => loopLeave i s
    | none => s)

/-- An idle engine starts its next pending segment (R56). An engine that holds starts none (R188). A miller
that stalled on the full queue issues its `seq.run` afresh. -/
def segBegin (s : State) (site lf e : Nat) : State :=
  match runningAt s site lf with
  | none => s
  | some (cid, c) =>
    let eng := c.eng e
    match eng.cur, eng.pend, eng.held with
    | none, g :: r, false =>
      let c := if c.miller.wait = some (.seqFull e) then { c with miller := { c.miller with wait := none } } else c
      putEng s cid c e { eng with cur := some g, next := segStart ((ctxModule s c).table e) g, pend := r, loops := [] }
    | _, _, _ => s

def execSegmentStart (site : Site) (lf : LeafNo) (e : EngNo) (s : State) : Res := done (segBegin s site lf e)

/-! ### Cut records -/

/-- `mark.cheap` issues (R188): with a freeze pending its engine holds after it. -/
def markCut (i : Issue) (s : State) : State :=
  let x := i.adv
  putEng s i.cid i.c i.e (if i.c.freezing then { x with held := true, cut := some (recCheap i.rcd) } else x)

def execMarkCheap (site : Site) (lf : LeafNo) (e : EngNo) (s : State) : Res :=
  done (match issueAt s site lf e [3] with
    | some i => markCut i s
    | none => s)

/-! ### Sync records -/

/-- LOCAL, MODE and OPERAND of a sync record (R203). -/
def syncLocal (r : Rec) : Nat := recF r 2 0 10
def syncMode (r : Rec) : Nat := recF r 2 12 3

/-- Whether a wait on what a LOCAL names is satisfied when it issues (R282, R284); a REMOTE object is polled (R288). -/
def waitNow (s : State) (c : Ctx) (loc cond : Nat) (v : Word) : Bool :=
  match mfind c.syncs loc with
  | some (.obj n) => waitCond (getObj s n) cond v
  | _ => false

/-- `sync.wait` issues (R188, R282, R284): satisfied at once, or the engine waits; with a freeze pending it holds there. -/
def waitIssue (i : Issue) (s : State) (lf : Nat) : State :=
  match countOf i.c.miller (recW i.rcd 3) with
  | none => i.fault s lf cfCountRange
  | some v =>
    let loc := syncLocal i.rcd
    let cond := syncMode i.rcd
    let cmp := BitVec.ofNat 32 v
    let sat := waitNow s i.c loc cond cmp
    if i.c.freezing then
      putEng s i.cid i.c i.e { i.eng with wait := some (.sync loc cond cmp sat), held := true, cut := some (recCheap i.rcd) }
    else if sat then putEng s i.cid i.c i.e i.adv
    else putEng s i.cid i.c i.e { i.eng with wait := some (.sync loc cond cmp false) }

def execSyncWait (site : Site) (lf : LeafNo) (e : EngNo) (s : State) : Res :=
  done (match issueAt s site lf e [4] with
    | some i => waitIssue i s lf
    | none => s)

/-- What a signal or take of a context leads to: a new state, or a fault code. -/
inductive SyncOut where
  | ok (v : Word) (s : State)
  | fault (code : Nat) (s : State)
deriving DecidableEq, Repr

/-- A context of partition `p` signals what a LOCAL names (R281, R288, R290). -/
def ctxSignal (s : State) (p : Nat) (b : Option SyncBind) (set : Bool) (v : Word) : SyncOut :=
  match b with
  | some (.obj n) =>
    match sigObj (getObj s n) set v with
    | .done o => .ok 0 (setObj s n o)
    | .discard => .ok 0 (discardOp s)
    | .overflow => .fault cfCountRange s
  | some (.remote w n) =>
    match fabCheck s p (remoteAddr s p w n (if set then 4 else 0)) 4 true with
    | (.fault code, s) => .fault code s
    | (.pass d a, s) => .ok 0 (fabSend s p ⟨.write, d, BitVec.ofNat 64 a, toLE 4 v.toNat⟩)
  | none => .ok 0 (discardOp s)

/-- A context of partition `p` takes from what a LOCAL names (R283, R288): a peer's answer is `ans`; in shadow mode the atomic
is dropped and its value is free (log 5). -/
def ctxTake (s : State) (p : Nat) (b : Option SyncBind) (inc ans : Word) : SyncOut :=
  match b with
  | some (.obj n) =>
    match takeObj (getObj s n) inc with
    | .got old o => .ok old (countTake (setObj s n o))
    | .range => .fault cfCountRange s
    | .notWork => .ok 0xFFFFFFFF (discardOp s)
  | some (.remote w n) =>
    if inc = 0 then .fault cfCountRange s
    else match fabCheck s p (remoteAddr s p w n 0) 4 true with
      | (.fault code, s) => .fault code s
      | (.pass d a, s) =>
        if bitAt (getW s (reg .hif 0 0x100)).toNat p then
          let (k, s) := freshId s
          .ok ((Config.freeValue k).setWidth 32) s
        else .ok ans (fabSend s p ⟨.fetchAdd, d, BitVec.ofNat 64 a, toLE 4 inc.toNat⟩)
  | none => .ok 0xFFFFFFFF (discardOp s)

/-- `sync.signal` issues (R181, R281): every earlier record of the engine is complete. -/
def signalIssue (i : Issue) (s : State) (lf : Nat) : State :=
  match countOf i.c.miller (recW i.rcd 3) with
  | none => i.fault s lf cfCountRange
  | some v =>
    match ctxSignal s i.c.part (mfind i.c.syncs (syncLocal i.rcd)) (syncMode i.rcd = 1) (BitVec.ofNat 32 v) with
    | .fault code s => i.fault s lf code
    | .ok _ s =>
      let s := phaseStamp s i.cid (syncLocal i.rcd) (syncMode i.rcd = 1)
      putEng s i.cid (getCtx s i.cid) i.e i.adv

def execSyncSignal (site : Site) (lf : LeafNo) (e : EngNo) (s : State) : Res :=
  done (match issueAt s site lf e [5] with
    | some i => signalIssue i s lf
    | none => s)

/-- An engine pushes entries; what does not fit is pushed as entries leave the queue (R63). -/
def pushEntries (c : Ctx) (m : Module) (x : Eng) (step q : Nat) (es : List Line) : Ctx × Eng :=
  match c.push (m.depth q) q es with
  | ([], c) => (c, x)
  | (left, c) => (c, { x with op := some (.store ⟨step, [], q, left, []⟩), wait := some (.push q) })

/-- `sync.take` issues (R204, R283): the old value goes to QO. -/
def takeIssue (i : Issue) (s : State) (lf : Nat) (ans : Word) : State :=
  match countOf i.c.miller (recW i.rcd 3) with
  | none => i.fault s lf cfCountRange
  | some v =>
    match ctxTake s i.c.part (mfind i.c.syncs (syncLocal i.rcd)) (BitVec.ofNat 32 v) ans with
    | .fault code s => i.fault s lf code
    | .ok old s =>
      let c := getCtx s i.cid
      let (c, x) := pushEntries c i.m i.adv i.idx (recF i.rcd 1 16 5) [bytesLine (toLE 4 old.toNat)]
      putEng s i.cid c i.e x

def execSyncTake (site : Site) (lf : LeafNo) (e : EngNo) (ans : Word) (s : State) : Res :=
  done (match issueAt s site lf e [6] with
    | some i => takeIssue i s lf ans
    | none => s)

end Sys2Proof.Machine
end

