-- ==== Sys2Proof/Machine/Miller.lean ====
section
/-! DEFINITION. The miller's instructions (R233 to R237): each acts only when the miller of a RUNNING leaf stands at that
instruction. -/
namespace Sys2Proof.Machine

/-! ### Fields of an instruction (R233) -/

def mMop (w : DWord) : Nat := bitsAt w.toNat 0 8
def mRd (w : DWord) : Nat := bitsAt w.toNat 8 5
def mRa (w : DWord) : Nat := bitsAt w.toNat 13 5
def mRb (w : DWord) : Nat := bitsAt w.toNat 18 5
def mFn (w : DWord) : Nat := bitsAt w.toNat 23 9
def mImm (w : DWord) : Word := (w >>> 32).setWidth 32

/-- Scalar register `i`; `s0` reads 0 (R66). -/
def Miller.get (m : Miller) (i : Nat) : Word := if i = 0 then 0 else mget 0 m.s i

/-- Write scalar register `i`; writes to `s0` are discarded (R66). -/
def Miller.set (m : Miller) (i : Nat) (v : Word) : Miller := if i = 0 then m else { m with s := mset 0 m.s i v }

/-- An instruction about to issue: its context, the miller and the instruction. -/
structure MIssue where
  cid : Nat
  c : Ctx
  m : Miller
  w : DWord
deriving DecidableEq, Repr

/-- The instruction that the miller of a leaf may issue now, if it is `mop`: the leaf is RUNNING and the miller has not ended,
holds nowhere and waits on nothing. -/
def millerAt (s : State) (site lf mop : Nat) : Option MIssue :=
  match runningAt s site lf with
  | none => none
  | some (cid, c) =>
    let m := c.miller
    match m.ended, m.held, m.wait, (ctxModule s c).code[m.pc / 8]? with
    | false, false, none, some w => if mMop w = mop then some ⟨cid, c, m, w⟩ else none
    | _, _, _, _ => none

/-- Store the miller of the context; the stall count restarts (R294). -/
def MIssue.put (i : MIssue) (s : State) (m : Miller) : State := setCtx s i.cid ({ i.c with miller := m }.moved s)

/-- Store the miller past the instruction. -/
def MIssue.done (i : MIssue) (s : State) (m : Miller) : State := i.put s { m with pc := (m.pc + 8) % 2 ^ 32 }

/-- Raise a context fault of the miller: engine 0, the instruction's index (log 21). -/
def MIssue.fault (i : MIssue) (s : State) (code : Nat) : State := ctxFault s i.cid code 0 (i.m.pc / 8)

def MIssue.ra (i : MIssue) : Word := i.m.get (mRa i.w)
def MIssue.rb (i : MIssue) : Word := i.m.get (mRb i.w)

/-! ### ALU instructions (R234) -/

/-- The second operand of an ALU instruction: `s[RB]` or IMM by FN bit 0. -/
def aluB (i : MIssue) : Word := if bitAt (mFn i.w) 0 then mImm i.w else i.rb

/-- An ALU instruction: s[RD] = f s[RA] operand. -/
def alu (site lf mop : Nat) (f : Word → Word → Word) (s : State) : State :=
  match millerAt s site lf mop with
  | some i => i.done s (i.m.set (mRd i.w) (f i.ra (aluB i)))
  | none => s

def execAluAdd (site : Site) (lf : LeafNo) (s : State) : Res := done (alu site lf 0x01 (fun a b => a + b) s)
def execAluSub (site : Site) (lf : LeafNo) (s : State) : Res := done (alu site lf 0x02 (fun a b => a - b) s)
def execAluAnd (site : Site) (lf : LeafNo) (s : State) : Res := done (alu site lf 0x03 (fun a b => a &&& b) s)
def execAluOr (site : Site) (lf : LeafNo) (s : State) : Res := done (alu site lf 0x04 (fun a b => a ||| b) s)
def execAluXor (site : Site) (lf : LeafNo) (s : State) : Res := done (alu site lf 0x05 (fun a b => a ^^^ b) s)
def execAluShl (site : Site) (lf : LeafNo) (s : State) : Res := done (alu site lf 0x06 (fun a b => a <<< (b.toNat % 32)) s)
def execAluShr (site : Site) (lf : LeafNo) (s : State) : Res := done (alu site lf 0x07 (fun a b => a >>> (b.toNat % 32)) s)
def execAluSra (site : Site) (lf : LeafNo) (s : State) : Res := done (alu site lf 0x08 (fun a b => a.sshiftRight (b.toNat % 32)) s)
def execAluMul (site : Site) (lf : LeafNo) (s : State) : Res := done (alu site lf 0x09 (fun a b => a * b) s)
def execAluMulhu (site : Site) (lf : LeafNo) (s : State) : Res := done (alu site lf 0x0A (fun a b => BitVec.ofNat 32 (a.toNat * b.toNat / 2 ^ 32)) s)
def execAluSlt (site : Site) (lf : LeafNo) (s : State) : Res := done (alu site lf 0x0B (fun a b => if a.toInt < b.toInt then 1 else 0) s)
def execAluSltu (site : Site) (lf : LeafNo) (s : State) : Res := done (alu site lf 0x0C (fun a b => if a.toNat < b.toNat then 1 else 0) s)
def execAluMinu (site : Site) (lf : LeafNo) (s : State) : Res := done (alu site lf 0x0D (fun a b => if a.toNat < b.toNat then a else b) s)
def execAluMaxu (site : Site) (lf : LeafNo) (s : State) : Res := done (alu site lf 0x0E (fun a b => if a.toNat < b.toNat then b else a) s)

/-! ### Loads and stores of miller data memory (R234, R236) -/

/-- The address s[RA] + IMM. -/
def mAddr (i : MIssue) : Nat := (i.ra + mImm i.w).toNat

/-- Whether `n` bytes at the instruction's address are aligned and inside the region (R74, R236). -/
def mdmOk (i : MIssue) (s : State) (n : Nat) : Bool := mAddr i % n = 0 && mAddr i + n ≤ mdmSize s i.c

/-- A load of `n` bytes, zero-extended into s[RD]. -/
def mLoad (site lf mop n : Nat) (s : State) : State :=
  match millerAt s site lf mop with
  | none => s
  | some i =>
    if mdmOk i s n then i.done s (i.m.set (mRd i.w) (BitVec.ofNat 32 (ofLE (i.c.mdmRead (mAddr i) n)))) else i.fault s cfDmemBounds

/-- A store of the low `n` bytes of s[RB]. -/
def mStore (site lf mop n : Nat) (s : State) : State :=
  match millerAt s site lf mop with
  | none => s
  | some i =>
    if mdmOk i s n then { i with c := i.c.mdmWrite (mAddr i) (toLE n i.rb.toNat) }.done s i.m else i.fault s cfDmemBounds

def execLdw (site : Site) (lf : LeafNo) (s : State) : Res := done (mLoad site lf 0x10 4 s)
def execStw (site : Site) (lf : LeafNo) (s : State) : Res := done (mStore site lf 0x11 4 s)
def execLdb (site : Site) (lf : LeafNo) (s : State) : Res := done (mLoad site lf 0x12 1 s)
def execStb (site : Site) (lf : LeafNo) (s : State) : Res := done (mStore site lf 0x13 1 s)

/-! ### Registers of other engines -/

/-- `whb`: a base register of a hoist = s[RB] × 2^32 + s[RA]. -/
def mWhb (site lf : Nat) (s : State) : State :=
  match millerAt s site lf 0x14 with
  | none => s
  | some i =>
    let k := mFn i.w % 8
    let v : DWord := i.rb ++ i.ra
    let c := if bitAt (mFn i.w) 3 then { i.c with hbOut := mset 0 i.c.hbOut k v } else { i.c with hbIn := mset 0 i.c.hbIn k v }
    { i with c := c }.done s i.m

def execWhb (site : Site) (lf : LeafNo) (s : State) : Res := done (mWhb site lf s)

/-- `wlc`: lc[RD] = s[RA]; a loop already entered keeps its count (R57). -/
def mWlc (site lf : Nat) (s : State) : State :=
  match millerAt s site lf 0x30 with
  | none => s
  | some i => i.done s { i.m with lc := mset 0 i.m.lc (mRd i.w % 16) i.ra }

def execWlc (site : Site) (lf : LeafNo) (s : State) : Res := done (mWlc site lf s)

/-- `wofs`: ofs[RD] = s[RA]. -/
def mWofs (site lf : Nat) (s : State) : State :=
  match millerAt s site lf 0x31 with
  | none => s
  | some i => i.done s { i.m with ofs := mset 0 i.m.ofs (mRd i.w % 16) i.ra }

def execWofs (site : Site) (lf : LeafNo) (s : State) : Res := done (mWofs site lf s)

/-! ### Branches and loops (R234, R235) -/

/-- The condition of `bf`. -/
def mCond (f : Nat) (a b : Word) : Bool :=
  match f with
  | 0 => a = b
  | 1 => a ≠ b
  | 2 => a.toInt < b.toInt
  | 3 => b.toInt ≤ a.toInt
  | 4 => a.toNat < b.toNat
  | 5 => b.toNat ≤ a.toNat
  | _ => true

/-- The pc IMM bytes away. -/
def mTarget (i : MIssue) : Nat := (i.m.pc + (mImm i.w).toNat) % 2 ^ 32

/-- `bf`. -/
def mBf (site lf : Nat) (s : State) : State :=
  match millerAt s site lf 0x20 with
  | none => s
  | some i => if mCond (mFn i.w % 8) i.ra i.rb then i.put s { i.m with pc := mTarget i } else i.done s i.m

def execBf (site : Site) (lf : LeafNo) (s : State) : Res := done (mBf site lf s)

/-- `mloop` (R235): the body is FN instructions long. -/
def mLoopOpen (site lf : Nat) (s : State) : State :=
  match millerAt s site lf 0x21 with
  | none => s
  | some i =>
    let brk := i.m.pc + 8 * (mFn i.w + 1)
    if (mImm i.w).toNat < i.ra.toNat then i.fault s cfCountRange
    else if i.ra = 0 then i.put s { i.m with pc := (brk + 8) % 2 ^ 32 }
    else i.done s { i.m with loops := i.m.loops ++ [(i.m.pc, brk)] }

def execMloop (site : Site) (lf : LeafNo) (s : State) : Res := done (mLoopOpen site lf s)

/-- `br.loop`. -/
def mLoopBack (site lf : Nat) (s : State) : State :=
  match millerAt s site lf 0x22 with
  | none => s
  | some i =>
    let v := i.ra - 1
    let m := i.m.set (mRa i.w) v
    if v ≠ 0 then i.put s { m with pc := mTarget i } else i.done s { m with loops := m.loops.dropLast }

def execBrLoop (site : Site) (lf : LeafNo) (s : State) : Res := done (mLoopBack site lf s)

/-! ### Segments and queues -/

/-- Whether a step-table engine has nothing to do (R56, R188). -/
def Eng.isIdle (e : Eng) : Bool := e.cur.isNone && e.pend.isEmpty && e.op.isNone

/-- `seq.run` (R56, R185): an engine that idles while a freeze is pending holds at once (R188). -/
def mSeqRun (site lf : Nat) (s : State) : State :=
  match millerAt s site lf 0x32 with
  | none => s
  | some i =>
    let e := mFn i.w % 8
    let seg := (i.ra + mImm i.w).toNat
    let eng := i.c.eng e
    if e = 0 ∨ segCount ((ctxModule s i.c).table e) ≤ seg then i.fault s cfSegmentRange
    else if 4 ≤ eng.pend.length then i.put s { i.m with wait := some (.seqFull e) }
    else
      let x := { eng with pend := eng.pend ++ [seg], held := eng.held || (i.c.freezing && eng.isIdle) }
      { i with c := i.c.setEng e x }.done s i.m

def execSeqRun (site : Site) (lf : LeafNo) (s : State) : Res := done (mSeqRun site lf s)

/-- `qpop`: an entry of a queue goes to miller data memory; the miller waits on an empty queue (R63). -/
def mQpop (site lf : Nat) (s : State) : State :=
  match millerAt s site lf 0x33 with
  | none => s
  | some i =>
    let q := mFn i.w % 32
    if !mdmOk i s 64 then i.fault s cfDmemBounds
    else match i.c.pop ((ctxModule s i.c).depth q) q 1 with
      | ([l], c) => { i with c := c.mdmWrite (mAddr i) (lineBytes l) }.done s i.m
      | _ => i.put s { i.m with wait := some (.pop q) }

def execQpop (site : Site) (lf : LeafNo) (s : State) : Res := done (mQpop site lf s)

/-- `qpush`: an entry from miller data memory goes to a queue; the miller waits on a full queue (R63). -/
def mQpush (site lf : Nat) (s : State) : State :=
  match millerAt s site lf 0x34 with
  | none => s
  | some i =>
    let q := mFn i.w % 32
    if !mdmOk i s 64 then i.fault s cfDmemBounds
    else match i.c.push ((ctxModule s i.c).depth q) q [bytesLine (i.c.mdmRead (mAddr i) 64)] with
      | ([], c) => { i with c := c }.done s i.m
      | _ => i.put s { i.m with wait := some (.push q) }

def execQpush (site : Site) (lf : LeafNo) (s : State) : Res := done (mQpush site lf s)

/-! ### Sync instructions and the end -/

/-- Object LOCAL and CHEAP of a miller sync instruction. -/
def mLocal (w : DWord) : Nat := bitsAt w.toNat 32 10
def mCheap (w : DWord) : Nat := bitsAt w.toNat 48 10

/-- `sync.wait`: a cut record (R188, R282, R284). -/
def mWait (site lf : Nat) (s : State) : State :=
  match millerAt s site lf 0x35 with
  | none => s
  | some i =>
    let loc := mLocal i.w
    let cond := mFn i.w % 8
    let sat := waitNow s i.c loc cond i.rb
    if i.c.freezing then i.put s { i.m with wait := some (.sync loc cond i.rb sat), held := true, cut := some (mCheap i.w) }
    else if sat then i.done s i.m
    else i.put s { i.m with wait := some (.sync loc cond i.rb false) }

def execMillerSyncWait (site : Site) (lf : LeafNo) (s : State) : Res := done (mWait site lf s)

/-- `sync.signal` (R281). -/
def mSignal (site lf : Nat) (s : State) : State :=
  match millerAt s site lf 0x36 with
  | none => s
  | some i =>
    match ctxSignal s i.c.part (mfind i.c.syncs (mLocal i.w)) (mFn i.w % 8 = 1) i.rb with
    | .fault code s => i.fault s code
    | .ok _ s =>
      let s := phaseStamp s i.cid (mLocal i.w) (mFn i.w % 8 = 1)
      { i with c := getCtx s i.cid }.done s i.m

def execMillerSyncSignal (site : Site) (lf : LeafNo) (s : State) : Res := done (mSignal site lf s)

/-- `sync.take` (R283): s[RD] = the old value. -/
def mTake (site lf : Nat) (ans : Word) (s : State) : State :=
  match millerAt s site lf 0x37 with
  | none => s
  | some i =>
    match ctxTake s i.c.part (mfind i.c.syncs (mLocal i.w)) i.rb ans with
    | .fault code s => i.fault s code
    | .ok old s => { i with c := getCtx s i.cid }.done s (i.m.set (mRd i.w) old)

def execMillerSyncTake (site : Site) (lf : LeafNo) (ans : Word) (s : State) : Res := done (mTake site lf ans s)

/-- `mark.cheap`: with a freeze pending the miller holds after it (R188). -/
def mMark (site lf : Nat) (s : State) : State :=
  match millerAt s site lf 0x38 with
  | none => s
  | some i =>
    i.done s (if i.c.freezing then { i.m with held := true, cut := some (bitsAt i.w.toNat 32 10) } else i.m)

def execMillerMarkCheap (site : Site) (lf : LeafNo) (s : State) : Res := done (mMark site lf s)

/-- `miller.end`: the miller's part of R186. -/
def mEnd (site lf : Nat) (s : State) : State :=
  match millerAt s site lf 0x3F with
  | none => s
  | some i => i.put s { i.m with ended := true }

def execMillerEnd (site : Site) (lf : LeafNo) (s : State) : Res := done (mEnd site lf s)

end Sys2Proof.Machine
end

