-- ==== Sys2Proof/Machine/SchedOps.lean ====
section
/-! DEFINITION. Shared operations of the scheduler: where mills lie (R3, R4), rows that must wake (R505), leaves and their
bounds (R73, R75, R250), freezes (R188), running and stopping a leaf (R79, R314), and the release of contexts (R179, R291,
R309, R319). -/
namespace Sys2Proof.Machine

/-! ### The logical map (R3, R4, R546) -/

/-- The MILL_SITE entry of the dutchman table for a site of a row. -/
def siteEntry (s : State) (row x : Nat) : Option DtEntry :=
  s.rep.dt.find? (fun e => e.kind = 1 ∧ e.loc = row + 256 * x)

/-- The site that serves a logical mill; none when it is absent (R547). -/
def millSite (s : State) (n : Nat) : Option Nat :=
  let row := n / 15
  match siteEntry s row (n % 15) with
  | none => some (16 * row + n % 15)
  | some e => if e.spare = 15 ∧ (siteEntry s row 15).isNone then some (16 * row + 15) else none

/-- The logical mill that a site serves. -/
def siteMill (s : State) (site : Nat) : Option Nat := (List.range 15).findSome? (fun c =>
  if millSite s (site / 16 * 15 + c) = some site then some (site / 16 * 15 + c) else none)

/-- SITE_ROLE (R86): 0 in service, 1 idle spare, 2 retired. -/
def siteRole (s : State) (site : Nat) : Nat :=
  if (siteMill s site).isSome then 0 else if (siteEntry s (site / 16) (site % 16)).isSome then 2 else 1

/-- The sites that a mask of logical mills names. -/
def sitesOf (s : State) (mask : Nat) : List Nat := (setBitsOf 240 mask).filterMap (millSite s)

/-- Whether a capability of R52 is on the device. -/
def hasCap (s : State) (id : Nat) : Bool := s.card.caps.contains id

/-! ### Leaves -/

/-- Partition that runs on a mill now: the borrower of a lent mill, otherwise its holder (R310). -/
def millUser (s : State) (n : Nat) : Option Nat :=
  match mfind s.sched.lent n with
  | some b => some b
  | none => (mkeys (fun _ p => bitAt p.mills n) s.sched.parts).head?

/-- Whether a mill is lent. -/
def isLent (s : State) (n : Nat) : Bool := (mfind s.sched.lent n).isSome

/-- Regions that a context needs, in the units of R73: data memory, tiles, queue entries, miller data memory. -/
structure Need where
  dmem : Nat
  acc : Nat
  q : Nat
  mdm : Nat
deriving DecidableEq, Repr

/-- What a load report asks for (R250). -/
def LoadSizes.need (z : LoadSizes) : Need :=
  ⟨ceilDiv z.dmemBytes 4096, z.accRegion, z.queueEntries, ceilDiv z.mdmBytes 1024⟩

/-- Where a region of `n` units lies beside a region [base, base + cnt) of a memory of `cap` units (R75). -/
def beside (cap base cnt n : Nat) : Option Nat :=
  if cnt = 0 then (if n ≤ cap then some 0 else none)
  else if n ≤ base then some 0
  else if base + cnt + n ≤ cap then some (base + cnt)
  else none

/-- Bounds for a context beside those of the other leaf; none when they do not fit (R73, R75). -/
def boundsFor (other : Bounds) (nd : Need) (stones : Nat) : Option Bounds :=
  match beside 192 other.dmemBase other.dmemCnt nd.dmem, beside 24 other.accBase other.accCnt nd.acc,
      beside 512 other.qBase other.qCnt nd.q, beside 32 other.mdmBase other.mdmCnt nd.mdm with
  | some d, some a, some q, some m => some ⟨d, nd.dmem, a, nd.acc, q, nd.q, m, nd.mdm, stones⟩
  | _, _, _, _ => none

/-- Stones of a leaf (R87). -/
def leafStones (split : Bool) (lf : Nat) : Nat := if split then (if lf = 0 then 0x3 else 0xC) else 0xF

/-- Whether two clean copies of a dutchman entry differ at an index (R559). -/
def dtConflict (s : State) (i : Nat) : Bool := s.rep.dtA[i]? ≠ s.rep.dtB[i]?

/-- Whether a part that either copy of a conflicting entry names is fenced (R559). -/
def dtFenced (s : State) (names : DtEntry → Bool) : Bool :=
  (List.range (max s.rep.dtA.length s.rep.dtB.length)).any (fun i =>
    dtConflict s i && ((s.rep.dtA[i]?.any names) || (s.rep.dtB[i]?.any names)))

/-- Whether a site is fenced. -/
def siteFenced (s : State) (site : Nat) : Bool :=
  dtFenced s (fun e => (e.kind = 1 || e.kind = 2) && e.loc % 16 = site / 16
    && (e.loc / 256 % 16 = site % 16 || (e.kind = 1 && e.spare = site % 16)))

/-- The context of a module that may use a mill (R161, R250, R259, R310, R550). -/
def millTakes (s : State) (n : Nat) (m : Module) (grid : Nat) : Bool :=
  (!isLent s n || (bitAt m.flags 1 && !bitAt m.flags 0 && grid = 0 && (mfind s.sched.reclaims n).isNone))
    && (match s.rep.sparing, millSite s n with
        | some x, some site => x.site ≠ site
        | _, _ => true)
    && (match millSite s n with
        | some site => !siteFenced s site
        | none => false)

/-- Whether a module may be placed in a leaf of a site now, `own` when the leaf is about to become EMPTY. -/
def leafTakes (s : State) (site lf : Nat) (m : Module) (nd : Need) (own : Bool) : Bool :=
  let mill := getMill s site
  (own || (mill.leaf lf).st = .empty) && (boundsFor (mill.leaf (1 - lf)).bnd nd 0xF).isSome && (!mill.split || bitAt m.flags 2)

/-! ### The save area (R301, R309) -/

/-- Units of a partition's save area that nothing holds. -/
def freeUnits (s : State) (p : Nat) : List Nat :=
  let held := s.sched.ctxs.flatMap (fun e => if e.2.part = p then e.2.saveUnits else [])
  (List.range (4 * (getPart s p).desc.saveGran)).filter (fun u => !held.contains u)

/-- Units that a save of at most `bytes` takes. -/
def unitsFor (bytes : Nat) : Nat := ceilDiv bytes 4096

/-- Units that the largest live set of a context's module takes (R192, R309). -/
def ctxUnits (s : State) (c : Ctx) : Nat := unitsFor (getLaunch s c.launch).sizes.saveMax

/-- Reserve units for a context; none when too few are free. -/
def reserveUnits (s : State) (cid : Nat) : Option State :=
  let c := getCtx s cid
  let want := ctxUnits s c - c.saveUnits.length
  let free := freeUnits s c.part
  if want ≤ free.length then some (setCtx s cid { c with saveUnits := c.saveUnits ++ free.take want }) else none

/-! ### Freezes (R188, R268) -/

/-- Whether an engine holds under a freeze, or is idle. -/
def Eng.quiet (e : Eng) : Bool := e.held || (e.op.isNone && e.cur.isNone && e.wait.isNone)

/-- Whether every engine of a context holds (R188). A context that has not run issues nothing and holds as it is. -/
def Ctx.holds (c : Ctx) : Bool :=
  !c.started || (c.engs.all (fun e => e.2.quiet) && (c.miller.held || c.miller.ended))

/-- The cut an engine waiting at a `sync.wait` holds at (R188). -/
def waitCut (m : Module) (e : Nat) (x : Eng) : Nat := recCheap ((m.table e).getD x.next 0)

/-- The CHEAP field of the miller's cut instruction at an offset (R236). -/
def millerCut (m : Module) (pc : Nat) : Nat := mCheap (m.code.getD (pc / 8) 0)

/-- The segment that the record at an index belongs to (R167). -/
def segOf (t : List Rec) (idx : Nat) : Nat := segCount (t.take idx)

/-- What a freeze request does to one engine at once (R188, R268): an engine waiting at a `sync.wait`, or before a receive step
without a descriptor, holds. -/
def freezeEng (m : Module) (e : Nat) (x : Eng) : Eng :=
  if x.held then x
  else match x.wait, x.op with
    | some (.sync _ _ _ _), _ => { x with held := true, cut := some (waitCut m e x) }
    | some .mcastRecv, some (.hoist o) => { x with op := none, wait := none, cur := some (segOf (m.table e) o.step), next := o.step, held := true }
    | _, _ => x

/-- Request the freeze of a context that is in a leaf (R188); `why` 1 switch, 2 swap, 3 pause, 4 reclaim, 5 migration,
6 sparing. A later reason replaces an earlier one that is less binding (R323). -/
def freezeCtx (s : State) (cid why : Nat) : State :=
  let c := getCtx s cid
  match c.place with
  | .saved => s
  | .leaf _ _ =>
    if c.killed then s
    else
      let m := ctxModule s c
      let miller := match c.miller.wait with
        | some (.sync _ _ _ _) =>
          if c.miller.held then c.miller else { c.miller with held := true, cut := some (millerCut m c.miller.pc) }
        | _ => c.miller
      setCtx s cid { c with
        engs := mmap (freezeEng m) c.engs
        miller := miller
        freezing := true
        freezeFrom := if c.freezing then c.freezeFrom else nowNs s
        freezeWhy := max why c.freezeWhy }

/-- The contexts that move together with one (R259): the members of its grid launch, or itself. -/
def groupOf (s : State) (cid : Nat) : List Nat :=
  let c := getCtx s cid
  if (getLaunch s c.launch).grid = 0 then [cid]
  else mkeys (fun _ x => x.launch = c.launch && !x.killed) s.sched.ctxs

/-- Request the freeze of a context and of its grid launch. -/
def freezeGroup (s : State) (cid why : Nat) : State := (groupOf s cid).foldl (fun s c => freezeCtx s c why) s

/-- Evaluate a held wait as its context resumes (R188, R292): afresh after a swap, in place otherwise. -/
def rewait (s : State) (c : Ctx) (fresh : Bool) (w : Option Wait) : Option Wait :=
  match w with
  | some (.sync loc cond v sat) =>
    let now := match mfind c.syncs loc with
      | some (.obj n) => waitCond (getObj s n) cond v
      | _ => false
    some (.sync loc cond v (now || (sat && !fresh)))
  | w => w

/-- A context resumes: its engines hold no more, and each continues with the record after the one at which it held (R188). -/
def thaw (s : State) (c : Ctx) : Ctx :=
  { c with
    engs := (mmap (fun _ e => { e with held := false, cut := none, wait := rewait s c false e.wait }) c.engs)
    miller := { c.miller with held := false, cut := none, wait := rewait s c false c.miller.wait }
    freezing := false
    freezeWhy := 0 }

/-! ### Running and stopping a leaf -/

/-- A RUNNING leaf stops running: its slice is charged, and the stall count stands still (R294, R314). -/
def stopLeaf (s : State) (site lf : Nat) (st : LeafSt) : State :=
  let l := getLeaf s site lf
  if l.st = .running then
    let s := chargeLeaf s site lf
    let s := hopMark (setLeaf s site lf { getLeaf s site lf with st := st }) site
    match l.ctx with
    | some c => setCtx s c { getCtx s c with lastMove := nowNs s - (getCtx s c).lastMove }
    | none => s
  else setLeaf s site lf { l with st := st }

/-- A RESIDENT leaf starts (R79, R188, R315). -/
def startLeaf (s : State) (site lf : Nat) : State :=
  let l := getLeaf s site lf
  match l.ctx with
  | none => s
  | some cid =>
    let c := thaw s (getCtx s cid)
    let s := setCtx s cid { c with started := true, placedAt := nowNs s, lastMove := nowNs s - (if c.started then c.lastMove else 0) }
    hopMark (setLeaf s site lf { l with st := .running, runFrom := nowNs s }) site

/-- Empty the hoppers of every stone of a mill that the leaf drives: nothing of them is kept (R76). -/
def emptyHoppers (s : State) (site lf : Nat) : State := dropHoppers s site lf

/-- Clear a leaf (R319): its context's memories are gone with it, and the leaf is EMPTY. -/
def clearLeaf (s : State) (site lf : Nat) : State :=
  let l := getLeaf s site lf
  let m := getMill s site
  let s := if m.split ∨ m.runLeaf = lf then dropHoppers s site lf else s
  setLeaf s site lf l.vacant

/-! ### The end of contexts and launches -/

/-- One context fewer of a launch (R179, R369, R370): with the last one the SHARED objects are released and, with CPL_ON_END,
the KIND 1 entry is written. -/
def launchLeft (s : State) (ln : Nat) : State :=
  let l := getLaunch s ln
  if 1 < l.left then setLaunch s ln { l with left := l.left - 1 }
  else
    let s := (l.shared.map (fun p => p.2)).foldl freeObj s
    let s := if bitAt l.flags 1 then complete s l.slice ⟨l.tag, 1, 0, 0, 0, 0, 0, 0⟩ else s
    delLaunch s ln

/-- Release everything that a context holds outside its leaf (R179, R291, R309). -/
def releaseCtx (s : State) (cid : Nat) : State :=
  let c := getCtx s cid
  delCtx ((privateObjs (ctxModule s c) c).foldl freeObj s) cid

/-- Whether every context of a partition is frozen or saved. -/
def partHeld (s : State) (p : Nat) : Bool :=
  s.sched.ctxs.all (fun e => e.2.part ≠ p || (match e.2.place with
    | .saved => !e.2.killed
    | .leaf site lf => (getLeaf s site lf).st = .frozen))

/-- A partition in FREEZING whose contexts are all frozen becomes FROZEN (R327, R333). -/
def partFrozen (s : State) (p : Nat) : State :=
  let x := getPart s p
  if x.st = .freezing ∧ partHeld s p then raiseInt (setPart s p { x with st := .frozen }) .sch (1 + p) 4 else s

/-- A slice command ends: `SLICE_RESULT` and `INT_STAT.SLICE_DONE` (R305, R333). -/
def sliceDone (s : State) (p code : Nat) : State :=
  let s := setPart s p { getPart s p with sliceCmd := none }
  raiseInt (setW s (reg .sch (1 + p) 0x190) (BitVec.ofNat 32 code)) .sch (1 + p) 3

/-- A PAUSE in progress ends once every context of its slice is frozen or saved (R305). -/
def pauseDone (s : State) (p : Nat) : State :=
  match (getPart s p).sliceCmd with
  | some (4, sl) =>
    if s.sched.ctxs.all (fun e => e.2.slice ≠ sl || e.2.killed || (match e.2.place with
        | .saved => true
        | .leaf site lf => (getLeaf s site lf).st = .frozen)) then sliceDone s p 0
    else s
  | _ => s

/-- What follows when a context of a partition froze, was saved or ended. -/
def settlePart (s : State) (p : Nat) : State := pauseDone (partFrozen s p) p

end Sys2Proof.Machine
end

