-- ==== Sys2Proof/Machine/SaveImage.lean ====
section
/-! DEFINITION. Save images: the live set of a complete freeze (R189), its layout in the save area (R324, R325), and what a
context restored from it holds (R189, R326). -/
namespace Sys2Proof.Machine

/-- The cheap-point declarations at which the engines of a context hold (R189), in declaration order; idle engines contribute
none. -/
def liveDecls (m : Module) (c : Ctx) : List CheapDecl :=
  let cuts := c.miller.cut.toList ++ c.engs.filterMap (fun e => e.2.cut)
  m.cheap.filter (fun d => cuts.contains d.id)

/-- Queues that are live. -/
def liveQueues (m : Module) (c : Ctx) : List Nat :=
  (List.range 32).filter (fun q => (liveDecls m c).any (fun d => bitAt d.queues q))

/-- Live ranges, in declaration order, each once. -/
def liveRanges (m : Module) (c : Ctx) : List LiveRange := ((liveDecls m c).flatMap (fun d => d.ranges)).eraseDups

/-- Whether a byte of a region of a kind (0 data memory, 1 miller data memory) lies in a live range. -/
def byteLive (m : Module) (c : Ctx) (kind a : Nat) : Bool :=
  (liveRanges m c).any (fun r => (m.buf r.buf).kind = kind && c.base r.buf + r.start ≤ a && a < c.base r.buf + r.start + r.len)

/-- Whether a tile lies in a live range. -/
def tileLive (m : Module) (c : Ctx) (t : Nat) : Bool :=
  (liveRanges m c).any (fun r => (m.buf r.buf).kind = 2 && c.base r.buf / 8192 + r.start ≤ t && t < c.base r.buf / 8192 + r.start + r.len)

/-- What a restored context holds (R189, R326): what is live, and zeros elsewhere. A context that has not run is saved whole
(log 25). -/
def liveOnly (m : Module) (c : Ctx) : Ctx :=
  if !c.started then c
  else
    { c with
      queues := c.queues.filter (fun e => (liveQueues m c).contains e.1)
      dmem := c.dmem.filter (fun e => byteLive m c 0 e.1)
      mdm := c.mdm.filter (fun e => byteLive m c 1 e.1)
      tiles := c.tiles.filter (fun e => tileLive m c e.1) }

/-- The 96 bytes of a step-table engine (R325). -/
def engBytes (x : Eng) : List Byte :=
  let idle := x.cur.isNone && x.pend.isEmpty
  let atWait := match x.wait with | some (.sync _ _ _ _) => true | _ => false
  let b := toLE 4 x.next ++ toLE 2 (x.cur.getD 0) ++ toLE 1 (b2n idle + 2 * b2n atWait) ++ toLE 1 x.pend.length
    ++ sliceB (x.pend.flatMap (toLE 2)) 0 8
    ++ sliceB (x.loops.flatMap (fun l => toLE 4 l.count ++ toLE 4 l.done ++ toLE 4 l.first)) 0 48
  sliceB b 0 96

/-- The 96 bytes of the miller (R325): its resume record is its pc. -/
def millerBytes (x : Miller) : List Byte :=
  let atWait := match x.wait with | some (.sync _ _ _ _) => true | _ => false
  let b := toLE 4 (x.pc / 8) ++ toLE 2 0 ++ toLE 1 (b2n x.ended + 2 * b2n atWait) ++ toLE 1 0 ++ toLE 8 0
    ++ sliceB (x.loops.flatMap (fun l => toLE 4 l.1 ++ toLE 4 l.2)) 0 64
  sliceB b 0 96

/-- The fixed part (R190, R324). -/
def savedFixed (m : Module) (c : Ctx) : List Byte :=
  let regs (n : Nat) (r : KMap Word) : List Byte := (List.range n).flatMap (fun i => toLE 4 (mget 0 r i).toNat)
  let base (r : KMap DWord) : List Byte := (List.range 8).flatMap (fun i => toLE 8 (mget 0 r i).toNat)
  let tile (t : Nat) : List Byte := toLE 2 (wrapTo 16 (c.tile t).anchor) ++ toLE 1 (c.tile t).cls.code ++ toLE 1 0
  let queue (q : Nat) : List Byte :=
    let x := c.queue q
    let two := 2 * max 1 (m.depth q)
    toLE 2 (x.head % two) ++ toLE 2 ((x.head + x.ents.length) % two)
  let b := toLE 4 0 ++ (regs 32 c.miller.s).drop 4 ++ regs 16 c.miller.lc ++ regs 16 c.miller.ofs ++ toLE 4 c.miller.pc
    ++ toLE 4 c.satCnt.toNat ++ base c.hbIn ++ base c.hbOut
    ++ (List.range 16).flatMap (fun i => toLE 8 (mget 0 c.digests i).toNat)
    ++ (List.range 24).flatMap tile ++ (List.range 32).flatMap queue
    ++ millerBytes c.miller ++ (List.range 7).flatMap (fun i => engBytes (c.eng (i + 1)))
    ++ toLE 4 c.mcSeqTx
  sliceB b 0 2048

/-- The bytes of a live range. -/
def rangeBytes (m : Module) (c : Ctx) (r : LiveRange) : List Byte :=
  match (m.buf r.buf).kind with
  | 0 => c.dmemRead (c.base r.buf + r.start) r.len
  | 1 => c.mdmRead (c.base r.buf + r.start) r.len
  | _ => (List.range r.len).flatMap (fun i =>
      (List.range 1024).flatMap (fun k => toLE 8 ((c.tile (c.base r.buf / 8192 + r.start + i)).word (k / 32) (k % 32)).toNat))

/-- The image of a context (R324): fixed part, entries of live queues, live ranges. -/
def imageBytes (m : Module) (c : Ctx) : List Byte :=
  savedFixed m c ++ (liveQueues m c).flatMap (fun q => (c.queue q).ents.flatMap lineBytes)
    ++ (liveRanges m c).flatMap (rangeBytes m c)

/-- Write an image into the units of a save area, as accesses of the partition (R301, R309). -/
def writeUnits (p base : Nat) : List Nat → List (List Byte) → State → State
  | u :: us, l :: ls, s => writeUnits p base us ls (devWrite s p (base + 4096 * u) l false none).2
  | _, _, s => s

/-- Save a FROZEN context and take it out of its leaf (R308, R309, R319, R324): none while the save area cannot take it. -/
def saveCtx (s : State) (cid : Nat) : Option State :=
  let c := getCtx s cid
  match c.place with
  | .saved => none
  | .leaf site lf =>
    let m := ctxModule s c
    let img := imageBytes m c
    let need := unitsFor img.length
    let units := (c.saveUnits ++ freeUnits s c.part).take need
    if units.length < need then none
    else
      let s := writeUnits c.part (getPart s c.part).desc.saveBase units (chunksOf 4096 need img) s
      let n := s.sched.saves
      let s := { s with sched := { s.sched with saves := n + 1 } }
      let s := setCtx s cid { liveOnly m c with
        place := .saved, saveUnits := units, savedAt := n, freezing := true, freezeWhy := 0 }
      some (bump64 (clearLeaf s site lf) (reg .sch 0 0x130) 1)

end Sys2Proof.Machine
end

