-- ==== Sys2Proof/Machine/Decide.lean ====
section
/-! DEFINITION. The scheduler's decisions: which saved context enters a leaf (R308, R315), where a grid launch lies (R258,
R259), which partition receives a lent mill (R310), and the reclaim of a mill (R312). -/
namespace Sys2Proof.Machine

/-! ### Runnable and blocked contexts (R315, R316) -/

/-- Whether an engine holds at a `sync.wait` whose condition is false now. -/
def waitFalse (s : State) (c : Ctx) (w : Option Wait) : Bool :=
  match w with
  | some (.sync loc cond v sat) =>
    match mfind c.syncs loc with
    | some (.obj n) => !waitCond (getObj s n) cond v
    | _ => !sat
  | _ => false

/-- Whether a step-table engine is idle (R180). -/
def Eng.done (e : Eng) : Bool := e.op.isNone && e.cur.isNone && e.wait.isNone && e.pend.isEmpty

/-- Whether every non-idle engine of a context holds at a `sync.wait` whose condition is false (R315, R316). -/
def ctxBlocked (s : State) (c : Ctx) : Bool :=
  c.started && c.engs.all (fun e => e.2.done || waitFalse s c e.2.wait) && (c.miller.ended || waitFalse s c c.miller.wait)
    && !(c.miller.ended && c.engs.all (fun e => e.2.done))

/-- Whether a saved context is runnable (R315). -/
def ctxRunnable (s : State) (c : Ctx) : Bool :=
  c.place = .saved && !c.killed && (getSlice s c.slice).st = .active && (getPart s c.part).st = .active && !ctxBlocked s c

/-! ### Choosing (R315) -/

/-- The first least element by a lexicographic key. -/
def leastBy {α : Type} (key : α → List Nat) : List α → Option α
  | [] => none
  | a :: r =>
    match leastBy key r with
    | none => some a
    | some b => if key b < key a then some b else some a

/-- The order of R315: least VT, lower slice number, saved longest ago, lower instance. -/
def rankCtx (s : State) (cid : Nat) : List Nat :=
  let c := getCtx s cid
  [(getSlice s c.slice).vt.toNat, c.slice, c.savedAt, c.inst]

/-- SAVE_MAX of the context in a leaf; 0 for an empty one (R312). -/
def leafSaveMax (s : State) (site lf : Nat) : Nat :=
  match (getLeaf s site lf).ctx with
  | some c => (getLaunch s (getCtx s c).launch).sizes.saveMax
  | none => 0

/-- Whether a saved context may be placed in a leaf (R250, R308, R311, R312), `own` when the leaf is about to become EMPTY. -/
def mayPlace (s : State) (site lf cid : Nat) (own : Bool) : Bool :=
  let c := getCtx s cid
  let l := getLaunch s c.launch
  match siteMill s site with
  | none => false
  | some n =>
    millUser s n = some c.part && millTakes s n l.modl l.grid && leafTakes s site lf l.modl l.sizes.need own
      && (!isLent s n || ((reserveUnits s cid).isSome && leafSaveMax s site (1 - lf) + l.sizes.saveMax ≤ 524288))

/-- The saved context that a decision chooses for a leaf (R315). -/
def chooseFor (s : State) (site lf : Nat) (own : Bool) : Option Nat :=
  leastBy (rankCtx s) (mkeys (fun cid c => ctxRunnable s c && (getLaunch s c.launch).grid = 0 && mayPlace s site lf cid own) s.sched.ctxs)

/-! ### Placing (R75, R308) -/

/-- Set the bounds and owner of an EMPTY leaf for a context, whose waits are evaluated afresh (R75, R255, R292); its row is
woken (R505). -/
def placeCtx (s : State) (cid site lf : Nat) (st : LeafSt) : State :=
  let c := getCtx s cid
  let l := getLaunch s c.launch
  let mill := getMill s site
  match boundsFor (mill.leaf (1 - lf)).bnd l.sizes.need (leafStones mill.split lf) with
  | none => s
  | some b =>
    let s := wakeRow s (site / 16)
    let s := setLeaf s site lf { (mill.leaf lf).vacant with
      st := st, ctx := some cid, part := c.part, slice := c.slice, bnd := b }
    setCtx s cid { c with
      place := .leaf site lf
      engs := mmap (fun _ e => { e with wait := rewait s c true e.wait }) c.engs
      miller := { c.miller with wait := rewait s c true c.miller.wait } }

/-- Swap a saved context in (R308, R309, R311): its units are freed, or on a lent mill kept for its SAVE_MAX. -/
def swapIn (s : State) (cid site lf : Nat) : State :=
  let lent := match siteMill s site with | some n => isLent s n | none => false
  let s := if lent then (reserveUnits s cid).getD s else setCtx s cid { getCtx s cid with saveUnits := [] }
  placeCtx s cid site lf .resident

/-! ### Grid launches (R258, R259) -/

/-- For a logical column, a free leaf of each row in increasing row (R258). -/
def gridColumn (s : State) (p : Nat) (m : Module) (nd : Need) (col : Nat) : List (Nat × Nat) :=
  (List.range 16).filterMap (fun row =>
    let n := row * 15 + col
    match millSite s n with
    | none => none
    | some site =>
      if millUser s n = some p ∧ !isLent s n ∧ millTakes s n m 1 then
        ([0, 1].find? (fun lf => leafTakes s site lf m nd false)).map (fun lf => (site, lf))
      else none)

/-- Leaves for the instances of a grid launch (R258); none when the partition's mills cannot meet its conditions. -/
def gridPlaces (s : State) (p : Nat) (m : Module) (nd : Need) (insts c : Nat) : Option (List (Nat × Nat)) :=
  let g := insts / c
  if c = 0 ∨ insts % c ≠ 0 ∨ 16 < g then none
  else
    let cols := ((List.range 15).map (gridColumn s p m nd)).filter (fun l => g ≤ l.length)
    if cols.length < c then none
    else some ((List.range insts).map (fun i => ((cols.getD (i % c) []).getD (i / c) (0, 0))))

/-- Swap in a whole grid launch whose members are all saved and runnable, if it can be placed (R259). -/
def swapInGrid (s : State) (ln : Nat) : State :=
  let l := getLaunch s ln
  let mem := mkeys (fun _ c => c.launch = ln) s.sched.ctxs
  if l.grid ≠ 0 ∧ mem ≠ [] ∧ mem.length = l.left ∧ mem.all (fun c => (getCtx s c).place = .saved ∧ !(getCtx s c).killed)
      ∧ mem.any (fun c => ctxRunnable s (getCtx s c)) then
    match gridPlaces s l.part l.modl l.sizes.need l.instances l.grid with
    | none => s
    | some pl => mem.foldl (fun s c =>
        let p := pl.getD (getCtx s c).inst (0, 0)
        swapIn s c p.1 p.2) s
  else s

/-! ### Split mode (R82, R317) -/

/-- Leave split mode once a leaf is EMPTY or holds a module without SPLIT, and neither runs or loads (R82, R317). -/
def leaveSplit (s : State) (site : Nat) : State :=
  let m := getMill s site
  let still (l : Leaf) : Bool := match l.ctx with
    | some c => bitAt (ctxModule s (getCtx s c)).flags 2
    | none => false
  let busy (l : Leaf) : Bool := l.st = .running || l.st = .loading
  if m.split ∧ !(still m.leaf0 ∧ still m.leaf1) ∧ !busy m.leaf0 ∧ !busy m.leaf1 then
    let full (l : Leaf) : Leaf := if l.st = .empty then l else { l with bnd := { l.bnd with stones := 0xF } }
    setMill s site { m with split := false, leaf0 := full m.leaf0, leaf1 := full m.leaf1 }
  else s

/-! ### The decision for a leaf (R315) -/

/-- The decision for a leaf that became EMPTY: the context chosen for it earlier, or the one chosen now, is swapped in. -/
def decideLeaf (s : State) (site lf : Nat) (want : Option Nat) : State :=
  let s := leaveSplit s site
  if (getLeaf s site lf).st ≠ .empty then s
  else
    let pick := match want with
      | some c => if ctxRunnable s (getCtx s c) && mayPlace s site lf c false then some c else chooseFor s site lf false
      | none => chooseFor s site lf false
    match pick with
    | some c => swapIn s c site lf
    | none => (mkeys (fun _ l => l.grid ≠ 0) s.sched.launches).foldl swapInGrid s

/-! ### Loans (R310, R312) -/

/-- Whether a compute partition is a candidate for a loan (R310). -/
def loanTaker (s : State) (b : Nat) : Bool :=
  let x := getPart s b
  x.st = .active && !x.desc.radio && getF s (reg .sch (1 + b) 0x10) 1 1 = 1
    && s.sched.ctxs.any (fun e => e.2.part = b && ctxRunnable s e.2
        && (let l := getLaunch s e.2.launch; bitAt l.modl.flags 1 && !bitAt l.modl.flags 0 && l.grid = 0))

/-- The LEND bit of a mill in its partition's page. -/
def lendBit (s : State) (r n : Nat) : Bool := getF s (reg .sch (1 + r) (0x140 + 4 * (n / 32))) (n % 32) 1 = 1

/-- Whether a mill that its partition offers can be lent now (R310, R312): held, not lent, no context, not about to leave,
not being spared (R556), and no load of the partition waits for leaves. -/
def lendable (s : State) (r n : Nat) : Bool :=
  let x := getPart s r
  x.st = .active && x.desc.radio && bitAt x.mills n && lendBit s r n && !isLent s n
    && s.sched.loads.all (fun e => e.2.part ≠ r || e.2.plan.isSome)
    && (match x.resize with | some z => !bitAt z.rem n | none => true)
    && (match s.rep.sparing with | some z => millSite s n ≠ some z.site | none => true)
    && (match millSite s n with
        | some site => (getLeaf s site 0).st = .empty && (getLeaf s site 1).st = .empty
        | none => false)

/-- Lend a mill to the next candidate in rotation, and decide for its leaves (R310). -/
def lendMill (s : State) (r n : Nat) : State :=
  if !lendable s r n then s
  else match ((List.range 32).map (fun i => (s.sched.lastLoan + 1 + i) % 32)).find? (loanTaker s) with
    | none => s
    | some b =>
      let s := { s with sched := { s.sched with lent := mput s.sched.lent n b, lastLoan := b } }
      match millSite s n with
      | some site => decideLeaf (decideLeaf s site 0 none) site 1 none
      | none => s

/-- Lend every mill that is offered and can be lent. -/
def lendAll (s : State) : State :=
  (mkeys (fun _ p => p.desc.radio) s.sched.parts).foldl (fun s r =>
    (setBitsOf 240 (getPart s r).mills).foldl (fun s n => lendMill s r n) s) s

/-- Decide for every EMPTY leaf of the mills that a partition runs on, and lend what can be lent. -/
def kickPart (s : State) (p : Nat) : State :=
  let s := (List.range 240).foldl (fun s n =>
    match millSite s n with
    | some site => if millUser s n = some p then decideLeaf (decideLeaf s site 0 none) site 1 none else s
    | none => s) s
  lendAll s

/-- Request the reclaim of a lent mill (R312): the freeze of every context on it. -/
def reclaimMill (s : State) (n : Nat) : State :=
  match mfind s.sched.lent n, mfind s.sched.reclaims n, millSite s n with
  | some _, none, some site =>
    let s := { s with sched := { s.sched with reclaims := mput s.sched.reclaims n (nowNs s) } }
    [0, 1].foldl (fun s lf =>
      match (getLeaf s site lf).ctx with
      | some c => freezeCtx s c 4
      | none => s) s
  | _, _, _ => s

/-- Save what is frozen on a mill that returns; none while a leaf still runs or cannot be saved (R312, R313). -/
def saveLeaves (site : Nat) : List Nat → State → Option State
  | [], s => some s
  | lf :: r, s =>
    let l := getLeaf s site lf
    match l.st, l.ctx with
    | .empty, _ => saveLeaves site r s
    | .faulted, _ => saveLeaves site r (clearLeaf s site lf)
    | .frozen, some c =>
      match saveCtx s c with
      | some s => saveLeaves site r s
      | none => none
    | _, _ => none

/-- The mill is back with its radio partition (R312, R332, R333); reclaim clocks are counted at the nominal 1.5 GHz (log 15). -/
def millBack (s : State) (r n asked : Nat) : State :=
  let s := { s with sched := { s.sched with lent := mdel s.sched.lent n, reclaims := mdel s.sched.reclaims n } }
  let s := bump64 s (reg .sch 0 0x138) 1
  let clk := (nowNs s - asked) * 3 / 2
  let s := if (getW s (reg .sch 0 0x140)).toNat < clk then setW s (reg .sch 0 0x140) (BitVec.ofNat 32 (min clk 0xFFFFFFFF)) else s
  raiseInt s .sch (1 + r) 2

end Sys2Proof.Machine
end

