-- ==== Sys2Proof/Machine/GovOps.lean ====
section
/-! DEFINITION. Governor operations that other blocks call: rows of radio partitions (R403), the cap and its floor (R489), event
records (R499), and the bubble level (R491). -/
namespace Sys2Proof.Machine

/-- FLOOR in watts (R489). -/
def capFloor (s : State) : Nat := s.card.floorBase + s.card.rowRadio * ((List.range 16).filter (radioRow s)).length

/-- CAP_W as written. -/
def capW (s : State) : Nat := getF s (reg .gov 0 0x100) 0 10

/-- CAP_EFF in watts (R489). -/
def capEff (s : State) : Nat := max (capFloor s) (min (capW s) s.card.boardMax)

/-- Write a governor record; a full FIFO drops it (R499). -/
def govEvent (s : State) (typ val aux16 aux32 : Nat) : State :=
  if 256 ≤ s.gov.evs.length then bump32 s (reg .gov 3 0x11C) 1
  else raiseInt { s with gov := { s.gov with evs := s.gov.evs ++ [⟨nowNs s, typ, val, aux16, aux32⟩] } } .gov 0 2

/-- B of a compute-class stone (R491). -/
def bubble (s : State) : Nat := max s.gov.bCap (max s.gov.bTherm s.gov.bDip)

/-- HYST_W in mW. -/
def hystMw (s : State) : Nat := getF s (reg .gov 0 0x11C) 0 8 * 1000

/-- Follow the two conditions of DVFS (R494): since when B has been at least 16, and since when it has been 0 with power to spare. -/
def dwellMark (s : State) : State :=
  let since (b : Bool) (t : Option Nat) : Option Nat := if b then some (t.getD (nowNs s)) else none
  let p := s.gov.powers.headD 0
  { s with gov := { s.gov with
    highFrom := since (16 ≤ bubble s) s.gov.highFrom
    lowFrom := since (bubble s = 0 && p + hystMw s ≤ capEff s * 1000) s.gov.lowFrom } }

/-- Clamp CAP_W to the floor and BOARD_MAX (R489): `CLAMPED` follows, and a clamp that begins is recorded. -/
def capClamp (s : State) : State :=
  let a := reg .gov 0 0x14
  let clamped := capW s < capFloor s || s.card.boardMax < capW s
  let was := getF s a 1 1 = 1
  let s := setF s a 1 1 (b2n clamped)
  dwellMark (if clamped ∧ !was then govEvent (raiseInt s .gov 0 1) 7 0 0 (capEff s) else s)

/-- After a change of a part of B: throttling begins or ends, with its record and its time (R499, R501). -/
def bubbleMoved (s : State) (was : Nat) : State :=
  let b := bubble s
  let s := dwellMark s
  if was = 0 ∧ 0 < b then govEvent { s with gov := { s.gov with throttleFrom := some (nowNs s) } } 1 0 0 0
  else if 0 < was ∧ b = 0 then
    let ran := match s.gov.throttleFrom with | some t => nowNs s - t | none => 0
    govEvent (bump64 { s with gov := { s.gov with throttleFrom := none } } (reg .gov 0 0x138) ran) 2 0 0 0
  else s

/-- B of a stone (R491, R493): 0 where a radio-class context drives it or its mill is under reclaim. -/
def stoneBubble (s : State) (site lf : Nat) : Nat :=
  let back : Bool := match siteMill s site with | some n => (mfind s.sched.reclaims n).isSome | none => false
  if isRadio s (getLeaf s site lf).part ∨ back then 0 else bubble s

/-- Partitions or their mills changed: the cap's floor and the rows follow (R403, R489). -/
def millsMoved (s : State) : State := capClamp (radioRowsUp s)

end Sys2Proof.Machine
end

