-- ==== Sys2Proof/Machine/RepairOps.lean ====
section
/-! DEFINITION. Operations on the dutchman table that other blocks call: a new entry (R544, R551, R555), and where the bolters lie
(R410, R424). -/
namespace Sys2Proof.Machine

/-- No spare remains (R545). -/
def noSpare : Nat := 0xFFFFFFFF

/-- The number of this start (R528). -/
def startNo (s : State) : Nat := (getW s (reg .mgt 1 0x124)).toNat

/-- Add a field entry (R544, R551, R555): to the working copy, both reserve copies, and the field repair area while it has room. -/
def dtAdd (s : State) (kind loc spare : Nat) : State :=
  let e : DtEntry := ⟨kind, 2, loc, spare, startNo s⟩
  let put (l : List DtEntry) : List DtEntry := if l.length < 4096 then l ++ [e] else l
  let s := { s with rep := { s.rep with dt := put s.rep.dt, dtA := put s.rep.dtA, dtB := put s.rep.dtB } }
  if s.rep.field.length < 1024 then { s with rep := { s.rep with field := s.rep.field ++ [e] } } else raiseErr s .rep 0 8

/-- The BOLTER entry of a physical bolter. -/
def bolterEntry (s : State) (i : Nat) : Option DtEntry := s.rep.dt.find? (fun e => e.kind = 6 ∧ e.loc = i)

/-- The physical bolter that serves a logical number, following the entries of bolters that failed (`fuel` of them). -/
def bolterPhys (s : State) : Nat → Nat → Option Nat
  | 0, _ => none
  | fuel + 1, i =>
    match bolterEntry s i with
    | none => some i
    | some e => if e.spare < 20 then bolterPhys s fuel e.spare else none

/-- The logical number of a physical bolter in service (R410). -/
def bolterLogical (s : State) (i : Nat) : Option Nat := (List.range 18).find? (fun l => bolterPhys s 4 l = some i)

/-- ROLE of a bolter (R425): 0 in service, 1 spare, 2 retired. -/
def bolterRole (s : State) (i : Nat) : Nat :=
  if (bolterLogical s i).isSome then 0 else if (bolterEntry s i).isSome then 2 else 1

/-- Whether a bolter is fenced. -/
def bolterFenced (s : State) (i : Nat) : Bool := dtFenced s (fun e => e.kind = 6 && (e.loc = i || e.spare = i))

end Sys2Proof.Machine
end

