-- ==== Sys2Proof/Machine/FrameFmt.lean ====
section
/-! DEFINITION. Frames on the fronthaul: Ethernet, C-tag, R-TAG, IP, UDP, eCPRI and O-RAN headers (R426, R438 to R440), and the
compression of PRBs (R441 to R443). The layouts of these headers are those of the standards that R426 names (PRESUMED). -/
namespace Sys2Proof.Machine

/-! ### Building -/

/-- Pad to the least Ethernet frame of 60 bytes without FCS. -/
def padFrame (l : List Byte) : List Byte := l ++ List.replicate (60 - l.length) 0

/-- The one's-complement sum of 16-bit words (`fuel` words at most). -/
def onesSum : Nat → List Byte → Nat
  | 0, _ => 0
  | _, [] => 0
  | fuel + 1, l => beAt l 0 2 + onesSum fuel (l.drop 2)

/-- Fold a sum of words to 16 bits. -/
def fold16 (n : Nat) : Nat :=
  let a := n % 65536 + n / 65536
  let b := a % 65536 + a / 65536
  b % 65536 + b / 65536

/-- The Internet checksum of bytes. -/
def inetSum (l : List Byte) : Nat := 65535 - fold16 (onesSum (l.length + 1) l)

/-- A UDP datagram between two equal ports, its checksum `sum`. -/
def udpBytes (port sum : Nat) (body : List Byte) : List Byte :=
  toBE 2 port ++ toBE 2 port ++ toBE 2 (8 + body.length) ++ toBE 2 sum ++ body

/-- An IPv4 packet with a UDP datagram whose checksum is 0. -/
def ip4Bytes (src dst : List Byte) (port : Nat) (body : List Byte) : List Byte :=
  let d := udpBytes port 0 body
  let h (sum : Nat) : List Byte :=
    [0x45, Config.ipByte 4 1] ++ toBE 2 (20 + d.length) ++ [Config.ipByte 4 4, Config.ipByte 4 5, Config.ipByte 4 6, Config.ipByte 4 7,
      Config.ipByte 4 8, 17] ++ toBE 2 sum ++ src ++ dst
  h (inetSum (h 0)) ++ d

/-- The checksum of a UDP datagram over IPv6; 0 is sent as all ones. -/
def udp6Sum (src dst d : List Byte) : Nat :=
  let x := inetSum (src ++ dst ++ toBE 4 d.length ++ [0, 0, 0, 17] ++ d)
  if x = 0 then 65535 else x

/-- An IPv6 packet with a UDP datagram. -/
def ip6Bytes (src dst : List Byte) (port : Nat) (body : List Byte) : List Byte :=
  let d := udpBytes port (udp6Sum src dst (udpBytes port 0 body)) body
  [0x60 ||| (Config.ipByte 6 0 &&& 0x0F), Config.ipByte 6 1, Config.ipByte 6 2, Config.ipByte 6 3] ++ toBE 2 d.length ++ [17, Config.ipByte 6 7]
    ++ src ++ dst ++ d

/-- An eCPRI message of revision 1: type, ecpriPcid, sequence ID, with the E bit 1 and subsequence 0. -/
def ecpriBytes (typ pc seq : Nat) (body : List Byte) : List Byte :=
  [0x10, BitVec.ofNat 8 typ] ++ toBE 2 (4 + body.length) ++ toBE 2 pc ++ toLE 1 seq ++ [0x80] ++ body

/-- The four bytes that open every O-RAN message: direction, payloadVersion 1, filterIndex, frameId, subframeId, slotId, symbol. -/
def oranHead (dl : Bool) (filter sfn slot mu sym : Nat) : List Byte :=
  toLE 1 (b2n dl * 128 + 16 + filter) ++ toLE 1 sfn ++ toBE 2 (slot / 2 ^ mu % 16 * 4096 + slot % 2 ^ mu * 64 + sym)

/-- The first four bytes of a section: sectionId, rb 0, symInc 0, start PRB, number of PRBs. -/
def sectHead (id start num : Nat) : List Byte := toBE 4 (id % 4096 * 2 ^ 20 + start % 1024 * 256 + num % 256)

/-- udCompHdr (R440): width modulo 16, method 1 for block floating point. -/
def compHdr (w : Nat) : Byte := BitVec.ofNat 8 (w % 16 * 16 + (if w = 0 then 0 else 1))

/-! ### Compression (R441 to R443) -/

/-- Bytes of a CFX24 part. -/
def partBytes (v : Int) : List Byte := toLE 3 (wrapTo 24 v)

/-- The CFX24 parts in bytes. -/
def cfxParts (l : List Byte) : List Int := (chunksOf 3 l.length l).map (fun b => sext 24 (ofLE b))

/-- The exponent of block floating point: the least at which every part fits `w` bits (`fuel` tries). -/
def bfpExp (w : Nat) (x : List Int) : Nat → Nat → Nat
  | 0, e => e
  | fuel + 1, e =>
    if x.any (fun p => p / 2 ^ e < -(2 ^ (w - 1)) || 2 ^ (w - 1) - 1 < p / 2 ^ e) then bfpExp w x fuel (e + 1) else e

/-- Join `w`-bit fields, most significant bit first. -/
def joinBits (w : Nat) (l : List Nat) : Nat := l.foldl (fun a v => a * 2 ^ w + v % 2 ^ w) 0

/-- The compressed bytes of one PRB: 24 CFX24 parts (R442). -/
def prbOut (w : Nat) (v : List Int) : List Byte :=
  let x := v.map (fun p => p / 256)
  if w = 0 then x.flatMap (fun p => toBE 2 (wrapTo 16 p))
  else
    let e := bfpExp w x 16 0
    toLE 1 e ++ toBE (3 * w) (joinBits w (x.map (fun p => wrapTo w (p / 2 ^ e))))

/-- The CFX24 parts of one received PRB and how many were clipped (R443). -/
def prbIn (w : Nat) (l : List Byte) : List Int × Nat :=
  let raw : List Int :=
    if w = 0 then (List.range 24).map (fun i => sext 16 (beAt l (2 * i) 2) * 256)
    else
      let e := leAt l 0 1 % 16
      let n := beAt l 1 (3 * w)
      (List.range 24).map (fun i => sext w (bitsAt n (w * (23 - i)) w) * 2 ^ (e + 8))
  let lim : Int := 2 ^ 23 - 1
  (raw.map (clampInt (-lim) lim), (raw.filter (fun v => v < -lim || lim < v)).length)

/-! ### Parsing -/

/-- A received frame, as far as its EtherType. -/
structure RxEth where
  dmac : Nat
  smac : Nat
  tci : Option Nat
  rtag : Option Nat
  etype : Nat
  body : List Byte
deriving DecidableEq, Repr

/-- Read the Ethernet header, at most one C-tag, and an R-TAG. -/
def parseEth (l : List Byte) : RxEth :=
  let t := beAt l 12 2
  let (tci, o) := if t = 0x8100 then (some (beAt l 14 2), 16) else (none, 12)
  let t := beAt l o 2
  let (rtag, o) := if t = 0xF1C1 then (some (beAt l (o + 4) 2), o + 6) else (none, o)
  ⟨beAt l 0 6, beAt l 6 6, tci, rtag, beAt l o 2, l.drop (o + 2)⟩

/-- A UDP datagram found in a frame: source address, ports, payload, whether every checksum is right. -/
structure RxUdp where
  src : List Byte
  sport : Nat
  dport : Nat
  body : List Byte
  good : Bool
deriving DecidableEq, Repr

/-- The UDP datagram of an IPv4 packet without options or fragments, or of an IPv6 packet without extension headers (R426). -/
def parseUdp (x : RxEth) : Option RxUdp :=
  let l := x.body
  if x.etype = 0x0800 then
    if leAt l 0 1 ≠ 0x45 ∨ leAt l 9 1 ≠ 17 ∨ beAt l 6 2 % 0x4000 ≠ 0 then none
    else
      let d := (l.take (beAt l 2 2)).drop 20
      let pseudo := sliceB l 12 8 ++ [0, 17] ++ toBE 2 d.length
      let udpOk := beAt d 6 2 = 0 || inetSum (pseudo ++ d) = 0
      some ⟨sliceB l 12 4, beAt d 0 2, beAt d 2 2, d.drop 8, inetSum (l.take 20) = 0 && udpOk⟩
  else if x.etype = 0x86DD then
    if leAt l 0 1 / 16 ≠ 6 ∨ leAt l 6 1 ≠ 17 then none
    else
      let d := (l.drop 40).take (beAt l 4 2)
      let pseudo := sliceB l 8 32 ++ toBE 4 d.length ++ [0, 0, 0, 17]
      some ⟨sliceB l 8 16, beAt d 0 2, beAt d 2 2, d.drop 8, beAt d 6 2 = 0 || inetSum (pseudo ++ d) = 0⟩
  else none

/-- A section of a received U-plane message: id, first PRB, number of PRBs, its data. -/
structure RxSect where
  id : Nat
  start : Nat
  num : Nat
  data : List Byte
deriving DecidableEq, Repr

/-- The sections of a U-plane message of a carrier of `prb` PRBs of `per` bytes each (`fuel` sections at most). -/
def parseSects (prb per : Nat) : Nat → List Byte → List RxSect
  | 0, _ => []
  | fuel + 1, l =>
    if l.length < 4 then []
    else
      let w := beAt l 0 4
      let n := if w % 256 = 0 then prb else w % 256
      let d := (l.drop 4).take (n * per)
      if d.length < n * per then []
      else ⟨w / 2 ^ 20, w / 256 % 1024, n, d⟩ :: parseSects prb per fuel (l.drop (4 + n * per))

end Sys2Proof.Machine
end

