-- ==== Sys2Proof/Machine/Access.lean ====
section
/-! DEFINITION. Which register pages answer (R37, R40, R509) and the errors of refused accesses (R11, R33, R37). -/
namespace Sys2Proof.Machine

/-- Whether the start under way, or the last one, has come to step 3 (R526). -/
def fromStep3 (s : State) : Bool := getF s (reg .mgt 1 0x108) 2 1 = 1

/-- `STAT.PAGE_READY` (R37, R40, R86, R509, log 9). -/
def pageReady (s : State) (b : Block) (i : Nat) : Bool :=
  match b with
  | .gov => i = 4 || deviceUp s || devState s = 6
  | .mgt => deviceUp s || (i = 1 && fromStep3 s)
  | .mill => deviceUp s && rowRuns s i && siteRole s i = 0
  | _ => deviceUp s

/-- An access at 0x100 or above of a page that is not ready (R37). -/
def notReady (s : State) (b : Block) (i : Nat) : State := raiseErr s b i 3

/-- A reserved encoding was written (R11, R40): the field keeps its value. -/
def invalidWrite (s : State) (b : Block) (i : Nat) : State := raiseErr s b i 0

/-- A write to an RWL field of a locked page (R42). -/
def lockedWrite (s : State) (b : Block) (i : Nat) : State := raiseErr s b i 1

/-- A write at 0x100 or above: it acts only while the page is ready (R37). -/
def gated (s : State) (b : Block) (i : Nat) (f : State → State) : State := if pageReady s b i then f s else notReady s b i

end Sys2Proof.Machine
end

