-- ==== Sys2Proof/Machine/Fabric.lean ====
section
/-! DEFINITION. Sync objects as the host and peers reach them, the inbound windows, and mesh links (R277, R288 to R290, R296, R297,
R382). -/
namespace Sys2Proof.Machine

/-! ### OBJ_VALUE_WRITE (R296, R297) -/

/-- A write of `OBJ_VALUE`: VALUE of the selected object becomes the value written; refused for NONE and TIMED. -/
def objValueWrite (s : State) (v : Word) : State :=
  gated s .syn 0 (fun s =>
    let n := getF s (reg .syn 0 0x100) 0 16
    let o := getObj s n
    if o.typ = .none ∨ o.typ = .timed then invalidWrite s .syn 0 else setObj s n { o with value := v })

def execObjValueWrite (v : Word) (s : State) : Res := done (objValueWrite s v)

/-! ### REMOTE_POLL (R288, R292) -/

/-- The wait that an engine of a context holds; engine 0 is the miller. -/
def heldWait (c : Ctx) (e : Nat) : Option Wait := if e = 0 then c.miller.wait else (c.eng e).wait

/-- Replace the wait that an engine holds. -/
def putWait (c : Ctx) (e : Nat) (w : Option Wait) : Ctx :=
  if e = 0 then { c with miller := { c.miller with wait := w } } else c.setEng e { c.eng e with wait := w }

/-- One poll of a held REMOTE wait: the read is checked (R379), and the wait is evaluated against the VALUE that the peer
returned, by the rule of the declared type. -/
def remotePoll (s : State) (site lf e : Nat) (v : Word) : State :=
  let l := getLeaf s site lf
  match l.ctx with
  | none => s
  | some cid =>
    let c := getCtx s cid
    if ¬ (l.st = .running ∨ l.st = .resident) ∨ c.killed then s
    else match heldWait c e with
      | some (.sync loc cond cmp sat) =>
        match mfind c.syncs loc with
        | some (.remote w n) =>
          match fabCheck s c.part (remoteAddr s c.part w n 0) 4 false with
          | (.fault code, s) => ctxFault s cid code (physEng (ctxModule s c) lf e) (if e = 0 then c.miller.pc / 8 else (c.eng e).next)
          | (.pass d a, s) =>
            let s := fabSend s c.part ⟨.read, d, BitVec.ofNat 64 a, []⟩
            let typ := match (ctxModule s c).syncs.find? (fun x => x.loc = loc) with
              | some x => ObjType.ofCode x.typ
              | none => .none
            let now := waitCond ⟨typ, v, 0, 0⟩ cond cmp
            setCtx s cid (putWait (getCtx s cid) e (some (.sync loc cond cmp (sat || now))))
        | _ => s
      | _ => s

def execRemotePoll (site : Site) (lf : LeafNo) (e : EngNo) (v : Word) (s : State) : Res := done (remotePoll s site lf e v)

/-! ### Inbound windows (R382) -/

/-- Offset of the registers of inbound window `i`. -/
def inReg (i : Nat) : Nat := reg .hif 7 (0x100 + 0x20 * i)

/-- Whether inbound window `i` is enabled with a kind. -/
def inOpen (s : State) (i kind : Nat) : Bool := getF s (inReg i + 8) 31 1 = 1 && getF s (inReg i + 8) 24 1 = kind

/-- Answer a peer, or the host: none for an Unsupported Request. -/
def answer (s : State) (a : Option (List Byte)) : State := { s with hif := { s.hif with answers := s.hif.answers ++ [a] } }

/-- Refuse an inbound request: Unsupported Request, counted. -/
def inRefuse (s : State) : State := answer (bump32 s (reg .hif 7 0x180) 1) none

/-- Whether the sync aperture is open through window `i`: KIND 1 requires 32 granules. -/
def syncOpen (s : State) (i : Nat) : Bool := inOpen s i 1 && getF s (inReg i + 8) 0 23 = 32

/-- Whether inbound operations on an object are enabled (R289). -/
def remoteOk (s : State) (n : Nat) : Bool := getF s (reg .syn 3 (0x100 + 4 * (n / 256 / 32))) (n / 256 % 32) 1 = 1

/-- An inbound signal (R289, R290, R382). -/
def inboundSignal (s : State) (i n : Nat) (set : Bool) (v : Word) : State :=
  if !syncOpen s i then inRefuse s
  else answer (if remoteOk s n then signalExt s n set v else discardOp s) (some [])

def execInboundAddSignal (win : Fin 4) (n : BitVec 16) (v : Word) (s : State) : Res := done (inboundSignal s win n.toNat false v)
def execInboundSetSignal (win : Fin 4) (n : BitVec 16) (v : Word) (s : State) : Res := done (inboundSignal s win n.toNat true v)

/-- An inbound take (R283, R289, R290): a discarded one returns 0xFFFF_FFFF; what a peer's take with increment 0, or past
0xFFFF_FFFF, returns is free (log 26). -/
def inboundTake (s : State) (i n : Nat) (inc : Word) : State :=
  if !syncOpen s i then inRefuse s
  else if !remoteOk s n then answer (discardOp s) (some (toLE 4 0xFFFFFFFF))
  else match takeObj (getObj s n) inc with
    | .got old o => answer (countTake (setObj s n o)) (some (toLE 4 old.toNat))
    | .range =>
      let (k, s) := freshId s
      answer s (some (toLE 4 (Config.freeValue k).toNat))
    | .notWork => answer (discardOp s) (some (toLE 4 0xFFFFFFFF))

def execInboundTake (win : Fin 4) (n : BitVec 16) (inc : Word) (s : State) : Res := done (inboundTake s win n.toNat inc)

/-- An inbound read of an object's VALUE. -/
def inboundValue (s : State) (i n : Nat) : State :=
  if syncOpen s i then answer s (some (toLE 4 (getObj s n).value.toNat)) else inRefuse s

def execInboundValueRead (win : Fin 4) (n : BitVec 16) (s : State) : Res := done (inboundValue s win n.toNat)

/-- The device-physical address that `n` bytes at offset `off` of window `i` reach (R382, R385). -/
def inAddr (s : State) (i off n : Nat) : Option Nat :=
  let a := (getD64 s (inReg i + 0x10)).toNat + off
  if inOpen s i 0 ∧ off + n ≤ getF s (inReg i + 8) 0 23 * 16384 ∧ a + n ≤ 8781824 * 16384 then some a else none

/-- Whether an entry admits an inbound access (R344, R382). -/
def inAdmits (s : State) (w : Word) (wr : Bool) : Bool :=
  entExport w && (entState w = 1 || (entState w = 2 && !wr)) && (slotKey s (entKey w)).isSome

/-- The check of an inbound access over its granules: the owner of the first. -/
def inCheck (wr : Bool) : List Nat → State → Option Nat × State
  | [], s => (none, s)
  | g :: r, s =>
    match ownLookup s g with
    | (some w, s) =>
      if inAdmits s w wr then
        match r with
        | [] => (some (entOwner w), s)
        | _ :: _ => match inCheck wr r s with
          | (some _, s) => (some (entOwner w), s)
          | x => x
      else (none, s)
    | (none, s) => (none, s)

/-- Run an inbound access that the window and the granules admit, as an access of the owner. -/
def inAccess (s : State) (i off n : Nat) (wr : Bool) (act : State → Nat → Nat → State) : State :=
  match inAddr s i off n with
  | none => inRefuse s
  | some a =>
    match inCheck wr (piecesOf 16384 a n) s with
    | (some p, s) => act s p a
    | (none, s) => inRefuse s

/-- An inbound read (R382): its bytes, or none when they are uncorrectable (R356). -/
def inboundRead (s : State) (i off n : Nat) (upset : List (Nat × Nat)) : State :=
  let s := upsetLines s upset
  inAccess s i off n false (fun s p a =>
    match readPassed s p a n true none with
    | (some l, s) => answer s (some l)
    | (none, s) => answer s none)

def execInboundRead (win : Fin 4) (off : BitVec 37) (n : Fin 4097) (upset : List (Nat × Nat)) (s : State) : Res :=
  done (inboundRead s win off.toNat n upset)

/-- An inbound write (R382). -/
def inboundWrite (s : State) (i off : Nat) (l : List Byte) (upset : List (Nat × Nat)) : State :=
  let s := upsetLines s upset
  inAccess s i off l.length true (fun s p a =>
    match writePassed s p a l true none with
    | (.ok, s) => answer s (some [])
    | (.bad, s) => answer s none)

def execInboundWrite (win : Fin 4) (off : BitVec 37) (data : List Byte) (upset : List (Nat × Nat)) (s : State) : Res :=
  done (inboundWrite s win off.toNat data upset)

/-- The value that a fabric atomic leaves (R360). -/
def atomNew (op : AtomOp) (w old v cmp : Nat) : Nat :=
  match op with
  | .fetchAdd => (old + v) % 2 ^ w
  | .swap => v % 2 ^ w
  | .cas => if old = cmp % 2 ^ w then v % 2 ^ w else old

/-- An inbound atomic (R360, R382, R383): it answers the old value. -/
def inboundAtomic (s : State) (i off : Nat) (op : AtomOp) (wide : Bool) (v cmp : Nat) (upset : List (Nat × Nat)) : State :=
  let s := upsetLines s upset
  let n := if wide then 8 else 4
  inAccess s i (off / n * n) n true (fun s p a =>
    match readPassed s p a n true none with
    | (none, s) => answer s none
    | (some l, s) =>
      match writePassed s p a (toLE n (atomNew op (8 * n) (ofLE l) v cmp)) true none with
      | (.ok, s) => answer s (some l)
      | (.bad, s) => answer s none)

def execInboundAtomic (win : Fin 4) (off : BitVec 37) (op : AtomOp) (wide : Bool) (v cmp : DWord) (upset : List (Nat × Nat))
    (s : State) : Res :=
  done (inboundAtomic s win off.toNat op wide v.toNat cmp.toNat upset)

/-! ### Mesh links (R276, R277) -/

/-- A link of a mesh quadrant repeats a packet. -/
def linkRetry (s : State) (q : Nat) : State := raiseErr (bump32 s (reg .noc q 0x120) 1) .noc q 8

def execLinkCrcError (q : Fin 4) (s : State) : Res := done (linkRetry s q)

/-- A link fails its retries: the contexts whose packets were on it fault as after an uncorrectable read, and the device needs a
full reset. -/
def linkDown (s : State) (q : Nat) (ctxs : List Nat) : State :=
  let s := errRecord (raiseErr s .noc q 9) .noc q 12 3 62 q 0
  let s := ctxs.foldl (fun s c => ctxUncorrectable s c 0 0) s
  requireReset s cfMemUncorrectable

def execLinkDown (q : Fin 4) (ctxs : List Nat) (s : State) : Res := done (linkDown s q ctxs)

end Sys2Proof.Machine
end

