-- ==== Sys2Proof/Machine/Spout.lean ====
section
/-! DEFINITION. Spout operations (R154 to R158, R218 to R221, R604): the layout of a region, conversion, census, skip map,
digest, and the completion of stores. -/
namespace Sys2Proof.Machine

def oFmt (r : Rec) : Nat := recF r 2 0 5
def oExp (r : Rec) : Int := sext 8 (recF r 2 5 8)
def oDither (r : Rec) : Bool := recB r 2 13
def oCensus (r : Rec) : Bool := recB r 2 14
def oSkip (r : Rec) : Bool := recB r 2 15
def oT0 (r : Rec) : Nat := recF r 2 16 5
def oToQueue (r : Rec) : Bool := recB r 2 21

/-- A resolved region: whether it is read in the complex layout (R604), its extents, logical origin, and the INNER of its
tensor. -/
structure Region where
  cplx : Bool
  m : Nat
  n : Nat
  row0 : Nat
  col0 : Nat
  inner : Nat
deriving DecidableEq, Repr

/-- Logical columns per region element: two where a complex region is written as real elements or raw words (R604). -/
def Region.f (g : Region) (fmt : Nat) : Nat := if g.cplx && !isCplx fmt then 2 else 1

/-- Region elements of one tile row. -/
def Region.per (g : Region) : Nat := if g.cplx then 16 else 32

/-- Tile columns of the region. -/
def Region.tcols (g : Region) : Nat := ceilDiv g.n g.per

/-- The layout of a region from the class of its first tile (R604). -/
def layoutCplx (t : Tile) (fmt : Nat) : Bool :=
  match t.cls with
  | .complex => true
  | .none => isCplx fmt
  | _ => false

/-- The tile of region element (i, j). -/
def Region.tile (g : Region) (c : Ctx) (r : Rec) (i j : Nat) : Tile := c.tile (oT0 r + i / 32 * g.tcols + j / g.per)

/-- The accumulator words of region element (i, j): one, or the word pair of a complex element. -/
def Region.words (g : Region) (c : Ctx) (r : Rec) (i j : Nat) : List DWord :=
  let t := g.tile c r i j
  if g.cplx then [t.word (i % 32) (2 * (j % 16)), t.word (i % 32) (2 * (j % 16) + 1)] else [t.word (i % 32) (j % 32)]

/-- The dither value of part `p` of region element (i, j), if the store dithers (R119, R604). -/
def ditherAt (s : State) (c : Ctx) (r : Rec) (g : Region) (i j p : Nat) : Option Nat :=
  if oDither r then
    let fmt := oFmt r
    let idx :=
      if isCplx fmt then 2 * ((g.row0 + i) * g.inner + (g.col0 + j)) + p
      else (g.row0 + i) * g.inner + (g.f fmt * (g.col0 + j) + p)
    some (ditherR (getPart s c.part).desc.seed (getSlice s c.slice).stream.toNat (recW r 5) idx)
  else none

/-- The parts that region element (i, j) writes, and how many elements of it saturated (R112 to R116, R156). -/
def elemOut (s : State) (c : Ctx) (r : Rec) (g : Region) (i j : Nat) : List Nat × Nat :=
  let a := (g.tile c r i j).anchor
  let fmt := oFmt r
  let parts := (g.words c r i j).zipIdx.map (fun p => storePart fmt p.1 a (oExp r) (ditherAt s c r g i j p.2))
  let sats := parts.filter (·.2)
  if isCplx fmt then
    let h := fixedPart fmt
    ([(parts.getD 0 (0, false)).1 % 2 ^ h + 2 ^ h * ((parts.getD 1 (0, false)).1 % 2 ^ h)], min 1 sats.length)
  else (parts.map (·.1), sats.length)

/-- The converted elements of one region row and their saturations. -/
def rowOut (s : State) (c : Ctx) (r : Rec) (g : Region) (i : Nat) : List Nat × Nat :=
  let es := (List.range g.n).map (elemOut s c r g i)
  (es.flatMap (·.1), (es.map (·.2)).sum)

/-- The device-physical base of a companion buffer of kind DEV (R174, R218). -/
def devBase (l : Launch) (id : Nat) : Nat := (l.args.getD (l.modl.buf id).arg 0).toNat

/-- The s16 of an anchor, little-endian (R116). -/
def anchorBytes (a : Int) : List Byte := toLE 2 (wrapTo 16 a)

/-- The census updates of a store (R108, R116): a group wholly covered is written, a part of a group takes the maximum. -/
def censusAtoms (c : Ctx) (r : Rec) (g : Region) (base : Nat) (rows : List (List Nat)) : List Atom :=
  let fmt := oFmt r
  let f := g.f fmt
  let lc := f * g.col0
  let ln := f * g.n
  let ng := ceilDiv g.inner 32
  if fmt = 21 then
    (List.range (ceilDiv g.m 32)).flatMap (fun ti => (List.range g.tcols).flatMap (fun tj =>
      let at_ := base + 2 * ((g.row0 + 32 * ti) / 32 * ng + (lc + 32 * tj) / 32)
      ((anchorBytes (c.tile (oT0 r + ti * g.tcols + tj)).anchor).zipIdx).map (fun p => (⟨at_ + p.2, .put, p.1⟩ : Atom))))
  else
    (rows.zipIdx).flatMap (fun p => (piecesOf 32 lc ln).map (fun q =>
      let lo := max (32 * q) lc
      let hi := min (32 * q + 32) (lc + ln)
      let b := censusByte (((p.1.drop (lo - lc)).take (hi - lo)).map (decodeElem fmt))
      let whole := lc ≤ 32 * q ∧ min (32 * q + 32) g.inner ≤ lc + ln
      (⟨base + (g.row0 + p.2) * ng + q, if whole then .put else .max, BitVec.ofNat 8 b⟩ : Atom)))

/-- Whether a stored element is neither +0 nor −0 (R149). -/
def elemLive (fmt x : Nat) : Bool :=
  match floatFmt fmt with
  | some ff => x % 2 ^ (ff.e + ff.m) ≠ 0
  | none => x ≠ 0

/-- The skip-map updates of a store (R149): the bit of every granule that receives a live element is cleared. -/
def skipAtoms (r : Rec) (g : Region) (base : Nat) (rows : List (List Nat)) : List Atom :=
  let lc := g.f (oFmt r) * g.col0
  let ng := ceilDiv g.inner 32
  let live := (rows.zipIdx).flatMap (fun p => ((p.1.zipIdx).filter (fun e => elemLive (oFmt r) e.1)).map (fun e =>
    (g.row0 + p.2) / 32 * ng + (lc + e.2) / 32))
  live.eraseDups.map (fun q => (⟨base + q / 8, .and, BitVec.ofNat 8 (255 - 2 ^ (q % 8))⟩ : Atom))

/-- The digest contribution of a store: the CRC of each tile region, XORed (R157, R604, log 23). -/
def regionCrc (r : Rec) (g : Region) (rows : List (List Nat)) : Nat :=
  let fmt := oFmt r
  let f := g.f fmt
  let epr := if isCplx fmt then 1 else f
  (List.range (ceilDiv g.m 32)).foldl (fun acc ti => (List.range g.tcols).foldl (fun acc tj =>
    let nr := min 32 (g.m - 32 * ti)
    let j0 := g.per * tj
    let nc := min g.per (g.n - j0)
    let hdr := toLE 4 (recW r 5) ++ toLE 4 (g.row0 + 32 * ti) ++ toLE 4 (f * (g.col0 + j0)) ++ toLE 2 nr ++ toLE 2 (f * nc)
    let body := ((rows.drop (32 * ti)).take nr).flatMap (fun row =>
      packElems (fmtBits fmt) ((row.drop (epr * j0)).take (epr * nc)))
    acc ^^^ crc64 (hdr ++ body)) acc) 0

/-- The region a `spout.store` names; none when a count exceeds its maximum (R219). -/
def regionOf (i : Issue) : Option Region :=
  let r := i.rcd
  match dimOf i.c.miller (recF r 3 0 16), dimOf i.c.miller (recF r 3 16 16), countOf i.c.miller (recW r 6),
      countOf i.c.miller (recW r 7) with
  | some m, some n, some row0, some col0 =>
    some ⟨layoutCplx (i.c.tile (oT0 r)) (oFmt r), m, n, row0, col0, (i.m.buf (refBuf (recW r 4))).inner⟩
  | _, _, _, _ => none

/-- Bytes of one row of the region as written. -/
def Region.rowBytes (g : Region) (fmt : Nat) : Nat := packedLen (fmtBits fmt) (g.n * g.f fmt)

/-- The fault a store raises before it writes anything (R116, R219). -/
def storeFault (s : State) (i : Issue) (g : Region) : Option Nat :=
  let r := i.rcd
  let fmt := oFmt r
  if fmt = 21 ∧ (g.row0 % 32 ≠ 0 ∨ g.f fmt * g.col0 % 32 ≠ 0) then some cfCountRange
  else if g.m = 0 ∨ g.n = 0 then none
  else if (ctxBounds s i.c).accCnt < oT0 r + ceilDiv g.m 32 * g.tcols then some cfAccBounds
  else if !oToQueue r ∧ dmemSize s i.c < i.c.refAddr (recW r 4) + (g.m - 1) * roundUp (g.rowBytes fmt) 16 + g.rowBytes fmt then
    some cfDmemBounds
  else none

/-- `spout.store` issues (R218): its words are converted, saturations counted (R156) and the digest folded (R157); its bytes
and granary updates follow. -/
def storeIssue (i : Issue) (s : State) (site lf : Nat) : State :=
  match regionOf i with
  | none => i.fault s lf cfCountRange
  | some g =>
    match storeFault s i g with
    | some code => i.fault s lf code
    | none =>
      let r := i.rcd
      let fmt := oFmt r
      let out : List (List Nat × Nat) := if g.n = 0 then [] else (List.range g.m).map (rowOut s i.c r g)
      let rows := out.map (fun x => x.1)
      let sats := (out.map (fun x => x.2)).sum
      let packed := rows.map (packElems (fmtBits fmt))
      let pitch := roundUp (g.rowBytes fmt) 16
      let l := getLaunch s i.c.launch
      let b := i.m.buf (refBuf (recW r 4))
      let atoms := (if oCensus r then censusAtoms i.c r g (devBase l b.census) rows else [])
        ++ (if oSkip r then skipAtoms r g (devBase l b.skip) rows else [])
      let q := recF r 1 16 5
      let ents := if oToQueue r then bytesToEntries (packed.flatMap (fun p => sliceB p 0 pitch)) else []
      let dst := if oToQueue r then [] else (packed.zipIdx).map (fun (p : List Byte × Nat) => (i.c.refAddr (recW r 4) + p.2 * pitch, p.1))
      let d := recF r 1 24 4
      let c := { i.c with
        satCnt := satAdd32 i.c.satCnt sats
        digests := if recB r 1 31 then mset 0 i.c.digests d (mget 0 i.c.digests d ^^^ BitVec.ofNat 64 (regionCrc r g rows)) else i.c.digests }
      let (left, c) := c.push (i.m.depth q) q ents
      let drv := physEng i.m lf i.e
      let m := getMill s site
      let s := setMill s site { m with spout := m.spout ++ [(lf, drv)] }
      let s := bump64 s (reg .mill site 0x1B0) (g.m * g.n * (if g.cplx then 2 else 1))
      putEng s i.cid c i.e { i.adv with op := some (.store ⟨i.idx, dst, q, left, atoms⟩), wait := if left = [] then none else some (.push q) }

def execSpoutStore (site : Site) (lf : LeafNo) (e : EngNo) (s : State) : Res :=
  done (match issueAt s site lf e [0x0C0] with
    | some i => storeIssue i s site lf
    | none => s)

/-- The store in progress on an engine of a RUNNING leaf. -/
def storeAt (s : State) (site lf e : Nat) : Option (Nat × Ctx × Eng × StoreOp) :=
  match runningAt s site lf with
  | none => none
  | some (cid, c) =>
    match (c.eng e).op with
    | some (.store o) => some (cid, c, c.eng e, o)
    | _ => none

/-- A store that has nothing left to do is over. -/
def Eng.storeDone (x : Eng) (o : StoreOp) : Eng :=
  if o.rows = [] ∧ o.ents = [] ∧ o.atoms = [] then { x with op := none } else { x with op := some (.store o) }

/-- The last destination byte of a store is written, in the order in which the spout serves its requesters (R55, R154). -/
def storeComplete (s : State) (site lf e : Nat) : State :=
  match storeAt s site lf e with
  | some (cid, c, x, o) =>
    let m := getMill s site
    let drv := physEng (ctxModule s c) lf e
    match m.spout with
    | (l, d) :: rest =>
      if l = lf ∧ d = drv ∧ o.ents = [] then
        let c := o.rows.foldl (fun c p => c.dmemWrite p.1 p.2) c
        putEng (setMill s site { m with spout := rest }) cid c e (x.storeDone { o with rows := [] })
      else s
    | [] => s
  | none => s

def execStoreComplete (site : Site) (lf : LeafNo) (e : EngNo) (s : State) : Res := done (storeComplete s site lf e)

/-- The next granary update of a store is performed at its home slice (R155, R272), once the store's bytes are written. -/
def storeAtomic (s : State) (site lf e : Nat) : State :=
  match storeAt s site lf e with
  | some (cid, c, x, o) =>
    match o.rows, o.ents, o.atoms with
    | [], [], a :: rest =>
      match devAtomic s c.part a with
      | (.ok _, s) => putEng s cid c e (x.storeDone { o with atoms := rest })
      | (.denied, s) => ctxFault s cid cfOwnership (physEng (ctxModule s c) lf e) o.step
      | (.bad, s) => ctxUncorrectable s cid (physEng (ctxModule s c) lf e) o.step
    | _, _, _ => s
  | none => s

def execGranaryAtomic (site : Site) (lf : LeafNo) (e : EngNo) (s : State) : Res := done (storeAtomic s site lf e)

/-- `spout.digest` (R220, R536): the digest register is handed to the HIF, and cleared with CLEAR_ON_EMIT. -/
def digestIssue (i : Issue) (s : State) : State :=
  let d := recF i.rcd 1 24 4
  let decl := (i.m.digests.find? (fun x => x.id = d)).getD ⟨d, 0, 0, 0⟩
  let r : DigRec := ⟨i.c.part, i.c.slice, mget 0 i.c.digests d, decl.tensor, decl.layer, i.c.inst, d⟩
  let c := if bitAt decl.flags 0 then { i.c with digests := mdel i.c.digests d } else i.c
  putEng { s with hif := { s.hif with digQ := s.hif.digQ ++ [r] } } i.cid c i.e i.adv

def execSpoutDigest (site : Site) (lf : LeafNo) (e : EngNo) (s : State) : Res :=
  done (match issueAt s site lf e [0x0C1] with
    | some i => digestIssue i s
    | none => s)

/-- `spout.status` (R221): the saturation count goes to QO, and is cleared with CLEAR. -/
def statusIssue (i : Issue) (s : State) : State :=
  let ent := bytesLine (toLE 4 i.c.satCnt.toNat)
  let c := if recB i.rcd 2 0 then { i.c with satCnt := 0 } else i.c
  let (c, x) := pushEntries c i.m i.adv i.idx (recF i.rcd 1 16 5) [ent]
  putEng s i.cid c i.e x

def execSpoutStatus (site : Site) (lf : LeafNo) (e : EngNo) (s : State) : Res :=
  done (match issueAt s site lf e [0x0C2] with
    | some i => statusIssue i s
    | none => s)

end Sys2Proof.Machine
end

