-- ==== Sys2Proof/Machine/Flume.lean ====
section
/-! DEFINITION. Flume operations (R222 to R232, R602): operands, the fixed and the FP32 lanes, filter, conversion, census,
demapping, reductions, tile loads, and the write of results. -/
namespace Sys2Proof.Machine

def fFmtA (r : Rec) : Nat := recF r 2 0 5
def fFmtB (r : Rec) : Nat := recF r 2 5 5
def fFmtO (r : Rec) : Nat := recF r 2 10 5
def fExp (r : Rec) : Int := sext 8 (recF r 2 15 8)
def fConjB (r : Rec) : Bool := recB r 2 23
def fBcast (r : Rec) : Bool := recB r 2 24
def fMove (r : Rec) : Bool := recB r 2 25

/-- The operation number within `flume.*` (R223). -/
def fOp (r : Rec) : Nat := recOp r - 0x100

/-- Taps of `flume.tapm` (R227). -/
def fTaps (r : Rec) : Nat := recF r 7 0 6

/-- Whether an operation names B (R602). -/
def fHasB (r : Rec) : Bool := fOp r ≤ 4 || fOp r = 7

/-- LLRs per resource element (R229). -/
def demapBits (r : Rec) : Nat := match recF r 7 24 4 with | 0 => 1 | 1 => 2 | m => 2 * m

/-- Elements of A that an operation of length `n` reads. -/
def fCountA (m : Module) (r : Rec) (n : Nat) : Nat :=
  if fOp r = 6 then n * (m.buf (refBuf (recW r 4))).inner else n

/-- Elements of B that an operation of length `n` reads. -/
def fCountB (r : Rec) (n : Nat) : Nat :=
  if !fHasB r then 0 else if fOp r = 4 then fTaps r else if fBcast r then min 1 n else n

/-- Elements of O that an operation of length `n` writes (R223, R602). -/
def fCountO (r : Rec) (n : Nat) : Nat :=
  match fOp r with
  | 5 => if isCplx (fFmtA r) && !isCplx (fFmtO r) then 2 * n else n
  | 7 => n * demapBits r
  | 10 => 1
  | 11 => 1
  | _ => n

/-- Format of the elements that an operation writes. -/
def fOutFmt (r : Rec) : Nat := if fOp r = 10 ∨ fOp r = 11 then 16 else fFmtO r

/-- Row pitch of a census operand (R214, R228). -/
def fPitch (m : Module) (r : Rec) : Nat := roundUp (packedLen (fmtBits (fFmtA r)) (m.buf (refBuf (recW r 4))).inner) 16

/-! ### Element operations -/

/-- Both parts of a fixed element of B, conjugated where asked (R222). -/
def fixedB (r : Rec) (b : Nat) : Int × Int :=
  let (br, bi) := laneOf (fFmtB r) b
  (br, if fConjB r then -bi else bi)

/-- A fixed element operation (R223, R224, R226): exact, then narrowed once. -/
def fixedElem (r : Rec) (a b : Nat) : Nat :=
  let (ar, ai) := laneOf (fFmtA r) a
  let (br, bi) := fixedB r b
  let out := fun (x y : Int) => fixedOut (fFmtO r) x y (fExp r)
  match fOp r with
  | 0 => out ((ar + br) * 2 ^ 23) ((ai + bi) * 2 ^ 23)
  | 1 => out ((ar - br) * 2 ^ 23) ((ai - bi) * 2 ^ 23)
  | 2 => out (ar * br - ai * bi) (ar * bi + ai * br)
  | _ => out (-ar * 2 ^ 23) (-ai * 2 ^ 23)

/-- An FP32 lane operation on widened operands, before narrowing (R121, R223). -/
def floatElem (r : Rec) (a b o : Nat) : Num :=
  let x := decodeElem (fFmtA r) a
  let y := decodeElem (fFmtB r) b
  match fOp r with
  | 0 => laneAdd x y
  | 1 => laneAdd x (laneNeg y)
  | 2 => laneMul x y
  | 3 => laneAdd (laneMul x y) (decodeElem (fFmtO r) o)
  | _ => laneNeg x

/-- Encode a value in the output format of a float operation. -/
def floatOut (f : Nat) (x : Num) : Nat := match floatFmt f with | some ff => laneNarrow ff x | none => 0

/-- A real value converted to a fixed part (R115, R122). -/
def numToFixed (w : Nat) (oexp : Int) (x : Num) : Int :=
  match x with
  | .nan => specialFixed 3 w
  | .inf s => specialFixed (if s then 2 else 1) w
  | .fin s m q => (narrowFixed w (if s then -(m : Int) else m) q oexp none).1

/-- `flume.conv` of one element (R122, R602). -/
def convElem (r : Rec) (a : Nat) : List Nat :=
  let fo := fFmtO r
  let w := fixedPart fo
  let parts : List Num :=
    if isFixedFmt (fFmtA r) then
      let (re, im) := laneOf (fFmtA r) a
      if isCplx (fFmtA r) then [numOfInt re (-23), numOfInt im (-23)] else [numOfInt re (-23)]
    else [decodeElem (fFmtA r) a]
  if isCplx fo then
    [(parts.take 2).zipIdx.foldl (fun acc p => acc + wrapTo w (numToFixed w (fExp r) p.1) * 2 ^ (w * p.2)) 0]
  else if isFixedFmt fo then parts.map (fun x => wrapTo w (numToFixed w (fExp r) x))
  else parts.map (floatOut fo)

/-- The levels of one axis of a demapped symbol (R229). -/
def demapLevels (a : Int) (m : Nat) : Nat → Int → List Int
  | 0, _ => []
  | n + 1, last =>
    let x := a * 2 ^ n - last.natAbs
    x :: demapLevels a m n x

/-- LLRs of one resource element, in units of 2^−46 (R229). -/
def demapElem (r : Rec) (y w : Nat) : List Int :=
  let yr := sext 24 (bitsAt y 0 24)
  let yi := sext 24 (bitsAt y 24 24)
  let wt := sext 24 w
  let a := sext 24 (recF r 7 0 24)
  let md := recF r 7 24 4
  if yr = -(2 ^ 23) ∧ yi = -(2 ^ 23) then List.replicate (demapBits r) 0
  else if md = 0 then [(yr + yi) * wt]
  else
    let m := if md = 1 then 1 else md
    let lv := fun x => x :: (demapLevels (2 * a) m (m - 1) x)
    let li := lv yr
    let lq := lv yi
    (List.range (2 * m)).map (fun k => (if k % 2 = 0 then li.getD (k / 2) 0 else lq.getD (k / 2) 0) * wt)

/-- One FP32 addition of a reduction (R231). -/
def sumStep (x y : Num) : Num := decodeFloat fp32 (laneNarrow fp32 (laneAdd x y))

/-! ### Results -/

/-- The elements that a list operation writes: `a`, `b`, `o` are the codes of its operands. -/
def flumeElems (r : Rec) (a b o : List Nat) : List Nat :=
  let bAt := fun i => if fBcast r then b.getD 0 0 else b.getD i 0
  match fOp r with
  | 5 => a.flatMap (convElem r)
  | 7 => (a.zipIdx).flatMap (fun p => (demapElem r p.1 (bAt p.2)).map (fun v =>
      wrapTo (fixedPart (fFmtO r)) (narrowFixed (fixedPart (fFmtO r)) v (-46) (fExp r) none).1))
  | 8 => a.map (fun x => fpExp2 (decodeElem (fFmtA r) x))
  | 9 => a.map (fun x => fpRecip (decodeElem (fFmtA r) x))
  | 10 => [match reduceLanes sumStep (a.map (decodeElem (fFmtA r))) with | some x => laneNarrow fp32 x | none => 0]
  | 11 => [match reduceLanes laneMax (a.map (decodeElem (fFmtA r))) with | some x => laneNarrow fp32 x | none => 0]
  | _ =>
    (a.zipIdx).map (fun p =>
      if isFixedFmt (fFmtA r) then fixedElem r p.1 (bAt p.2) else floatOut (fFmtO r) (floatElem r p.1 (bAt p.2) (o.getD p.2 0)))

/-- Elements of an operand in data memory. -/
def dmemElems (c : Ctx) (f addr n : Nat) : List Nat :=
  let w := fmtBits f
  let bs := c.dmemRead addr (packedLen w n)
  (List.range n).map (elemAt bs w)

/-- Output i of the filter (R227), at LSB 2^−46: `x` holds x[−(T − 1)] onward, `h` the taps. -/
def tapOut (r : Rec) (x h : List Nat) (i : Nat) : Nat :=
  let t := fTaps r
  let ps := (List.range t).map (fun k =>
    let (xr, xi) := laneOf (fFmtA r) (x.getD (i + (t - 1) - k) 0)
    let (hr, hi) := fixedB r (h.getD k 0)
    (hr * xr - hi * xi, hr * xi + hi * xr))
  fixedOut (fFmtO r) ((ps.map (fun p => p.1)).foldl (· + ·) 0) ((ps.map (fun p => p.2)).foldl (· + ·) 0) (fExp r)

/-- `flume.tapm` on the context (R227). -/
def tapRun (c : Ctx) (r : Rec) (n : Nat) : Ctx :=
  let t := fTaps r
  let w := fmtBits (fFmtA r) / 8
  let a0 := c.refAddr (recW r 4)
  let lo := a0 - (t - 1) * w
  let x := dmemElems c (fFmtA r) lo (n + (t - 1))
  let h := dmemElems c (fFmtB r) (c.refAddr (recW r 5)) t
  let c := c.dmemWrite (c.refAddr (recW r 6)) (packElems (fmtBits (fFmtO r)) ((List.range n).map (tapOut r x h)))
  if fMove r then c.dmemWrite lo (c.dmemRead (lo + n * w) ((t - 1) * w)) else c

/-- `flume.census` on the context (R228). -/
def censusRun (m : Module) (c : Ctx) (r : Rec) (n : Nat) : Ctx :=
  let d := (m.buf (refBuf (recW r 4))).inner
  let rowBytes := fun i =>
    let es := (dmemElems c (fFmtA r) (c.refAddr (recW r 4) + i * fPitch m r) d).map (decodeElem (fFmtA r))
    (chunksOf 32 d es).map (fun g => BitVec.ofNat 8 (censusByte g))
  c.dmemWrite (c.refAddr (recW r 6)) ((List.range n).flatMap rowBytes)

/-! ### Tiles (R232) -/

/-- First tile, class, and number of tiles of a tile load. -/
def tldT0 (r : Rec) : Nat := recF r 7 0 5
def tldCls (r : Rec) : TileClass := TileClass.ofCode (recF r 7 8 2)

/-- Address of the anchor of group `g` in A's census companion (R232). -/
def tldAnchorAddr (m : Module) (c : Ctx) (r : Rec) (g : Nat) : Nat :=
  c.base (m.buf (refBuf (recW r 4))).census + 2 * (refOff (recW r 4) / 8 / 1024 + g)

/-- A loaded accumulator word: bits 63:58 are written as 0 (R98). -/
def cleanWord (v : Nat) : DWord := BitVec.ofNat 64 (v % 2 ^ 58)

/-- A tile loaded with (or increased by) the words of a group (R102, R232). -/
def tldTile (add : Bool) (cls : TileClass) (t : Tile) (anchor : Int) (ws : List Nat) : Tile :=
  if add then
    let hi := max t.anchor anchor
    let keys := List.range 1024
    { t with
      anchor := hi
      words := keys.foldl (fun m k =>
        let old := mget 0 t.words k
        match ws[k]? with
        | some w => mset 0 m k (accAddAnchored old t.anchor (cleanWord w) anchor).1
        | none => if old = 0 then m else mset 0 m k (accAddAnchored old t.anchor 0 hi).1) [] }
  else
    { cls := cls, anchor := anchor, words := (ws.zipIdx).foldl (fun m p => mset 0 m p.2 (cleanWord p.1)) t.words }

/-- `flume.tld` and `flume.tadd` on the context (R232). -/
def tldRun (m : Module) (c : Ctx) (r : Rec) (n : Nat) : Ctx :=
  let a0 := c.refAddr (recW r 4)
  (List.range (ceilDiv n 1024)).foldl (fun x g =>
    let len := min 1024 (n - 1024 * g)
    let ws := (List.range len).map (fun k => ofLE (c.dmemRead (a0 + 8 * (1024 * g + k)) 8))
    let anchor := sext 16 (ofLE (c.dmemRead (tldAnchorAddr m c r g) 2))
    x.setTile (tldT0 r + g) (tldTile (fOp r = 13) (tldCls r) (x.tile (tldT0 r + g)) anchor ws)) c

/-! ### Issue (R224, R225) -/

/-- Whether [a, a + n) lies in the data memory region; `a` may lie below it. -/
def inDmem (size : Nat) (a : Int) (n : Nat) : Bool := n = 0 || (0 ≤ a && a + n ≤ size)

/-- Whether every DMEM range of an operation lies in the region (R74, R225). -/
def flumeReadsOk (s : State) (i : Issue) (n : Nat) : Bool :=
  let r := i.rcd
  let size := dmemSize s i.c
  let a : Int := i.c.refAddr (recW r 4)
  let o : Int := i.c.refAddr (recW r 6)
  let bytes := fun f k => packedLen (fmtBits f) k
  let aOk := match fOp r with
    | 4 => let back := (fTaps r - 1) * (fmtBits (fFmtA r) / 8)
           inDmem size (a - back) (back + bytes (fFmtA r) n)
    | 6 => n = 0 || inDmem size a ((n - 1) * fPitch i.m r + bytes (fFmtA r) (i.m.buf (refBuf (recW r 4))).inner)
    | 12 => inDmem size a (8 * n) && inDmem size (tldAnchorAddr i.m i.c r 0) (2 * ceilDiv n 1024)
    | 13 => inDmem size a (8 * n) && inDmem size (tldAnchorAddr i.m i.c r 0) (2 * ceilDiv n 1024)
    | _ => (recQA r).isSome || inDmem size a (bytes (fFmtA r) n)
  let bOk := (recQB r).isSome || inDmem size (i.c.refAddr (recW r 5)) (bytes (fFmtB r) (fCountB r n))
  let oOk := match fOp r with
    | 6 => inDmem size o (n * ceilDiv (i.m.buf (refBuf (recW r 4))).inner 32)
    | 12 => true
    | 13 => true
    | _ => (recQO r).isSome || inDmem size o (bytes (fOutFmt r) (fCountO r n))
  aOk && bOk && oOk

/-- The fault an operation raises before anything changes (R225, R232). -/
def flumeFault (s : State) (i : Issue) (n : Nat) : Option Nat :=
  let r := i.rcd
  let tiles := fOp r = 12 ∨ fOp r = 13
  if tiles ∧ (ctxBounds s i.c).accCnt < tldT0 r + ceilDiv n 1024 then some cfAccBounds
  else if fOp r = 13 ∧ (List.range (ceilDiv n 1024)).any (fun g => (i.c.tile (tldT0 r + g)).cls ≠ tldCls r) then some cfAccClass
  else if !flumeReadsOk s i n then some cfDmemBounds
  else none

/-- Queue bytes that `k` elements of a format fill: whole entries (R222). -/
def queueBytes (f k : Nat) : Nat := 64 * ceilDiv (packedLen (fmtBits f) k) 64

/-- Pop what the operation still needs from QA, then from QB (R63). -/
def flumePop (m : Module) (c : Ctx) (o : FlumeOp) : Ctx × FlumeOp × Option Wait :=
  let (c, ga) := match recQA o.rcd with
    | some q => let (es, c) := c.pop (m.depth q) q ((o.needA - o.gotA.length) / 64)
                (c, o.gotA ++ es.flatMap lineBytes)
    | none => (c, o.gotA)
  let (c, gb) := match recQB o.rcd with
    | some q => let (es, c) := c.pop (m.depth q) q ((o.needB - o.gotB.length) / 64)
                (c, o.gotB ++ es.flatMap lineBytes)
    | none => (c, o.gotB)
  let w := if ga.length < o.needA then (recQA o.rcd).map Wait.pop
    else if gb.length < o.needB then (recQB o.rcd).map Wait.pop else none
  (c, { o with gotA := ga, gotB := gb }, w)

/-- A flume record issues (R222, R224, R225). -/
def flumeIssue (i : Issue) (s : State) (lf : Nat) : State :=
  let r := i.rcd
  match countOf i.c.miller (recW r 3) with
  | none => i.fault s lf cfCountRange
  | some n =>
    match flumeFault s i n with
    | some code => i.fault s lf code
    | none =>
      let needA := if (recQA r).isSome then queueBytes (fFmtA r) (fCountA i.m r n) else 0
      let needB := if (recQB r).isSome then queueBytes (fFmtB r) (fCountB r n) else 0
      let (c, o, w) := flumePop i.m i.c ⟨i.idx, r, n, needA, needB, [], [], none⟩
      putEng s i.cid c i.e { i.adv with op := some (.flume o), wait := w }

/-- A flume operation issues if it is the record at which engine 7 stands. -/
def flumeOp (site lf k : Nat) (s : State) : State :=
  match issueAt s site lf 7 [0x100 + k] with
  | some i => flumeIssue i s lf
  | none => s

def execFlumeAdd (site : Site) (lf : LeafNo) (s : State) : Res := done (flumeOp site lf 0 s)
def execFlumeSub (site : Site) (lf : LeafNo) (s : State) : Res := done (flumeOp site lf 1 s)
def execFlumeMul (site : Site) (lf : LeafNo) (s : State) : Res := done (flumeOp site lf 2 s)
def execFlumeFma (site : Site) (lf : LeafNo) (s : State) : Res := done (flumeOp site lf 3 s)
def execFlumeTapm (site : Site) (lf : LeafNo) (s : State) : Res := done (flumeOp site lf 4 s)
def execFlumeConv (site : Site) (lf : LeafNo) (s : State) : Res := done (flumeOp site lf 5 s)
def execFlumeCensus (site : Site) (lf : LeafNo) (s : State) : Res := done (flumeOp site lf 6 s)
def execFlumeDemap (site : Site) (lf : LeafNo) (s : State) : Res := done (flumeOp site lf 7 s)
def execFlumeExp2 (site : Site) (lf : LeafNo) (s : State) : Res := done (flumeOp site lf 8 s)
def execFlumeRecip (site : Site) (lf : LeafNo) (s : State) : Res := done (flumeOp site lf 9 s)
def execFlumeSum (site : Site) (lf : LeafNo) (s : State) : Res := done (flumeOp site lf 10 s)
def execFlumeMax (site : Site) (lf : LeafNo) (s : State) : Res := done (flumeOp site lf 11 s)
def execFlumeTld (site : Site) (lf : LeafNo) (s : State) : Res := done (flumeOp site lf 12 s)
def execFlumeTadd (site : Site) (lf : LeafNo) (s : State) : Res := done (flumeOp site lf 13 s)
def execFlumeNeg (site : Site) (lf : LeafNo) (s : State) : Res := done (flumeOp site lf 14 s)

/-! ### Results (R224) -/

/-- What a list operation writes: its bytes. -/
def flumeBytes (c : Ctx) (o : FlumeOp) : List Byte :=
  let r := o.rcd
  let n := o.len
  let nb := fCountB r n
  let a := if (recQA r).isSome then (List.range n).map (elemAt o.gotA (fmtBits (fFmtA r))) else dmemElems c (fFmtA r) (c.refAddr (recW r 4)) n
  let b := if (recQB r).isSome then (List.range nb).map (elemAt o.gotB (fmtBits (fFmtB r))) else dmemElems c (fFmtB r) (c.refAddr (recW r 5)) nb
  let ad := if fOp r = 3 then dmemElems c (fFmtO r) (c.refAddr (recW r 6)) n else []
  packElems (fmtBits (fOutFmt r)) (flumeElems r a b ad)

/-- The operation writes its results: tiles, data memory, or the entries of QO. -/
def flumeRun (m : Module) (c : Ctx) (o : FlumeOp) : Ctx × List Line :=
  let r := o.rcd
  match fOp r with
  | 4 => (tapRun c r o.len, [])
  | 6 => (censusRun m c r o.len, [])
  | 12 => (tldRun m c r o.len, [])
  | 13 => (tldRun m c r o.len, [])
  | _ =>
    let bs := flumeBytes c o
    if (recQO r).isSome then (c, bytesToEntries bs) else (c.dmemWrite (c.refAddr (recW r 6)) bs, [])

/-- The last result of a flume operation is written (R224); entries that find the queue full follow as it drains (R63). -/
def flumeResult (s : State) (site lf : Nat) : State :=
  match runningAt s site lf with
  | none => s
  | some (cid, c) =>
    let x := c.eng 7
    match x.op, x.wait with
    | some (.flume o), none =>
      let m := ctxModule s c
      let (c, es) := match o.out with
        | some es => (c, es)
        | none => flumeRun m c o
      let q := recF o.rcd 1 16 5
      match c.push (m.depth q) q es with
      | ([], c) => putEng s cid c 7 { x with op := none }
      | (left, c) => putEng s cid c 7 { x with op := some (.flume { o with out := some left }), wait := some (.push q) }
    | _, _ => s

def execFlumeResult (site : Site) (lf : LeafNo) (s : State) : Res := done (flumeResult s site lf)

end Sys2Proof.Machine
end

