-- ==== Sys2Proof/Machine/Stones.lean ====
section
/-! DEFINITION. Stone operations (chapter 05, R213 to R217): resolving a record, gangs, the order in which the hoppers carry
bytes, the products, tile anchors, and landing. -/
namespace Sys2Proof.Machine

/-! ### What a `stone.mma` record names (R213) -/

def mFmtIn (r : Rec) : Nat := recF r 2 0 5
def mFmtW (r : Rec) : Nat := recF r 2 5 5
def mGang (r : Rec) : Nat := recF r 2 10 2
def mInit (r : Rec) : Bool := recB r 2 12
def mGlobal (r : Rec) : Bool := recB r 2 13
def mSparse (r : Rec) : Nat := recF r 2 14 2
def mActSkip (r : Rec) : Bool := recB r 2 16
def mCompact (r : Rec) : Bool := recB r 2 17
def mConjIn (r : Rec) : Bool := recB r 2 18
def mConjW (r : Rec) : Bool := recB r 2 19
def mT0 (r : Rec) : Nat := recF r 2 22 5
def mFeedIn (r : Rec) : Bool := recB r 2 27
def mFeedW (r : Rec) : Bool := recB r 2 28

/-- Group size G of a COMPLEX operation (R152). -/
def mGroup (r : Rec) : Nat := match recF r 2 20 2 with | 1 => 4 | 2 => 8 | 3 => 16 | _ => 32

/-- Class of the tiles of an operation (R97). -/
def mClass (r : Rec) : TileClass := fmtClass (mFmtIn r)

/-- Whether the operation is COMPLEX. -/
def mCplx (r : Rec) : Bool := mClass r = .complex

/-- K-depth Ds of one stone and clocks c per streamed column (R128). -/
def rateOf (r : Rec) : Nat × Nat :=
  let i := mFmtIn r
  let w := mFmtW r
  if mCplx r then (32, mGroup r / 2)
  else if i = 13 ∨ i = 14 ∨ w = 13 ∨ w = 14 then (32, 2)
  else if fmtBits i = 8 ∨ fmtBits w = 8 then (32, 1)
  else if mSparse r = 1 then (128, 1)
  else (64, 1)

/-- Gang height H in rows, and the number of stones over which K is split (R129). -/
def gangShape (g : Nat) : Nat × Nat :=
  match g with | 0 => (32, 1) | 1 => (64, 1) | 2 => (32, 2) | _ => (64, 2)

/-- The stones of the gang that stone `k` drives (R129). -/
def gangStones (g k : Nat) : List Nat :=
  match g with | 0 => [k] | 1 => [k, k + 1] | 2 => [k, k + 1] | _ => [0, 1, 2, 3]

/-- The multiple that a K count must be (R131). -/
def kMult (r : Rec) : Nat := if mSparse r = 1 ∨ isMx (mFmtIn r) ∨ isMx (mFmtW r) then 32 else 16

/-- Output columns of one tile (R132). -/
def tileCols (r : Rec) : Nat := if mCplx r then 16 else 32

/-- Whether a static mask takes the tile of element (m, n) out of the operation (R150). -/
def mMasked (md : Module) (r : Rec) (m n : Nat) : Bool :=
  if recB r 7 8 then
    let idx := m / 32 * ceilDiv (dimMax (recF r 3 16 16)) (tileCols r) + n / tileCols r
    bitAt (md.masks.getD (recF r 7 0 8 + idx / 1024) 0) (idx % 1024)
  else false

/-! ### Operands in their tensors (R214, R215) -/

/-- An operand: its tensor's declaration, the address of the tensor in data memory, its pitch, its format, and the row and K
position of its origin. -/
structure Operand where
  buf : BufDecl
  addr : Nat
  pitch : Nat
  fmt : Nat
  row : Nat
  col : Nat
deriving DecidableEq, Repr

/-- The operand that a BUFREF names (R214). -/
def operandOf (md : Module) (c : Ctx) (fmt d : Nat) : Operand :=
  let b := md.buf (refBuf d)
  let bits := fmtBits fmt
  let pitch := roundUp (packedLen bits b.inner) 16
  let off := refOff d
  ⟨b, c.base (refBuf d), pitch, fmt, off / max 1 pitch, off % max 1 pitch * 8 / max 1 bits⟩

/-- Address of the first of an operand's K-values in row `i` from its origin. -/
def Operand.rowAddr (o : Operand) (i : Nat) : Nat := o.addr + (o.row + i) * o.pitch + fmtBits o.fmt * o.col / 8

/-- The K-values `ks` of row `i` of an operand fed from data memory, each with its position. -/
def Operand.dmemRow (o : Operand) (c : Ctx) (i : Nat) (ks : List Nat) : List (Nat × Nat) :=
  let w := fmtBits o.fmt
  ks.map (fun k => (k, bitsAt (ofLE (c.dmemRead (o.rowAddr i + w * k / 8) ((w + 7) / 8 + 1))) (w * k % 8) w))

/-- The census groups or MX blocks of an operand's scope (R215): those that meet [k0, k0 + K), or every one of the row. -/
def Operand.groups (o : Operand) (k : Nat) (all : Bool) : List Nat :=
  if all then List.range (ceilDiv o.buf.inner 32) else piecesOf 32 o.col k

/-- Address of a census or scale byte of row `i`: one byte per 32 elements (R95, R108). -/
def Operand.sideAddr (o : Operand) (c : Ctx) (side i g : Nat) : Nat := c.base side + (o.row + i) * ceilDiv o.buf.inner 32 + g

/-- The bound of row `i` of a float operand for the anchor (R109, R110). -/
def Operand.bound (o : Operand) (c : Ctx) (i k : Nat) (all : Bool) : Option Int :=
  let bytes := fun side => (o.groups k all).map (fun g => (ofLE (c.dmemRead (o.sideAddr c side i g) 1)))
  if isMx o.fmt then mxBound (fmtEmax o.fmt) (bytes o.buf.scales) else censusBound (bytes o.buf.census)

/-- The value of an element at row `i`, position `k` (R90 to R94): an MX element takes its block's scale. -/
def Operand.value (o : Operand) (c : Ctx) (i k code : Nat) : Num :=
  let n := decodeElem o.fmt code
  if isMx o.fmt then mxScale n (ofLE (c.dmemRead (o.sideAddr c o.buf.scales i ((o.col + k) / 32)) 1)) else n

/-! ### Blocks, live slices and passes (R135, R137, R146, R147) -/

/-- One M block: its first row, its live rows, the columns streamed for it, its live K positions, and how many of its slices
are skipped. -/
structure MBlock where
  m0 : Nat
  rows : List Nat
  cols : List Nat
  ks : List Nat
  skipped : Nat
deriving DecidableEq, Repr

/-- Whether the skip map declares slice `sl` of rows [m0, m0 + n) to be zero (R146). -/
def sliceZero (c : Ctx) (o : Operand) (m0 n sl : Nat) : Bool :=
  let d := ceilDiv o.buf.inner 32
  (piecesOf 32 (o.row + m0) n).all (fun gr =>
    let g := gr * d + o.col / 32 + sl
    bitAt (ofLE (c.dmemRead (c.base o.buf.skip + g / 8) 1)) (g % 8))

/-- The M blocks of an operation in order. -/
def blocksOf (md : Module) (c : Ctx) (r : Rec) (m n k : Nat) : List MBlock :=
  let h := (gangShape (mGang r)).1
  let inp := operandOf md c (mFmtIn r) (recW r 5)
  (List.range (ceilDiv m h)).map (fun b =>
    let m0 := b * h
    let rows := (List.range (min h (m - m0))).map (m0 + ·)
    let cols := (List.range n).filter (fun j => [m0, m0 + 32].any (fun t => t < min m (m0 + h) && !mMasked md r t j))
    let slices := List.range (ceilDiv k 32)
    let dead := if mActSkip r then slices.filter (sliceZero c inp m0 rows.length) else []
    ⟨m0, rows, cols, (List.range k).filter (fun x => !dead.contains (x / 32)), dead.length⟩)

/-- Cut live K positions into passes of Dg (R137, R147). -/
def passesOf (r : Rec) (ks : List Nat) : List (List Nat) :=
  chunksOf ((rateOf r).1 * (gangShape (mGang r)).2) ks.length ks

/-- Whether position `p` of a pass is used by row `m` of a grouped operation (R152). -/
def grpUses (r : Rec) (m0 m p : Nat) : Bool := mGroup r = 32 || p / mGroup r = (m - m0) / mGroup r

/-- The rows and pass positions that stone number `i` of the gang holds (R129). -/
def stoneRows (g i : Nat) (b : MBlock) : List Nat :=
  match g with
  | 1 => b.rows.filter (fun m => (m - b.m0) / 32 = i)
  | 3 => b.rows.filter (fun m => (m - b.m0) / 32 = i / 2)
  | _ => b.rows

def stoneLo (g i ds : Nat) : Nat := match g with | 2 => i * ds | 3 => i % 2 * ds | _ => 0

/-! ### The hopper streams (R216, R605) -/

/-- Take packed elements off a stream: the elements and the rest, or none while bytes are missing. -/
def takeElems (w n : Nat) (bs : List Byte) : Option (List Nat × List Byte) :=
  let len := packedLen w n
  if bs.length < len then none
  else some ((List.range n).map (elemAt (bs.take len) w), bs.drop len)

/-- Values of rows or columns: (row or column, K-values with their positions). -/
abbrev KVals := List (Nat × List (Nat × Nat))

/-- Take the stationary rows of one pass of one stone. -/
def takeRows (r : Rec) (b : MBlock) (i : Nat) (ks : List Nat) : List Nat → List Byte → Option (KVals × List Byte)
  | [], bs => some ([], bs)
  | m :: t, bs =>
    let ds := (rateOf r).1
    let lo := stoneLo (mGang r) i ds
    let here := ((ks.zipIdx.drop lo).take ds).filter (fun p => grpUses r b.m0 m p.2) |>.map (·.1)
    match takeElems (fmtBits (mFmtIn r)) here.length bs with
    | none => none
    | some (es, bs) =>
      match takeRows r b i ks t bs with
      | none => none
      | some (vs, bs) => some ((m, here.zip es) :: vs, bs)

/-- Take the stationary bytes of one pass: every stone of the gang in order. -/
def takeStat (r : Rec) (b : MBlock) (ks : List Nat) : List Nat → List Byte → Option (KVals × List Byte)
  | [], bs => some ([], bs)
  | i :: t, bs =>
    match takeRows r b i ks (stoneRows (mGang r) i b) bs with
    | none => none
    | some (v, bs) =>
      match takeStat r b ks t bs with
      | none => none
      | some (vs, bs) => some (v ++ vs, bs)

/-- One streamed column of a pass, dense or 2:4 (R142, R143, R216). -/
def takeCol (r : Rec) (ks : List Nat) (bs : List Byte) : Option (List (Nat × Nat) × List Byte) :=
  let w := fmtBits (mFmtW r)
  if mSparse r = 1 then
    match takeElems w (ks.length / 2) bs with
    | none => none
    | some (es, bs) =>
      match takeElems 4 (ks.length / 4) bs with
      | none => none
      | some (codes, bs) =>
        some (codes.zipIdx.flatMap (fun p =>
          let at_ := fun i => ks.getD (4 * p.2 + i) 0
          [(at_ (p.1 % 4), es.getD (2 * p.2) 0), (at_ (p.1 / 4), es.getD (2 * p.2 + 1) 0)]), bs)
  else
    match takeElems w ks.length bs with
    | none => none
    | some (es, bs) => some (ks.zip es, bs)

/-- Streamed columns of a pass. -/
def takeCols (r : Rec) (ks : List Nat) : List Nat → List Byte → Option (KVals × List Byte)
  | [], bs => some ([], bs)
  | n :: t, bs =>
    match takeCol r ks bs with
    | none => none
    | some (v, bs) =>
      match takeCols r ks t bs with
      | none => none
      | some (vs, bs) => some ((n, v) :: vs, bs)

/-- One bitmap panel (R144, R145): its rows' stored elements, +0 elsewhere. Positions at or beyond N and K are ignored. -/
def takePanel (r : Rec) (n k pn pk : Nat) (bs : List Byte) : Option (KVals × List Byte) :=
  if bs.length < 128 then none
  else
    let w := fmtBits (mFmtW r)
    let live := fun j i => 32 * pn + j < n && 32 * pk + i < k && bitAt (leAt bs (4 * j) 4) i
    let spots := (List.range 32).flatMap (fun j => ((List.range 32).filter (live j)).map (fun i => (j, i)))
    let len := roundUp (128 + packedLen w spots.length) 64
    if bs.length < len then none
    else
      let data := (bs.take len).drop 128
      let vals := spots.zipIdx.map (fun p => (p.1, elemAt data w p.2))
      let row := fun j => (List.range (min 32 (k - 32 * pk))).map (fun i =>
        (32 * pk + i, ((vals.find? (fun v => v.1 = (j, i))).map (·.2)).getD 0))
      some ((List.range (min 32 (n - 32 * pn))).map (fun j => (32 * pn + j, row j)), bs.drop len)

/-- The bitmap panels of a pass: for each group of 32 columns, the panels in increasing K. -/
def takePanels (r : Rec) (n k : Nat) : List (Nat × Nat) → List Byte → Option (KVals × List Byte)
  | [], bs => some ([], bs)
  | (pn, pk) :: t, bs =>
    match takePanel r n k pn pk bs with
    | none => none
    | some (v, bs) =>
      match takePanels r n k t bs with
      | none => none
      | some (vs, bs) => some (v ++ vs, bs)

/-- The streamed operand of the passes of one block. -/
def takeStream (r : Rec) (n k : Nat) (b : MBlock) : List (List Nat) → List Byte → Option (KVals × List Byte)
  | [], bs => some ([], bs)
  | ks :: t, bs =>
    let here := if mSparse r = 2 then
        takePanels r n k ((b.cols.map (· / 32)).eraseDups.flatMap (fun pn => (ks.map (· / 32)).eraseDups.map (fun pk => (pn, pk)))) bs
      else takeCols r ks b.cols bs
    match here with
    | none => none
    | some (v, bs) =>
      match takeStream r n k b t bs with
      | none => none
      | some (vs, bs) => some (v ++ vs, bs)

/-- The stationary operand of the passes of one block. -/
def takeStats (r : Rec) (b : MBlock) : List (List Nat) → List Byte → Option (KVals × List Byte)
  | [], bs => some ([], bs)
  | ks :: t, bs =>
    match takeStat r b ks (List.range (gangStones (mGang r) 0).length) bs with
    | none => none
    | some (v, bs) =>
      match takeStats r b t bs with
      | none => none
      | some (vs, bs) => some (v ++ vs, bs)

/-- A block with the values of its two operands. -/
structure Fed where
  b : MBlock
  inp : KVals
  wgt : KVals
deriving DecidableEq, Repr

/-- The values of every block, from data memory or from the bytes taken off the hoppers, and the bytes left over; none while
bytes are missing (R126). Without COMPACT a stream carries the skipped slices too, and they are discarded (R147, log 22). -/
def feedBlocks (md : Module) (c : Ctx) (r : Rec) (n k : Nat) : List MBlock → List Byte → List Byte →
    Option (List Fed × List Byte × List Byte)
  | [], st, sm => some ([], st, sm)
  | b :: t, st, sm =>
    let inp := operandOf md c (mFmtIn r) (recW r 5)
    let wgt := operandOf md c (mFmtW r) (recW r 6)
    let live := if b.cols.isEmpty then [] else passesOf r b.ks
    let rows := if mFeedIn r then takeStats r b live st
      else some (live.flatMap (fun ks => b.rows.map (fun m =>
        (m, inp.dmemRow c m ((ks.zipIdx.filter (fun p => grpUses r b.m0 m p.2)).map (·.1))))), st)
    let cols := if mFeedW r then
        takeStream r n k b (if b.cols.isEmpty then [] else if mCompact r then live else passesOf r (List.range k)) sm
      else some (b.cols.map (fun j => (j, wgt.dmemRow c j b.ks)), sm)
    match rows, cols with
    | some (rv, st), some (cv, sm) =>
      match feedBlocks md c r n k t st sm with
      | some (fs, st, sm) => some (⟨b, rv, cv⟩ :: fs, st, sm)
      | none => none
    | _, _ => none

/-! ### Products of an output element (R103, R133) -/

/-- The K-values of one row or column over all passes. -/
def kvOf (v : KVals) (i : Nat) : List (Nat × Nat) := (v.filter (fun p => p.1 = i)).flatMap (·.2)

/-- The real and imaginary parts of a CFX24 element, conjugated or not (R93, R103). -/
def cplxParts (code : Nat) (conj : Bool) : Int × Int :=
  let im := sext 24 (code / 2 ^ 24)
  (sext 24 (code % 2 ^ 24), if conj then -im else im)

/-- The K positions at which input row m meets weight column n, with both codes. -/
def meets (f : Fed) (m n : Nat) : List (Nat × Nat × Nat) :=
  let row := kvOf f.inp m
  ((kvOf f.wgt n).filter (fun p => f.b.ks.contains p.1)).filterMap (fun p =>
    (row.find? (fun q => q.1 = p.1)).map (fun q => (p.1, q.2, p.2)))

/-- Products of a real output element. -/
def realProds (c : Ctx) (inp wgt : Operand) (f : Fed) (m n : Nat) : List Prod :=
  (meets f m n).map (fun (k, a, b) => prodOf (inp.value c m k a) (wgt.value c n k b))

/-- Products of the real and the imaginary word of a complex output element. -/
def cplxProds (r : Rec) (f : Fed) (m n : Nat) : List Prod × List Prod :=
  let ps := (meets f m n).map (fun (_, a, b) =>
    let (ar, ai) := cplxParts a (mConjIn r)
    let (br, bi) := cplxParts b (mConjW r)
    ((⟨ar * br - ai * bi, -46, 0⟩ : Prod), (⟨ar * bi + ai * br, -46, 0⟩ : Prod)))
  (ps.map (·.1), ps.map (·.2))

/-! ### Tiles (R99, R110, R132, R133) -/

/-- Tile number of the tile row and column of an operation (R132). -/
def tileNo (r : Rec) (n ti tj : Nat) : Nat := mT0 r + ti * ceilDiv n (tileCols r) + tj

/-- The tile rows and columns of an operation that its mask leaves in. -/
def liveTiles (md : Module) (r : Rec) (m n : Nat) : List (Nat × Nat) :=
  (List.range (ceilDiv m 32)).flatMap (fun ti => ((List.range (ceilDiv n (tileCols r))).filter
    (fun tj => !mMasked md r (32 * ti) (tileCols r * tj))).map (fun tj => (ti, tj)))

/-- The anchor that an initialising operation gives a tile (R106, R110, R215). -/
def initAnchor (md : Module) (c : Ctx) (r : Rec) (m n k ti tj : Nat) : Int :=
  match mClass r with
  | .int => 47
  | .complex => 1
  | _ =>
    let inp := operandOf md c (mFmtIn r) (recW r 5)
    let wgt := operandOf md c (mFmtW r) (recW r 6)
    if k = 0 then anchorEmpty
    else
      let rows := ((List.range 32).map (32 * ti + ·)).filter (· < m)
      let cols := ((List.range 32).map (32 * tj + ·)).filter (· < n)
      tileAnchor (rows.map (fun i => inp.bound c i k (mGlobal r))) (cols.map (fun j => wgt.bound c j k (mGlobal r)))
        (if mGlobal r then inp.buf.inner else k)

/-- One output element enters its tile: the words it covers start from 0 when the operation initialises (R133). -/
def addElem (c : Ctx) (r : Rec) (inp wgt : Operand) (f : Fed) (n : Nat) (t : Tile) (m j : Nat) : Tile :=
  let cw := tileCols r
  if j ≥ n then t
  else if mCplx r then
    let x := 2 * (j % cw)
    let (pr, pi) := cplxProds r f m j
    let t := t.setWord (m % 32) x (accProds t.anchor (t.word (m % 32) x) pr)
    t.setWord (m % 32) (x + 1) (accProds t.anchor (t.word (m % 32) (x + 1)) pi)
  else t.setWord (m % 32) (j % cw) (accProds t.anchor (t.word (m % 32) (j % cw)) (realProds c inp wgt f m j))

/-- Clear the words that an initialising operation covers in a tile (R99, R133). -/
def coverTile (r : Rec) (t : Tile) (m n ti tj : Nat) : Tile :=
  let rows := min 32 (m - 32 * ti)
  let cols := min (tileCols r) (n - tileCols r * tj) * (if mCplx r then 2 else 1)
  { t with words := t.words.filter (fun p => !(p.1 / 32 < rows && p.1 % 32 < cols)) }

/-- The tile of a live tile position after the operation. -/
def landTile (md : Module) (c : Ctx) (r : Rec) (m n k : Nat) (fs : List Fed) (ti tj : Nat) : Tile :=
  let old := c.tile (tileNo r n ti tj)
  let t := if mInit r then
      { coverTile r old m n ti tj with cls := mClass r, anchor := initAnchor md c r m n k ti tj } else old
  let inp := operandOf md c (mFmtIn r) (recW r 5)
  let wgt := operandOf md c (mFmtW r) (recW r 6)
  fs.foldl (fun t f =>
    (f.b.rows.filter (fun i => i / 32 = ti)).foldl (fun t i =>
      ((List.range (tileCols r)).map (tileCols r * tj + ·)).foldl (fun t j => addElem c r inp wgt f n t i j) t) t) t

/-- The context after the operation lands: every live tile from the words before it. -/
def landAll (md : Module) (c : Ctx) (r : Rec) (m n k : Nat) (fs : List Fed) : Ctx :=
  if m = 0 ∨ n = 0 ∨ (k = 0 ∧ mInit r = false) then c
  else (liveTiles md r m n).foldl (fun x p => x.setTile (tileNo r n p.1 p.2) (landTile md c r m n k fs p.1 p.2)) c

/-! ### Checks before any word changes (R131, R132, R217) -/

/-- Whether every read of data memory that the operation makes lies in the region (R74, R124). -/
def mmaReadsOk (md : Module) (c : Ctx) (r : Rec) (m n k size : Nat) : Bool :=
  let inp := operandOf md c (mFmtIn r) (recW r 5)
  let wgt := operandOf md c (mFmtW r) (recW r 6)
  let rowOk := fun (o : Operand) i => o.rowAddr i + packedLen (fmtBits o.fmt) k ≤ size
  let sideOk := fun (o : Operand) i => mClass r ≠ .float || (o.groups k (mGlobal r)).all (fun g =>
    o.sideAddr c (if isMx o.fmt then o.buf.scales else o.buf.census) i g < size)
  let skipOk := !mActSkip r || (List.range m).all (fun i =>
    c.base inp.buf.skip + ((inp.row + i) / 32 * ceilDiv inp.buf.inner 32 + (inp.col + k - 1) / 32) / 8 < size)
  (List.range m).all (fun i => (mFeedIn r || rowOk inp i) && sideOk inp i)
    && (List.range n).all (fun j => (mFeedW r || rowOk wgt j) && sideOk wgt j) && skipOk

/-- The fault that an operation raises before any word changes, if any (R217). -/
def mmaFault (s : State) (md : Module) (c : Ctx) (r : Rec) (m n k : Nat) : Option Nat :=
  if k % kMult r ≠ 0 then some cfCountRange
  else if m = 0 ∨ n = 0 then none
  else if (ctxBounds s c).accCnt < mT0 r + ceilDiv m 32 * ceilDiv n (tileCols r) then some cfAccBounds
  else if mInit r = false ∧ k ≠ 0 ∧ (liveTiles md r m n).any (fun p => (c.tile (tileNo r n p.1 p.2)).cls ≠ mClass r) then some cfAccClass
  else if k ≠ 0 ∧ !mmaReadsOk md c r m n k (dmemSize s c) then some cfDmemBounds
  else none

/-! ### Gangs and hoppers (R126, R130) -/

/-- Whether no stone of a gang is held. -/
def gangFree (s : State) (site : Nat) (l : List Nat) : Bool := l.all (fun k => (getStone s site k).heldBy.isNone)

/-- A stone begins to issue (R495): one that leaves idle after 64 clocks counts in the window of 1 µs; beyond 64 in it, a
compute-class stone is held back by its group's delay. -/
def softStart (radio : Bool) (site : Nat) (s : State) (k : Nat) : State :=
  let idle := match (getStone s site k).leftAt with
    | some t => decide (128 ≤ 3 * (nowNs s - t))
    | none => true
  if !idle then s
  else
    let win := s.gov.starts.filter (fun t => nowNs s < t + 1000)
    if 64 ≤ win.length ∧ !radio then
      let g := 2 * (site / 16) + site % 16 / 8
      bump64 { s with gov := { s.gov with starts := win, softHeld := s.gov.softHeld ++ [(site * 4 + k, nowNs s + 16 * g)] } }
        (reg .gov 0 0x130) 1
    else { s with gov := { s.gov with starts := win ++ [nowNs s] } }

/-- Whether soft start holds a stone (R495). -/
def softHeld (s : State) (site k : Nat) : Bool := s.gov.softHeld.any (fun e => e.1 = site * 4 + k)

/-- Take the stones of a gang for a leaf's driving engine. -/
def gangTake (s : State) (site lf drv : Nat) (l : List Nat) : State :=
  let s := l.foldl (softStart (isRadio s (getLeaf s site lf).part) site) s
  l.foldl (fun s k => setStone s site k { getStone s site k with heldBy := some (lf, drv), heldFrom := nowNs s }) s

/-- The operands of an operation from the bytes it has taken, with what is left over. -/
def mmaFed (md : Module) (c : Ctx) (o : MmaOp) : Option (List Fed × List Byte × List Byte) :=
  if o.m = 0 ∨ o.n = 0 ∨ o.k = 0 then some ([], o.stat, o.strm)
  else feedBlocks md c o.rcd o.n o.k (blocksOf md c o.rcd o.m o.n o.k) o.stat o.strm

/-- Take the bytes that wait in the driving stone's hoppers (R605); what the operation does not need goes back. The engine
waits on the hopper while bytes are missing. -/
def pullHoppers (s : State) (site : Nat) (md : Module) (c : Ctx) (x : Eng) (o : MmaOp) : Eng × State :=
  let k := o.stones.getD 0 0
  let st := getStone s site k
  let o1 := { o with
    stat := o.stat ++ (if mFeedIn o.rcd then st.stat else [])
    strm := o.strm ++ (if mFeedW o.rcd then st.strm else []) }
  let keepA := if mFeedIn o.rcd then [] else st.stat
  let keepB := if mFeedW o.rcd then [] else st.strm
  match mmaFed md c o1 with
  | none => ({ x with op := some (.mma o1), wait := some .hopper }, setStone s site k { st with stat := keepA, strm := keepB })
  | some (_, a, b) =>
    let used := { o1 with stat := o1.stat.take (o1.stat.length - a.length), strm := o1.strm.take (o1.strm.length - b.length) }
    ({ x with op := some (.mma used), wait := none }, setStone s site k { st with stat := a ++ keepA, strm := b ++ keepB })

/-- The operation takes its gang if it is free, and then what its hoppers hold; otherwise it waits (R130). -/
def mmaAcquire (s : State) (site lf cid : Nat) (md : Module) (c : Ctx) (e : Nat) (x : Eng) (o : MmaOp) : State :=
  if gangFree s site o.stones then
    let s := gangTake s site lf o.eng o.stones
    let (x, s) := pullHoppers s site md c x { o with held := true }
    hopMark (putEng s cid c e x) site
  else putEng s cid c e { x with op := some (.mma o), wait := some .gang }

/-- `stone.mma` issues (R217). -/
def mmaIssue (i : Issue) (s : State) (site lf : Nat) : State :=
  let r := i.rcd
  match dimOf i.c.miller (recF r 3 0 16), dimOf i.c.miller (recF r 3 16 16), countOf i.c.miller (recW r 4) with
  | some m, some n, some k =>
    match mmaFault s i.m i.c r m n k with
    | some code => i.fault s lf code
    | none =>
      let drv := physEng i.m lf i.e
      let o : MmaOp := ⟨i.idx, drv, r, m, n, k, gangStones (mGang r) (drv - 3), false, [], []⟩
      let l := getLeaf s site lf
      mmaAcquire (setLeaf s site lf { l with gang := mGang r }) site lf i.cid i.m i.c i.e i.adv o
  | _, _, _ => i.fault s lf cfCountRange

def execStoneMma (site : Site) (lf : LeafNo) (e : EngNo) (s : State) : Res :=
  done (match issueAt s site lf e [0x080] with
    | some i => mmaIssue i s site lf
    | none => s)

/-- The stone operation in progress on an engine of a RUNNING leaf. -/
def mmaAt (s : State) (site lf e : Nat) : Option (Nat × Ctx × Eng × MmaOp) :=
  match runningAt s site lf with
  | none => none
  | some (cid, c) =>
    match (c.eng e).op with
    | some (.mma o) => some (cid, c, c.eng e, o)
    | _ => none

/-- A waiting operation takes its gang once no stone of it is held (R130). -/
def gangAcquire (s : State) (site lf e : Nat) : State :=
  match mmaAt s site lf e with
  | some (cid, c, x, o) =>
    if x.wait = some .gang ∧ gangFree s site o.stones then
      mmaAcquire s site lf cid (ctxModule s c) c e { x with wait := none } o
    else s
  | none => s

def execGangAcquire (site : Site) (lf : LeafNo) (e : EngNo) (s : State) : Res := done (gangAcquire s site lf e)

/-- An operation that waits on a hopper takes the bytes that have come (R126). -/
def hopperPull (s : State) (site lf e : Nat) : State :=
  match mmaAt s site lf e with
  | some (cid, c, x, o) =>
    let st := getStone s site (o.stones.getD 0 0)
    if x.wait = some .hopper ∧ o.held ∧ ((mFeedIn o.rcd ∧ st.stat ≠ []) ∨ (mFeedW o.rcd ∧ st.strm ≠ [])) then
      let (x, s) := pullHoppers s site (ctxModule s c) c x o
      hopMark (putEng s cid c e x) site
    else s
  | none => s

def execHopperResume (site : Site) (lf : LeafNo) (e : EngNo) (s : State) : Res := done (hopperPull s site lf e)

/-! ### Landing -/

/-- The clocks of a stone operation (R138): `blocks` holds (k_eff, ncols) of each M block. -/
def mmaClocks (blocks : List (Nat × Nat)) (dg c l : Nat) : Nat :=
  let passes := blocks.flatMap (fun p => if p.1 = 0 ∨ p.2 = 0 then [] else List.replicate (ceilDiv p.1 dg) (p.2 * c))
  match passes.getLast? with
  | none => 1
  | some z => l + (passes.dropLast.map (fun x => max x l)).sum + z + 6

/-- Clocks of the first stationary load of a stone (R125, R152). -/
def loadClocks (r : Rec) : Nat :=
  if mCplx r then ceilDiv (32 * mGroup r * 6) 64 else ceilDiv (32 * (rateOf r).1 * fmtBits (mFmtIn r) / 8) 64

/-- Count a landed operation in the stone counters of the mill page (R159): load and stream clocks of each stone of the gang
that holds a live row, without the 6 landing clocks; skipped slices once per M block. -/
def mmaCount (s : State) (site : Nat) (md : Module) (c : Ctx) (o : MmaOp) : State :=
  if o.m = 0 ∨ o.n = 0 ∨ o.k = 0 then s
  else
    let bs := blocksOf md c o.rcd o.m o.n o.k
    let dg := (rateOf o.rcd).1 * (gangShape (mGang o.rcd)).2
    let busy := fun i => mmaClocks ((bs.filter (fun b => !(stoneRows (mGang o.rcd) i b).isEmpty)).map
      (fun b => (b.ks.length, b.cols.length))) dg (rateOf o.rcd).2 (loadClocks o.rcd) - 6
    let s := (o.stones.zipIdx).foldl (fun s p => bump64 s (reg .mill site (0x180 + 8 * p.1)) (busy p.2)) s
    bump64 s (reg .mill site 0x1A8) ((bs.map (·.skipped)).sum)

/-- The last products land in the accumulator and the gang is freed (R130, R138). -/
def mmaLand (s : State) (site lf e : Nat) : State :=
  match mmaAt s site lf e with
  | some (cid, c, x, o) =>
    let md := ctxModule s c
    match o.held && !o.stones.any (softHeld s site), x.wait, mmaFed md c o with
    | true, none, some (fs, _, _) =>
      let c := landAll md c o.rcd o.m o.n o.k fs
      let s := releaseStones (mmaCount s site md c o) site lf (fun d => d = o.eng)
      putEng s cid c e { x with op := none }
    | _, _, _ => s
  | none => s

def execMmaLanded (site : Site) (lf : LeafNo) (e : EngNo) (s : State) : Res := done (mmaLand s site lf e)

end Sys2Proof.Machine
end

