-- ==== Sys2Proof/Machine/Hoists.lean ====
section
/-! DEFINITION. Hoists (R68 to R72, R206 to R212), column multicast (R263 to R268), and engines that resume on a queue
(R63). -/
namespace Sys2Proof.Machine

/-! ### Multicast groups (R258, R259, R263) -/

/-- The other members of a context's multicast group: same launch, same grid column. -/
def groupOthers (s : State) (cid : Nat) (c : Ctx) : List Nat :=
  let g := (getLaunch s c.launch).grid
  if g = 0 then []
  else mkeys (fun k x => k ≠ cid && x.launch = c.launch && x.inst % g = c.inst % g && !x.killed) s.sched.ctxs

/-- Take a send step's descriptor into a receive step: its pattern, and what multicast has delivered so far (R264 to R266). -/
def HoistOp.takeDesc (o : HoistOp) (d : SendDesc) : HoistOp :=
  { o with base := d.base, e0 := d.e0, ext := d.ext, str := d.str, total := d.ext.foldl (· * ·) 1, done := d.got,
           seqNo := d.seqNo, detached := d.detached }

/-- Send a step's descriptor to one member (R265): a receive step that waits for one takes it. -/
def descTo (s : State) (k : Nat) (d : SendDesc) : State :=
  let c := getCtx s k
  let x := c.eng 1
  match x.op, x.wait with
  | some (.hoist o), some .mcastRecv =>
    putEng s k { c with mcSeqRx := c.mcSeqRx + 1 } 1 { x with op := some (.hoist (o.takeDesc d)), wait := none }
  | _, _ => setCtx s k { c with descs := c.descs ++ [d] }

/-- Whether a member's descriptor store has room (R265). -/
def descRoom (s : State) (k : Nat) : Bool := (getCtx s k).descs.length < 8

/-! ### Hoppers (R124) -/

/-- Bytes a hopper holds (R124): two blocks of 6 KiB, or a ring of 4 KiB. -/
def hopperCap (part : Nat) : Nat := if part = 0 then 12288 else 4096

/-- Whether a hopper of a stone can accept `n` bytes. -/
def hopperRoom (s : State) (site stone part n : Nat) : Bool :=
  let st := getStone s site stone
  (if part = 0 then st.stat else st.strm).length + n ≤ hopperCap part

/-- Push bytes into a hopper of a stone. -/
def hopperPush (s : State) (site stone part : Nat) (l : List Byte) : State :=
  let st := getStone s site stone
  setStone s site stone (if part = 0 then { st with stat := st.stat ++ l } else { st with strm := st.strm ++ l })

/-! ### Issue -/

/-- Whether a record's hoist runs inward: engine 1. -/
def hInbound (i : Issue) : Bool := i.e = 1

/-- The stone that a record names (R162, R206). -/
def hStone (m : Module) (lf : Nat) (r : Rec) : Nat := recF r 2 9 2 + (if bitAt m.flags 2 ∧ lf = 1 then 2 else 0)

/-- A base register of a hoist. -/
def hoistBase (c : Ctx) (inbound : Bool) (k : Nat) : DWord := mget 0 (if inbound then c.hbIn else c.hbOut) k

/-- The hoist operation of a record and its continuation (R206, R207): none when a count exceeds its maximum. -/
def hoistOf (i : Issue) (lf : Nat) (indexed : Bool) (k : Rec) : Option HoistOp :=
  let r := i.rcd
  let m := i.c.miller
  let inb := hInbound i
  let src := recF r 2 0 3
  let dst := recF r 2 3 3
  let exts : Option (List Nat) :=
    if indexed then (countOf m (recW k 2)).map (fun n => [n])
    else match countOf m (recW k 2), countOf m (recW k 3), countOf m (recW k 4) with
      | some a, some b, some c => some [a, b, c]
      | _, _, _ => none
  match exts with
  | none => none
  | some ext =>
    some { step := i.idx, inbound := inb
           offSp := if inb then src else dst, onSp := if inb then dst else src
           hb := recF r 2 6 3, base := hoistBase i.c inb (recF r 2 6 3), e0 := recF r 4 0 13, ext := ext
           str := if indexed then [] else [strideOf m (recW k 5), strideOf m (recW k 6), strideOf m (recW k 7)]
           list := if indexed then some (i.c.refAddr (recW k 4), recW k 3) else none
           total := ext.foldl (· * ·) 1, done := 0, onAddr := i.c.refAddr (recW r 3), stone := hStone i.m lf r
           part := recF r 2 11 1, q := if inb then recF r 1 16 5 else recF r 1 0 5
           post := if recB r 2 16 then some ((mget 0 m.ofs (recF r 2 12 4)).toInt) else none
           mcast := if indexed then 0 else recF r 2 17 2, seqNo := 0, detached := false, buf := [], line := 0 }

/-- Send the descriptors of a send step once every other member has room (R265). -/
def sendDescs (s : State) (cid : Nat) (c : Ctx) (x : Eng) (o : HoistOp) : State :=
  let others := groupOthers s cid c
  if others.all (descRoom s) then
    let no := cid * 2 ^ 32 + c.mcSeqTx
    let d : SendDesc := ⟨no, o.base, o.e0, o.ext, o.str, 0, false⟩
    let s := putEng s cid { c with mcSeqTx := c.mcSeqTx + 1 } 1 { x with op := some (.hoist { o with seqNo := no, line := 1 }), wait := none }
    others.foldl (fun s k => descTo s k d) s
  else putEng s cid c 1 { x with op := some (.hoist o), wait := some .mcastSend }

/-- A receive step issues (R264, R266, R268). -/
def recvIssue (i : Issue) (s : State) (lf : Nat) (x : Eng) (o : HoistOp) : State :=
  if groupOthers s i.cid i.c = [] then i.fault s lf cfMcastAlone
  else match i.c.descs with
    | d :: rest =>
      putEng s i.cid { i.c with descs := rest, mcSeqRx := i.c.mcSeqRx + 1 } i.e { x with op := some (.hoist (o.takeDesc d)) }
    | [] =>
      if i.c.freezing then putEng s i.cid i.c i.e { i.eng with held := true }
      else putEng s i.cid i.c i.e { x with op := some (.hoist o), wait := some .mcastRecv }

/-- A hoist record issues with its continuation (R198, R206, R207). -/
def hoistIssue (i : Issue) (s : State) (lf : Nat) (indexed : Bool) : State :=
  match (i.m.table i.e)[i.idx + 1]? with
  | none => s
  | some k =>
    match hoistOf i lf indexed k with
    | none => i.fault s lf cfCountRange
    | some o =>
      let x := i.eng.past k (i.idx + 1)
      if o.mcast = 2 then recvIssue i s lf x o
      else if o.mcast = 1 ∧ groupOthers s i.cid i.c ≠ [] then sendDescs s i.cid i.c x o
      else putEng s i.cid i.c i.e { x with op := some (.hoist o) }

/-- A hoist record issues if its engine stands at it. -/
def hoistOpen (site lf e op : Nat) (indexed : Bool) (s : State) : State :=
  match issueAt s site lf e [op] with
  | some i => hoistIssue i s lf indexed
  | none => s

def execHoistLoad (site : Site) (lf : LeafNo) (s : State) : Res := done (hoistOpen site lf 1 0x040 false s)
def execHoistGather (site : Site) (lf : LeafNo) (s : State) : Res := done (hoistOpen site lf 1 0x041 true s)
def execHoistStore (site : Site) (lf : LeafNo) (s : State) : Res := done (hoistOpen site lf 2 0x042 false s)
def execHoistScatter (site : Site) (lf : LeafNo) (s : State) : Res := done (hoistOpen site lf 2 0x043 true s)

/-! ### Transfers (R69 to R71) -/

/-- The hoist operation in progress on an engine of a RUNNING leaf. -/
def hoistAt (s : State) (site lf e : Nat) : Option (Nat × Ctx × Eng × HoistOp) :=
  match runningAt s site lf with
  | none => none
  | some (cid, c) =>
    match (c.eng e).op with
    | some (.hoist o) => some (cid, c, c.eng e, o)
    | _ => none

/-- The off-chip address of transfer `t` (R69, R70); none when its list entry lies outside the region. -/
def xferAddr (s : State) (c : Ctx) (o : HoistOp) (t : Nat) : Option Nat :=
  match o.list with
  | some (la, gs) =>
    if la + 4 * t + 4 ≤ dmemSize s c then
      some ((o.base.toNat + ofLE (c.dmemRead (la + 4 * t) 4) * gs) % 2 ^ 64)
    else none
  | none =>
    let e1 := max 1 (o.ext.getD 0 1)
    let e2 := max 1 (o.ext.getD 1 1)
    let off : Int := (t % e1 : Nat) * o.str.getD 0 0 + (t / e1 % e2 : Nat) * o.str.getD 1 0 + (t / e1 / e2 : Nat) * o.str.getD 2 0
    some (wrapTo 64 (o.base.toNat + off))

/-- Whether the on-chip run of a transfer lies in its region (R71, R74). -/
def onChipOk (s : State) (c : Ctx) (o : HoistOp) : Bool :=
  match o.onSp with
  | 0 => o.onAddr + (o.done + 1) * o.e0 ≤ dmemSize s c
  | 7 => o.onAddr + (o.done + 1) * o.e0 ≤ mdmSize s c
  | _ => true

/-- How a transfer's off-chip side ended. -/
inductive XferRes where
  | ok (l : List Byte)
  | fault (code : Nat)
  | wait
deriving DecidableEq, Repr

/-- What a device-memory access means for a transfer. -/
def DevRes.xfer : DevRes → XferRes
  | .ok l => .ok l
  | .denied => .fault cfOwnership
  | .bad => .fault cfMemUncorrectable

/-- What a host access means for a transfer. -/
def HostRes.xfer : HostRes → XferRes
  | .ok l => .ok l
  | .refused => .fault cfHostXlate
  | .wait => .wait

/-- Read the off-chip side of a transfer (R71, R374, R379). -/
def offRead (s : State) (c : Ctx) (sp a n : Nat) (env : XferEnv) : XferRes × State :=
  if (sp = 5 ∨ sp = 6) ∧ !s.hif.linkUp then (.wait, s)
  else match sp with
  | 5 => let (r, s) := hostRead s (getSlice s c.slice).pasid a n env.ats env.data
         (r.xfer, s)
  | 6 =>
    match fabCheck s c.part a n false with
    | (.fault code, s) => (.fault code, s)
    | (.pass d ra, s') =>
      if env.data.length < n then (.wait, s)
      else (.ok (env.data.take n), fabSend s' c.part ⟨.read, d, BitVec.ofNat 64 ra, []⟩)
  | _ => let (r, s) := devRead s c.part a n (sp = 3) env.slice
         (r.xfer, s)

/-- Write the off-chip side of a transfer. -/
def offWrite (s : State) (c : Ctx) (sp a : Nat) (l : List Byte) (env : XferEnv) : XferRes × State :=
  if (sp = 5 ∨ sp = 6) ∧ !s.hif.linkUp then (.wait, s)
  else match sp with
  | 5 => let (r, s) := hostWrite s (getSlice s c.slice).pasid a l env.ats
         (r.xfer, s)
  | 6 =>
    match fabCheck s c.part a l.length true with
    | (.fault code, s) => (.fault code, s)
    | (.pass d ra, s) => (.ok [], fabSend s c.part ⟨.write, d, BitVec.ofNat 64 ra, l⟩)
  | _ => let (r, s) := devWrite s c.part a l (sp = 3) env.slice
         (r.xfer, s)

/-- End a transfer in a fault of its context (R200, R210). -/
def xferFault (s : State) (cid code lf e : Nat) (o : HoistOp) : State :=
  let pe := physEng (ctxModule s (getCtx s cid)) lf e
  if code = cfMemUncorrectable then ctxUncorrectable s cid pe o.step else ctxFault s cid code pe o.step

/-- Count the bytes of a transfer through the mesh quadrant of its mill, in its class (R21, R276, log 24). -/
def meshCount (s : State) (site p n : Nat) : State :=
  bump64 s (reg .noc (2 * (site / 128) + site % 16 / 8) (if isRadio s p then 0x100 else 0x108)) n

/-- Deliver the bytes of one inbound transfer to the on-chip side, in generation order (R72). -/
def deliver (s : State) (site cid : Nat) (md : Module) (c : Ctx) (e : Nat) (x : Eng) (o : HoistOp) (l : List Byte) : State :=
  let o' := { o with done := o.done + 1 }
  match o.onSp with
  | 0 => putEng s cid (c.dmemWrite (o.onAddr + o.done * o.e0) l) e { x with op := some (.hoist o'), wait := none }
  | 7 => putEng s cid (c.mdmWrite (o.onAddr + o.done * o.e0) l) e { x with op := some (.hoist o'), wait := none }
  | 1 => putEng (hopperPush s site o.stone o.part l) cid c e { x with op := some (.hoist o'), wait := none }
  | _ =>
    let (left, c) := c.push (md.depth o.q) o.q (bytesToEntries l)
    putEng s cid c e { x with op := some (.hoist { o' with buf := left }), wait := if left = [] then none else some (.push o.q) }

/-- The members that still receive a send step by multicast, and those whose receive step has not issued (R266). -/
def attached (s : State) (others : List Nat) (no : Nat) : List (Nat × HoistOp) :=
  others.filterMap (fun k =>
    match ((getCtx s k).eng 1).op with
    | some (.hoist o) => if o.mcast = 2 ∧ o.seqNo = no ∧ !o.detached ∧ o.total ≠ 0 then some (k, o) else none
    | _ => none)

/-- The site that a context is in. -/
def ctxSite (c : Ctx) : Nat := match c.place with | .leaf site _ => site | .saved => 0

/-- Count a member that detaches (R266, R276). -/
def countDetach (s : State) (site : Nat) : State := bump64 s (reg .noc (2 * (site / 128) + site % 16 / 8) 0x118) 1

/-- A line of a send step reaches the other members (R263, R266): attached ones take it, and one that has not issued its
receive step detaches. -/
def spread (s : State) (cid : Nat) (c : Ctx) (no : Nat) (l : List Byte) : State :=
  let others := groupOthers s cid c
  let s := (attached s others no).foldl (fun s p =>
    let m := getCtx s p.1
    let x := m.eng 1
    putEng (hopperPush s (ctxSite m) p.2.stone p.2.part l) p.1 m 1 { x with op := some (.hoist { p.2 with done := p.2.done + 1 }) }) s
  others.foldl (fun s k =>
    let m := getCtx s k
    if m.descs.any (fun d => d.seqNo = no && !d.detached) then
      countDetach (setCtx s k { m with descs := m.descs.map (fun d => if d.seqNo = no then { d with detached := true } else d) }) (ctxSite m)
    else s) s

/-- Whether every attached member's hopper can take the next transfer of a send step (R266). -/
def spreadRoom (s : State) (cid : Nat) (c : Ctx) (no n : Nat) : Bool :=
  (attached s (groupOthers s cid c) no).all (fun p => hopperRoom s (ctxSite (getCtx s p.1)) p.2.stone p.2.part n)

/-- One inbound transfer. -/
def xferIn (s : State) (site lf cid : Nat) (c : Ctx) (x : Eng) (o : HoistOp) (env : XferEnv) : State :=
  if o.onSp = 1 ∧ !hopperRoom s site o.stone o.part o.e0 then putEng s cid c 1 { x with wait := some .hopper }
  else if o.mcast = 1 ∧ !spreadRoom s cid c o.seqNo o.e0 then putEng s cid c 1 { x with wait := some .mcastSend }
  else match xferAddr s c o o.done with
    | none => xferFault s cid cfDmemBounds lf 1 o
    | some a =>
      let sp := if o.mcast = 2 then 3 else o.offSp
      match offRead s c sp a o.e0 env with
      | (.wait, _) => s
      | (.fault code, s) => xferFault s cid code lf 1 o
      | (.ok l, s) =>
        let s := meshCount s site c.part o.e0
        let s := deliver s site cid (ctxModule s c) (getCtx s cid) 1 x o l
        if o.mcast = 1 then spread s cid (getCtx s cid) o.seqNo l else s

/-- One outbound transfer: bytes from data memory, or whole entries popped from a queue. -/
def xferOut (s : State) (site lf cid : Nat) (c : Ctx) (x : Eng) (o : HoistOp) (env : XferEnv) : State :=
  let need := o.e0 / 64
  let (got, c') := if o.onSp = 2 then c.pop ((ctxModule s c).depth o.q) o.q (need - o.buf.length) else ([], c)
  let buf := o.buf ++ got
  if o.onSp = 2 ∧ buf.length < need then
    putEng s cid c' 2 { x with op := some (.hoist { o with buf := buf }), wait := some (.pop o.q) }
  else match xferAddr s c o o.done with
    | none => xferFault s cid cfDmemBounds lf 2 o
    | some a =>
      let l := if o.onSp = 2 then buf.flatMap lineBytes else c.dmemRead (o.onAddr + o.done * o.e0) o.e0
      match offWrite s c o.offSp a l env with
      | (.wait, _) => s
      | (.fault code, s) => xferFault s cid code lf 2 o
      | (.ok _, s) =>
        putEng (meshCount s site c.part o.e0) cid c' 2 { x with op := some (.hoist { o with done := o.done + 1, buf := [] }), wait := none }

/-- One transfer of a hoist step (R71): checked, and its data moved, or the context faults. -/
def hoistXfer (s : State) (site lf e : Nat) (env : XferEnv) : State :=
  match hoistAt s site lf e with
  | none => s
  | some (cid, c, x, o) =>
    if o.mcast = 1 ∧ o.line = 0 ∧ groupOthers s cid c ≠ [] then sendDescs s cid c x o
    else if o.total ≤ o.done ∨ (o.inbound ∧ o.buf ≠ []) ∨ (o.mcast = 2 ∧ !o.detached) then s
    else match x.wait with
      | some (.pop _) => s
      | some (.push _) => s
      | some .mcastRecv => s
      | _ =>
        let s := upsetLines s env.upset
        if !onChipOk s c o then xferFault s cid cfDmemBounds lf e o
        else if o.inbound then xferIn s site lf cid c x o env
        else xferOut s site lf cid c x o env

def execHoistTransfer (site : Site) (lf : LeafNo) (e : EngNo) (env : XferEnv) (s : State) : Res :=
  done (hoistXfer s site lf e env)

/-- A hoist step ends (R69, R72, R208): every transfer is complete, and the base register is post-modified. -/
def hoistDone (s : State) (site lf e : Nat) : State :=
  match hoistAt s site lf e with
  | none => s
  | some (cid, c, x, o) =>
    if o.done < o.total ∨ o.buf ≠ [] ∨ x.wait = some .mcastRecv ∨ (o.mcast = 1 ∧ o.line = 0 ∧ groupOthers s cid c ≠ []) then s
    else
      let v : DWord := match o.post with
        | some p => BitVec.ofInt 64 ((hoistBase c o.inbound o.hb).toNat + p)
        | none => hoistBase c o.inbound o.hb
      let c := if o.inbound then { c with hbIn := mset 0 c.hbIn o.hb v } else { c with hbOut := mset 0 c.hbOut o.hb v }
      putEng s cid c e { x with op := none, wait := none }

def execHoistStepDone (site : Site) (lf : LeafNo) (e : EngNo) (s : State) : Res := done (hoistDone s site lf e)

/-- A member whose hopper refused a line for 64 clocks detaches (R266). -/
def memberDetach (s : State) (site lf : Nat) : State :=
  match hoistAt s site lf 1 with
  | some (cid, c, x, o) =>
    if o.mcast = 2 ∧ !o.detached ∧ o.done < o.total ∧ x.wait ≠ some .mcastRecv ∧ !hopperRoom s site o.stone o.part o.e0 then
      countDetach (putEng s cid c 1 { x with op := some (.hoist { o with detached := true }) }) site
    else s
  | none => s

def execMemberDetach (site : Site) (lf : LeafNo) (s : State) : Res := done (memberDetach s site lf)

/-! ### Engines that resume on a queue (R63) -/

/-- What an engine that waits on a queue can do now: pop or push what is possible; it waits on while more is needed. -/
def resumeOp (m : Module) (c : Ctx) (e : Nat) (x : Eng) : Ctx × Eng :=
  match x.op, x.wait with
  | some (.store o), some (.push q) =>
    match c.push (m.depth q) q o.ents with
    | ([], c) =>
      let spout := recOp ((m.table e).getD o.step 0) = 0x0C0
      (c, { x with op := if spout then some (.store { o with ents := [] }) else none, wait := none })
    | (left, c) => (c, { x with op := some (.store { o with ents := left }) })
  | some (.hoist o), some (.push q) =>
    match c.push (m.depth q) q o.buf with
    | ([], c) => (c, { x with op := some (.hoist { o with buf := [] }), wait := none })
    | (left, c) => (c, { x with op := some (.hoist { o with buf := left }) })
  | some (.hoist o), some (.pop q) =>
    let (got, c) := c.pop (m.depth q) q (o.e0 / 64 - o.buf.length)
    let buf := o.buf ++ got
    (c, { x with op := some (.hoist { o with buf := buf }), wait := if buf.length < o.e0 / 64 then some (.pop q) else none })
  | some (.flume o), some (.push q) =>
    match c.push (m.depth q) q (o.out.getD []) with
    | ([], c) => (c, { x with op := none, wait := none })
    | (left, c) => (c, { x with op := some (.flume { o with out := some left }) })
  | some (.flume o), some (.pop _) =>
    let (c, o, w) := flumePop m c o
    (c, { x with op := some (.flume o), wait := w })
  | _, _ => (c, x)

/-- A miller that waits on a queue issues its instruction afresh once the queue lets it. -/
def millerResume (m : Module) (c : Ctx) : Ctx :=
  match c.miller.wait with
  | some (.pop q) => if (c.queue q).ents = [] then c else { c with miller := { c.miller with wait := none } }
  | some (.push q) => if (c.queue q).ents.length < m.depth q then { c with miller := { c.miller with wait := none } } else c
  | _ => c

/-- An engine that waits to push to a full queue or to pop an empty one resumes (R63). -/
def queueResume (s : State) (site lf e : Nat) : State :=
  match runningAt s site lf with
  | none => s
  | some (cid, c) =>
    if e = 0 then
      let c' := millerResume (ctxModule s c) c
      if c' = c then s else setCtx s cid (c'.moved s)
    else
      let (c', x) := resumeOp (ctxModule s c) c e (c.eng e)
      if c'.setEng e x = c then s else putEng s cid c' e x

def execQueueResume (site : Site) (lf : LeafNo) (e : EngNo) (s : State) : Res := done (queueResume s site lf e)

end Sys2Proof.Machine
end

