-- ==== Sys2Proof/Machine/Hif.lean ====
section
/-! DEFINITION. The host interface: rings and doorbells (R363 to R372), submission entries (R367 to R369, R380), leases (R380, R381),
completion timeouts (R362), translation invalidation (R375), host snoops (R376), and the link (R361). -/
namespace Sys2Proof.Machine

/-! ### RING_ENABLE, RING_DISABLE (R363) -/

/-- The slice that `RING_SEL` selects. -/
def ringSel (s : State) : Nat := getF s (reg .hif 1 0x100) 0 13

/-- ENABLE of a slice's rings: refused while the slice is not active; its indices start at 0. -/
def ringEnable (s : State) (sl : Nat) : State :=
  if (getSlice s sl).st ≠ .active then raiseErr s .hif 1 9
  else if (getRing s sl).enabled then s
  else setRing s sl { Ring.off with enabled := true, awaiting := (getRing s sl).awaiting }

def execRingEnable (s : State) : Res := done (gated s .hif 1 (fun s => ringEnable s (ringSel s)))

/-- DISABLE of a slice's rings: fetching stops, and the completion entries that are queued are dropped and counted. -/
def ringDisable (s : State) (sl : Nat) : State :=
  let r := getRing s sl
  if !r.enabled then s
  else
    let s := if r.held.isEmpty then s else cqDrop s sl r.held.length
    setRing s sl { r with enabled := false, held := [], entry := none }

def execRingDisable (s : State) : Res := done (gated s .hif 1 (fun s => ringDisable s (ringSel s)))

/-! ### Doorbells (R364 to R366) -/

/-- A write of `SQ_TAIL`. -/
def sqTail (s : State) (sl v : Nat) : State :=
  let r := getRing s sl
  if !r.enabled then s
  else if sqSize s sl ≤ v then setRing s sl { r with sqErr := true }
  else setRing s sl { r with sqTail := v }

def execSqTail (n : BitVec 13) (v : Word) (s : State) : Res := done (sqTail s n.toNat (v.toNat % 2 ^ 16))

/-- A write of `CQ_HEAD`: entries are freed, and held entries are written while there is room. A head beyond the write index frees
every entry written. -/
def cqHead (s : State) (sl v : Nat) : State :=
  let r := getRing s sl
  let size := cqSize s sl
  if !r.enabled then s
  else
    let used := (r.cqWrite + size - r.cqHead) % size
    let freed := (v % size + size - r.cqHead) % size
    let head := if used < freed then r.cqWrite else v % size
    cplFlush 256 sl (setRing s sl { r with cqHead := head })

def execCqHead (n : BitVec 13) (v : Word) (s : State) : Res := done (cqHead s n.toNat (v.toNat % 2 ^ 16))

/-! ### ENTRY_FETCH (R365, R367) -/

/-- A byte of a submission entry. -/
def entB (e : Line) (i : Nat) : Nat := bitsAt e.toNat (8 * i) 8

/-- The `n`-byte field of a submission entry at byte `i`. -/
def entF (e : Line) (i n : Nat) : Nat := bitsAt e.toNat (8 * i) (8 * n)

/-- Whether the bytes [lo, hi) of an entry are all 0. -/
def entZero (e : Line) (lo hi : Nat) : Bool := entF e lo (hi - lo) = 0

/-- Whether an entry has an unlisted TYPE or a reserved bit set (R367 to R369, R380, R388). -/
def entBad (e : Line) : Bool :=
  !entZero e 2 8 ||
  match entB e 0 with
  | 1 => 4 ≤ entB e 1 || 15 < entB e 42 || !entZero e 43 48 || !entZero e 56 64
  | 2 => 2 ≤ entB e 1 || 1 < entB e 18 || !entZero e 19 20 || !entZero e 26 28 || !entZero e 32 64
  | 3 => entB e 1 ≠ 0 || !entZero e 24 64
  | 4 => entB e 1 ≠ 0 || 2 < entB e 16 || !entZero e 17 18 || !entZero e 40 64
  | _ => true

/-- The number of watches a slice holds (R368). -/
def watchCount (s : State) (sl : Nat) : Nat := (s.hif.watches.filter (fun w => w.slice = sl)).length

/-- Whether the HIF may fetch the next entry of a ring (R365, R368, R372). -/
def mayFetch (s : State) (sl : Nat) : Bool :=
  let r := getRing s sl
  r.enabled && !r.sqErr && !r.xlateErr && r.entry.isNone && r.sqHead ≠ r.sqTail && r.held.isEmpty && watchCount s sl < 64
    && s.hif.linkUp

/-- A ring access failed translation or timed out (R365). -/
def ringXlate (s : State) (sl : Nat) : State := setRing s sl { getRing s sl with xlateErr := true }

/-- The entry of a ring is acted on: it is gone from the ring. -/
def entryDone (s : State) (sl : Nat) : State := setRing s sl { getRing s sl with entry := none }

/-- A submission entry arrives: a bad one completes with BAD_ENTRY, any other waits to be acted on. -/
def entryFetch (s : State) (sl : Nat) (env : XferEnv) : State :=
  if !mayFetch s sl then s
  else
    let r := getRing s sl
    match hostRead s (getSlice s sl).pasid ((getD64 s (ringReg sl 0x108)).toNat + 64 * r.sqHead) 64 env.ats env.data with
    | (.refused, s) => ringXlate s sl
    | (.wait, s) => s
    | (.ok l, s) =>
      let e := bytesLine l
      let s := setRing s sl { getRing s sl with sqHead := (r.sqHead + 1) % sqSize s sl, entry := if entBad e then none else some e }
      if entBad e then completeEntry s sl (entF e 8 8) 3 0 else s

def execEntryFetch (n : BitVec 13) (env : XferEnv) (s : State) : Res := done (entryFetch s n.toNat env)

/-- Act on the fetched entry of a slice, of a given TYPE; the entry is gone from the ring first. -/
def onEntry (s : State) (sl typ : Nat) (act : State → Line → State) : State :=
  match (getRing s sl).entry with
  | some e => if entB e 0 = typ then act (entryDone s sl) e else s
  | none => s

/-! ### KICK and WATCH_SATISFIED (R368) -/

/-- A KICK entry of a slice. -/
def kick (s : State) (sl : Nat) (e : Line) : State :=
  let p := (getSlice s sl).part
  let n := entF e 16 2
  let d := entF e 24 2
  let done := entB e 1 = 1
  let tag := entF e 8 8
  if objOwner s n ≠ p ∨ (done ∧ objOwner s d ≠ p) then completeEntry s sl tag 4 0
  else
    let s := signalExt s n (entB e 18 = 1) (BitVec.ofNat 32 (entF e 20 4))
    if done then
      let cmp := BitVec.ofNat 32 (entF e 28 4)
      { s with hif := { s.hif with watches := s.hif.watches ++ [⟨sl, d, cmp, tag, waitCond (getObj s d) 0 cmp⟩] } }
    else completeEntry s sl tag 0 0

def execKick (n : BitVec 13) (s : State) : Res := done (onEntry s n.toNat 2 (fun s e => kick s n.toNat e))

/-- The oldest satisfied watch of a slice ends with its completion entry. -/
def watchDone (s : State) (sl : Nat) : State :=
  match s.hif.watches.find? (fun w => w.slice = sl && w.sat) with
  | some w => completeEntry { s with hif := { s.hif with watches := s.hif.watches.erase w } } sl w.tag 0 0
  | none => s

def execWatchSatisfied (n : BitVec 13) (s : State) : Res := done (watchDone s n.toNat)

/-! ### LAUNCH (R242, R369) -/

/-- The number after the last key of a map. -/
def keyAfter {α : Type} (m : KMap α) : Nat :=
  match m.getLast? with
  | some e => e.1 + 1
  | none => 0

/-- The load that a LAUNCH entry requests. -/
def loadOf (p sl : Nat) (mailbox : Bool) (e : Line) : Load :=
  ⟨p, sl, mailbox, entF e 8 8, entB e 1, entF e 16 8, entF e 24 4, entF e 32 8, entF e 40 2, entF e 28 4, entB e 42, entF e 48 8, none⟩

/-- A load is requested. -/
def addLoad (s : State) (l : Load) : State :=
  { s with sched := { s.sched with loads := mput s.sched.loads (keyAfter s.sched.loads) l } }

def execLaunch (n : BitVec 13) (s : State) : Res :=
  done (onEntry s n.toNat 1 (fun s e => addLoad s (loadOf (getSlice s n.toNat).part n.toNat false e)))

/-! ### Leases (R380, R381) -/

/-- Set the lease expiry of a partition. -/
def setLease (s : State) (p : Nat) (t : DWord) : State := setD64 s (reg .hif 6 (0x100 + 8 * p)) t

/-- A LEASE entry of a slice. -/
def lease (s : State) (sl : Nat) (e : Line) : State :=
  let p := (getSlice s sl).part
  let dur := entF e 16 8
  let tag := entF e 8 8
  if getF s (ringReg sl 0x11C) 17 1 = 0 then completeEntry s sl tag 5 0
  else if 10000000000 < dur then completeEntry s sl tag 3 0
  else
    let s := setLease s p (BitVec.ofNat 64 (nowNs s + dur))
    let s := if dur = 0 then s else { s with hif := { s.hif with lapsed := mset false s.hif.lapsed p false } }
    completeEntry s sl tag 0 0

def execLease (n : BitVec 13) (s : State) : Res := done (onEntry s n.toNat 3 (fun s e => lease s n.toNat e))

/-- A write of `LEASE_REVOKE`. -/
def leaseRevoke (s : State) (v : Nat) : State :=
  gated s .hif 6 (fun s => (setBitsOf 32 v).foldl (fun s p => setLease s p 0) s)

def execLeaseRevoke (v : Word) (s : State) : Res := done (leaseRevoke s v.toNat)

/-- A partition's lease is no longer valid: the contexts whose store, atomic or signal passed its check and has not entered the
link fault, and each discarded request is counted. -/
def leaseLapse (s : State) (p : Nat) (waiting : List Nat) : State :=
  if leaseValid s p ∨ mget false s.hif.lapsed p then s
  else
    let s := { s with hif := { s.hif with lapsed := mset false s.hif.lapsed p true } }
    (waiting.filter (fun c => (mfind s.sched.ctxs c).isSome && (getCtx s c).part = p)).foldl
      (fun s c => ctxFault (bump32 s (reg .hif 6 0x208) 1) c cfFabricFenced 2 0) s

def execLeaseLapse (p : Fin 32) (waiting : List Nat) (s : State) : Res := done (leaseLapse s p waiting)

/-! ### HELD_FAULT_DROP (R372) -/

/-- The oldest fault entry that a full ring has held for 1 ms is dropped and counted. -/
def heldDrop (s : State) (sl : Nat) : State :=
  let r := getRing s sl
  match r.held.find? (fun e => e.kind = 2 && e.since + 1000000 ≤ nowNs s) with
  | some e => cqDrop (setRing s sl { r with held := r.held.erase e }) sl 1
  | none => s

def execHeldFaultDrop (n : BitVec 13) (s : State) : Res := done (heldDrop s n.toNat)

/-! ### COMPLETION_TIMEOUT, LATE_COMPLETION (R362, R365) -/

/-- A request of the HIF has timed out; its completion may still come. -/
def timedOut (s : State) : State := { s with hif := { s.hif with timedOut := s.hif.timedOut + 1 } }

/-- A transfer of a context to or from the host or a peer times out. -/
def xferTimeout (s : State) (site lf e : Nat) : State :=
  match hoistAt s site lf e with
  | some (cid, _, _, o) =>
    if (o.offSp = 5 ∨ o.offSp = 6) ∧ o.done < o.total then xferFault (timedOut s) cid cfHostTimeout lf e o else s
  | none => s

/-- A write of a slice's rings fails: nothing ordered after it is written, and the ring stops (R362, R365). -/
def writeLost (s : State) (sl : Nat) : State := setRing s sl { getRing s sl with awaiting := [], xlateErr := true }

/-- A non-posted request reaches the completion timeout. -/
def timeout (s : State) : TimedOut → State
  | .xfer site lf e => xferTimeout s site lf e
  | .fetch n => if mayFetch { s with hif := { s.hif with linkUp := true } } n.toNat then ringXlate (timedOut s) n.toNat else s
  | .write n => if (getRing s n.toNat).awaiting = [] then s else writeLost (timedOut s) n.toNat

def execCompletionTimeout (r : TimedOut) (s : State) : Res := done (timeout s r)

/-- A completion arrives after its request timed out. -/
def lateCompletion (s : State) : State :=
  if s.hif.timedOut = 0 then s
  else raiseErr (bump32 { s with hif := { s.hif with timedOut := s.hif.timedOut - 1 } } (reg .hif 0 0x104) 1) .hif 0 8

def execLateCompletion (s : State) : Res := done (lateCompletion s)

/-! ### GLOBAL_OBSERVATION_RESPONSE (R371, R374, R376) -/

/-- The oldest write of a slice's rings becomes visible: it is made under the slice's PASID and drops the held lines; a completion
entry requests its message. A refused translation stops the ring. -/
def observed (s : State) (sl : Nat) (ats : List (Option AtsAns)) : State :=
  let r := getRing s sl
  match r.awaiting with
  | [] => s
  | w :: rest =>
    if !s.hif.linkUp then s
    else match hostWriteLines (getSlice s sl).pasid (piecesOf 64 w.addr w.data.length) ats s with
      | (false, s) => writeLost (xlateFail s) sl
      | (true, s) =>
        let s := hostPut (setRing s sl { getRing s sl with awaiting := rest }) w
        if w.data.length = 32 ∧ getF s (ringReg sl 0x11C) 16 1 = 1 then msixRequest s (getF s (ringReg sl 0x11C) 0 11) else s

def execGlobalObservationResponse (n : BitVec 13) (ats : List (Option AtsAns)) (s : State) : Res :=
  done (observed s n.toNat ats)

/-! ### Invalidations and snoops (R375, R376) -/

/-- Whether a TLB entry matches an invalidation of [va, va + 2^log) under a PASID. -/
def invalHits (pasid va log : Nat) (e : TlbEnt) : Bool :=
  e.pasid = pasid && decide (e.va < va / 2 ^ log * 2 ^ log + 2 ^ log) && decide (va / 2 ^ log * 2 ^ log < e.va + 2 ^ e.log)

/-- An ATS invalidation arrives: no later request uses a matching entry. -/
def invalidate (s : State) (pasid va log : Nat) : State :=
  { s with hif := { s.hif with
    tlb := s.hif.tlb.filter (fun e => !invalHits pasid va log e)
    inval := s.hif.inval ++ [(pasid, va, log)] } }

def execAtsInvalidation (pasid : BitVec 20) (va : DWord) (log : Fin 64) (s : State) : Res :=
  done (invalidate s pasid.toNat va.toNat log)

/-- The completion of the oldest invalidation is sent. -/
def invalDone (s : State) : State :=
  match s.hif.inval with
  | [] => s
  | _ :: r => bump64 { s with hif := { s.hif with inval := r } } (reg .hif 0 0x110) 1

def execInvalidationComplete (s : State) : Res := done (invalDone s)

/-- A snoop that returns a held line clean; the line stays. -/
def snoopRead (s : State) (ln : Nat) : State :=
  match mfind s.hif.hlc ln with
  | some l => answer s (some (lineBytes l.data))
  | none => answer s none

def execSnpData (ln : BitVec 58) (s : State) : Res := done (snoopRead s ln.toNat)
def execSnpCur (ln : BitVec 58) (s : State) : Res := done (snoopRead s ln.toNat)
def execSnpInv (ln : BitVec 58) (s : State) : Res := done (hlcDrop s ln.toNat)

/-! ### The link and the workshop (R18, R361) -/

/-- `HIF.STAT.LINK_UP` follows the link. -/
def setLink (s : State) (b : Bool) : State := { s with hif := { s.hif with linkUp := b } }

def execCxlLinkDown (s : State) : Res := done (setLink s false)
def execCxlLinkUp (s : State) : Res := done (setLink s true)

/-- The workshop stops answering its mailboxes. -/
def execWorkshopStopsResponding (s : State) : Res := done { s with sched := { s.sched with workshop := false } }

end Sys2Proof.Machine
end

