-- ==== Sys2Proof/Machine/Slices.lean ====
section
/-! DEFINITION. Slice commands (R305, R306, R321) and the lending and reclaiming of mills (R310 to R313). -/
namespace Sys2Proof.Machine

/-! ### Loads that end before they complete (R245, R321) -/

/-- Undo what a load has reserved (R242): its leaves return to EMPTY and its objects to the partition. -/
def unplan (s : State) (p : LoadPlan) : State :=
  let s := p.places.foldl (fun s x =>
    let l := getLeaf s x.1 x.2
    if l.st = .loading then setLeaf s x.1 x.2 l.vacant else s) s
  let s := (p.shared.map (fun e => e.2)).foldl freeObj s
  (p.priv.flatMap (fun m => m.map (fun e => e.2))).foldl freeObj s

/-- The result of the mailbox LAUNCH in progress is known (R373). -/
def mbxLoaded (s : State) (code : Nat) : State :=
  match s.sched.mbx with
  | some c => if c.op = 8 then { s with sched := { s.sched with mbx := some { c with res := some code } } } else s
  | none => s

/-- Drop a load; one that the mailbox asked for is refused with REFUSE_PARTITION_STATE (R245). -/
def dropLoad (s : State) (n : Nat) : State :=
  let l := mget Load.blank s.sched.loads n
  let s := match l.plan with
    | some p => unplan s p
    | none => s
  let s := if l.mailbox then mbxLoaded s 4 else s
  { s with sched := { s.sched with loads := mdel s.sched.loads n } }

/-- Drop every load that `p` selects. -/
def dropLoads (s : State) (p : Load → Bool) : State := (mkeys (fun _ l => p l) s.sched.loads).foldl dropLoad s

/-! ### Slice commands (R305) -/

/-- Whether a slice lies in the range of a partition. -/
def sliceInRange (d : PartDesc) (n : Nat) : Bool := d.sliceBase ≤ n && n < d.sliceBase + d.sliceCount

/-- Whether a PASID is bound to a slice (R7, R306). -/
def pasidBound (s : State) (v : Nat) : Bool := s.sched.slices.any (fun e => e.2.st ≠ .none && e.2.pasid = v)

/-- Least virtual time among the created slices of a partition, 0 when there is none (R314). -/
def leastVt (s : State) (p : Nat) : DWord :=
  match (s.sched.slices.filter (fun e => e.2.st ≠ .none && e.2.part = p)).map (fun e => e.2.vt) with
  | [] => 0
  | v :: r => r.foldl (fun a b => if b < a then b else a) v

/-- CREATE (R305, R306). -/
def sliceCreate (s : State) (p n : Nat) : State :=
  let pg := 1 + p
  let pasid := getF s (reg .sch pg 0x184) 0 20
  let share := getF s (reg .sch pg 0x188) 0 16
  if (getPart s p).st ≠ .active ∨ (getSlice s n).st ≠ .none then sliceDone s p 2
  else if pasidBound s pasid then sliceDone s p 3
  else if share = 0 then sliceDone s p 4
  else sliceDone (setSlice s n ⟨.active, p, pasid, share, getW s (reg .sch pg 0x18C), leastVt s p, 0, 0⟩) p 0

/-- The contexts of a slice that are not being torn down. -/
def sliceCtxs (s : State) (n : Nat) : List Nat := mkeys (fun _ c => c.slice = n && !c.killed) s.sched.ctxs

/-- The teardown of a slice begins (R321): its contexts are torn down, and its loads end. -/
def sliceKill (s : State) (n : Nat) : State :=
  let s := setSlice s n { getSlice s n with st := .teardown }
  let s := dropLoads s (fun l => l.slice = n)
  (sliceCtxs s n).foldl (fun s c => ctxFault s c cfKilled 0 0) s

/-- TEARDOWN (R305, R321, R323). -/
def sliceTeardown (s : State) (p n : Nat) : State :=
  let st := (getSlice s n).st
  let ps := (getPart s p).st
  if (st = .active ∨ st = .paused) ∧ (ps = .active ∨ ps = .freezing ∨ ps = .frozen) then
    partFrozen (sliceKill (setPart s p { getPart s p with sliceCmd := some (2, n) }) n) p
  else sliceDone s p 2

/-- SET_SHARE (R305). -/
def setShare (s : State) (p n : Nat) : State :=
  let share := getF s (reg .sch (1 + p) 0x188) 0 16
  let x := getSlice s n
  if (getPart s p).st ≠ .active ∨ ¬ (x.st = .active ∨ x.st = .paused) then sliceDone s p 2
  else if share = 0 then sliceDone s p 4
  else sliceDone (setSlice s n { x with share := share }) p 0

/-- PAUSE (R305, R323): the contexts of the slice are frozen, with the other members of their grid launches. -/
def slicePause (s : State) (p n : Nat) : State :=
  let x := getSlice s n
  if (getPart s p).st ≠ .active ∨ x.st ≠ .active then sliceDone s p 2
  else
    let s := setSlice s n { x with st := .paused }
    let s := setPart s p { getPart s p with sliceCmd := some (4, n) }
    pauseDone ((sliceCtxs s n).foldl (fun s c => freezeGroup s c 3) s) p

/-- A context that is FROZEN in its leaf becomes RESIDENT again, to resume when it next runs (R188, R327). -/
def unfreeze (s : State) (cid : Nat) : State :=
  let c := getCtx s cid
  match c.place with
  | .saved => s
  | .leaf site lf =>
    let l := getLeaf s site lf
    let s := setCtx s cid { c with freezing := false, freezeWhy := 0 }
    if l.st = .frozen then setLeaf s site lf { l with st := .resident, want := none } else s

/-- RESUME (R305). -/
def sliceResume (s : State) (p n : Nat) : State :=
  let x := getSlice s n
  if (getPart s p).st ≠ .active ∨ x.st ≠ .paused then sliceDone s p 2
  else
    let s := setSlice s n { x with st := .active }
    let s := (sliceCtxs s n).foldl unfreeze s
    kickPart (sliceDone s p 0) p

/-- A write of `SLICE_CMD` of partition `p` (R305, R333): discarded while the partition is FREE; an error while a command runs;
refused when the slice lies outside the partition's range. -/
def sliceCmd (s : State) (p n : Nat) (act : State → Nat → Nat → State) : State :=
  gated s .sch (1 + p) (fun s =>
    let x := getPart s p
    if x.st = .free then s
    else if x.sliceCmd.isSome then raiseErr s .sch (1 + p) 8
    else if !sliceInRange x.desc n then sliceDone s p 1
    else act s p n)

def execSliceCreate (p : Fin 32) (n : BitVec 13) (s : State) : Res := done (sliceCmd s p n.toNat sliceCreate)
def execSliceTeardown (p : Fin 32) (n : BitVec 13) (s : State) : Res := done (sliceCmd s p n.toNat sliceTeardown)
def execSetShare (p : Fin 32) (n : BitVec 13) (s : State) : Res := done (sliceCmd s p n.toNat setShare)
def execSlicePause (p : Fin 32) (n : BitVec 13) (s : State) : Res := done (sliceCmd s p n.toNat slicePause)
def execSliceResume (p : Fin 32) (n : BitVec 13) (s : State) : Res := done (sliceCmd s p n.toNat sliceResume)

/-! ### SLICE_TEARDOWN_DONE (R321) -/

/-- Whether a slice has a context, or one whose teardown has not reported complete: its fault entry is not written until it has left
the HIF, which holds it while the ring is full (R320, R372), and its write is visible (R371). -/
def sliceBusy (s : State) (n : Nat) : Bool :=
  s.sched.ctxs.any (fun e => e.2.slice = n) || s.sched.drains.any (fun e => e.2.slice = n)
    || (getRing s n).held.any (fun e => e.kind = 2) || !(getRing s n).awaiting.isEmpty

/-- The teardown of a slice ends (R321, R363, R541): its ring state in the HIF goes, its PASID is unbound, and a command that
asked for it ends. -/
def sliceGone (s : State) (n : Nat) : State :=
  let x := getSlice s n
  if x.st ≠ .teardown ∨ sliceBusy s n then s
  else
    let r := getRing s n
    let s := if r.held.isEmpty then s else cqDrop s n r.held.length
    let s := setRing s n Ring.off
    let s := { s with hif := { s.hif with
      watches := s.hif.watches.filter (fun w => w.slice ≠ n)
      digQ := s.hif.digQ.filter (fun d => d.slice ≠ n)
      digCmps := s.hif.digCmps.filter (fun d => d.rcd.slice ≠ n) } }
    let s := setSlice s n Slice.blank
    if (getPart s x.part).sliceCmd = some (2, n) then sliceDone s x.part 0 else s

def execSliceTeardownDone (n : BitVec 13) (s : State) : Res := done (sliceGone s n.toNat)

/-! ### LEND, RECLAIM, RECLAIM_DONE (R310 to R313) -/

/-- Write the LEND bit of a mill. -/
def putLend (s : State) (r n : Nat) (b : Bool) : State := setF s (reg .sch (1 + r) (0x140 + 4 * (n / 32))) (n % 32) 1 (b2n b)

/-- A write of `LENDk` that changes the bit of mill `n` (R310, R312, R333): reserved in compute partitions, nothing while FREE
or for a mill that the partition does not hold. -/
def lendWrite (s : State) (r n : Nat) (b : Bool) : State :=
  gated s .sch (1 + r) (fun s =>
    let x := getPart s r
    if x.st = .free ∨ !x.desc.radio ∨ !bitAt x.mills n then s
    else
      let s := putLend s r n b
      if b then lendMill s r n
      else reclaimMill s n)

def execLend (p : Fin 32) (n : Fin 240) (s : State) : Res := done (lendWrite s p n true)
def execReclaim (p : Fin 32) (n : Fin 240) (s : State) : Res := done (lendWrite s p n false)

/-- The reclaim of a mill ends (R312, R313): live sets saved, both leaves clear, the mill back with its partition; the borrower's
contexts are decided for again. -/
def reclaimDone (s : State) (n : Nat) : State :=
  match mfind s.sched.reclaims n, mfind s.sched.lent n, millSite s n with
  | some asked, some b, some site =>
    match saveLeaves site [0, 1] s with
    | none => s
    | some s' =>
      match (mkeys (fun _ p => bitAt p.mills n) s'.sched.parts).head? with
      | none => s
      | some r => kickPart (settlePart (millBack s' r n asked) b) b
  | _, _, _ => s

def execReclaimDone (n : Fin 240) (s : State) : Res := done (reclaimDone s n)

end Sys2Proof.Machine
end

