-- ==== Sys2Proof/Machine/RadioAdmit.lean ====
section
/-! DEFINITION. Flow descriptors (R435), symbol times (R444, R448), the binding of flows (R436, R456) and radio admission (R401,
R402, R422, R423). -/
namespace Sys2Proof.Machine

/-! ### Flow descriptors (R435) -/

/-- Word `i` of the descriptor of flow `f`. -/
def flowWord (s : State) (f i : Nat) : Word := getW s (winKey f (reg .slu 1 (0x180 + 4 * i)))

/-- The 128 bytes of the descriptor of flow `f`. -/
def flowBytes (s : State) (f : Nat) : List Byte := (List.range 32).flatMap (fun i => toLE 4 (flowWord s f i).toNat)

/-- A flow descriptor, its fields by name. -/
structure FlowDesc where
  raw : List Byte
deriving DecidableEq, Repr

def FlowDesc.part (d : FlowDesc) : Nat := leAt d.raw 0 1
def FlowDesc.frer (d : FlowDesc) : Bool := bitAt (leAt d.raw 1 1) 0
def FlowDesc.udp (d : FlowDesc) : Bool := bitAt (leAt d.raw 1 1) 1
def FlowDesc.ipv6 (d : FlowDesc) : Bool := bitAt (leAt d.raw 1 1) 2
def FlowDesc.tagged (d : FlowDesc) : Bool := bitAt (leAt d.raw 1 1) 3
def FlowDesc.portA (d : FlowDesc) : Nat := leAt d.raw 2 1
def FlowDesc.portB (d : FlowDesc) : Nat := leAt d.raw 3 1
def FlowDesc.vlan (d : FlowDesc) : Nat := leAt d.raw 4 2
def FlowDesc.dlW (d : FlowDesc) : Nat := leAt d.raw 6 1
def FlowDesc.ulW (d : FlowDesc) : Nat := leAt d.raw 7 1
def FlowDesc.ruMac (d : FlowDesc) : List Byte := sliceB d.raw 8 6
def FlowDesc.eaxc (d : FlowDesc) : Nat := leAt d.raw 14 2
def FlowDesc.maxUp (d : FlowDesc) : Nat := leAt d.raw 16 4
def FlowDesc.minUp (d : FlowDesc) : Nat := leAt d.raw 20 4
def FlowDesc.maxCp (d : FlowDesc) (dl : Bool) : Nat := leAt d.raw (if dl then 24 else 32) 4
def FlowDesc.minCp (d : FlowDesc) (dl : Bool) : Nat := leAt d.raw (if dl then 28 else 36) 4
def FlowDesc.ta4Min (d : FlowDesc) : Nat := leAt d.raw 40 4
def FlowDesc.ta4Max (d : FlowDesc) : Nat := leAt d.raw 44 4
def FlowDesc.dlBase (d : FlowDesc) : Nat := leAt d.raw 48 8
def FlowDesc.dlDepth (d : FlowDesc) : Nat := leAt d.raw 56 1
def FlowDesc.udpPort (d : FlowDesc) : Nat := leAt d.raw 58 2
def FlowDesc.ruIp (d : FlowDesc) : List Byte := sliceB d.raw 60 (if d.ipv6 then 16 else 4)
def FlowDesc.duIp (d : FlowDesc) : List Byte := sliceB d.raw 76 (if d.ipv6 then 16 else 4)
def FlowDesc.prachFreq (d : FlowDesc) : Nat := leAt d.raw 92 3
def FlowDesc.prachBase (d : FlowDesc) : Nat := leAt d.raw 96 8

/-- The descriptor of a flow. -/
def flowDesc (s : State) (f : Nat) : FlowDesc := ⟨flowBytes s f⟩

/-- Ports that a flow uses (R433). -/
def FlowDesc.ports (d : FlowDesc) : List Nat := if d.frer then [d.portA, d.portB] else [d.portA]

/-- A width of R435. -/
def iqwOk (w : Nat) : Bool := w = 0 || (8 ≤ w && w ≤ 16)

/-- Whether a descriptor keeps to R433 and R435. -/
def FlowDesc.ok (d : FlowDesc) (frerCap : Bool) : Bool :=
  d.part < 32 && leAt d.raw 1 1 < 16 && d.portA < 16 && d.portB < 16 && (if d.frer then frerCap && d.portA ≠ d.portB else d.portB = 0)
    && iqwOk d.dlW && iqwOk d.ulW && d.eaxc % 16 = 0 && d.dlBase % 4096 = 0 && 28 ≤ d.dlDepth && leAt d.raw 57 1 = 0
    && leAt d.raw 95 1 = 0 && d.prachBase % 16384 = 0 && leAt d.raw 104 24 = 0

/-- Bytes of one compressed PRB (R436, R441). -/
def prbBytes (w : Nat) : Nat := if w = 0 then 48 else (24 * w + 8) / 8

/-- Bytes of a downlink ring entry (R445). -/
def dlEntry (g : CellCfg) : Nat := roundUp (g.tx * g.prb * 72) 64

/-- Bytes of an uplink ring entry (R398). -/
def ulEntry (g : CellCfg) : Nat := roundUp (g.rx * g.prb * 72 + g.rx * 48) 64

/-! ### Symbol times (R444, R448) -/

/-- Start of symbol `l` of a subframe, in ns after the subframe's start. -/
def symOfs (mu l : Nat) : Nat := (l * (140288 / 2 ^ mu) + 1024 * ceilDiv l (7 * 2 ^ mu)) * 15625 / 30720

/-- The fantail time at which symbol `sym` of slot `k` of a cell starts. -/
def symTime (s : State) (c : Cell) (k sym : Nat) : Nat :=
  let t0 := (getPart s c.part).desc.slot0
  let j := sext 64 ((c.slotAt k + 2 ^ 64 - t0 % 2 ^ 64) % 2 ^ 64) / (slotNs c.cfg.mu : Int)
  let two : Int := 2 ^ c.cfg.mu
  wrapTo 64 ((t0 : Int) + j / two * 1000000 + symOfs c.cfg.mu ((j % two).toNat * 14 + sym))

/-- `ul_ready_ns` of a symbol (R398, R448): the latest over the slots of a subframe. -/
def ulReady (mu ta4Max sym : Nat) : Nat :=
  ((List.range (2 ^ mu)).foldl (fun m r => max m (symOfs mu (14 * r + sym) - r * slotNs mu)) 0) + ta4Max + 1000

/-! ### Ports as the sluice sees them (R427) -/

/-- MODE of a port. -/
def portMode (s : State) (p : Nat) : Nat := getF s (reg .eth p 0x10) 0 2

/-- Port rate in Gb/s. -/
def portGbps (s : State) (p : Nat) : Nat := match portMode s p with | 1 => 200 | 2 => 400 | 3 => 800 | _ => 0

/-- Instances that a mode uses. -/
def modeLanes (m : Nat) : Nat := match m with | 1 => 1 | 2 => 2 | 3 => 4 | _ => 0

/-- Whether a wider port uses an instance (R427). -/
def portConsumed (s : State) (p : Nat) : Bool :=
  [1, 2, 3].any (fun d => d ≤ p && d < modeLanes (portMode s (p - d)))

/-! ### The binding of a flow (R436, R456) -/

/-- The flows bound to other cells than `n`, with their configurations. -/
def otherFlows (s : State) (n : Nat) : List (FlowDesc × CellCfg) :=
  (s.net.flows.filter (fun e => e.2.cell ≠ n)).map (fun e => (flowDesc s e.1, (getCell s e.2.cell).cfg))

/-- A flow's load in bits per second (R436). -/
def flowBps (d : FlowDesc) (g : CellCfg) : Nat :=
  let w := max d.dlW d.ulW
  max g.tx g.rx * g.prb * (if w = 0 then 384 else 24 * w + 8) * 14000 * 2 ^ g.mu * 101 / 100

/-- Symbol memory of a flow (R436). -/
def flowSram (d : FlowDesc) (g : CellCfg) : Nat := 2 * g.tx * g.prb * prbBytes d.dlW

/-- PRBs that one U-plane message carries at most (R438). -/
def prbsPerMsg (w : Nat) : Nat := 8000 / prbBytes w

/-- Wire bytes of one U-plane symbol of a flow (R456). -/
def flowWire (d : FlowDesc) (g : CellCfg) : Nat :=
  let head := 56 + (if d.tagged then 4 else 0) + (if d.udp then (if d.ipv6 then 48 else 28) else 0)
  g.tx * (g.prb * prbBytes d.dlW + ceilDiv g.prb (prbsPerMsg d.dlW) * head)

/-- Whether every granule of a range is the partition's, owned, in device bias (R390, R436). -/
def devOwned (s : State) (p a n : Nat) : Bool :=
  (piecesOf 16384 a n).all (fun g =>
    g < 8781824 && !mget false s.mem.fenced g && entOwner (ownNow s g) = p && entState (ownNow s g) = 1 && !entBias (ownNow s g))

/-- The times of a descriptor (R436). -/
def flowTimes (s : State) (d : FlowDesc) (g : CellCfg) : Bool :=
  let lead := getF s (schReg d.part 0x204) 0 10 * 1000
  let top := g.dlAhead * slotNs g.mu + lead
  d.minUp + 2000 ≤ d.maxUp && d.maxUp + 10000 ≤ d.minCp true && d.minCp true < d.maxCp true && d.minCp false < d.maxCp false
    && d.ta4Min < d.ta4Max && d.maxCp true + 20000 ≤ top && d.maxCp false + 20000 ≤ top && d.ta4Max ≤ slotNs g.mu

/-- The loads of one port with the new flow among `l` (R436, R456). -/
def portTakes (s : State) (l : List (FlowDesc × CellCfg)) (p : Nat) : Bool :=
  let on := l.filter (fun x => x.1.ports.contains p)
  let load := on.foldl (fun a x => a + flowBps x.1 x.2) 0
  let wire := on.foldl (fun a x => a + flowWire x.1 x.2) 0 + 65536 + 9236
  let win := on.foldl (fun a x => min a (x.1.maxUp - x.1.minUp)) (2 ^ 32)
  portGbps s p ≠ 0 && !portConsumed s p && on.length ≤ 32 && load * 100 ≤ 97 * portGbps s p * 10 ^ 9 && wire * 8 ≤ win * portGbps s p

/-- Whether flow `f` may bind to cell `n` of a partition under a configuration (R436, R456). -/
def flowMayBind (s : State) (p n f : Nat) (g : CellCfg) : Bool :=
  let d := flowDesc s f
  let others := otherFlows s n
  let all := (d, g) :: others
  f < 512 && (match mfind s.net.flows f with | some x => x.cell = n | none => true) && d.ok (hasCap s 0x10)
    && d.part = p && d.frer = g.frer && flowTimes s d g
    && others.all (fun x => x.1.eaxc ≠ d.eaxc || !x.1.ports.any (fun q => d.ports.contains q))
    && devOwned s p d.dlBase (d.dlDepth * dlEntry g) && (d.prachBase = 0 || devOwned s p d.prachBase 524288)
    && d.ports.all (portTakes s all)
    && all.foldl (fun a x => a + flowSram x.1 x.2) 0 ≤ 28 * 2 ^ 20

/-- The lowest queue index of a port that no bound flow holds (R452, R453). -/
def freeQueue (s : State) (p : Nat) : Nat :=
  let used := s.net.flows.filterMap (fun e =>
    let d := flowDesc s e.1
    if d.portA = p then some e.2.qA else if d.frer ∧ d.portB = p then some e.2.qB else none)
  ((List.range 32).find? (fun i => !used.contains i)).getD 0

/-- `SRAM_USED` and `FLOWS_BOUND` follow the bound flows (R451). -/
def sluCounts (s : State) : State :=
  let sram := (s.net.flows.map (fun e => flowSram (flowDesc s e.1) (getCell s e.2.cell).cfg)).foldl (· + ·) 0
  setW (setW s (reg .slu 0 0x100) (BitVec.ofNat 32 (ceilDiv sram 1024))) (reg .slu 0 0x104) (BitVec.ofNat 32 s.net.flows.length)

/-- A flow's counters restart (R437). -/
def flowRestart (s : State) (f : Nat) : State :=
  [0x100, 0x104, 0x108, 0x10C, 0x110, 0x114, 0x118, 0x11C, 0x120, 0x124, 0x128, 0x130, 0x134, 0x138, 0x13C].foldl
    (fun s o => setW s (winKey f (reg .slu 2 o)) 0) s

/-- Bind flow `f` to cell `n`. -/
def flowBind (s : State) (n f : Nat) : State :=
  let d := flowDesc s f
  let x : Flow := ⟨n, 0, none, [], [], freeQueue s d.portA, if d.frer then freeQueue s d.portB else 0⟩
  flowRestart { s with net := { s.net with flows := mput s.net.flows f x } } f

/-- Unbind the flows of cell `n`; queued packets stay queued (R437, R467). -/
def flowUnbind (s : State) (n : Nat) : State :=
  sluCounts { s with net := { s.net with flows := s.net.flows.filter (fun e => e.2.cell ≠ n) } }

/-! ### Bolter shares (R422, R423) -/

/-- Ring sets bound to a partition. -/
def bolSets (s : State) (p : Nat) : List Nat :=
  (List.range 8).filter (fun i => getF s (reg .bol i 0x200) 31 1 = 1 && getF s (reg .bol i 0x200) 0 5 = p)

/-- The unit clocks per slot that the driver declared for a partition. -/
def slotWork (s : State) (p : Nat) : Nat := ((bolSets s p).map (fun i => (getW s (reg .bol i 0x228)).toNat)).foldl (· + ·) 0

/-- The bolter condition of R390. -/
def bolterTakes (s : State) (p mu : Nat) : Bool := 1024 * slotWork s p ≤ (getPart s p).desc.bolter * 18 * (1500000 / 2 ^ mu)

/-- D of R423 in ns. -/
def bolterNs (s : State) (p : Nat) : Nat :=
  ceilDiv ((ceilDiv (2 * slotWork s p * 1024) ((getPart s p).desc.bolter * 18) + 21500) * 2) 3

/-! ### What a phase waits on (R196, R402) -/

/-- LOCALs that the `sync.wait` records of segment `seg` of a table name. -/
def segWaits (t : List Rec) (seg : Nat) : List Nat :=
  ((t.zipIdx).filter (fun p => segOf t p.2 = seg && recOp p.1 = 4)).map (fun p => syncLocal p.1)

/-- LOCALs that a phase waits on: in its miller code, and in the segments that this code starts; a segment whose number comes from
a register counts as any of its table. -/
def phaseWaits (m : Module) (ph : PhaseDecl) : List Nat :=
  let code := (m.code.take (ph.stop / 8)).drop (ph.start / 8)
  code.flatMap (fun w =>
    if mMop w = 0x35 then [mLocal w]
    else if mMop w = 0x32 then
      let t := m.table (mFn w % 8)
      if mRa w = 0 then segWaits t (mImm w).toNat else (List.range (segCount t)).flatMap (segWaits t)
    else [])

/-! ### Admission (R401, R402) -/

/-- What one instance brings to admission: its serving context, its report and timing, and the configurations of the cells it
serves. -/
structure AdmInst where
  ctx : Nat
  cells : List CellCfg
deriving DecidableEq, Repr

/-- TA4_MAX of the flow of a cell. -/
def cellTa4 (s : State) (g : CellCfg) : Nat := (flowDesc s g.flow).ta4Max

/-- `ul_ready_ns` of a symbol for an instance: the latest of its cells. -/
def instReady (s : State) (cells : List CellCfg) (sym : Nat) : Nat :=
  cells.foldl (fun a g => max a (ulReady g.mu (cellTa4 s g) sym)) 0

/-- `ext_ready_ns`: the latest bound of a sluice or bolter signal that the phase waits on. -/
def extReady (s : State) (c : Ctx) (cells : List CellCfg) (ph : PhaseDecl) (t : Nat) : Nat :=
  (phaseWaits (ctxModule s c) ph).foldl (fun a loc =>
    match mfind c.syncs loc with
    | some (.obj n) =>
      let a := cells.foldl (fun a g => if g.flagObj ≤ n ∧ n < g.flagObj + 14 then max a (ulReady g.mu (cellTa4 s g) (n - g.flagObj)) else a) a
      if (bolSets s c.part).any (fun i => [0, 1].any (fun r => getF s (reg .bol i (0x21C + 4 * r)) 16 16 = n
          && getF s (reg .bol i 0x224) r 1 = 1)) then max a (t + bolterNs s c.part) else a
    | _ => a) t

/-- The phases of an instance in order: their finish times, or none once one misses its deadline. -/
def phasesFit (s : State) (c : Ctx) (cells : List CellCfg) (w : Nat) : List PhaseDecl → List Nat → Bool
  | [], _ => true
  | ph :: r, fin =>
    let t := match ph.trigger with | 0 => 0 | 1 => instReady s cells ph.targ | _ => fin.getD ph.targ 0
    let f := max t (extReady s c cells ph t) + 2 * w
    decide (f ≤ ph.deadline) && phasesFit s c cells w r (fin ++ [f])

/-- The factor of a context in split mode (R401). -/
def splitFactor (s : State) (c : Ctx) : Nat :=
  match c.place with
  | .leaf site _ => if (getMill s site).split then 2 else 1
  | .saved => 1

/-- SLOT_CLOCKS × f × (1,000 + MARGIN_PM) of a context. -/
def instLoad (s : State) (c : Ctx) : Nat :=
  (getLaunch s c.launch).sizes.slotClocks * splitFactor s c * (1000 + getF s (schReg c.part 0x200) 0 10)

/-- The timing check of one instance (R402). -/
def instFits (s : State) (x : AdmInst) : Bool :=
  let c := getCtx s x.ctx
  match (ctxModule s c).timing with
  | none => false
  | some tm =>
    let l := instLoad s c
    decide (l ≤ 1500000 / 2 ^ tm.mu * 1000) && phasesFit s c x.cells (ceilDiv l 1500) tm.phases []

/-- Whether a context runs on a mill of its partition, among `mills`, that is not lent out (R401). -/
def onOwnMill (s : State) (c : Ctx) (mills : Nat) : Bool :=
  match c.place with
  | .leaf site _ => match siteMill s site with
    | some n => bitAt mills n && !isLent s n
    | none => false
  | .saved => false

/-- The cells of a partition as (serving context, configuration), with cell `n` replaced by a new one. -/
def admCells (s : State) (p : Nat) (new : Option (Nat × Nat × CellCfg)) : List (Option Nat × CellCfg) :=
  let skip := match new with | some (n, _, _) => n | none => 512
  let old := (s.cells.filter (fun e => e.2.part = p && e.1 ≠ skip)).map (fun e => (e.2.ctx, e.2.cfg))
  match new with
  | some (_, cid, g) => old ++ [(some cid, g)]
  | none => old

/-- Admission of the cells of a partition (R401) with its mills at `mills`. -/
def admits (s : State) (p mills : Nat) (cells : List (Option Nat × CellCfg)) : Bool :=
  let d := (getPart s p).desc
  let ctxs := (cells.filterMap (fun x => x.1)).eraseDups
  d.radio && (setBitsOf 64 d.grn).any (fun i => mget 63 s.grn.dedic i = p)
    && (cells.foldl (fun a x => a + ceilDiv (x.2.prb * max x.2.tx x.2.rx * 2 ^ x.2.mu) 2184) 0) ≤ d.memFloor
    && ctxs.all (fun c => onOwnMill s (getCtx s c) mills
        && instFits s ⟨c, (cells.filter (fun x => x.1 = some c)).map (fun x => x.2)⟩)

/-- `CELLS_BOUND` and `LOAD_PM` of a partition follow its cells (R408). -/
def radioCounts (s : State) (p : Nat) : State :=
  let mine := s.cells.filter (fun e => e.2.part = p)
  let loads := mine.filterMap (fun e => e.2.ctx.map (fun c =>
    instLoad s (getCtx s c) / (1500000 / 2 ^ e.2.cfg.mu)))
  let s := setW s (schReg p 0x208) (BitVec.ofNat 32 mine.length)
  setW s (schReg p 0x20C) (BitVec.ofNat 32 (loads.foldl max 0))

end Sys2Proof.Machine
end

