-- ==== Sys2Proof/Machine/Sluice.lean ====
section
/-! DEFINITION. The sluice (chapter 16): messages to the radio unit, the downlink latch (R397, R445, R446), C-plane release (R440),
received uplink sections (R399, R447) and the close of an uplink window (R398, R447). -/
namespace Sys2Proof.Machine

/-! ### Queues and messages -/

def getQueue (s : State) (q : Nat) : TxQueue := mget TxQueue.empty s.net.queues q
def setQueue (s : State) (q : Nat) (x : TxQueue) : State := { s with net := { s.net with queues := mset TxQueue.empty s.net.queues q x } }
def getPort (s : State) (p : Nat) : Port := mget Port.off s.net.ports p
def setPort (s : State) (p : Nat) (x : Port) : State := { s with net := { s.net with ports := mset Port.off s.net.ports p x } }

/-- Queue a frame. -/
def pushFrame (s : State) (q : Nat) (f : Frame) : State := let x := getQueue s q; setQueue s q { x with frames := x.frames ++ [f] }

/-- The source address of a port (R438). -/
def portMac (s : State) (p : Nat) : List Byte := toBE 6 ((getD64 s (reg .eth p 0x108)).toNat % 2 ^ 48)

/-- The frame that carries an eCPRI message of a flow out of a port (R433, R438). -/
def flowFrame (s : State) (d : FlowDesc) (p : Nat) (rtag : Option Nat) (msg : List Byte) : List Byte :=
  let l2 := d.ruMac ++ portMac s p ++ (if d.tagged then toBE 2 0x8100 ++ toBE 2 d.vlan else [])
    ++ (match rtag with | some n => toBE 2 0xF1C1 ++ [0, 0] ++ toBE 2 (n % 65536) | none => [])
  padFrame (l2 ++
    (if !d.udp then toBE 2 0xAEFE ++ msg
     else if d.ipv6 then toBE 2 0x86DD ++ ip6Bytes d.duIp d.ruIp d.udpPort msg
     else toBE 2 0x0800 ++ ip4Bytes d.duIp d.ruIp d.udpPort msg))

/-- A register of SLU page 2 as it stands for a flow. -/
def sluReg (f off : Nat) : Nat := winKey f (reg .slu 2 off)

/-- Queue one eCPRI message of flow `f`: type, direction, eAxC offset, body, its window, and the downlink symbol it carries. With FRER
the frame goes to both ports under one sequence number (R433); the sequence ID is kept per eAxC and direction (R438). -/
def sendMsg (s : State) (f typ : Nat) (dl : Bool) (ax : Nat) (body : List Byte) (win : Nat × Nat) (sym : Option (Nat × Nat × Nat)) : State :=
  match mfind s.net.flows f with
  | none => s
  | some x =>
    let d := flowDesc s f
    let key := 2 * ax + b2n dl
    let seq := mget 0 x.txSeq key
    let y := { x with txSeq := mset 0 x.txSeq key ((seq + 1) % 256), rtag := if d.frer then (x.rtag + 1) % 65536 else x.rtag }
    let s := { s with net := { s.net with flows := mput s.net.flows f y } }
    let s := bump64 s (sluReg f (if typ = 0 then 0x130 else 0x138)) 1
    let msg := ecpriBytes typ (d.eaxc + ax) seq body
    let cls := if typ = 0 then 32 else 0
    d.ports.foldl (fun s p =>
      let q := 96 * p + cls + (if p = d.portA then x.qA else x.qB)
      pushFrame s q ⟨flowFrame s d p (if d.frer then some x.rtag else none) msg, some win, nowNs s, sym, none⟩) s

/-! ### Records and pieces (R395, R440) -/

/-- Whether a record is of a downlink channel. -/
def SlotRec.dl (r : SlotRec) : Bool := 5 ≤ r.kind && r.kind ≤ 8

/-- Whether a record is of an uplink channel other than PRACH. -/
def SlotRec.ul (r : SlotRec) : Bool := r.kind = 1 || r.kind = 2 || r.kind = 4

/-- Whether a record covers a symbol. -/
def SlotRec.covers (r : SlotRec) (sym : Nat) : Bool := r.symStart ≤ sym && sym < r.symStart + r.symCount

/-- The sections of a record: piece, first PRB, count, and the numPrbc sent. -/
def recPieces (prb : Nat) (r : SlotRec) : List (Nat × Nat × Nat × Nat) :=
  if r.prbCount = prb then [(0, r.prbStart, r.prbCount, 0)]
  else if 255 < r.prbCount then [(0, r.prbStart, 255, 255), (1, r.prbStart + 255, r.prbCount - 255, r.prbCount - 255)]
  else [(0, r.prbStart, r.prbCount, r.prbCount)]

/-- The bytes of one section of a C-plane message (R440). -/
def cSection (d : FlowDesc) (r : SlotRec) (i : Nat) (p : Nat × Nat × Nat × Nat) : List Byte :=
  let head := sectHead (2 * i + p.1) p.2.1 p.2.2.2 ++ toBE 2 (0xFFF * 16 + r.symCount)
  if r.kind = 9 then head ++ [0, 0]
  else if r.kind = 3 then head ++ toBE 2 (r.beam % 2 ^ 15) ++ toBE 3 d.prachFreq ++ [0]
  else if bitAt r.flags 1 ∧ (r.kind = 1 ∨ r.kind = 5) then head ++ toBE 2 (r.rnti % 2 ^ 15)
  else head ++ toBE 2 (r.beam % 2 ^ 15)

/-- The C-plane message of a record in one direction (R395, R440). -/
def cMessage (g : CellCfg) (d : FlowDesc) (x : CellSlot) (r : SlotRec) (i : Nat) (dl : Bool) : List Byte :=
  let ps := recPieces g.prb r
  let w := if dl then d.dlW else d.ulW
  let body := ps.flatMap (cSection d r i)
  let num := toLE 1 ps.length
  if r.kind = 9 then
    oranHead dl 0 x.sfn x.slotNo g.mu r.symStart ++ num ++ [0, 0, 0, Config.guardStructure g.mu, 0, 0, 0] ++ body
  else if r.kind = 3 then
    let (fi, t, fs, cp) := Config.prachFields g.mu r.param
    oranHead dl fi.toNat x.sfn x.slotNo g.mu r.symStart ++ num ++ [3] ++ toBE 2 t.toNat ++ [fs] ++ toBE 2 cp.toNat ++ [compHdr w] ++ body
  else
    let typ := if bitAt r.flags 1 ∧ (r.kind = 1 ∨ r.kind = 5) then 5 else 1
    oranHead dl 0 x.sfn x.slotNo g.mu r.symStart ++ num ++ [typ, compHdr w, 0] ++ body

/-! ### CPLANE_RELEASE (R440, R455) -/

/-- The window of a C-plane message. -/
def cWindow (s : State) (c : Cell) (d : FlowDesc) (k sym : Nat) (dl : Bool) : Nat × Nat :=
  let t := symTime s c k sym
  ((t + 2 ^ 64 - d.maxCp dl) % 2 ^ 64, (t + 2 ^ 64 - d.minCp dl) % 2 ^ 64)

/-- Queue the messages of a record in one direction: one per stream. -/
def cSend (s : State) (c : Cell) (k i : Nat) (r : SlotRec) (dl : Bool) : State :=
  let d := flowDesc s c.cfg.flow
  let body := cMessage c.cfg d (c.slot k) r i dl
  let ax0 := if r.kind = 3 then 8 else 0
  (List.range (if dl then c.cfg.tx else c.cfg.rx)).foldl (fun s a =>
    sendMsg s c.cfg.flow 2 dl (ax0 + a) body (cWindow s c d k r.symStart dl) none) s

/-- Directions in which a record sends C-plane messages. -/
def recDirs (r : SlotRec) : List Bool := if r.kind = 9 then [true, false] else [r.dl]

/-- The C-plane of record `i` of slot `k`, once its window opens. -/
def cplaneRelease (s : State) (n k i : Nat) : State :=
  let c := getCell s n
  let x := c.slot k
  match x.recs[i]? with
  | none => s
  | some r =>
    let d := flowDesc s c.cfg.flow
    if !cellBound s n || !x.staged || bitAt x.cplane i || !(recDirs r).any (fun dl => reached (nowNs s) (cWindow s c d k r.symStart dl).1) then s
    else
      let s := setCell s n (c.setSlot k { x with cplane := x.cplane ||| 2 ^ i })
      (recDirs r).foldl (fun s dl => cSend s c k i r dl) s

def execCplaneRelease (cell : Fin 512) (k : Word) (i : Fin 1024) (s : State) : Res := done (cplaneRelease s cell k.toNat i)

/-! ### DL_LATCH (R397, R445, R446) -/

/-- The messages of one section of one stream: PRB ranges of at most 8,000 B, and of at most 255 PRBs where the whole carrier is not
sent. -/
def uSplit (per num all : Nat) : Nat → Nat → Nat → List (Nat × Nat × Nat)
  | 0, _, _ => []
  | fuel + 1, start, left =>
    if left = 0 then []
    else if num = all ∧ left = num ∧ num ≤ per then [(start, num, 0)]
    else
      let n := min left (min per 255)
      (start, n, n) :: uSplit per num all fuel (start + n) (left - n)

/-- The bytes of a downlink entry that a run of PRBs of one stream occupies. -/
def dlRead (s : State) (c : Cell) (d : FlowDesc) (j : Nat) (a start n : Nat) (err : Option Bool) : Option (List Byte) × Bool × State :=
  let base := d.dlBase + j % d.dlDepth * dlEntry c.cfg + a * c.cfg.prb * 72 + 72 * start
  match devRead s c.part base (72 * n) true err with
  | (.ok l, s) => (some l, false, s)
  | (.denied, s) => (none, false, s)
  | (.bad, s) => (none, true, s)

/-- Send one message of a section: its PRBs compressed, or zeros when the symbol is not ready or its read fails. -/
def uSend (s : State) (n : Nat) (k sym a id : Nat) (ready : Bool) (m : Nat × Nat × Nat) : State :=
  let c := getCell s n
  let d := flowDesc s c.cfg.flow
  let (data, bad, s) := if ready then dlRead s c d (14 * k + sym) a m.1 m.2.1 none else (none, false, s)
  let x := (getCell s n).slot k
  let s := if bad then setCell s n ((getCell s n).setSlot k { x with damaged := true }) else s
  let run := match data with
    | some l => (chunksOf 72 m.2.1 l).flatMap (fun b => prbOut d.dlW (cfxParts b))
    | none => List.replicate (m.2.1 * prbBytes d.dlW) 0
  let body := oranHead true 0 x.sfn x.slotNo c.cfg.mu sym ++ sectHead id m.1 m.2.2 ++ run
  let t := symTime s c k sym
  sendMsg s c.cfg.flow 0 true a body ((t + 2 ^ 64 - d.maxUp) % 2 ^ 64, (t + 2 ^ 64 - d.minUp) % 2 ^ 64) (some (n, k, sym))

/-- The latch time of a downlink symbol (R445). -/
def latchTime (s : State) (c : Cell) (k sym : Nat) : Nat :=
  (symTime s c k sym + 2 ^ 64 - (flowDesc s c.cfg.flow).maxUp - 10000) % 2 ^ 64

/-- Whether downlink symbol `j` of a cell is ready (R397, R407). -/
def dlReady (s : State) (c : Cell) (j : Nat) : Bool :=
  c.ctx.isSome && decide (0 ≤ ((getObj s c.cfg.dlObj).value - BitVec.ofNat 32 (j + 1)).toInt)

/-- The downlink sections that cover a symbol: record index with record. -/
def dlSections (x : CellSlot) (sym : Nat) : List (SlotRec × Nat) := (x.recs.zipIdx).filter (fun p => p.1.dl && p.1.covers sym)

/-- The latch of a downlink symbol: readiness is decided, and its packets are queued; a symbol that no section covers sends nothing. -/
def dlLatch (s : State) (n k sym : Nat) : State :=
  let c := getCell s n
  let x := c.slot k
  if !cellBound s n || !x.staged || bitAt x.latched sym || !reached (nowNs s) (latchTime s c k sym) then s
  else
    let ready := dlReady s c (14 * k + sym)
    let secs := dlSections x sym
    let fill := !ready && !secs.isEmpty
    let s := setCell s n (c.setSlot k { x with
      latched := x.latched ||| 2 ^ sym
      ready := if ready then x.ready ||| 2 ^ sym else x.ready
      left := if secs.isEmpty then x.left ||| 2 ^ sym else x.left
      dlFill := if fill then x.dlFill + 1 else x.dlFill })
    let s := if fill then bump64 s (schReg c.part 0x238) 1 else s
    let d := flowDesc s c.cfg.flow
    secs.foldl (fun s p =>
      (recPieces c.cfg.prb p.1).foldl (fun s q =>
        (List.range c.cfg.tx).foldl (fun s a =>
          (uSplit (prbsPerMsg d.dlW) q.2.2.1 c.cfg.prb 16 q.2.1 q.2.2.1).foldl (fun s m =>
            uSend s n k sym a (2 * p.2 + q.1) ready m) s) s) s) s

def execDlLatch (cell : Fin 512) (k : Word) (sym : Fin 14) (upset : List (Nat × Nat)) (s : State) : Res :=
  done (dlLatch (upsetLines s upset) cell k.toNat sym)

/-! ### The uplink ring (R398) -/

/-- Whether the entry of uplink symbol `j` is released. -/
def ulReleased (s : State) (c : Cell) (j : Nat) : Bool :=
  decide (0 ≤ ((getObj s c.cfg.relObj).value - (BitVec.ofNat 32 (j + 1) - BitVec.ofNat 32 c.cfg.ulRing)).toInt)

/-- Where the entry of uplink symbol `j` lies in the serving context's data memory. -/
def ulBase (c : Cell) (j : Nat) : Nat := c.cfg.ulOfs + j % c.cfg.ulRing * ulEntry c.cfg

/-- Write bytes of the uplink ring of a cell. -/
def ulWrite (s : State) (c : Cell) (a : Nat) (l : List Byte) : State :=
  match c.ctx with
  | some cid => setCtx s cid ((getCtx s cid).dmemWrite a l)
  | none => s

/-- Key of a received PRB of a slot. -/
def gotKey (sym stream prb : Nat) : Nat := sym * 8192 + stream * 512 + prb

/-- Whether an uplink channel of the slot requests a PRB of a symbol. -/
def prbAsked (x : CellSlot) (sym prb : Nat) : Bool :=
  x.recs.any (fun r => r.ul && r.covers sym && r.prbStart ≤ prb && prb < r.prbStart + r.prbCount)

/-- Where a PRB of a PRACH section lies (R447). -/
def prachAddr (d : FlowDesc) (k a i num prb : Nat) : Nat := d.prachBase + k % 4 * 131072 + a * 16384 + 6 * (i * 12 * num + 12 * prb)

/-! ### Received sections (R399, R447) -/

/-- Count a packet dropped as late (R399, R407). -/
def ulLate (s : State) (n k : Nat) : State :=
  let c := getCell s n
  let x := c.slot k
  let s := setCell s n (c.setSlot k { x with ulDrop := x.ulDrop + 1 })
  bump64 (bump32 s (sluReg c.cfg.flow 0x108) 1) (schReg c.part 0x228) 1

/-- The bytes of one PRB as it is written, and how many of its parts were clipped. -/
def prbWritten (w : Nat) (l : List Byte) : List Byte × Nat :=
  let p := prbIn w l
  (p.1.flatMap partBytes, p.2)

/-- One PRB of a section in a symbol's window: written, or counted as a duplicate (bit 0), unsolicited (bit 1) or written (bit 2). -/
def ulPrb (s : State) (n k sym a prb : Nat) (data : List Byte) : Nat × State :=
  let c := getCell s n
  let x := c.slot k
  if !prbAsked x sym prb then (2, s)
  else if mget false x.got (gotKey sym a prb) then (1, s)
  else
    let w := prbWritten (flowDesc s c.cfg.flow).ulW data
    let s := setCell s n (c.setSlot k { x with got := mset false x.got (gotKey sym a prb) true })
    let s := bump32 s (sluReg c.cfg.flow 0x118) w.2
    (4, ulWrite s c (ulBase c (14 * k + sym) + a * c.cfg.prb * 72 + 72 * prb) w.1)

/-- One PRB of a PRACH section, of record `r`. -/
def prachPrb (s : State) (n k sym a prb : Nat) (r : SlotRec) (data : List Byte) : Nat × State :=
  let c := getCell s n
  let d := flowDesc s c.cfg.flow
  let x := c.slot k
  if !r.covers sym || prb < r.prbStart || r.prbStart + r.prbCount ≤ prb || d.prachBase = 0 then (2, s)
  else if mget false x.got (gotKey sym (8 + a) prb) then (1, s)
  else
    let w := prbWritten d.ulW data
    let s := setCell s n (c.setSlot k { x with got := mset false x.got (gotKey sym (8 + a) prb) true })
    let s := bump32 s (sluReg c.cfg.flow 0x118) w.2
    (4, (devWrite s c.part (prachAddr d k a (sym - r.symStart) r.prbCount (prb - r.prbStart)) w.1 true none).2)

/-- One section of a message: its PRBs, then the counts of R447. -/
def ulSection (s : State) (n k sym ax : Nat) (early : Bool) (q : RxSect) : State :=
  let c := getCell s n
  let per := prbBytes (flowDesc s c.cfg.flow).ulW
  let r := ((c.slot k).recs[q.id / 2]?).filter (fun r => r.kind = 3)
  let (seen, s) := (List.range q.num).foldl (fun (acc : Nat × State) i =>
    let data := sliceB q.data (i * per) per
    let (m, s) := if ax < 8 then ulPrb acc.2 n k sym ax (q.start + i) data
      else match r with
        | some r => prachPrb acc.2 n k sym (ax - 8) (q.start + i) r data
        | none => (2, acc.2)
    (acc.1 ||| m, s)) (0, s)
  let f := c.cfg.flow
  let s := if bitAt seen 0 then bump32 s (sluReg f 0x110) 1 else s
  let s := if bitAt seen 1 then bump32 s (sluReg f 0x114) 1 else s
  let s := if bitAt seen 2 then bump64 s (sluReg f 0x100) 1 else s
  if bitAt seen 2 ∧ early then bump32 s (sluReg f 0x10C) 1 else s

/-- The slot of a cell that a received message names by frameId, subframeId and slotId: the latest staged one. -/
def rxSlot (c : Cell) (frame sf slot : Nat) : Option Nat :=
  (mkeys (fun _ x => x.staged && !x.missing && x.sfn % 256 = frame && x.slotNo / 2 ^ c.cfg.mu % 16 = sf && x.slotNo % 2 ^ c.cfg.mu = slot)
    c.slots).getLast?

/-- The last symbol whose window judges a message: of a PRACH section, the section's last (R447). -/
def judgeSym (x : CellSlot) (ax sym : Nat) (secs : List RxSect) : Nat :=
  if ax < 8 then sym
  else match secs.head?.bind (fun q => x.recs[q.id / 2]?) with
    | some r => if r.kind = 3 then r.symStart + r.symCount - 1 else sym
    | none => sym

/-- A U-plane message of flow `f` for eAxC offset `ax` (R399, R447). -/
def ulMessage (s : State) (f ax : Nat) (l : List Byte) : State :=
  match mfind s.net.flows f with
  | none => s
  | some x =>
    let n := x.cell
    let c := getCell s n
    let d := flowDesc s f
    let tag := beAt l 2 2
    let sym := tag % 64
    if bitAt (leAt l 0 1) 7 ∨ 14 ≤ sym then s
    else match rxSlot c (leAt l 1 1) (tag / 4096) (tag / 64 % 64) with
      | none => bump32 s (sluReg f 0x114) 1
      | some k =>
        let y := c.slot k
        let secs := parseSects c.cfg.prb (prbBytes d.ulW) 16 (l.drop 4)
        let j := judgeSym y ax sym secs
        let now := nowNs s
        let t := symTime s c k sym
        if c.ctx.isNone ∨ bitAt y.flags j ∨ !reached (symTime s c k j + d.ta4Max) now then ulLate s n k
        else if ax < 8 ∧ !ulReleased s c (14 * k + sym) then
          let s := setCell s n (c.setSlot k { y with damaged := true })
          ulLate s n k
        else
          let early := !reached now (t + d.ta4Min)
          secs.foldl (fun s q => ulSection s n k sym ax early q) s

/-! ### UL_WINDOW_CLOSE (R398, R399, R447) -/

/-- PRBs of a symbol and stream that were requested and not received. -/
def missedPrbs (c : Cell) (x : CellSlot) (sym a : Nat) : List Nat :=
  (List.range c.cfg.prb).filter (fun p => prbAsked x sym p && !mget false x.got (gotKey sym a p))

/-- Zeros and the erasure map of one stream of a symbol. -/
def eraseStream (s : State) (n k sym a : Nat) : Nat × State :=
  let c := getCell s n
  let miss := missedPrbs c (c.slot k) sym a
  let base := ulBase c (14 * k + sym)
  let s := miss.foldl (fun s p => ulWrite s c (base + a * c.cfg.prb * 72 + 72 * p) (List.replicate 72 0)) s
  (miss.length, ulWrite s c (base + c.cfg.rx * c.cfg.prb * 72 + 48 * a) (toLE 48 (maskOf miss)))

/-- PRBs of the PRACH sections that end with a symbol and were not received: stream, section symbol, PRB, record. -/
def missedPrach (c : Cell) (x : CellSlot) (sym : Nat) : List (Nat × Nat × Nat × SlotRec) :=
  (x.recs.filter (fun r => r.kind = 3 && r.symStart + r.symCount = sym + 1)).flatMap (fun r =>
    (List.range c.cfg.rx).flatMap (fun a =>
      (List.range r.symCount).flatMap (fun i =>
        ((List.range r.prbCount).filter (fun p => !mget false x.got (gotKey (r.symStart + i) (8 + a) (r.prbStart + p)))).map
          (fun p => (a, i, p, r)))))

/-- Zeros for the missed PRBs of PRACH sections. -/
def erasePrach (s : State) (n k sym : Nat) : Nat × State :=
  let c := getCell s n
  let d := flowDesc s c.cfg.flow
  let miss := if d.prachBase = 0 then [] else missedPrach c (c.slot k) sym
  (miss.length, miss.foldl (fun s m =>
    (devWrite s c.part (prachAddr d k m.1 m.2.1 m.2.2.2.prbCount m.2.2.1) (List.replicate 72 0) true none).2) s)

/-- The flag of an uplink symbol: one SET that sets bit k mod 32 and clears bit (k + 16) mod 32 (R398). -/
def raiseFlag (s : State) (c : Cell) (k sym : Nat) : State :=
  let v := (getObj s (c.cfg.flagObj + sym)).value
  signalExt s (c.cfg.flagObj + sym) true ((v ||| BitVec.ofNat 32 (2 ^ (k % 32))) &&& ~~~ BitVec.ofNat 32 (2 ^ ((k + 16) % 32)))

/-- The close of the window of an uplink symbol: missing PRBs become zeros with their map bits, then the flag is set. An orphaned
cell gets no data (R407). -/
def ulClose (s : State) (n k sym : Nat) : State :=
  let c := getCell s n
  let x := c.slot k
  let d := flowDesc s c.cfg.flow
  if !cellBound s n || !x.staged || bitAt x.flags sym || !reached (nowNs s) (symTime s c k sym + d.ta4Max) then s
  else
    let live := c.ctx.isSome
    let free := ulReleased s c (14 * k + sym)
    let asked := x.recs.any (fun r => r.ul && r.covers sym)
    let (lost, s) :=
      if live ∧ free then (List.range c.cfg.rx).foldl (fun (acc : Nat × State) a =>
        let (m, s) := eraseStream acc.2 n k sym a
        (acc.1 + m, s)) (0, s)
      else (0, s)
    let (lostP, s) := if live then erasePrach s n k sym else (0, s)
    let y := (getCell s n).slot k
    let s := setCell s n ((getCell s n).setSlot k { y with
      flags := y.flags ||| 2 ^ sym
      erased := y.erased + lost + lostP
      damaged := y.damaged || (live && !free && asked) })
    let s := bump64 s (schReg c.part 0x230) (lost + lostP)
    raiseFlag s c k sym

def execUlWindowClose (cell : Fin 512) (k : Word) (sym : Fin 14) (s : State) : Res := done (ulClose s cell k.toNat sym)

end Sys2Proof.Machine
end

