-- ==== Sys2Proof/Machine/Cells.lean ====
section
/-! DEFINITION. Slot work lists (R392 to R396), the configuration and removal of cells (R388 to R391), list deadlines (R396) and slot
status records (R406). -/
namespace Sys2Proof.Machine

/-! ### Submission entries of TYPE SLOT_LIST (R388) -/

/-- Act on the fetched SLOT_LIST entry of a slice that has a given KIND. The action pops the entry, or leaves it while its data have
not come. -/
def onSlotEntry (s : State) (sl kind : Nat) (act : State → Line → State) : State :=
  match (getRing s sl).entry with
  | some e => if entB e 0 = 4 ∧ entB e 16 = kind then act s e else s
  | none => s

/-- The entry ends with a completion entry. -/
def slotEnd (s : State) (sl : Nat) (e : Line) (status code : Nat) : State :=
  completeEntry (entryDone s sl) sl (entF e 8 8) status code

/-- The PASID of a slice. -/
def slPasid (s : State) (sl : Nat) : Nat := (getSlice s sl).pasid

/-! ### SLOT_WORK_LIST (R392 to R396) -/

/-- A record of a list (R394). -/
def recOf (l : List Byte) : SlotRec :=
  { kind := leAt l 0 1, flags := leAt l 1 1, rnti := leAt l 2 2, prbStart := leAt l 4 2, prbCount := leAt l 6 2, symStart := leAt l 8 1,
    symCount := leAt l 9 1, layers := leAt l 10 1, qm := leAt l 11 1, tbs := leAt l 12 4, harq := leAt l 16 1, rv := leAt l 17 1,
    bg := leAt l 18 1, dmrs := leAt l 20 2, beam := leAt l 22 2, tbOff := leAt l 24 4, nid := leAt l 28 2, param := leAt l 30 2 }

/-- Whether a record keeps to R394 and R395. -/
def recOk (g : CellCfg) (dlBytes : Nat) (l : List Byte) : Bool :=
  let r := recOf l
  1 ≤ r.kind && r.kind ≤ 9 && r.flags < 8 && 1 ≤ r.prbCount && r.prbStart ≤ 274 && r.prbStart + r.prbCount ≤ g.prb
    && r.symStart ≤ 13 && 1 ≤ r.symCount && r.symStart + r.symCount ≤ 14 && 1 ≤ r.layers && r.layers ≤ 4
    && [1, 2, 4, 6, 8].contains r.qm && r.harq ≤ 31 && r.rv ≤ 3 && leAt l 19 1 = 0 && r.dmrs < 2 ^ 14 && r.nid ≤ 1023
    && (if r.kind = 1 ∨ r.kind = 5 then 1 ≤ r.bg && r.bg ≤ 2 else r.bg = 0) && ([1, 2, 5, 6, 7].contains r.kind || r.tbs = 0)
    && (!r.dl || r.tbs = 0 || r.tbOff + ceilDiv r.tbs 8 ≤ dlBytes)

/-- Whether a header keeps to R393. -/
def headOk (n : Nat) (g : CellCfg) (bytes : Nat) (l : List Byte) : Bool :=
  leAt l 0 4 = 0x314C5753 && leAt l 4 2 = n && leAt l 6 1 = g.mu && leAt l 7 1 = 0 && leAt l 8 2 ≤ 1023
    && leAt l 10 1 < 10 * 2 ^ g.mu && leAt l 11 1 = 0 && leAt l 12 2 ≤ 1024 && leAt l 14 2 = 0 && leAt l 24 4 ≤ 458752
    && leAt l 28 4 = 0 && leAt l 48 16 = 0 && bytes = 64 + 32 * leAt l 12 2

/-- The number of the slot in progress, counted from the cell's start. -/
def slotsSince (s : State) (c : Cell) : Int := sext 64 ((nowNs s + 2 ^ 64 - c.cfg.start % 2 ^ 64) % 2 ^ 64) / (slotNs c.cfg.mu : Int)

/-- The list deadline of slot `k` (R396). -/
def listDeadline (s : State) (c : Cell) (k : Nat) : Nat :=
  (c.slotAt k + 2 ^ 64 - c.cfg.dlAhead * slotNs c.cfg.mu - getF s (schReg c.part 0x204) 0 10 * 1000) % 2 ^ 64

/-- Where slot `k` is staged (R392). -/
def stageOf (c : Cell) (k : Nat) : Nat := c.cfg.stage + k % 8 * 524288

/-- Write staged bytes for the cell's partition. -/
def stagePut (s : State) (c : Cell) (a : Nat) (l : List Byte) : State := (devWrite s c.part a l true none).2

/-- Read the transport blocks that the records name, in record order, each with what the host returns for it: blocks with their
offsets, a refused translation, or not all there yet. -/
def readTbs (pasid addr : Nat) : List SlotRec → List XferEnv → State → Option (Option (List (Nat × List Byte))) × State
  | [], _, s => (some (some []), s)
  | r :: rs, envs, s =>
    if !r.dl ∨ r.tbs = 0 then readTbs pasid addr rs envs s
    else
      let env := envs.head?.getD ⟨[], [], [], none⟩
      match hostRead s pasid (addr + r.tbOff) (ceilDiv r.tbs 8) env.ats env.data with
      | (.ok l, s) =>
        match readTbs pasid addr rs (envs.drop 1) s with
        | (some (some t), s) => (some (some ((r.tbOff, l) :: t)), s)
        | x => x
      | (.refused, s) => (some none, s)
      | (.wait, s) => (none, s)

/-- LIST_OBJ rises for each slot, in slot order, once it and every earlier one are staged (R392 step 4). -/
def raiseLists : Nat → Nat → State → State
  | 0, _, s => s
  | fuel + 1, n, s =>
    let c := getCell s n
    if (c.slot c.raised).staged then
      raiseLists fuel n (signalExt (setCell s n { c with raised := c.raised + 1 }) c.cfg.listObj false 1)
    else s

/-- Note slot `k` staged. -/
def stageSlot (s : State) (n k : Nat) (x : CellSlot) : State :=
  let c := getCell s n
  raiseLists (c.slots.length + 1) n (setCell s n (c.setSlot k x))

/-- A list that has arrived: checked under R396, staged, counted. -/
def takeList (s : State) (sl : Nat) (e : Line) (n : Nat) (l : List Byte) (tbs : List XferEnv) : State :=
  let c := getCell s n
  let rs := (chunksOf 32 1024 (l.drop 64))
  match (if headOk n c.cfg l.length (l.take 64) ∧ rs.all (recOk c.cfg (leAt l 24 4)) then c.slotOf (leAt l 16 8) else none) with
  | none => slotEnd s sl e 3 0
  | some k =>
    let past := match c.stop with | some z => decide (z ≤ k) | none => false
    if past then slotEnd s sl e 5 0
    else if slotsSince s c + 4 < (k : Int) ∨ (c.slot k).staged ∨ !reached (listDeadline s c k) (nowNs s) then slotEnd s sl e 3 0
    else
      match readTbs (slPasid s sl) (leAt l 32 8) (rs.map recOf) tbs s with
      | (none, _) => s
      | (some none, s) => ringXlate s sl
      | (some (some blocks), s) =>
        let s := stagePut s c (stageOf c k) l
        let s := blocks.foldl (fun s b => stagePut s c (stageOf c k + 65536 + b.1) b.2) s
        let x := (getCell s n).slot k
        stageSlot (entryDone s sl) n k { x with
          staged := true, sfn := leAt l 8 2, slotNo := leAt l 10 1, recs := rs.map recOf, aux := some (entF e 8 8, entF e 32 8) }

/-- A KIND 0 entry of slice `sl`. -/
def slotList (s : State) (sl : Nat) (env : XferEnv) (tbs : List XferEnv) : State :=
  onSlotEntry s sl 0 (fun s e =>
    let n := entF e 18 2
    let bytes := entF e 20 4
    let c := getCell s n
    if 512 ≤ n ∨ bytes < 64 ∨ 64 + 32 * 1024 < bytes ∨ bytes % 32 ≠ 0 then slotEnd s sl e 3 0
    else if !cellBound s n ∨ c.slice ≠ sl ∨ c.ctx.isNone then slotEnd s sl e 5 0
    else match hostRead s (slPasid s sl) (entF e 24 8) bytes env.ats env.data with
      | (.wait, _) => s
      | (.refused, s) => ringXlate s sl
      | (.ok l, s) => takeList s sl e n l tbs)

def execSlotWorkList (n : BitVec 13) (env : XferEnv) (tbs : List XferEnv) (s : State) : Res := done (slotList s n.toNat env tbs)

/-! ### CONFIGURE_CELL (R389, R390) -/

/-- A configuration record (R389). -/
def cfgOf (l : List Byte) : CellCfg :=
  { mu := leAt l 0 1, fr := leAt l 1 1, prb := leAt l 2 2, tx := leAt l 4 1, rx := leAt l 5 1, dlAhead := leAt l 6 1, ulRing := leAt l 7 1,
    tag := leAt l 8 8, inst := leAt l 16 4, ulOfs := leAt l 20 4, start := leAt l 24 8, stage := leAt l 32 8, listObj := leAt l 40 2,
    dlObj := leAt l 42 2, relObj := leAt l 44 2, flagObj := leAt l 46 2, flow := leAt l 48 2, frer := bitAt (leAt l 50 1) 0 }

/-- The occupied width in kHz fits the limits of R386 at a numerology and frequency range. -/
def widthOk (g : CellCfg) : Bool :=
  let khz := g.prb * 12 * 15 * 2 ^ g.mu
  match g.mu, g.fr with
  | 0, 1 => khz ≤ 50000
  | 1, 1 => khz ≤ 100000
  | 2, 1 => khz ≤ 100000
  | 2, 2 => khz ≤ 200000
  | 3, 2 => khz ≤ 400000
  | _, _ => false

/-- Whether the fields keep to R386 and R389. -/
def cfgFields (l : List Byte) : Bool :=
  let g := cfgOf l
  widthOk g && 1 ≤ g.prb && g.prb ≤ 275 && 1 ≤ g.tx && g.tx ≤ 8 && 1 ≤ g.rx && g.rx ≤ 8 && 1 ≤ g.dlAhead && g.dlAhead ≤ 2
    && 2 ≤ g.ulRing && g.ulRing ≤ 14 && g.ulOfs % 4096 = 0 && g.stage % 2097152 = 0 && leAt l 50 1 < 2 && leAt l 51 77 = 0

/-- Whether a fantail time is a slot boundary of a partition (R303). -/
def isBoundary (s : State) (p t : Nat) : Bool :=
  let d := (getPart s p).desc
  sext 64 ((t + 2 ^ 64 - d.slot0 % 2 ^ 64) % 2 ^ 64) % (slotNs d.mu : Int) = 0

/-- The context that a configuration names: a live instance of a live RADIO launch of the slice (R390). -/
def servingCtx (s : State) (sl : Nat) (g : CellCfg) : Option Nat :=
  match s.sched.launches.find? (fun e => e.2.slice = sl && e.2.tag = g.tag && bitAt e.2.modl.flags 0 && decide (g.inst < e.2.instances)) with
  | none => none
  | some l => (mkeys (fun _ c => c.launch = l.1 && c.inst = g.inst && !c.killed) s.sched.ctxs).head?

/-- Objects that PRIVATE or SHARED declarations hold (R179). -/
def declaredObj (s : State) (n : Nat) : Bool :=
  s.sched.ctxs.any (fun e => (privateObjs (ctxModule s e.2) e.2).contains n)
    || s.sched.launches.any (fun e => e.2.shared.any (fun q => q.2 = n))
    || s.sched.loads.any (fun e => match e.2.plan with
        | some p => p.shared.any (fun q => q.2 = n) || p.priv.any (fun m => m.any (fun q => q.2 = n))
        | none => false)

/-- Whether an object may serve a cell as type `t` (R390). -/
def objMayServe (s : State) (p : Nat) (t : ObjType) (n : Nat) : Bool :=
  n < 65536 && objOwner s n = p && ((getObj s n).typ = .none || (getObj s n).typ = t) && !declaredObj s n

/-- The objects of a cell. -/
def CellCfg.barriers (g : CellCfg) : List Nat := [g.listObj, g.dlObj, g.relObj]
def CellCfg.flags (g : CellCfg) : List Nat := (List.range 14).map (fun i => g.flagObj + i)

/-- The status and code with which a configuration ends: (0, 0) when it is accepted (R390). -/
def cfgVerdict (s : State) (sl n : Nat) (l : List Byte) : Nat × Nat :=
  let g := cfgOf l
  let p := (getSlice s sl).part
  let c := getCell s n
  let cid := servingCtx s sl g
  let muOk := match cid with
    | some i => (match (ctxModule s (getCtx s i)).timing with | some tm => tm.mu = g.mu | none => true)
    | none => true
  if !cfgFields l ∨ g.mu ≠ (getPart s p).desc.mu ∨ !muOk ∨ !isBoundary s p g.start ∨ !reached g.start (nowNs s + 2000000) then (3, 0)
  else match cid with
    | none => (5, 0)
    | some i =>
      let x := getCtx s i
      let free := !cellBound s n || (c.ctx.isNone && c.part = p)
      let room := match (ctxModule s x).timing with
        | some tm => decide ((cellsOf s i).length < tm.cells)
        | none => false
      if !isRadio s p ∨ !free ∨ !room then (5, 0)
      else if !g.barriers.all (objMayServe s p .barrier) ∨ !g.flags.all (objMayServe s p .flag) ∨ !devOwned s p g.stage 4194304 then (5, 0)
      else if dmemSize s x < g.ulOfs + g.ulRing * ulEntry g then (3, 0)
      else if !flowMayBind s p n g.flow g ∨ !bolterTakes s p g.mu then (1, 0x60)
      else if !admits s p (getPart s p).mills (admCells s p (some (n, i, g))) then (1, 0x60)
      else (0, 0)

/-- Bind a cell (R390): its objects, its flow, its context's first slot. -/
def cellBind (s : State) (sl n : Nat) (g : CellCfg) (cid : Nat) : State :=
  let p := (getSlice s sl).part
  let s := g.barriers.foldl (fun s o => setObj s o ⟨.barrier, 0, 1, 0⟩) s
  let s := g.flags.foldl (fun s o => setObj s o ⟨.flag, 0, 0, 0⟩) s
  let s := flowUnbind s n
  let x := getCtx s cid
  let s := setCell s n { part := p, slice := sl, launch := x.launch, ctx := some cid, cfg := g, slots := [], stop := none, raised := 0, reported := 0 }
  let first := match x.radioFrom with
    | none => some g.start
    | some t => if x.phaseCnt.isEmpty ∧ reached t g.start then some g.start else some t
  let s := setCtx s cid { x with radioFrom := first }
  radioCounts (sluCounts (flowBind s n g.flow)) p

/-- A KIND 1 entry of slice `sl`. -/
def configureCell (s : State) (sl : Nat) (env : XferEnv) : State :=
  onSlotEntry s sl 1 (fun s e =>
    let n := entF e 18 2
    if 512 ≤ n ∨ entF e 20 4 ≠ 128 ∨ entF e 32 8 ≠ 0 then slotEnd s sl e 3 0
    else match hostRead s (slPasid s sl) (entF e 24 8) 128 env.ats env.data with
      | (.wait, _) => s
      | (.refused, s) => ringXlate s sl
      | (.ok l, s) =>
        let v := cfgVerdict s sl n l
        match v.1, servingCtx s sl (cfgOf l) with
        | 0, some cid => slotEnd (cellBind s sl n (cfgOf l) cid) sl e 0 0
        | _, _ => slotEnd s sl e v.1 v.2)

def execConfigureCell (n : BitVec 13) (env : XferEnv) (s : State) : Res := done (configureCell s n.toNat env)

/-! ### REMOVE_CELL, CELL_REMOVE_APPLY (R391) -/

/-- A cell context becomes free: its objects return to NONE and its flow unbinds. -/
def cellFree (s0 : State) (n : Nat) : State :=
  let c := getCell s0 n
  let s := (c.cfg.barriers ++ c.cfg.flags).foldl freeObj s0
  let s := flowUnbind s n
  recount s0 (radioCounts { s with cells := mdel s.cells n } c.part)

/-- The first slot that a removal leaves unserved; none when STOP_NS is no slot boundary. -/
def stopSlot (c : Cell) (t : Nat) : Option Nat :=
  let d := sext 64 ((t + 2 ^ 64 - c.cfg.start % 2 ^ 64) % 2 ^ 64)
  if d % (slotNs c.cfg.mu : Int) = 0 then some (d / (slotNs c.cfg.mu : Int)).toNat else none

/-- The lists of slot `k` and of later slots complete with NOT_PERMITTED, and the cell does not serve these slots (R391). -/
def dropLater (s : State) (n k : Nat) : State :=
  let c := getCell s n
  let late := c.slots.filter (fun e => k ≤ e.1)
  late.foldl (fun s e => match e.2.aux with | some (tag, _) => completeEntry s c.slice tag 5 0 | none => s)
    (setCell s n { c with slots := c.slots.filter (fun e => e.1 < k) })

/-- A KIND 2 entry of slice `sl`. -/
def removeCell (s : State) (sl : Nat) : State :=
  onSlotEntry s sl 2 (fun s e =>
    let n := entF e 18 2
    let c := getCell s n
    let t := entF e 32 8
    if 512 ≤ n then slotEnd s sl e 3 0
    else if !cellBound s n ∨ c.slice ≠ sl then slotEnd s sl e 5 0
    else if reached (nowNs s) t then
      if c.ctx.isNone then slotEnd (cellFree s n) sl e 0 0 else slotEnd s sl e 3 0
    else match stopSlot c t with
      | some k => slotEnd (dropLater (setCell s n { c with stop := some k }) n k) sl e 0 0
      | none => slotEnd s sl e 3 0)

def execRemoveCell (n : BitVec 13) (s : State) : Res := done (removeCell s n.toNat)

/-- Whether a slot of a cell has completed: reported, its downlink gone, its flags set. -/
def slotComplete (c : Cell) (x : CellSlot) : Bool :=
  x.aux.isNone && (!x.staged || c.ctx.isNone || (x.left = 2 ^ 14 - 1 && x.flags = 2 ^ 14 - 1))

/-- A removal takes effect: STOP_NS has passed and every earlier slot has completed. -/
def cellRemove (s : State) (n : Nat) : State :=
  let c := getCell s n
  match c.stop with
  | none => s
  | some k =>
    if reached (nowNs s) (c.slotAt k) ∧ (c.slots.filter (fun e => e.1 < k)).all (fun e => slotComplete c e.2) then cellFree s n else s

def execCellRemoveApply (cell : Fin 512) (s : State) : Res := done (cellRemove s cell)

/-! ### LIST_DEADLINE (R396) -/

/-- The header that the HIF stages for a missing list; its SFN, SLOT and addresses are free values (log 5). -/
def missHeader (s : State) (n k : Nat) : List Byte × State :=
  let c := getCell s n
  let (i, s) := freshId s
  let (a, s) := freshId s
  let (b, s) := freshId s
  (toLE 4 0x314C5753 ++ toLE 2 n ++ toLE 1 c.cfg.mu ++ [1] ++ toLE 3 (Config.freeValue i).toNat ++ toLE 5 0 ++ toLE 8 (c.slotAt k)
    ++ toLE 8 0 ++ toLE 8 (Config.freeValue a).toNat ++ toLE 8 (Config.freeValue b).toNat ++ toLE 16 0, s)

/-- The list deadline of slot `k` passes with no staged list. -/
def listMissing (s : State) (n k : Nat) : State :=
  let c := getCell s n
  let past := match c.stop with | some z => decide (z ≤ k) | none => false
  if !cellBound s n || past || (c.slot k).staged || !reached (nowNs s) (listDeadline s c k) then s
  else
    let (l, s) := missHeader s n k
    let s := bump32 (stagePut s c (stageOf c k) l) (schReg c.part 0x220) 1
    stageSlot s n k { (getCell s n).slot k with staged := true, missing := true }

def execListDeadline (cell : Fin 512) (k : Word) (s : State) : Res := done (listMissing s cell k.toNat)

/-! ### SLOT_STATUS_WRITE (R405, R406) -/

/-- The phases that serve every slot of a cell: those of its serving context's module (R400). -/
def cellPhases (s : State) (c : Cell) : Nat :=
  match c.ctx with
  | some cid => (match (ctxModule s (getCtx s cid)).timing with | some tm => 2 ^ tm.phases.length - 1 | none => 0)
  | none => 0

/-- The status record of slot `k` is written once its phases, downlink symbols and flags are done. -/
def slotStatus (s : State) (n k : Nat) : State :=
  let c := getCell s n
  let x := c.slot k
  if cellBound s n && c.ctx.isSome && x.staged && x.aux.isSome && x.phases = cellPhases s c && x.left = 2 ^ 14 - 1 && x.flags = 2 ^ 14 - 1 then
    reportSlot s n k false x.doneNs
  else s

def execSlotStatusWrite (cell : Fin 512) (k : Word) (s : State) : Res := done (slotStatus s cell k.toNat)

end Sys2Proof.Machine
end

