-- ==== Sys2Proof/Machine/FtlOps.lean ====
section
/-! DEFINITION. Operations of the fantail: rate changes (R471), steps (R472), servos' virtual clocks (R477), loss of reference (R479),
sources of TIMED objects (R486), and time-stamps (R481, R482). -/
namespace Sys2Proof.Machine

def getServo (s : State) (d : Nat) : Servo := mget Servo.zero s.ftl.servos d
def setServo (s : State) (d : Nat) (x : Servo) : State := { s with ftl := { s.ftl with servos := mset Servo.zero s.ftl.servos d x } }

/-- The selected servo (R477). -/
def servoSel (s : State) : Nat := getF s (reg .ftl 0 0x10) 1 1

/-- Whether the compatibility clock runs (R474). -/
def compatOn (s : State) : Bool := getF s (reg .ftl 0 0x10) 0 1 = 1

/-- VIRT_OFS of a servo now, in units of 2^−48 ns (R477): it moves with the difference of its rate and RATE. -/
def virtNow (s : State) (d : Nat) : Int :=
  let x := getServo s d
  x.virt + ((s.ftl.count.toNat - x.virtAt : Nat) : Int) * ((x.rate.toNat : Int) - (s.ftl.rate.toNat : Int))

/-- Settle a servo's VIRT_OFS at the present count, before a rate changes. -/
def settleVirt (s : State) (d : Nat) : State :=
  setServo s d { getServo s d with virt := virtNow s d, virtAt := s.ftl.count.toNat }

/-- Give RATE a new value without a jump of T (R471). -/
def setRate (s : State) (r : DWord) : State :=
  let s := settleVirt (settleVirt s 0) 1
  let t := ftlT s
  { s with ftl := { s.ftl with rate := r, offset := (t + 2 ^ 96 - s.ftl.count.toNat * r.toNat / 2 ^ 16 % 2 ^ 96) % 2 ^ 96 } }

/-- RATE and the rate it should have: the selected servo's, with the slew of a switch in progress (R477, R480). -/
def followRate (s : State) : State :=
  let d := servoSel s
  let x := getServo s d
  if compatOn s then s
  else if s.ftl.slewing then
    let add := nominalRate.toNat * (getW s (reg .ftl 0 0x128)).toNat / 10 ^ 9
    let v := virtNow s d
    setRate s (BitVec.ofNat 64 (if 0 < v then x.rate.toNat + add else x.rate.toNat - add))
  else setRate s x.rate

/-- Change the rate of a servo; RATE follows when it is the selected one. -/
def servoRate (s : State) (d : Nat) (r : DWord) : State :=
  let s := settleVirt s d
  let s := setServo s d { getServo s d with rate := r }
  if servoSel s = d then followRate s else s

/-- The rate of an adjustment in ppb (R476). -/
def rateOfPpb (ppb : Int) : DWord := BitVec.ofInt 64 ((nominalRate.toNat : Int) * (10 ^ 9 + ppb) / 10 ^ 9)

/-- The reference is lost or found (R479): `late` when HOLDOVER_MS has run out. -/
def refCheck (s : State) (late : Bool) : State :=
  let x := getServo s (servoSel s)
  let lost := x.st = 0 || (x.st = 3 && (late || s.ftl.refLost))
  let was := s.ftl.refLost
  let s := { s with ftl := { s.ftl with refLost := lost } }
  if lost && !was then raiseInt s .ftl 0 1 else s

/-- Move fantail time by `d` units of 2^−32 ns (R472); the other servo's VIRT_OFS stays its domain's offset from it (R477). -/
def moveTime (s : State) (d : Int) : State :=
  let o := 1 - servoSel s
  let s := setServo s o { getServo s o with virt := (getServo s o).virt - d * 2 ^ 16 }
  { s with ftl := { s.ftl with offset := wrapTo 96 ((s.ftl.offset : Int) + d) } }

/-- A step of fantail time in ns: refused while any cell context is bound (R472). -/
def stepTime (s : State) (ns : Int) : State :=
  if s.cells ≠ [] then raiseErr s .ftl 0 8 else moveTime s (ns * 2 ^ 32)

/-- An event of a source: every TIMED object of the source advances (R486); source 16 is that of a partition. -/
def timedSource (s : State) (src : Nat) (part : Option Nat) : State :=
  (mkeys (fun n o => o.typ = .timed && o.param.toNat % 256 = src
      && (match part with | some p => objOwner s n = p | none => true)) s.sync.objs).foldl advanceTimed s

/-- T with a latency register added (R481). -/
def stampT (s : State) (lat : Word) : Nat := wrapTo 96 ((ftlT s : Int) + lat.toInt * 2 ^ 24)

/-- The Timestamp format of a stamp (R481). -/
def stampBytes (t : Nat) : List Byte := let ns := t / 2 ^ 32 % 2 ^ 64; toBE 6 (ns / 10 ^ 9) ++ toBE 4 (ns % 10 ^ 9)

/-- The servo index of a domain number. -/
def domainOf (s : State) (n : Nat) : Nat := if getF s (reg .ftl 2 0x100) 0 8 = n ∧ getF s (reg .ftl 1 0x100) 0 8 ≠ n then 1 else 0

/-- What the MAC does to a PTP frame that leaves by a port (R482): a one-step Sync is written; any other event message leaves a
stamp. -/
def ptpLeaves (s : State) (p : Nat) (l : List Byte) : List Byte × State :=
  let m := l.drop 14
  let typ := leAt m 0 1 % 16
  if beAt l 12 2 ≠ 0x88F7 ∨ 4 ≤ typ then (l, s)
  else
    let t := stampT s (getW s (reg .ftl 3 (0x180 + 8 * p)))
    if typ = 0 ∧ !bitAt (leAt m 6 1) 1 ∧ getF s (reg .ftl 3 0x100) p 1 = 1 then
      let corr := beAt m 8 8 + t % 2 ^ 32 / 2 ^ 16
      (l.take 14 ++ patchB (patchB m 8 (toBE 8 corr)) 34 (stampBytes t), s)
    else if 64 ≤ s.ftl.stamps.length then (l, bump32 s (reg .ftl 6 0x118) 1)
    else (l, { s with ftl := { s.ftl with
      stamps := s.ftl.stamps ++ [⟨t / 2 ^ 32 % 2 ^ 64, beAt m 30 2, typ, p, domainOf s (leAt m 4 1)⟩] } })

/-- A PTP frame has arrived at a port: it goes to the workshop with its stamp (R462, R482). -/
def ptpArrives (s : State) (p : Nat) (l : List Byte) : State :=
  let t := stampT s (getW s (reg .ftl 3 (0x184 + 8 * p)))
  { s with ftl := { s.ftl with ptpRx := s.ftl.ptpRx ++ [(p, t, l)] } }

end Sys2Proof.Machine
end

