-- ==== Sys2Proof/Machine/Fantail.lean ====
section
/-! DEFINITION. The fantail's commands (chapter 18): steps, the compatibility clock, servos, tickers, outputs, captures, time of day,
stamps, reads of time, slot boundaries and the wake of parked rows. -/
namespace Sys2Proof.Machine

/-! ### STEP_NS, COMPAT_ADJ, COMPAT_EN_WRITE (R472, R474) -/

def execStepNs (v : DWord) (s : State) : Res := done (gated s .ftl 0 (fun s => stepTime s v.toInt))

/-- A write of `COMPAT_ADJ` acts as one of `STEP_NS` while the compatibility clock runs. -/
def compatAdj (s : State) (v : Word) : State := gated s .ftl 0 (fun s => if compatOn s then stepTime s v.toInt else s)

def execCompatAdj (v : Word) (s : State) : Res := done (compatAdj s v)

/-- Whether a servo is enabled (R488). -/
def servoOn (s : State) (d : Nat) : Bool := getF s (reg .ftl (1 + d) 0x10) 0 1 = 1

/-- RATE under the compatibility clock. -/
def compatRate (s : State) : State := setRate s ((getD64 s (reg .ftl 0 0x130)) <<< 16)

/-- A write of `CTRL.COMPAT_EN`. -/
def compatEn (s : State) (on : Bool) : State :=
  if !hasCap s 0x20 then (if on then invalidWrite s .ftl 0 else s)
  else if on = compatOn s then s
  else if servoOn s 0 || servoOn s 1 then raiseErr s .ftl 0 9
  else
    let s := setF s (reg .ftl 0 0x10) 0 1 (b2n on)
    if on then compatRate s else s

def execCompatEnWrite (on : Bool) (s : State) : Res := done (compatEn s on)

/-! ### Servos (R476 to R480) -/

/-- Enable or disable a servo (R474, R478): enabling starts it in FREERUN; under the compatibility clock it stays disabled. -/
def servoEnable (s : State) (d : Nat) (on : Bool) : State :=
  if on = servoOn s d ∨ (on ∧ compatOn s) then s
  else
    let s := setF s (reg .ftl (1 + d) 0x10) 0 1 (b2n on)
    if on then refCheck (setServo s d { getServo s d with st := 0, good := 0, hist := [] }) false else s

/-- The selected servo changes, and its offset is slewed out (R480). -/
def switchTo (s : State) (d : Nat) : State :=
  if servoSel s = d then s
  else
    let s := setF s (reg .ftl 0 0x10) 1 1 d
    let s := { s with ftl := { s.ftl with slewing := virtNow s d ≠ 0 } }
    refCheck (raiseInt (followRate s) .ftl 0 2) false

def execServoSwitch (d : Fin 2) (s : State) : Res := done (switchTo s d)

/-- The input of an update in units of 2^−16 ns; none when it is not of the servo's source (R476, R477). -/
def servoInput (s : State) (d : Nat) : ServoIn → Option Int
  | .ptp t1 t2 t3 t4 corr =>
    let v := virtNow s d / 2 ^ 32
    if getF s (reg .ftl (1 + d) 0x10) 1 2 = 0 ∧ s.sched.workshop then some (((t2 + v - t1) - (t4 - (t3 + v))) / 2 + corr) else none
  | .pps sec stamp =>
    let src := getF s (reg .ftl (1 + d) 0x10) 1 2
    if src = 1 ∨ src = 2 then some ((sec : Int) * 10 ^ 9 * 2 ^ 16 - (stamp + virtNow s d / 2 ^ 32)) else none

/-- The law of R476: the new integrator and the output in ppb. -/
def servoLaw (s : State) (d : Nat) (o : Int) : Int × Int :=
  let g := reg .ftl (1 + d) 0x10C
  let top : Int := getF s (reg .ftl (1 + d) 0x110) 0 17
  let integ := clampInt (-top * 2 ^ 16) (top * 2 ^ 16) (((getServo s d).integ + (getF s g 16 16 : Int) * o) / 2 ^ 16)
  (integ, clampInt (-top) top (((getF s g 0 16 : Int) * o / 2 ^ 16 + integ) / 2 ^ 16))

/-- The state of a servo after an update, and its updates in a row below LOCK_NS (R478). -/
def servoNext (s : State) (d : Nat) (o : Int) : Nat × Nat :=
  let x := getServo s d
  let small := decide (o.natAbs < getF s (reg .ftl (1 + d) 0x114) 0 16 * 2 ^ 16)
  let good := if small then min 16 ((if x.st = 3 then 0 else x.good) + 1) else 0
  (if x.st = 0 then 1 else if good = 16 then 2 else 1, good)

/-- Apply one update of a servo (R476, R478): the first update of a selected servo steps where a step is allowed. -/
def servoUpdate (s : State) (d : Nat) (inp : ServoIn) : State :=
  if !servoOn s d then s
  else match servoInput s d inp with
    | none => s
    | some o =>
      let x := getServo s d
      let (st, good) := servoNext s d o
      let s := bump64 s (reg .ftl (1 + d) 0x128) 1
      let s := setW s (reg .ftl (1 + d) 0x118) (BitVec.ofInt 32 (clampInt (-2 ^ 31) (2 ^ 31 - 1) (o / 2 ^ 8)))
      if x.st = 0 ∧ servoSel s = d ∧ s.cells = [] then
        refCheck (moveTime (setServo s d { x with st := st, good := good }) (o * 2 ^ 16)) false
      else
        let (integ, ppb) := servoLaw s d o
        let s := setW s (reg .ftl (1 + d) 0x11C) (BitVec.ofInt 32 ppb)
        let s := setServo s d { x with st := st, good := good, integ := integ, hist := (ppb :: x.hist).take 16 }
        refCheck (servoRate s d (rateOfPpb ppb)) false

def execServoUpdate (d : Fin 2) (inp : ServoIn) (s : State) : Res := done (servoUpdate s d inp)

/-- The mean of a list of integers, 0 for none. -/
def meanInt (l : List Int) : Int := if l = [] then 0 else l.foldl (· + ·) 0 / l.length

/-- Four updates in a row are missing (R478, R480): HOLDOVER at the mean rate, and the automatic switch to the other servo. -/
def servoHoldover (s : State) (d : Nat) : State :=
  let x := getServo s d
  if !servoOn s d ∨ x.st = 0 ∨ x.st = 3 then s
  else
    let s := setServo s d { x with st := 3, good := 0, since := nowNs s }
    let s := servoRate s d (rateOfPpb (meanInt x.hist))
    if servoSel s = d ∧ getF s (reg .ftl 0 0x10) 2 1 = 1 ∧ (getServo s (1 - d)).st = 2 then switchTo s (1 - d) else refCheck s false

def execServoHoldover (d : Fin 2) (s : State) : Res := done (servoHoldover s d)

/-- VIRT_OFS of the selected servo has reached 0 (R480). -/
def slewDone (s : State) : State :=
  let d := servoSel s
  let v := virtNow s d
  let up := (getServo s d).rate.toNat < s.ftl.rate.toNat
  if s.ftl.slewing ∧ (if up then v ≤ 0 else 0 ≤ v) then
    let s := settleVirt s d
    let s := setServo s d { getServo s d with virt := 0 }
    followRate { s with ftl := { s.ftl with slewing := false } }
  else s

def execSlewDone (s : State) : Res := done (slewDone s)

/-- The selected servo has been in HOLDOVER for longer than HOLDOVER_MS (R479). -/
def refLost (s : State) : State :=
  let x := getServo s (servoSel s)
  if x.st = 3 ∧ getF s (reg .ftl 0 0x12C) 0 16 * 1000000 < nowNs s - x.since then refCheck s true else s

def execRefLost (s : State) : Res := done (refLost s)

/-! ### Tickers and outputs (R483, R484) -/

/-- A register of FTL page 4 as it stands for a ticker. -/
def tickReg (t off : Nat) : Nat := winKey t (reg .ftl 4 off)

/-- Outputs that show a ticker. -/
def outputsOf (s : State) (t : Nat) : List Nat := (List.range 4).filter (fun n => getF s (reg .ftl 5 (0x100 + 4 * n)) 0 4 = t)

/-- A write of `T_CTRL` of ticker `t` (R483, R484): while it is enabled only ENABLE can change. -/
def tickerCtrl (s : State) (t : Nat) (v : Word) : State :=
  let on := getF s (tickReg t 0x104) 0 1 = 1
  let want := bitAt v.toNat 0
  if on ∧ want then s
  else if on then
    let s := setF s (tickReg t 0x104) 0 1 0
    { s with ftl := { s.ftl with tickers := mdel s.ftl.tickers t, pulses := (outputsOf s t).foldl mdel s.ftl.pulses } }
  else
    let s := setF s (tickReg t 0x104) 1 1 (b2n (bitAt v.toNat 1))
    if !want then s
    else
      let period := (getD64 s (tickReg t 0x110)).toNat
      if period ≤ (getW s (tickReg t 0x118)).toNat ∨ (bitAt v.toNat 1 ∧ period < 16) then raiseErr s .ftl 5 8
      else
        let s := setF s (tickReg t 0x104) 0 1 1
        { s with ftl := { s.ftl with tickers := mput s.ftl.tickers t (getD64 s (tickReg t 0x108)).toNat } }

def execTickerEnable (v : Word) (s : State) : Res :=
  done (gated s .ftl 4 (fun s => tickerCtrl s (getF s (reg .ftl 4 0x100) 0 4) v))

/-- The bytes of `TOD_TX_DATA`. -/
def todBytes (s : State) : List Byte := (List.range 16).flatMap (fun i => toLE 4 (getW s (reg .ftl 5 (0x180 + 4 * i))).toNat)

/-- The target of a ticker has come (R483, R484): one event; the targets that now lies beyond are counted as missed. -/
def tickerEvent (s : State) (t : Nat) : State :=
  match mfind s.ftl.tickers t with
  | none => s
  | some target =>
    let now := nowNs s
    if !reached now target then s
    else
      let period := (getD64 s (tickReg t 0x110)).toNat
      let n := (now + 2 ^ 64 - target) % 2 ^ 64 / max 1 period
      let periodic := getF s (tickReg t 0x104) 1 1 = 1
      let s := bump64 s (tickReg t 0x120) 1
      let s := if periodic then bump32 s (tickReg t 0x128) n else s
      let width := max 8 (getW s (tickReg t 0x118)).toNat
      let s := { s with ftl := { s.ftl with
        tickers := if periodic then mput s.ftl.tickers t ((target + (n + 1) * period) % 2 ^ 64) else mdel s.ftl.tickers t
        pulses := (outputsOf s t).foldl (fun m o => mput m o ((now + width) % 2 ^ 64)) s.ftl.pulses } }
      let s := if t = 0 ∧ s.ftl.todArmed then
          { s with ftl := { s.ftl with todArmed := false, todSent := s.ftl.todSent ++ [((now + 10000) % 2 ^ 64, todBytes s)] } }
        else s
      timedSource s t none

def execTickerEvent (t : Fin 16) (s : State) : Res := done (tickerEvent s t)

/-- The pulse of an output ends. -/
def pulseEnd (s : State) (n : Nat) : State :=
  match mfind s.ftl.pulses n with
  | some t => if reached (nowNs s) t then { s with ftl := { s.ftl with pulses := mdel s.ftl.pulses n } } else s
  | none => s

def execPpsPulseEnd (n : Fin 4) (s : State) : Res := done (pulseEnd s n)

/-! ### Captures, time of day, stamps (R482, R484, R485) -/

/-- A rising edge on TIME_PPS_INn. -/
def ppsEdge (s : State) (n : Nat) : State :=
  let a := reg .ftl 5 (0x120 + 16 * n)
  let s := if mget false s.ftl.unread n then setF s (a + 8) 31 1 1 else s
  let s := setD64 s a (BitVec.ofNat 64 (nowNs s))
  let s := setF s (a + 8) 0 16 (getF s (a + 8) 0 16 + 1)
  timedSource { s with ftl := { s.ftl with unread := mset false s.ftl.unread n true } } (17 + n) none

def execPpsInEdge (d : Fin 2) (s : State) : Res := done (ppsEdge s d)

/-- A TOD_RX byte enters the FIFO of 64 bytes; a byte that finds it full is lost. -/
def execTodRxByte (b : BitVec 8) (s : State) : Res :=
  done (if 64 ≤ s.ftl.todRx.length then s else { s with ftl := { s.ftl with todRx := s.ftl.todRx ++ [b] } })

/-- Answer a register read. -/
def replyWith (s : State) (v : DWord) : State := { s with bus := { s.bus with reply := v } }

/-- A read at 0x100 or above: a page that is not ready reads 0 (R37). -/
def gatedRead (s : State) (b : Block) (i : Nat) (f : State → State) : State :=
  if pageReady s b i then f s else replyWith (notReady s b i) 0

/-- A read of `TOD_RX_POP`. -/
def todPop (s : State) : State :=
  match s.ftl.todRx with
  | [] => replyWith s 0
  | b :: r => replyWith { s with ftl := { s.ftl with todRx := r } } (b.setWidth 64)

def execTodRxPop (s : State) : Res := done (gatedRead s .ftl 5 todPop)

/-- A write of `TS_POP`. -/
def tsPop (s : State) : State := { s with ftl := { s.ftl with stamps := s.ftl.stamps.drop 1 } }

def execTsPop (s : State) : Res := done (gated s .ftl 6 tsPop)

/-! ### Reads of time (R35, R488) -/

/-- Answer a read of a 64-bit register at `a`: a read of the low half loads the read latch (R35). -/
def replyWide (s : State) (a : Nat) (wide : Bool) (v : Nat) : State :=
  if wide then
    replyWith { s with bus := { s.bus with latch := mdel s.bus.latch a, hold := mdel s.bus.hold a } } (BitVec.ofNat 64 v)
  else replyWith { s with bus := { s.bus with latch := mput s.bus.latch a (BitVec.ofNat 32 (v / 2 ^ 32)) } } (BitVec.ofNat 64 (v % 2 ^ 32))

/-- The snapshot that a read of `TIME_NOW` takes. -/
def timeSnap (s : State) : State :=
  { s with ftl := { s.ftl with snapFrac := BitVec.ofNat 32 (ftlT s % 2 ^ 32), snapCount := s.ftl.count } }

/-- A read of `TIME_NOW`. -/
def timeNow (s : State) (wide : Bool) : State := replyWide (timeSnap s) (reg .ftl 0 0x100) wide (nowNs s)

def execTimeNowRead (wide : Bool) (s : State) : Res := done (gatedRead s .ftl 0 (fun s => timeNow s wide))

/-- The snapshot that a read of `TIME_SEC` takes. -/
def secSnap (s : State) : State := { s with ftl := { s.ftl with snapNsec := BitVec.ofNat 32 (nowNs s % 10 ^ 9) } }

/-- A read of `TIME_SEC`. -/
def timeSec (s : State) (wide : Bool) : State := replyWide (secSnap s) (reg .ftl 0 0x140) wide (nowNs s / 10 ^ 9)

def execTimeSecRead (wide : Bool) (s : State) : Res := done (gatedRead s .ftl 0 (fun s => timeSec s wide))

/-! ### Slot boundaries and wakes (R303, R404, R486, R487) -/

/-- The first slot boundary of a partition after a fantail time (R303). -/
def nextBoundary (s : State) (p t : Nat) : Nat :=
  let d := (getPart s p).desc
  let len : Int := slotNs d.mu
  wrapTo 64 ((d.slot0 : Int) + (sext 64 ((t + 2 ^ 64 - d.slot0 % 2 ^ 64) % 2 ^ 64) / len + 1) * len)

/-- A slot boundary of a radio partition passes. -/
def slotBoundary (s : State) (p : Nat) : State :=
  let x := getPart s p
  if !isRadio s p ∨ !reached (nowNs s) x.slots then s
  else timedSource (setPart s p { x with slots := nextBoundary s p (nowNs s) }) 16 (some p)

def execSlotBoundary (p : Fin 32) (s : State) : Res := done (slotBoundary s p)

/-- The triggers of a context that lie ahead (R487): the next boundary, and the SYMBOL triggers of its cells. -/
def triggersOf (s : State) (cid : Nat) : List Nat :=
  let c := getCtx s cid
  let now := nowNs s
  let nb := nextBoundary s c.part now
  let len := slotNs (getPart s c.part).desc.mu
  let syms := match (ctxModule s c).timing with
    | some tm => (tm.phases.filter (fun (ph : PhaseDecl) => ph.trigger = 1)).map (fun (ph : PhaseDecl) => ph.targ)
    | none => []
  let cells := (cellsOf s cid).map (fun n => (getCell s n).cfg)
  nb :: syms.flatMap (fun y => cells.flatMap (fun (g : CellCfg) =>
    ((List.range 3).map (fun i => (nb + 2 ^ 64 + ulReady g.mu (cellTa4 s g) y - i * len) % 2 ^ 64)).filter (fun t => !reached now t)))

/-- The fantail requests the wake of a parked row 6 µs before the next trigger of its contexts. -/
def rowTimer (s : State) (r : Nat) : State :=
  let on := mkeys (fun _ c => match c.place with
    | .leaf site _ => site / 16 = r && isRadio s c.part
    | .saved => false) s.sched.ctxs
  if (getRow s r).st = .parked ∧ (on.flatMap (triggersOf s)).any (fun t => reached (nowNs s + 6000) t) then wakeRow s r else s

def execRowWakeTimer (r : Fin 16) (s : State) : Res := done (rowTimer s r)

/-! ### PTP_MESSAGE_SEND (R475) -/

/-- The PTP master sends a message on a port of MASTER_PORTS of an enabled servo's domain: event messages through queue 96p + 64,
others through 96p + 65 (R452). -/
def ptpSend (s : State) (p : Nat) (event : Bool) (l : List Byte) : State :=
  if s.sched.workshop && [0, 1].any (fun d => servoOn s d && getF s (reg .ftl (1 + d) 0x108) p 1 = 1) then
    pushFrame s (96 * p + (if event then 64 else 65)) ⟨padFrame l, none, nowNs s, none, none⟩
  else s

def execPtpMessageSend (port : Fin 16) (event : Bool) (bytes : List (BitVec 8)) (s : State) : Res := done (ptpSend s port event bytes)

end Sys2Proof.Machine
end

