-- ==== Sys2Proof/Machine/Weir.lean ====
section
/-! DEFINITION. The weir (chapter 17): tenant rings (R458, R459), shapers (R460), deficit round robin (R461), the egress order (R454,
R455), steering and policing (R462 to R464), and depth samples (R466). -/
namespace Sys2Proof.Machine

/-! ### Queues (R452) -/

/-- A register of WEIR page 1 as it stands for a queue. -/
def qReg (q off : Nat) : Nat := winKey q (reg .weir 1 off)

/-- The port of a queue. -/
def queuePort (q : Nat) : Nat := if q < 1536 then q / 96 else (q - 1536) / 160

/-- The partition whose range holds a tenant queue (R453). -/
def queuePart (s : State) (q : Nat) : Option Nat :=
  if q < 1536 then none
  else (mkeys (fun _ p => p.st ≠ .free && p.desc.weirBase ≤ q && decide (q < p.desc.weirBase + p.desc.weirCount)) s.sched.parts).head?

/-- Whether a tenant queue is enabled. -/
def queueOn (s : State) (q : Nat) : Bool := 1536 ≤ q && getF s (qReg q 0x104) 0 1 = 1

/-- Length of a frame from destination address through FCS (R460). -/
def Frame.len (f : Frame) : Nat := f.bytes.length + 4

/-- Whether a downlink symbol still has frames queued or in transmission. -/
def symbolQueued (s : State) (t : Nat × Nat × Nat) : Bool :=
  s.net.queues.any (fun e => e.2.frames.any (fun f => f.symbol = some t))
    || s.net.ports.any (fun e => match e.2.sending with | some (_, f) => f.symbol = some t | none => false)

/-- A frame of a downlink symbol has left or was discarded: with the last one the symbol has left (R406). -/
def symbolLeft (s : State) (f : Frame) : State :=
  match f.symbol with
  | none => s
  | some (n, k, sym) =>
    if symbolQueued s (n, k, sym) ∨ !cellBound s n then s
    else
      let c := getCell s n
      let x := c.slot k
      setCell s n (c.setSlot k { x with left := x.left ||| 2 ^ sym })

/-- The done object of a tenant queue rises (R458). -/
def queueDone (s : State) (q : Nat) : State :=
  if queueOn s q then signalExt s (getF s (qReg q 0x11C) 16 16) false 1 else s

/-- Frames dropped at the head of a tenant queue give way, each raising the done object in ring order (`fuel` at most). -/
def flushDrops : Nat → Nat → State → State
  | 0, _, s => s
  | fuel + 1, q, s =>
    let x := getQueue s q
    match x.frames with
    | f :: r => if f.bytes = [] then flushDrops fuel q (queueDone (setQueue s q { x with frames := r }) q) else s
    | [] => s

/-! ### Fetching tenant frames (R458, R459) -/

/-- EtherType of a frame after at most one C-tag. -/
def outerType (l : List Byte) : Nat := if beAt l 12 2 = 0x8100 then beAt l 16 2 else beAt l 12 2

/-- The UDP destination port of a frame that carries UDP. -/
def udpDest (l : List Byte) : Option Nat :=
  let o := if beAt l 12 2 = 0x8100 then 18 else 14
  let t := outerType l
  if t = 0x0800 ∧ leAt l (o + 9) 1 = 17 ∧ beAt l (o + 6) 2 % 0x2000 = 0 then some (beAt l (o + leAt l o 1 % 16 * 4 + 2) 2)
  else if t = 0x86DD ∧ leAt l (o + 6) 1 = 17 then some (beAt l (o + 42) 2)
  else none

/-- Whether a tenant frame may not be sent (R459). -/
def spoofs (s : State) (q : Nat) (l : List Byte) : Bool :=
  [0x88F7, 0x8809, 0xAEFE, 0xF1C1].contains (outerType l)
    || (match udpDest l with
        | some p => s.net.flows.any (fun e => (flowDesc s e.1).udp && (flowDesc s e.1).udpPort = p)
        | none => false)
    || (getF s (qReg q 0x104) 1 1 = 1 && beAt l 6 6 ≠ (getD64 s (qReg q 0x120)).toNat % 2 ^ 48)

/-- The frame of one descriptor: its bytes, or none of them when it is dropped. -/
def tenantFrame (s : State) (q p j : Nat) : List Byte × State :=
  let a := (getD64 s (qReg q 0x110)).toNat + 16 * (j % 2 ^ getF s (qReg q 0x118) 0 4)
  match devRead s p a 16 true none with
  | (.ok d, s) =>
    let n := leAt d 8 2
    if n < 60 ∨ 9212 < n then ([], s)
    else match devRead s p (leAt d 0 8) n true none with
      | (.ok l, s) => if spoofs s q l then ([], bump32 s (qReg q 0x14C) 1) else (l, s)
      | (_, s) => ([], s)
  | (_, s) => ([], s)

/-- Fetch the descriptors that the tail object has released (R412, R458; `fuel` at most); an overrun stops the ring. -/
def fetchQueue : Nat → Nat → State → State
  | 0, _, s => s
  | fuel + 1, q, s =>
    let x := getQueue s q
    let obj := getW s (qReg q 0x11C)
    let tail := (getObj s (obj.toNat % 2 ^ 16)).value
    let done := (getObj s (obj.toNat / 2 ^ 16)).value
    match queuePart s q with
    | none => s
    | some p =>
      if !queueOn s q || x.stopped then s
      else if ((2 ^ getF s (qReg q 0x118) 0 4 : Nat) : Int) < (tail - done).toInt then setQueue s q { x with stopped := true }
      else if (tail - BitVec.ofNat 32 x.next).toInt ≤ 0 then s
      else
        let (l, s) := tenantFrame s q p x.next
        let x := getQueue s q
        let s := setQueue s q { x with next := (x.next + 1) % 2 ^ 32, frames := x.frames ++ [⟨l, none, nowNs s, none, some p⟩] }
        fetchQueue fuel q (flushDrops 4096 q s)

/-- Tenant queues of a port. -/
def tenantQueues (p : Nat) : List Nat := (List.range 160).map (fun i => 1536 + 160 * p + i)

/-! ### Shapers and deficit round robin (R460, R461) -/

/-- Bring the shaper's credit up to date, in bytes × 8,000 (R460). -/
def refill (s : State) (q : Nat) : State :=
  let x := getQueue s q
  let c := min ((getW s (qReg q 0x130)).toNat % 2 ^ 24 * 8000) (x.credit + (nowNs s - x.creditAt) * ((getW s (qReg q 0x12C)).toNat % 2 ^ 20))
  setQueue s q { x with credit := c, creditAt := nowNs s }

/-- Whether the shaper of a queue admits its head frame. -/
def admitsHead (s : State) (q : Nat) : Bool :=
  let x := getQueue s q
  match x.frames with
  | f :: _ => (getW s (qReg q 0x12C)).toNat % 2 ^ 20 = 0 || decide (f.len * 8000 ≤ x.credit)
  | [] => false

/-- Length of the head frame of a queue. -/
def headLen (s : State) (q : Nat) : Nat := match (getQueue s q).frames with | f :: _ => f.len | [] => 0

/-- Visit the queues of a class from `q` on: the first whose deficit covers its head frame (`fuel` visits at most). -/
def drrScan : Nat → Nat → Nat → State → Option Nat × State
  | 0, _, _, s => (none, s)
  | fuel + 1, base, i, s =>
    let q := base + i % 32
    if !admitsHead s q then drrScan fuel base (i + 1) s
    else
      let x := getQueue s q
      let d := x.deficit + getF s (qReg q 0x128) 0 16
      let s := setQueue s q { x with deficit := d }
      if headLen s q ≤ d then (some q, s) else drrScan fuel base (i + 1) s

/-- The queue that a tenant class of a port serves next: the visit goes on, or the next queue is visited. -/
def drrPick (s : State) (p cls : Nat) : Option Nat × State :=
  let base := 1536 + 160 * p + 32 * (cls - 3)
  let qs := (List.range 32).map (fun i => base + i)
  if !qs.any (admitsHead s) then (none, s)
  else
    let go := match mfind (getPort s p).visit cls with
      | some q => if admitsHead s q && decide (headLen s q ≤ (getQueue s q).deficit) then some q else none
      | none => none
    match go with
    | some q => (some q, s)
    | none => drrScan 8192 base (mget (base + 31) (getPort s p).last cls - base + 1) s

/-! ### TX_START (R454, R455, R466) -/

/-- Take the head frame of a queue. -/
def popFrame (s : State) (q : Nat) : Option Frame × State :=
  let x := getQueue s q
  match x.frames with
  | f :: r => (some f, setQueue s q { x with frames := r })
  | [] => (none, s)

/-- The delay of a departing frame (R466). -/
def noteDelay (s : State) (q : Nat) (f : Frame) : State :=
  let from_ := match f.window with | some (r, _) => if reached r f.queued then r else f.queued | none => f.queued
  let d := BitVec.ofNat 32 (min 0xFFFFFFFF ((nowNs s + 2 ^ 64 - from_) % 2 ^ 64))
  let s := setW s (qReg q 0x15C) d
  if (getW s (qReg q 0x160)).toNat < d.toNat then setW s (qReg q 0x160) d else s

/-- A frame starts on a port. -/
def startFrame (s : State) (p q : Nat) : State :=
  match popFrame s q with
  | (none, s) => s
  | (some f, s) =>
    let (l, s) := ptpLeaves (noteDelay s q f) p f.bytes
    setPort s p { getPort s p with sending := some (q, { f with bytes := l }) }

/-- The class 0 credit of a port, in bytes × 8,000: 1 % of the port rate, burst 16 KiB (R454). -/
def ptpCredit (s : State) (p : Nat) : Nat :=
  let x := getPort s p
  min (16384 * 8000) (x.ptpCredit + (nowNs s - x.ptpAt) * (portGbps s p * 10))

/-- The class 0 queue to serve: its head has credit. -/
def pickPtp (s : State) (p : Nat) : Option Nat :=
  [96 * p + 64, 96 * p + 65].find? (fun q => !(getQueue s q).frames.isEmpty && decide (headLen s q * 8000 ≤ ptpCredit s p))

/-- Whether the head packet of a fronthaul queue is released and not past its close time: its release time. -/
def released (s : State) (q : Nat) : Option Nat :=
  match (getQueue s q).frames with
  | f :: _ => match f.window with
    | some (r, z) => if reached (nowNs s) r && reached z (nowNs s) then some r else none
    | none => none
  | [] => none

/-- The class 1 or 2 queue whose head was released first; ties to the lower queue, which is of class 1 first. -/
def pickFront (s : State) (p : Nat) : Option Nat :=
  ((List.range 64).map (fun i => 96 * p + i)).foldl (fun best q =>
    match released s q, best with
    | none, b => b
    | some _, none => some q
    | some r, some b => if reached r ((released s b).getD 0) then some b else some q) none

/-- Serve the tenant classes in strict order. -/
def startTenant (p : Nat) : List Nat → State → State
  | [], s => s
  | c :: r, s =>
    match drrPick s p c with
    | (none, s) => startTenant p r s
    | (some q, s) =>
      let n := headLen s q
      let x := getQueue s q
      let s := setQueue s q { x with
        credit := if (getW s (qReg q 0x12C)).toNat % 2 ^ 20 = 0 then x.credit else x.credit - n * 8000
        deficit := if x.frames.length = 1 then 0 else x.deficit - n }
      let y := getPort s p
      let s := setPort s p { y with last := mput y.last c q, visit := mput y.visit c q }
      startFrame s p q

/-- Discard a fronthaul or timing frame at release while the port is down (R429): its symbol counts as sent. -/
def discardHead (s : State) (p q : Nat) : State :=
  match popFrame s q with
  | (none, s) => s
  | (some f, s) => symbolLeft (bump32 s (reg .eth p 0x134) 1) f

/-- Discard what the weir releases to a port that is down (`fuel` frames of each queue at most). -/
def discardDown : Nat → Nat → Nat → State → State
  | 0, _, _, s => s
  | fuel + 1, p, q, s =>
    match (getQueue s q).frames with
    | f :: _ =>
      if (match f.window with | some (r, _) => reached (nowNs s) r | none => true) then discardDown fuel p q (discardHead s p q) else s
    | [] => s

/-- A free transmitter starts the next frame in the egress order (R454). -/
def txStart (s : State) (p : Nat) : State :=
  if portMode s p = 0 then s
  else if !(getPort s p).up then
    ((List.range 66).map (fun i => 96 * p + i)).foldl (fun s q => discardDown (getQueue s q).frames.length p q s) s
  else if (getPort s p).sending.isSome then s
  else
    let s := ((tenantQueues p).filter (queueOn s)).foldl (fun s q => refill (fetchQueue 4096 q s) q) s
    match pickPtp s p with
    | some q =>
      let c := ptpCredit s p - headLen s q * 8000
      startFrame (setPort s p { getPort s p with ptpCredit := c, ptpAt := nowNs s }) p q
    | none =>
      match pickFront s p with
      | some q => startFrame s p q
      | none => startTenant p [3, 4, 5, 6, 7] s

def execTxStart (p : Fin 16) (s : State) : Res := done (txStart s p)

/-! ### FRAME_SENT, LATE_DROP -/

/-- A frame leaves its port. -/
def frameSent (s : State) (p : Nat) : State :=
  let x := getPort s p
  match x.sending with
  | none => s
  | some (q, f) =>
    let s := setPort s p { x with sending := none }
    let s := { s with net := { s.net with sent := s.net.sent ++ [(p, f.bytes)] } }
    let s := bump64 s (reg .eth p 0x118) 1
    let s := bump64 (bump64 s (qReg q 0x138) 1) (qReg q 0x140) f.len
    let s := symbolLeft s f
    if f.tenant.isSome then flushDrops 4096 q (queueDone s q) else s

def execFrameSent (p : Fin 16) (s : State) : Res := done (frameSent s p)

/-- A fronthaul packet at the head of a queue has not started by its close time (R455); on a port that is down it counts there
(R429). -/
def lateDrop (s : State) (q : Nat) : State :=
  match (getQueue s q).frames with
  | f :: _ =>
    match f.window with
    | some (_, z) =>
      if reached z (nowNs s) then s
      else
        let p := queuePort q
        let s := (popFrame s q).2
        let s := if (getPort s p).up then raiseInt (bump32 s (qReg q 0x148) 1) .weir 0 1 else bump32 s (reg .eth p 0x134) 1
        symbolLeft s f
    | none => s
  | [] => s

def execLateDrop (q : BitVec 12) (s : State) : Res := done (lateDrop s q.toNat)

/-! ### QUEUE_ENABLE (R458) -/

/-- Whether an object is a COUNTER in a partition's blocks. -/
def counterOf (s : State) (p n : Nat) : Bool := objOwner s n = p && (getObj s n).typ = .counter

/-- Whether every granule of a range admits a partition's access (R348). -/
def granulesAdmit (s : State) (p a n : Nat) (wr : Bool) : Bool :=
  (piecesOf 16384 a n).all (fun g => g < 8781824 && !mget false s.mem.fenced g && ownAdmits s p (ownNow s g) wr)

/-- Counters of a queue restart at ENABLE. -/
def queueRestart (s : State) (q : Nat) : State :=
  [0x138, 0x13C, 0x140, 0x144, 0x148, 0x14C, 0x150, 0x154, 0x158, 0x15C, 0x160].foldl (fun s o => setW s (qReg q o) 0) s

/-- A write of `QCFG` of queue `q`: ENABLE starts its ring, or is refused. The next descriptor is the one after those done. -/
def queueCtrl (s : State) (q : Nat) (v : Word) : State :=
  let s := setF s (qReg q 0x104) 1 1 (b2n (bitAt v.toNat 1))
  let on := queueOn s q
  if !bitAt v.toNat 0 then setF s (qReg q 0x104) 0 1 0
  else if on then s
  else
    let obj := (getW s (qReg q 0x11C)).toNat
    let size := 2 ^ getF s (qReg q 0x118) 0 4
    match queuePart s q with
    | none => raiseErr s .weir 1 8
    | some p =>
      if !counterOf s p (obj % 2 ^ 16) ∨ !counterOf s p (obj / 2 ^ 16)
          ∨ !granulesAdmit s p (getD64 s (qReg q 0x110)).toNat (16 * size) false then raiseErr s .weir 1 8
      else
        let burst := (getW s (qReg q 0x130)).toNat % 2 ^ 24 * 8000
        let s := queueRestart (setF s (qReg q 0x104) 0 1 1) q
        setQueue s q { getQueue s q with
          next := (getObj s (obj / 2 ^ 16)).value.toNat, stopped := false, credit := burst, creditAt := nowNs s, deficit := 0 }

def execQueueEnable (v : Word) (s : State) : Res :=
  done (gated s .weir 1 (fun s => queueCtrl s (getF s (reg .weir 1 0x100) 0 12) v))

/-! ### STEER_ENABLE (R463, R464) -/

/-- A register of WEIR page 2 as it stands for a steering entry. -/
def stReg (e off : Nat) : Nat := winKey e (reg .weir 2 off)

def getSteer (s : State) (e : Nat) : Steer := mget Steer.off s.net.steers e
def setSteer (s : State) (e : Nat) (x : Steer) : State := { s with net := { s.net with steers := mset Steer.off s.net.steers e x } }

/-- Whether a steering entry is enabled. -/
def steerOn (s : State) (e : Nat) : Bool := getF s (stReg e 0x110) 0 1 = 1

/-- Whether the policing parameters allow ENABLE (R464). -/
def policeOk (s : State) (e : Nat) (v : Word) : Bool :=
  let f (off w : Nat) : Nat := (getW s (stReg e off)).toNat % 2 ^ w
  !bitAt v.toNat 24 || (9216 ≤ f 0x12C 24 && 9216 ≤ f 0x130 24 && (bitAt v.toNat 26 || f 0x124 20 ≤ f 0x128 20))

/-- A write of `S_CTRL` of steering entry `e`: while it is enabled only ENABLE can change. -/
def steerCtrl (s : State) (e : Nat) (v : Word) : State :=
  let want := bitAt v.toNat 0
  if steerOn s e then (if want then s else setF s (stReg e 0x110) 0 1 0)
  else if bitsAt v.toNat 16 4 < 4 ∨ 12 < bitsAt v.toNat 16 4 then invalidWrite s .weir 2
  else
    let s := setW s (stReg e 0x110) (v &&& 0x070F1F00)
    if !want then s
    else
      let p := bitsAt v.toNat 8 5
      let obj := (getW s (stReg e 0x120)).toNat
      if (getPart s p).st = .free ∨ !counterOf s p (obj % 2 ^ 16) ∨ !counterOf s p (obj / 2 ^ 16) ∨ !policeOk s e v
          ∨ !granulesAdmit s p (getD64 s (stReg e 0x118)).toNat (16384 * 2 ^ bitsAt v.toNat 16 4) true then raiseErr s .weir 2 8
      else
        let s := [0x138, 0x13C, 0x140, 0x144, 0x148, 0x14C].foldl (fun s o => setW s (stReg e o) 0) (setF s (stReg e 0x110) 0 1 1)
        setSteer s e ⟨(getObj s (obj % 2 ^ 16)).value.toNat, (getW s (stReg e 0x12C)).toNat % 2 ^ 24 * 65536,
          (getW s (stReg e 0x130)).toNat % 2 ^ 24 * 65536, nowNs s⟩

def execSteerEnable (v : Word) (s : State) : Res :=
  done (gated s .weir 2 (fun s => steerCtrl s (getF s (reg .weir 2 0x100) 0 8) v))

/-! ### Delivery to a steering ring (R462 to R464) -/

/-- The lowest enabled entry that matches a frame (R462). -/
def steerMatch (s : State) (x : RxEth) : Option Nat :=
  (List.range 256).find? (fun e =>
    steerOn s e
      && (let m := (getD64 s (stReg e 0x108)).toNat
          m % 2 ^ 48 = x.dmac && (!bitAt m 60 || (match x.tci with | some t => t % 4096 = bitsAt m 48 12 | none => false))))

/-- The colour of a frame: 0 green, 1 yellow, 2 red, and the buckets after it (R464). -/
def police (s : State) (e len : Nat) (yellowIn : Bool) : Nat × Steer :=
  let x := getSteer s e
  let f (off w : Nat) : Nat := (getW s (stReg e off)).toNat % 2 ^ w
  let dt := nowNs s - x.last
  let tc := min (f 0x12C 24 * 65536) (x.tc + dt * f 0x124 20 * 65536 / 8000)
  let tp := min (f 0x130 24 * 65536) (x.tp + dt * f 0x128 20 * 65536 / 8000)
  let lq := len * 65536
  let y := getF s (stReg e 0x110) 25 1 = 1 && yellowIn
  let x := { x with tc := tc, tp := tp, last := nowNs s }
  if getF s (stReg e 0x110) 26 1 = 0 then
    if tp < lq then (2, x)
    else if y ∨ tc < lq then (1, { x with tp := tp - lq })
    else (0, { x with tp := tp - lq, tc := tc - lq })
  else if !y ∧ lq ≤ tc then (0, { x with tc := tc - lq })
  else if lq ≤ tp then (1, { x with tp := tp - lq })
  else (2, x)

/-- Slots of a steering ring that are free: RELEASE VALUE − (j − 2^SIZE), none below 0 (R463). -/
def steerRoom (s : State) (e : Nat) : Int :=
  let size := 2 ^ getF s (stReg e 0x110) 16 4
  ((getObj s (getF s (stReg e 0x120) 16 16)).value - (BitVec.ofNat 32 (getSteer s e).written - BitVec.ofNat 32 size)).toInt

/-- Deliver a frame to the ring of a steering entry (R463): its record, then the frame from byte 64, then ARRIVE. -/
def steerPut (s : State) (e port : Nat) (colour : Nat) (l : List Byte) : State :=
  let p := getF s (stReg e 0x110) 8 5
  let x := getSteer s e
  let size := 2 ^ getF s (stReg e 0x110) 16 4
  let a := (getD64 s (stReg e 0x118)).toNat + x.written % size * 16384
  let head := toLE 2 l.length ++ toLE 1 colour ++ toLE 1 port ++ toLE 4 0 ++ toLE 8 (nowNs s)
  match devWrite s p a head true none with
  | (.ok _, s) =>
    match devWrite s p (a + 64) l true none with
    | (.ok _, s) =>
      let s := setSteer s e { getSteer s e with written := (x.written + 1) % 2 ^ 32 }
      signalExt s (getF s (stReg e 0x120) 0 16) false 1
    | (_, s) => s
  | (_, s) => s

/-- A frame that a steering entry matches: coloured, then delivered or dropped (R463, R464). -/
def steerFrame (s : State) (e port : Nat) (x : RxEth) (l : List Byte) : State :=
  let len := l.length + 4
  let dei := match x.tci with | some t => bitAt t 12 | none => false
  let on := getF s (stReg e 0x110) 24 1 = 1
  let (colour, st) := if on then police s e len dei else (0, getSteer s e)
  let s := setSteer s e st
  if colour = 2 then bump32 s (stReg e 0x148) 1
  else
    let s := if !on then s else bump64 s (stReg e (if colour = 0 then 0x138 else 0x140)) 1
    let room := steerRoom s e
    let size : Int := 2 ^ getF s (stReg e 0x110) 16 4
    if room < 1 ∨ (colour = 1 ∧ room < size / 4) then bump32 s (stReg e 0x14C) 1 else steerPut s e port colour l

/-! ### DEPTH_SAMPLE (R466) -/

/-- Queues that hold frames or show a depth. -/
def depthQueues (s : State) : List Nat :=
  ((s.net.queues.map Prod.fst) ++ ((s.bus.words.map Prod.fst).filter (fun k => k % 2 ^ 26 = reg .weir 1 0x154)).map (fun k => k / 2 ^ 26 - 1)).eraseDups

/-- Latch the depth of every queue. -/
def depthSample (s : State) : State :=
  (depthQueues s).foldl (fun s q =>
    let d := BitVec.ofNat 32 (min 0xFFFFFF (((getQueue s q).frames.map Frame.len).foldl (· + ·) 0))
    let s := setW s (qReg q 0x154) d
    if (getW s (qReg q 0x158)).toNat < d.toNat then setW s (qReg q 0x158) d else s) s

def execDepthSample (s : State) : Res := done (depthSample s)

end Sys2Proof.Machine
end

