-- ==== Sys2Proof/Machine/Bolters.lean ====
section
/-! DEFINITION. The bolters (chapter 15): ring sets (R411, R412), units and their order (R413, R414, R422), results (R416), parity
errors (R424). -/
namespace Sys2Proof.Machine

def getSet (s : State) (i : Nat) : BolSet := mget BolSet.empty s.bol.sets i
def setSet (s : State) (i : Nat) (x : BolSet) : State := { s with bol := { s.bol with sets := mset BolSet.empty s.bol.sets i x } }

/-- A register of ring set `i`. -/
def bolReg (i off : Nat) : Nat := reg .bol i off

/-- Whether ring `r` of a set is enabled. -/
def ringOn (s : State) (i r : Nat) : Bool := getF s (bolReg i 0x224) r 1 = 1

/-- Tail and done objects of a ring. -/
def ringTail (s : State) (i r : Nat) : Nat := getF s (bolReg i (0x21C + 4 * r)) 0 16
def ringDone (s : State) (i r : Nat) : Nat := getF s (bolReg i (0x21C + 4 * r)) 16 16

/-- Entries of a ring, and its base. -/
def ringSize (s : State) (i r : Nat) : Nat := 2 ^ getF s (bolReg i 0x218) (8 * r) 4
def ringBase (s : State) (i r : Nat) : Nat := (getD64 s (bolReg i (0x208 + 8 * r))).toNat

/-- The partition to which a set is bound. -/
def setPartOf (s : State) (i : Nat) : Option Nat := if getF s (bolReg i 0x200) 31 1 = 1 then some (getF s (bolReg i 0x200) 0 5) else none

/-- The next descriptor of a ring. -/
def BolSet.next (x : BolSet) (r : Nat) : Nat := if r = 0 then x.next0 else x.next1
def BolSet.setNext (x : BolSet) (r j : Nat) : BolSet := if r = 0 then { x with next0 := j } else { x with next1 := j }

/-! ### BOLTER_RING_ENABLE, BOLTER_RING_DISABLE (R411, R424) -/

/-- Enable ring `r` of set `i`, or refuse to (R411). Its first descriptor is the one after those done. -/
def bolterEnable (s : State) (i r : Nat) : State :=
  if ringOn s i r then s
  else
    let refuse := raiseErr s .bol 0 8
    match setPartOf s i with
    | none => refuse
    | some p =>
      if !isRadio s p ∨ !counterOf s p (ringTail s i r) ∨ !counterOf s p (ringDone s i r)
          ∨ !granulesAdmit s p (ringBase s i r) (64 * ringSize s i r) true then refuse
      else
        let x := getSet s i
        let x := x.setNext r (getObj s (ringDone s i r)).value.toNat
        let s := setSet s i { x with stop := putBits x.stop r 1 0 }
        domsFollow (setF s (bolReg i 0x224) r 1 1)

/-- Disable ring `r` of set `i`: its units stop, with no done signal. -/
def bolterDisable (s0 : State) (i r : Nat) : State :=
  let s := recount s0 (domsFollow (setF s0 (bolReg i 0x224) r 1 0))
  let x := getSet s i
  let x := ({ x with descs := x.descs.filter (fun d => d.ring ≠ r), stop := putBits x.stop r 1 0 }).setNext r 0
  setSet { s with bol := { s.bol with units := s.bol.units.filter (fun u => u.2.set ≠ i || u.2.ring ≠ r) } } i x

def execBolterRingEnable (i : Fin 8) (r : Fin 2) (s : State) : Res := done (gated s .bol i (fun s => bolterEnable s i r))
def execBolterRingDisable (i : Fin 8) (r : Fin 2) (s : State) : Res := done (gated s .bol i (fun s => bolterDisable s i r))

/-! ### DESCRIPTOR_FETCH (R412, R414) -/

/-- Descriptors of a partition in flight. -/
def inFlight (s : State) (p : Nat) : Nat := ((bolSets s p).map (fun i => (getSet s i).descs.length)).foldl (· + ·) 0

/-- A descriptor as it enters the bolters: a bad one, and one that could not be read, has no units (R416). -/
def newDesc (r j ord : Nat) : DevRes → BolDesc
  | .ok d =>
    if descOk r d then ⟨r, j, d, List.range (dUnits d), dUnits d, 0, 0, 0, [], ord⟩
    else ⟨r, j, d, [], 0, 2, 0, 0, [], ord⟩
  | .denied => ⟨r, j, [], [], 0, 3, 0, 0, [], ord⟩
  | .bad => ⟨r, j, [], [], 0, 4, 0, 0, [], ord⟩

/-- Read the next descriptor of a ring, or stop the ring on an overrun. -/
def descFetch (s : State) (i r : Nat) (upset : List (Nat × Nat)) : State :=
  match setPartOf s i with
  | none => s
  | some p =>
    let x := getSet s i
    let tail := (getObj s (ringTail s i r)).value
    let done := (getObj s (ringDone s i r)).value
    if !ringOn s i r || bitAt x.stop r then s
    else if (ringSize s i r : Int) < (tail - done).toInt then
      setSet (setF s (bolReg i 0x22C) 0 1 1) i { x with stop := putBits x.stop r 1 1 }
    else if (tail - BitVec.ofNat 32 (x.next r)).toInt ≤ 0 || 64 ≤ inFlight s p then s
    else
      let j := x.next r
      let (res, s) := devRead (upsetLines s upset) p (ringBase s i r + 64 * (j % ringSize s i r)) 64 true none
      let x := getSet s i
      let d := newDesc r j s.bol.fetched res
      let s := { s with bol := { s.bol with fetched := s.bol.fetched + 1 } }
      setSet s i ({ x with descs := x.descs ++ [d] }.setNext r ((j + 1) % 2 ^ 32))

def execDescriptorFetch (i : Fin 8) (r : Fin 2) (upset : List (Nat × Nat)) (s : State) : Res := done (descFetch s i r upset)

/-! ### UNIT_START (R413, R414, R422) -/

/-- The range of a descriptor's soft buffer. -/
def BolDesc.soft (d : BolDesc) : Nat × Nat :=
  (dSoft d.bytes, dSoft d.bytes + dC d.bytes * (ceilDiv (dNcb d.bytes * dSoftW d.bytes) 512 * 64))

/-- Whether an earlier descriptor of the partition that has not completed shares soft bytes with `d` (R414). -/
def softBlocked (s : State) (p : Nat) (d : BolDesc) : Bool :=
  dSofts d.bytes && (bolSets s p).any (fun i => (getSet s i).descs.any (fun e =>
    e.ord < d.ord && dSofts e.bytes && e.result ≠ 2 && e.soft.1 < d.soft.2 && d.soft.1 < e.soft.2))

/-- The first descriptor of a ring with units left, unless it must wait. -/
def ringWork (s : State) (p i r : Nat) : Option BolDesc :=
  match (getSet s i).descs.find? (fun d => d.ring = r ∧ d.todo ≠ []) with
  | some d => if softBlocked s p d then none else some d
  | none => none

/-- The descriptor that a set works on next: its rings alternate. -/
def setWork (s : State) (p i : Nat) : Option BolDesc :=
  let t := (getSet s i).turn
  match ringWork s p i t with
  | some d => some d
  | none => ringWork s p i (1 - t)

/-- The set of a partition with a unit to run, and its descriptor; the lowest set first. -/
def partWork (s : State) (p : Nat) : Option (Nat × BolDesc) :=
  (bolSets s p).findSome? (fun i => (setWork s p i).map (fun d => (i, d)))

/-- The partition to serve: least service per share (R422). -/
def bolterPick (s : State) : Option Nat :=
  let want := (List.range 32).filter (fun p => isRadio s p && (partWork s p).isSome)
  let due (p : Nat) : Nat := mget 0 s.bol.served p + 1
  let share (p : Nat) : Nat := (getPart s p).desc.bolter
  match want with
  | [] => none
  | h :: t => some (t.foldl (fun b p => if due p * share b < due b * share p then p else b) h)

/-- Replace a descriptor in flight. -/
def putDesc (s : State) (i : Nat) (d : BolDesc) : State :=
  let x := getSet s i
  setSet s i { x with descs := x.descs.map (fun e => if e.ord = d.ord then d else e) }

/-- A free bolter takes the next unit. -/
def unitStart (s : State) (b : Nat) : State :=
  if bolterRole s b ≠ 0 || bolterFenced s b || (mfind s.bol.units b).isSome then s
  else
    match bolterPick s with
    | none => s
    | some p =>
      match partWork s p with
      | some (i, d) =>
        match d.todo with
        | cb :: r =>
          let s := putDesc s i { d with todo := r }
          let x := getSet s i
          let s := setSet s i { x with turn := if r = [] then 1 - d.ring else d.ring }
          let s := { s with bol := { s.bol with
            units := mput s.bol.units b ⟨i, d.ring, d.idx, cb, nowNs s⟩
            served := mput s.bol.served p (mget 0 s.bol.served p + 1) } }
          if (bolterPick s).isNone then { s with bol := { s.bol with served := [] } } else s
        | [] => s
      | none => s

def execUnitStart (b : Fin 20) (s : State) : Res := done (unitStart s b)

/-! ### UNIT_DONE (R416 to R421) -/

/-- What running one unit gave: its bits, the iterations run, whether its CRC24B failed, whether its polar CRC failed. -/
inductive UnitRes where
  | ok (bits : List Bool) (it : Nat) (cbFail polFail : Bool)
  | denied
  | bad

/-- An unsuccessful transfer of a unit. -/
def UnitRes.ofDev : DevRes → UnitRes
  | .denied => .denied
  | _ => .bad

/-- The stored soft values of a code block, read with COMBINE only (R418, R419). -/
def softRead (s : State) (p : Nat) (d : List Byte) (r : Nat) : DevRes × State :=
  if dFlag d 1 then devRead s p (softAt d r) (softLen d) true none else (.ok [], s)

/-- Store the combined values with STORE_SOFT. -/
def softWrite (s : State) (p : Nat) (d : List Byte) (r : Nat) (v : List Int) : DevRes × State :=
  if dFlag d 2 then devWrite s p (softAt d r) (softBytes d v) true none else (.ok [], s)

/-- An LDPC decode unit. -/
def runLdpcDec (s : State) (p : Nat) (d : List Byte) (r : Nat) : UnitRes × State :=
  let n := dEr d r
  let off := dEOfs d r
  match devRead s p (dIn d + dLlr d * off) (dLlr d * n) true none with
  | (.ok raw, s) =>
    match softRead s p d r with
    | (.ok old, s) =>
      let cb := dematch d (deinterleave 0 (dQm d) (llrsOf d off raw n))
      let v := if dFlag d 1 then combine d cb old else cb
      match softWrite s p d r v with
      | (.ok _, s) =>
        let (bits, it) := ldpcDecode d r v
        let bits := bits.take (dKp d)
        let body := bits.take (dKp d - dL d)
        (.ok body it (dL d ≠ 0 && cbCrc body ≠ bits.drop (dKp d - dL d)) false, s)
      | (x, s) => (.ofDev x, s)
    | (x, s) => (.ofDev x, s)
  | (x, s) => (.ofDev x, s)

/-- A polar decode unit. -/
def runPolarDec (s : State) (p : Nat) (d : List Byte) (r : Nat) : UnitRes × State :=
  let n := polarE d
  match devRead s p (dIn d + dLlr d * (n * r)) (dLlr d * n) true none with
  | (.ok raw, s) =>
    let (bits, ok) := polarDecode d (llrsOf d (n * r) raw n)
    (.ok bits 0 false (!ok), s)
  | (x, s) => (.ofDev x, s)

/-- An encode unit. -/
def runEnc (s : State) (p : Nat) (d : List Byte) (r : Nat) : UnitRes × State :=
  match devRead s p (dIn d) (ceilDiv (dA d) 8) true none with
  | (.ok l, s) =>
    let payload := (bytesBits l).take (dA d)
    let bits := if dOp d = 1 then ldpcEncode d payload r
      else Config.polarCode (dBg d) (polarA d) (polarE d) (dRnti d) (polarPart d payload r)
    (.ok bits 0 false false, s)
  | (x, s) => (.ofDev x, s)

/-- Run a unit. -/
def runUnit (s : State) (p : Nat) (d : List Byte) (r : Nat) : UnitRes × State :=
  match dOp d with
  | 2 => runLdpcDec s p d r
  | 4 => runPolarDec s p d r
  | _ => runEnc s p d r

/-- The output of a descriptor whose units all ran, and whether a CRC failed. -/
def descOutput (d : BolDesc) : List Bool × Bool :=
  let l := (List.range (dUnits d.bytes)).flatMap (fun r => mget [] d.bits r)
  match dOp d.bytes with
  | 2 => let a := l.take (dA d.bytes); (a, tbBits a ≠ l)
  | 4 => (l.drop (l.length - dA d.bytes), false)
  | _ =>
    let g := dG d.bytes
    let l := (l ++ List.replicate (g - l.length) false).take g
    (if dFlag d.bytes 0 then List.zipWith xor l (goldBits (dCinit d.bytes) 0 g) else l, false)

/-- A descriptor is damaged: units not taken are skipped; an uncorrectable read flags the slot (R416). -/
def descFail (s : State) (p i : Nat) (d : BolDesc) (code : Nat) : State :=
  let s := putDesc s i { d with todo := [], undone := d.undone - d.todo.length, result := if d.result < 2 then code else d.result }
  let c := getCell s (dCell d.bytes)
  if code = 4 ∧ cellBound s (dCell d.bytes) ∧ c.part = p then
    setCell s (dCell d.bytes) (c.setSlot (dSlot d.bytes) { c.slot (dSlot d.bytes) with damaged := true })
  else s

/-- The last unit of a descriptor is done: the output is written. -/
def descWrite (s : State) (p i : Nat) (d : BolDesc) : State :=
  let (bits, bad) := descOutput d
  match devWrite s p (dOut d.bytes) (bitsBytes bits) true none with
  | (.ok _, s) => putDesc s i { d with result := if bad then 1 else d.result }
  | (.denied, s) => descFail s p i d 3
  | (.bad, s) => descFail s p i d 4

/-- What became of a unit is noted in its descriptor. -/
def unitNote (s : State) (p i : Nat) (d : BolDesc) (cb : Nat) : UnitRes → State
  | .ok bits it cbFail polFail =>
    let d := { d with
      undone := d.undone - 1, iter := max d.iter it, fails := min 0xFFFF (d.fails + b2n cbFail), bits := mput d.bits cb bits
      result := if d.result = 0 && polFail then 1 else d.result }
    if d.undone = 0 && d.result < 2 then descWrite s p i d else putDesc s i d
  | .denied => descFail s p i { d with undone := d.undone - 1 } 3
  | .bad => descFail s p i { d with undone := d.undone - 1 } 4

/-- A bolter finishes its unit. -/
def unitDone (s : State) (b : Nat) (upset : List (Nat × Nat)) : State :=
  match mfind s.bol.units b with
  | none => s
  | some u =>
    let s := { s with bol := { s.bol with units := mdel s.bol.units b } }
    match (getSet s u.set).descs.find? (fun d => d.ring = u.ring ∧ d.idx = u.idx), setPartOf s u.set with
    | some d, some p =>
      let (res, s) := runUnit (upsetLines s upset) p d.bytes u.cb
      let it := match res with | .ok _ it _ _ => it | _ => 0
      let s := bump64 (bump64 (bump64 s (reg .bol b 0x100) 1) (reg .bol b 0x108) (unitClocks d.bytes u.cb it)) (reg .bol b 0x110) it
      unitNote s p u.set d u.cb res
    | _, _ => s

def execUnitDone (b : Fin 20) (upset : List (Nat × Nat)) (s : State) : Res := done (unitDone s b upset)

/-! ### DESCRIPTOR_COMPLETE (R413, R415) -/

/-- The oldest descriptor of a ring completes once every unit of it has finished: its result bytes are written and the done object
rises. -/
def descComplete (s : State) (i r : Nat) : State :=
  match (getSet s i).descs.find? (fun d => d.ring = r), setPartOf s i with
  | some d, some p =>
    if d.todo ≠ [] ∨ d.undone ≠ 0 then s
    else
      let a := ringBase s i r + 64 * (d.idx % ringSize s i r)
      let l := toLE 1 d.result ++ toLE 1 d.iter ++ toLE 2 d.fails ++ toLE 4 d.idx
      let s := (devWrite s p (a + 56) l true none).2
      let x := getSet s i
      let s := setSet s i { x with descs := x.descs.filter (fun e => e.ord ≠ d.ord) }
      let s := bump64 s (bolReg i 0x230) 1
      let s := if d.result = 1 then bump32 s (bolReg i 0x238) 1 else s
      signalExt s (ringDone s i r) false 1
  | _, _ => s

def execDescriptorComplete (i : Fin 8) (r : Fin 2) (s : State) : Res := done (descComplete s i r)

/-! ### BOLTER_PARITY (R424, R554) -/

/-- The unit that a bolter ran goes back to its descriptor. -/
def unitBack (s : State) (b : Nat) : State :=
  match mfind s.bol.units b with
  | none => s
  | some u =>
    let s := { s with bol := { s.bol with units := mdel s.bol.units b } }
    match (getSet s u.set).descs.find? (fun d => d.ring = u.ring ∧ d.idx = u.idx) with
    | some d => if d.result < 2 then putDesc s u.set { d with todo := u.cb :: d.todo } else putDesc s u.set { d with undone := d.undone - 1 }
    | none => s

/-- A parity error in a bolter: its unit is rerun, the bolter is retired, and a spare takes its logical number. -/
def bolterParity (s : State) (b : Nat) : State :=
  if bolterRole s b = 2 then s
  else
    let s := unitBack (bump32 s (reg .bol b 0x118) 1) b
    let s := errRecord s .bol b 11 2 62 b 0
    if bolterRole s b = 1 then dtAdd s 6 b noSpare
    else
      match (List.range 20).find? (fun i => bolterRole s i = 1 && !bolterFenced s i) with
      | some sp => raiseInt (dtAdd s 6 b sp) .bol 0 1
      | none => dtAdd s 6 b noSpare

def execBolterParity (b : Fin 20) (s : State) : Res := done (bolterParity s b)

end Sys2Proof.Machine
end

