-- ==== Sys2Proof/Machine/Digest.lean ====
section
/-! DEFINITION. Digest records: digest rings (R536, R537), the publish area (R538) and the shadow's comparisons (R539 to R541). -/
namespace Sys2Proof.Machine

/-! ### DIG_ENABLE (R537, R543) -/

/-- A write of `DIG_CTRL` of slice `sl`: while the ring is enabled only ENABLE can change. -/
def digCtrl (s : State) (sl : Nat) (v : Word) : State :=
  let a := ringReg sl 0x138
  let want := bitAt v.toNat 0
  if getF s a 0 1 = 1 then (if want then s else setF s a 0 1 0)
  else if bitsAt v.toNat 4 4 < 4 ∨ 12 < bitsAt v.toNat 4 4 then invalidWrite s .hif 1
  else
    let s := setW s a (v &&& 0xF2)
    if !want then s
    else
      let x := getSlice s sl
      let obj := (getW s (ringReg sl 0x13C)).toNat
      if x.st = .none ∨ !counterOf s x.part (obj % 2 ^ 16) ∨ !counterOf s x.part (obj / 2 ^ 16)
          ∨ !granulesAdmit s x.part (getD64 s (ringReg sl 0x130)).toNat (32 * 2 ^ bitsAt v.toNat 4 4) true
          ∨ !granulesAdmit s x.part (getD64 s (ringReg sl 0x140)).toNat 4096 true then raiseErr s .hif 1 10
      else
        let s := [0x158, 0x15C, 0x160, 0x164, 0x168].foldl (fun s o => setW s (ringReg sl o) 0) (setF s a 0 1 1)
        { s with hif := { s.hif with digNext := mset 0 s.hif.digNext sl (getObj s (obj % 2 ^ 16)).value.toNat } }

def execDigEnable (v : Word) (s : State) : Res := done (gated s .hif 1 (fun s => digCtrl s (getF s (reg .hif 1 0x100) 0 13) v))

/-! ### Delivery (R536, R537, R540) -/

/-- The 32 bytes of a digest record. -/
def digBytes (r : DigRec) (emit cmp : Nat) : List Byte :=
  toLE 8 r.digest.toNat ++ toLE 4 r.tensor ++ toLE 4 r.layer ++ toLE 4 r.inst ++ toLE 4 emit ++ toLE 1 r.point ++ toLE 1 cmp ++ [1]
    ++ List.replicate 5 0

/-- Count a record that is dropped. -/
def digDrop (s : State) (sl : Nat) : State := bump32 s (ringReg sl 0x160) 1

/-- Count the outcome of a comparison: 2 MISMATCH; 3 NOT_AVAILABLE, 4 CMP_ERROR, 5 SKIPPED. -/
def digCount (s : State) (sl cmp : Nat) : State :=
  if cmp = 2 then raiseInt (bump32 s (ringReg sl 0x164) 1) .hif 1 1
  else if 3 ≤ cmp then bump32 s (ringReg sl 0x168) 1
  else s

/-- Deliver a record to the ring of its slice, or drop it while the ring is full or disabled. -/
def digDeliver (s : State) (r : DigRec) (emit cmp : Nat) : State :=
  let s := digCount s r.slice cmp
  let obj := (getW s (ringReg r.slice 0x13C)).toNat
  let j : Nat := mget 0 s.hif.digNext r.slice
  let size : Nat := 2 ^ getF s (ringReg r.slice 0x138) 4 4
  let room := (getObj s (obj / 2 ^ 16)).value - BitVec.ofInt 32 ((j : Int) - (size : Int) + 1)
  if getF s (ringReg r.slice 0x138) 0 1 = 0 ∨ room.toInt < 0 then digDrop s r.slice
  else
    match devWrite s r.part ((getD64 s (ringReg r.slice 0x130)).toNat + 32 * (j % size)) (digBytes r emit cmp) true none with
    | (.ok _, s) =>
      let s := { s with hif := { s.hif with digNext := mset 0 s.hif.digNext r.slice (j + 1) } }
      bump64 (signalExt s (obj % 2 ^ 16) false 1) (ringReg r.slice 0x158) 1
    | (_, s) => digDrop s r.slice

/-! ### DIGEST_PUBLISH (R538, R539) -/

/-- Where the slot of an emission lies behind a publish area's base. -/
def digSlot (r : DigRec) (emit : Nat) : Nat := (16 * r.inst + r.point) * 256 + 32 + 32 * ((emit - 1) % 4)

/-- Steps 1 to 3: the emission number, once the record and COUNT are in the publish area. -/
def digPublish (s : State) (r : DigRec) : Option Nat × State :=
  let base := (getD64 s (ringReg r.slice 0x140)).toNat
  let block := base + (16 * r.inst + r.point) * 256
  match devRead s r.part block 4 true none with
  | (.ok l, s) =>
    let n := (leAt l 0 4 + 1) % 2 ^ 32
    match devWrite s r.part (base + digSlot r n) (digBytes r n 0) true none with
    | (.ok _, s) =>
      match devWrite s r.part block (toLE 4 n) true none with
      | (.ok _, s) => (some n, s)
      | (_, s) => (none, s)
    | (_, s) => (none, s)
  | (_, s) => (none, s)

/-- The comparisons of a slice that are pending. -/
def digPending (s : State) (sl : Nat) : List DigCmp := s.hif.digCmps.filter (fun c => c.rcd.slice = sl)

/-- The read of the primary's slot passes the fabric check and leaves, or the comparison ends in error. -/
def digRead (s : State) (c : DigCmp) : Bool × State :=
  match fabCheck s c.rcd.part ((getD64 s (ringReg c.rcd.slice 0x148)).toNat + digSlot c.rcd c.emit) 32 false with
  | (.pass dpid addr, s) => (true, fabSend s c.rcd.part ⟨.read, dpid, BitVec.ofNat 64 addr, []⟩)
  | (.fault _, s) => (false, s)

/-- A comparison begins (R539, R540). -/
def digCompare (s : State) (r : DigRec) (n : Nat) : State :=
  if 64 ≤ (digPending s r.slice).length then digDeliver s r n 5
  else
    let c : DigCmp := ⟨r, n, nowNs s, none⟩
    match digRead s c with
    | (true, s) => { s with hif := { s.hif with digCmps := s.hif.digCmps ++ [c] } }
    | (false, s) => digDeliver s r n 4

/-- The HIF takes up the oldest emission of a slice. -/
def digestPublish (s : State) (sl : Nat) (upset : List (Nat × Nat)) : State :=
  match s.hif.digQ.find? (fun r => r.slice = sl) with
  | none => s
  | some r =>
    let s := upsetLines { s with hif := { s.hif with digQ := s.hif.digQ.erase r } } upset
    if getF s (ringReg sl 0x138) 0 1 = 0 then digDrop s sl
    else
      match digPublish s r with
      | (none, s) => digDrop s sl
      | (some n, s) =>
        if getF s (ringReg sl 0x138) 1 1 = 1 ∧ bitAt (getW s (reg .hif 0 0x100)).toNat r.part then digCompare s r n
        else digDeliver s r n 0

def execDigestPublish (n : BitVec 13) (upset : List (Nat × Nat)) (s : State) : Res := done (digestPublish s n.toNat upset)

/-! ### Judging (R540) -/

/-- A comparison ends and its record is delivered. -/
def digEnd (s : State) (c : DigCmp) (cmp : Nat) : State :=
  digDeliver { s with hif := { s.hif with digCmps := s.hif.digCmps.erase c } } c.rcd c.emit cmp

/-- The last moment of a comparison's wait. -/
def digUntil (s : State) (c : DigCmp) : Nat := c.since + getF s (ringReg c.rcd.slice 0x150) 0 20 * 1000

/-- Replace a pending comparison. -/
def digPut (s : State) (c c' : DigCmp) : State :=
  { s with hif := { s.hif with digCmps := s.hif.digCmps.map (fun x => if x = c then c' else x) } }

/-- What a slot of the primary says of an emission: its CMP, or none while the primary has not come to it. -/
def digJudge (r : DigRec) (n : Nat) (l : List Byte) : Option Nat :=
  let emit := leAt l 20 4
  if !bitAt (leAt l 26 1) 0 ∨ emit < n then none
  else if n < emit then some 3
  else if leAt l 0 8 = r.digest.toNat ∧ leAt l 8 4 = r.tensor ∧ leAt l 12 4 = r.layer then some 1
  else some 2

/-- The read of pending comparison `i` of a slice returns, with the slot's 32 bytes or with an error. -/
def compareReturn (s : State) (sl i : Nat) (data : Option (List Byte)) : State :=
  match (digPending s sl)[i]? with
  | none => s
  | some c =>
    if c.retryAt.isSome then s
    else
      match data with
      | none => digEnd s c 4
      | some l =>
        match digJudge c.rcd c.emit l with
        | some cmp => digEnd s c cmp
        | none => if digUntil s c ≤ nowNs s then digEnd s c 3 else digPut s c { c with retryAt := some (nowNs s + 1000) }

def execCompareReadReturn (n : BitVec 13) (i : Fin 64) (data : Option (List (BitVec 8))) (s : State) : Res :=
  done (compareReturn s n.toNat i data)

/-- 1 µs after a read that found nothing, the slot is read again. -/
def compareRetry (s : State) (sl i : Nat) : State :=
  match (digPending s sl)[i]? with
  | none => s
  | some c =>
    match c.retryAt with
    | none => s
    | some t =>
      if nowNs s < t ∨ digUntil s c ≤ nowNs s then s
      else
        match digRead s c with
        | (true, s) => digPut s c { c with retryAt := none }
        | (false, s) => digEnd s c 4

def execCompareRetry (n : BitVec 13) (i : Fin 64) (s : State) : Res := done (compareRetry s n.toNat i)

/-- `DIG_WAIT_US` has run out while no read is outstanding. -/
def digWaitOver (s : State) (sl i : Nat) : State :=
  match (digPending s sl)[i]? with
  | none => s
  | some c => if c.retryAt.isSome ∧ digUntil s c ≤ nowNs s then digEnd s c 3 else s

def execDigWaitExpiry (n : BitVec 13) (i : Fin 64) (s : State) : Res := done (digWaitOver s n.toNat i)

end Sys2Proof.Machine
end

