-- ==== Sys2Proof/Machine/Ports.lean ====
section
/-! DEFINITION. The Ethernet ports (chapter 16): received frames (R433, R434, R439, R462), ESMC (R432), modes, lanes and links (R427 to
R429), recovered clocks (R430, R431). -/
namespace Sys2Proof.Machine

/-! ### Frame recovery (R433, R434) -/

/-- What the vector recovery algorithm makes of a sequence number: 0 passes, 1 eliminated, 2 rogue, with the state it leaves. -/
def recover (x : Option Recovery) (seq now resetNs : Nat) : Nat × Option Recovery :=
  match x with
  | none => (0, some ⟨seq, 1, now⟩)
  | some r =>
    let d := sext 16 ((seq + 65536 - r.top) % 65536)
    if 32 ≤ d ∨ d ≤ -32 then
      if resetNs < now - r.at_ then (0, some ⟨seq, 1, now⟩) else (2, some r)
    else if 0 < d then (0, some ⟨seq, (r.hist * 2 ^ d.toNat + 1) % 2 ^ 32, now⟩)
    else
      let i := d.natAbs
      if bitAt r.hist i then (1, some r) else (0, some ⟨r.top, r.hist + 2 ^ i, now⟩)

/-- Pass a received frame of a flow through elimination: whether it goes on (R433). A frame of the flow without a number is a rogue. -/
def frerPass (s : State) (f : Nat) (x : RxEth) : Bool × State :=
  match mfind s.net.flows f with
  | none => (false, s)
  | some y =>
    if !(flowDesc s f).frer then (true, s)
    else match x.rtag with
      | none => (false, bump32 s (sluReg f 0x128) 1)
      | some seq =>
        let (v, r) := recover y.rec_ seq (nowNs s) (getF s (reg .eth 0 0x30C) 0 16 * 1000)
        let s := { s with net := { s.net with flows := mput s.net.flows f { y with rec_ := r } } }
        if v = 0 then (true, s)
        else if v = 1 then (false, bump64 s (sluReg f 0x120) 1)
        else (false, bump32 s (sluReg f 0x128) 1)

/-! ### Matching a flow (R439) -/

/-- The eCPRI message in a frame under a flow's encapsulation: its bytes and whether the checksums are right. -/
def ecpriIn (d : FlowDesc) (x : RxEth) : Option (List Byte × Bool) :=
  if !d.udp then (if x.etype = 0xAEFE ∧ x.smac = ofBE d.ruMac then some (x.body, true) else none)
  else match parseUdp x with
    | some u => if u.src = d.ruIp ∧ u.dport = d.udpPort then some (u.body, u.good) else none
    | none => none

/-- Whether a flow matches a frame that arrived on a port: its message, the eAxC offset, and whether the checksums are right. -/
def flowHit (s : State) (port : Nat) (x : RxEth) (f : Nat) : Option (Nat × List Byte × Nat × Bool) :=
  let d := flowDesc s f
  if !d.ports.contains port then none
  else match ecpriIn d x with
    | some (m, good) =>
      let pc := beAt m 4 2
      if d.eaxc ≤ pc ∧ pc < d.eaxc + 16 then some (f, m, pc - d.eaxc, good) else none
    | none => none

/-- The flow that a frame matches. -/
def flowMatch (s : State) (port : Nat) (x : RxEth) : Option (Nat × List Byte × Nat × Bool) :=
  (s.net.flows.map Prod.fst).findSome? (flowHit s port x)

/-- Note the sequence ID of a received message; skipped values are counted (R439). -/
def noteSeq (s : State) (f ax seq : Nat) : State :=
  match mfind s.net.flows f with
  | none => s
  | some x =>
    let gap := match mfind x.rxSeq ax with | some l => decide (seq ≠ (l + 1) % 256) | none => false
    let s := { s with net := { s.net with flows := mput s.net.flows f { x with rxSeq := mput x.rxSeq ax seq } } }
    if gap then bump32 s (sluReg f 0x11C) 1 else s

/-- A message that passed elimination (R426, R439): only IQ data of revision 1, with the E bit 1 and subsequence 0, goes on. -/
def sluiceIn (s : State) (port f ax : Nat) (m : List Byte) : State :=
  if leAt m 0 1 / 16 ≠ 1 ∨ leAt m 0 1 % 2 = 1 ∨ leAt m 1 1 ≠ 0 then bump32 s (reg .eth port 0x130) 1
  else
    let s := noteSeq s f ax (leAt m 6 1)
    if leAt m 7 1 ≠ 0x80 then s else ulMessage s f ax ((m.drop 8).take (beAt m 2 2 - 4))

/-! ### FRAME_RECEIVE (R432, R439, R462) -/

/-- A slow-protocol frame of the ESMC: placed whole in the port's FIFO of 8 frames (R432). -/
def esmcIn (s : State) (port : Nat) (l : List Byte) : State :=
  let x := getPort s port
  if 8 ≤ x.esmc.length ∨ 128 < l.length then s
  else raiseInt (setPort s port { x with esmc := x.esmc ++ [l] }) .eth port 2

/-- A frame received on a port, without its FCS; `good` when the FCS is right (R462). -/
def frameReceive (s : State) (port : Nat) (l : List Byte) (good : Bool) : State :=
  if !(getPort s port).up then s
  else
    let s := bump64 s (reg .eth port 0x110) 1
    if !good then bump32 s (reg .eth port 0x12C) 1
    else
      let x := parseEth l
      if x.etype = 0x88F7 then ptpArrives s port l
      else if x.etype = 0x8809 ∧ leAt x.body 0 1 = 0x0A then esmcIn s port l
      else match flowMatch s port x with
        | some (f, m, ax, sums) =>
          if !sums then bump32 s (reg .eth port 0x12C) 1
          else match frerPass s f x with
            | (true, s) => sluiceIn s port f ax m
            | (false, s) => s
        | none =>
          match steerMatch s x with
          | some e => steerFrame s e port x l
          | none => bump32 s (reg .eth port 0x130) 1

def execFrameReceive (port : Fin 16) (bytes : List (BitVec 8)) (good : Bool) (s : State) : Res := done (frameReceive s port bytes good)

/-! ### ESMC registers (R432, R450) -/

/-- A write of `ESMC_TX_LEN`: the frame held at `ESMC_TX` is sent once. -/
def esmcSend (s : State) (port n : Nat) : State :=
  gated s .eth port (fun s =>
    if n = 0 ∨ 128 < n then invalidWrite s .eth port
    else
      let l := (List.range 32).flatMap (fun i => toLE 4 (getW s (reg .eth port (0x280 + 4 * i))).toNat)
      pushFrame s (96 * port + 65) ⟨padFrame (l.take n), none, nowNs s, none, none⟩)

def execEsmcTxLen (port : Fin 16) (n : BitVec 8) (s : State) : Res := done (esmcSend s port n.toNat)

/-- A write of `ESMC_RX_POP`. -/
def esmcPop (s : State) (port : Nat) : State :=
  gated s .eth port (fun s => setPort s port { getPort s port with esmc := (getPort s port).esmc.drop 1 })

def execEsmcRxPop (port : Fin 16) (s : State) : Res := done (esmcPop s port)

/-! ### Links (R429) -/

/-- LINK_UP of a port changes; a loss is counted (R450). -/
def setUp (s : State) (p : Nat) (up training : Bool) : State :=
  let x := getPort s p
  let s := setPort s p { x with up := up, training := training }
  if x.up = up then s
  else
    let s := if up then s else bump32 s (reg .eth p 0x138) 1
    raiseInt s .eth p 1

/-- A configuration write takes the link of a running port down and retrains it. -/
def retrain (s : State) (p : Nat) : State := setUp s p false (portMode s p ≠ 0)

/-- Whether MODE `m` of port `p` breaks R427. -/
def modeConflict (s : State) (p m : Nat) : Bool :=
  m ≠ 0 && (portConsumed s p || p % modeLanes m ≠ 0
    || (List.range 16).any (fun q => p < q && q < p + modeLanes m && portMode s q ≠ 0))

/-- A write of MODE of a port (R427, R429). -/
def modeWrite (s : State) (p m : Nat) : State :=
  if modeConflict s p m then raiseErr s .eth p 8 else domsFollow (retrain (setF s (reg .eth p 0x10) 0 2 m) p)

def execModeWrite (p : Fin 16) (m : Fin 4) (s : State) : Res := done (modeWrite s p m)

/-- The lanes that a LANE_MAP value binds (R428, R450). -/
def lanesOf (v : Nat) : List Nat := ([0, 8, 16, 24].map (fun o => bitsAt v o 5)).filter (fun l => l ≠ 31)

/-- A write of `LANE_MAP` of a port (R428, R429). -/
def laneMapWrite (s : State) (p : Nat) (v : Word) : State :=
  gated s .eth p (fun s =>
    let ls := lanesOf v.toNat
    let others := ((List.range 16).filter (fun q => q ≠ p)).flatMap (fun q => lanesOf (getW s (reg .eth q 0x100)).toNat)
    if ls.any (fun l => 18 ≤ l) then invalidWrite s .eth p
    else if ls.eraseDups ≠ ls ∨ ls.any (fun l => others.contains l) then raiseErr s .eth p 9
    else
      let s := domsFollow (setW s (reg .eth p 0x100) (v &&& 0x1F1F1F1F))
      if portMode s p = 0 then s else retrain s p)

def execLaneMapWrite (p : Fin 16) (v : Word) (s : State) : Res := done (laneMapWrite s p v)

/-- The link of a port that runs comes up. -/
def linkUp (s : State) (p : Nat) : State := if portMode s p = 0 ∨ portConsumed s p then s else setUp s p true false

def execLinkUp (p : Fin 16) (s : State) : Res := done (linkUp s p)

/-- The link of a port is lost without a write (R449). -/
def execPortDown (p : Fin 16) (s : State) : Res := done (if (getPort s p).up then setUp s p false false else s)

/-! ### Lanes and recovered clocks (R430, R431) -/

/-- The receive signal of a lane comes or goes; a recovered-clock output of the lane is squelched while it is gone. -/
def setSignal (s : State) (l : Nat) (b : Bool) : State := { s with net := { s.net with signal := mset false s.net.signal l b } }

def execLossOfSignal (l : Fin 18) (s : State) : Res := done (setSignal s l false)
def execSignalReturn (l : Fin 18) (s : State) : Res := done (setSignal s l true)

/-- Whether output SYNCE_CLK_OUTn is held low for want of signal. -/
def squelched (s : State) (n : Nat) : Bool :=
  let a := reg .eth 0 (0x300 + 4 * n)
  getF s a 16 1 = 1 && getF s a 0 5 < 18 && !mget false s.net.signal (getF s a 0 5)

/-- A write of `SYNCE_TX_SRC`. -/
def synceSrc (s : State) (src : Bool) : State :=
  gated s .eth 0 (fun s =>
    if (List.range 16).any (fun p => portMode s p ≠ 0) then raiseErr s .eth 0 10 else setF s (reg .eth 0 0x308) 0 1 (b2n src))

def execSynceTxSrcWrite (src : Bool) (s : State) : Res := done (synceSrc s src)

end Sys2Proof.Machine
end

