-- ==== Sys2Proof/Machine/Governor.lean ====
section
/-! DEFINITION. The governor (R489 to R501), mill rows (R505 to R507) and lost clock inputs (R504). -/
namespace Sys2Proof.Machine

/-! ### CAP_WRITE, POWER_WINDOW (R489, R490, R492) -/

/-- A write of `CAP_W`. -/
def capWrite (s : State) (v : Nat) : State :=
  gated s .gov 0 (fun s =>
    let w := v % 1024
    if w < 150 ∨ 550 < w then invalidWrite s .gov 0
    else capClamp (setF (setF s (reg .gov 0 0x100) 0 10 w) (reg .gov 0 0x14) 1 1 0))

def execCapWrite (v : Word) (s : State) : Res := done (capWrite s v.toNat)

/-- B_cap after a window (R492). -/
def updateBcap (b p pc capMw hyst : Nat) : Nat :=
  if capMw < p ∧ 0 < pc then 64 - max 1 ((64 - b) * (pc - (p - capMw)) / pc)
  else if 0 < b ∧ p + hyst ≤ capMw then b - 1
  else b

/-- The end of a window with package power `p` and compute-stone power `pc`, in mW. -/
def powerWindow (s : State) (p pc : Nat) : State :=
  let was := bubble s
  let b := updateBcap s.gov.bCap p pc (capEff s * 1000) (hystMw s)
  bubbleMoved { s with gov := { s.gov with bCap := b, powers := (p :: s.gov.powers).take 1000 } } was

def execPowerWindow (p pc : BitVec 20) (s : State) : Res := done (powerWindow s p.toNat pc.toNat)

/-! ### DVFS_STEP (R494, R500) -/

/-- Rows that may step: those that hold no radio mill. -/
def dvfsRows (s : State) : List Nat := (List.range 16).filter (fun r => !radioRow s r)

/-- Step rows to the points that `f` gives; one record for each new point. -/
def stepRows (s : State) (rows : List Nat) (f : Nat → Nat) : State :=
  let moved := rows.filter (fun r => f (getRow s r).opp ≠ (getRow s r).opp)
  let goal (r : Nat) : Nat := f (getRow s r).opp
  let pts := (List.range 8).filter (fun o => moved.any (fun r => goal r = o))
  let s' := moved.foldl (fun s r => setRow s r { getRow s r with opp := f (getRow s r).opp }) s
  pts.foldl (fun s' o => govEvent s' 3 o (maskOf (moved.filter (fun r => goal r = o))) 0) s'

/-- The dwell of either direction is over and no dip or ramp is in progress: eligible rows step one point. -/
def dvfsStep (s : State) : State :=
  let dwell := getF s (reg .gov 0 0x120) 0 16 * 1000
  let floor := getF s (reg .gov 0 0x120) 16 3
  let late (t : Option Nat) : Bool := match t with | some t => t + dwell ≤ nowNs s | none => false
  if getF s (reg .gov 0 0x120) 31 1 = 0 ∨ s.gov.bDip ≠ 0 then s
  else if late s.gov.highFrom then
    let s := stepRows s (dvfsRows s) (fun o => if o < floor then o + 1 else o)
    { s with gov := { s.gov with highFrom := some (nowNs s) } }
  else if late s.gov.lowFrom then
    let s := stepRows s (dvfsRows s) (fun o => o - 1)
    { s with gov := { s.gov with lowFrom := some (nowNs s) } }
  else s

def execDvfsStep (s : State) : Res := done (dvfsStep s)

/-! ### SOFT_START_RELEASE (R495) -/

/-- A held stone is released once its group's delay is over; it begins to issue. -/
def softRelease (s : State) (site k : Nat) : State :=
  match s.gov.softHeld.find? (fun e => e.1 = site * 4 + k) with
  | some e =>
    if e.2 ≤ nowNs s then
      { s with gov := { s.gov with softHeld := s.gov.softHeld.erase e, starts := s.gov.starts ++ [nowNs s] } }
    else s
  | none => s

def execSoftStartRelease (site : Site) (stone : Fin 4) (s : State) : Res := done (softRelease s site stone)

/-! ### Supply dips (R496) -/

/-- A row's supply falls below WARN: B_dip becomes 63. -/
def dipStart (s : State) (r : Nat) : State :=
  let x := getRow s r
  if x.st = .off ∨ x.dip.isSome then s
  else
    let was := bubble s
    let s := setRow s r { x with dip := some (nowNs s) }
    let s := { s with gov := { s.gov with bDip := 63, dipHold := none, rampAt := none } }
    bubbleMoved (raiseInt s .gov 1 1) was

def execDipStart (r : Fin 16) (s : State) : Res := done (dipStart s r)

/-- A row's supply rises above WARN: the dip is recorded, and once no row dips the hold begins. -/
def dipEnd (s : State) (r mv : Nat) : State :=
  match (getRow s r).dip with
  | none => s
  | some t =>
    let ns := min (nowNs s - t) 0xFFFFFFFF
    let s := setRow s r { getRow s r with dip := none }
    let s := setW s (reg .gov 1 0x110) (BitVec.ofNat 32 (mv + r * 2 ^ 16))
    let s := bump32 (setW s (reg .gov 1 0x114) (BitVec.ofNat 32 ns)) (reg .gov 1 0x10C) 1
    let s := govEvent s 4 r mv ns
    if s.gov.rows.any (fun e => e.2.dip.isSome) then s else { s with gov := { s.gov with dipHold := some (nowNs s) } }

def execDipEnd (r : Fin 16) (mv : BitVec 16) (s : State) : Res := done (dipEnd s r mv.toNat)

/-- `DIP_HOLD_US` after the dip, the ramp begins. -/
def dipHoldOver (s : State) : State :=
  match s.gov.dipHold with
  | some t =>
    if t + getF s (reg .gov 1 0x104) 0 14 * 1000 ≤ nowNs s then { s with gov := { s.gov with dipHold := none, rampAt := some (nowNs s) } }
    else s
  | none => s

def execDipHoldExpiry (s : State) : Res := done (dipHoldOver s)

/-- Every `RAMP_NS`, B_dip falls by 1 until it is 0. -/
def rampStep (s : State) : State :=
  match s.gov.rampAt with
  | some t =>
    let next := t + getF s (reg .gov 1 0x108) 0 14
    if next ≤ nowNs s then
      let was := bubble s
      let b := s.gov.bDip - 1
      bubbleMoved { s with gov := { s.gov with bDip := b, rampAt := if b = 0 then none else some next } } was
    else s
  | none => s

def execRampStep (s : State) : Res := done (rampStep s)

/-! ### Heat (R497, R498) -/

/-- The hottest sensor and its temperature in quarter degrees; the lowest index of equals. -/
def hottest (m : KMap Int) : Nat × Int :=
  (List.range 64).foldl (fun (b : Nat × Int) i => if b.2 < mget 0 m i then (i, mget 0 m i) else b) (0, mget 0 m 0)

/-- The sensors are sampled: B_therm follows the hottest. -/
def thermalSample (s : State) (l : List (BitVec 16)) : State :=
  let temps := ((l.take 64).zipIdx).foldl (fun m p => mset 0 m p.2 p.1.toInt) s.gov.temps
  let (i, t) := hottest temps
  let lim : Int := getF s (reg .gov 2 0x100) 0 7 * 4
  let old := s.gov.bTherm
  let b := if lim ≤ t then min 63 (old + 4) else if t < lim - 12 then old - 1 else old
  let was := bubble s
  let s := { s with gov := { s.gov with temps := temps, bTherm := b } }
  let s := if old = 0 ∧ 0 < b then govEvent (raiseInt s .gov 2 1) 5 i 0 (wrapTo 32 t) else s
  let s := if 0 < old ∧ b = 0 then govEvent s 6 i 0 (wrapTo 32 t) else s
  bubbleMoved s was

def execThermalSample (temps : List (BitVec 16)) (s : State) : Res := done (thermalSample s temps)

/-- What a row loses as it goes OFF (R503, R506): every memory of its mills; a context in one of its leaves is lost. The
gang modes stay (R159). -/
def rowClear (s : State) (r : Nat) : State :=
  let s := (mkeys (fun _ c => match c.place with | .leaf site _ => site / 16 = r | .saved => false) s.sched.ctxs).foldl
    (fun s c => setCtx s c { (getCtx s c).squash with killed := true, place := .saved }) s
  (List.range 16).foldl (fun s x => setMill s (16 * r + x) (getMill s (16 * r + x)).off) s

/-- Turn a row OFF. -/
def rowOff (s : State) (r : Nat) : State :=
  let s := rowClear s r
  setRow s r { (getRow s r).close (nowNs s) with st := .off, dip := none }

/-- Every row and bolter group OFF: ring sets lose what they hold (R508, R514). -/
def allOff (s : State) : State :=
  let s := (List.range 16).foldl rowOff s
  { s with gov := { s.gov with softHeld := [], starts := [] }, bol := ⟨[], [], s.bol.served, s.bol.fetched⟩ }

/-- TMAX as its register shows it (R501). -/
def tmaxWord (s : State) : Nat := let (i, t) := hottest s.gov.temps; wrapTo 16 t + i * 2 ^ 16

/-- POWER_AVG_MW: the mean of the windows of the last 1 ms (R501). -/
def powerAvg (s : State) : Nat := s.gov.powers.foldl (· + ·) 0 / 1000

/-- Whether a thermal trip is in force. -/
def tripped (s : State) : Bool := getF s (reg .gov 2 0x14) 0 1 = 1

/-- Every port's link goes down. -/
def portsDown (s : State) (l : List Nat) : State := l.foldl (fun s p => if (getPort s p).up then setUp s p false false else s) s

/-- A sensor reaches 115 °C: rows and bolter groups go OFF and transmitters idle; a start or reset under way ends (R498, R515). -/
def thermalTrip (s : State) (i : Nat) (t : Int) : State :=
  if t < 460 ∨ tripped s then s
  else
    let s := { s with gov := { s.gov with temps := mset 0 s.gov.temps i t }, boot := { s.boot with running := [], halted := false } }
    let s := setDevState (setF s (reg .gov 2 0x14) 0 1 1) 6
    domsFollow (portsDown (allOff s) (List.range 16))

def execThermalTrip (sensor : Fin 64) (t : BitVec 16) (s : State) : Res := done (thermalTrip s sensor t.toInt)

/-! ### EV_POP (R501) -/

/-- A write of `EV_POP`. -/
def evPop (s : State) (v : Nat) : State :=
  gated s .gov 3 (fun s => if v % 2 = 1 then { s with gov := { s.gov with evs := s.gov.evs.drop 1 } } else s)

def execEvPop (v : Word) (s : State) : Res := done (evPop s v.toNat)

/-! ### Rows (R404, R505 to R507, R517) -/

/-- The leaves of a row. -/
def rowLeaves (s : State) (r : Nat) : List Leaf := (List.range 16).flatMap (fun x => [getLeaf s (16 * r + x) 0, getLeaf s (16 * r + x) 1])

/-- GOV page of a row. -/
def rowReg (r off : Nat) : Nat := reg .gov (5 + r) off

/-- Whether every engine of a context is idle or waits (R404). -/
def ctxRests (c : Ctx) : Bool :=
  (c.miller.ended || c.miller.wait.isSome) && c.engs.all (fun e => e.2.done || (e.2.wait.isSome && e.2.op.isNone))

/-- The partition that holds every mill of a row, if one does and allows its rows to park (R404). -/
def parkPart (s : State) (r : Nat) : Option Nat :=
  (mkeys (fun p x => x.desc.radio && (List.range 15).all (fun c => (millSite s (r * 15 + c)).isNone || bitAt x.mills (r * 15 + c))
    && getF s (reg .sch (1 + p) 0x200) 16 1 = 1) s.sched.parts).head?

/-- Whether a RUNNING row may be parked. -/
def mayPark (s : State) (r : Nat) : Bool :=
  if radioRow s r then
    (parkPart s r).isSome && (rowLeaves s r).all (fun l => match l.ctx with | some c => l.st ≠ .loading && ctxRests (getCtx s c) | none => l.st ≠ .loading)
  else
    getF s (rowReg r 0x180) 1 1 = 1 && (rowLeaves s r).all (fun l => !l.st.acts)
      && max (mget 0 s.gov.actAt r) (getRow s r).since + getF s (rowReg r 0x184) 0 16 * 1000 ≤ nowNs s

/-- RUNNING to PARKED. -/
def rowPark (s : State) (r : Nat) : State :=
  let x := getRow s r
  if x.st = .running ∧ mayPark s r then setRow s r { x.close (nowNs s) with st := .parked } else s

def execRowPark (r : Fin 16) (s : State) : Res := done (rowPark s r)

/-- Whether the repair unit copies out a site of a row. -/
def rowSpares (s : State) (r : Nat) : Bool := match s.rep.sparing with | some x => x.site / 16 = r | none => false

/-- PARKED to OFF. -/
def rowGoesOff (s : State) (r : Nat) : State :=
  if (getRow s r).st = .parked ∧ getF s (rowReg r 0x180) 0 1 = 1 ∧ (rowLeaves s r).all (fun l => l.st = .empty)
      ∧ mget 0 s.gov.fullAt r + getF s (rowReg r 0x184) 16 16 * 1000000 ≤ nowNs s ∧ !radioRow s r ∧ !rowSpares s r then rowOff s r
  else s

def execRowOff (r : Fin 16) (s : State) : Res := done (rowGoesOff s r)

/-- A wake request for a row. -/
def execRowWake (r : Fin 16) (s : State) : Res := done (if deviceUp s then wakeRow s r else s)

/-- A waking row reaches RUNNING: its pages become ready. After OFF its memories are zero since it went OFF (R506); leaves that the
workshop or the scheduler reserved with the wake stay reserved. -/
def rowRunning (s : State) (r : Nat) : State :=
  let x := getRow s r
  if x.st ≠ .starting then s
  else
    let ns := min (nowNs s - x.since) 0xFFFFFFFF
    let s := bump32 s (rowReg r 0x18C) 1
    let s := if (getW s (rowReg r 0x190)).toNat < ns then setW s (rowReg r 0x190) (BitVec.ofNat 32 ns) else s
    setRow s r { x.close (nowNs s) with st := .running, fromOff := false }

def execRowRunning (r : Fin 16) (s : State) : Res := done (rowRunning s r)

/-! ### CLOCK_LOSS (R504) -/

/-- Set CLK_FAULT of domains. -/
def clkFault (s : State) (l : List Nat) : State :=
  l.foldl (fun s d => { s with gov := { s.gov with doms := mset Dom.blank s.gov.doms d { getDom s d with fault := true } } }) s

/-- The device enters RESET_REQUIRED from READY. -/
def clockReset (s : State) : State := if devState s = 2 then requireReset s cfKilled else s

/-- SerDes groups whose transmit reference is lost with a clock input (R431). -/
def lostGroups (s : State) (c : ClockIn) : List Nat :=
  let src := getF s (reg .eth 0 0x308) 0 1 = 1
  match c with
  | .eth0 => if src then [] else [0, 1, 2]
  | .eth1 => if src then [] else [3, 4, 5]
  | .synce => if src then [0, 1, 2, 3, 4, 5] else []
  | _ => []

/-- Ports with a lane in one of some SerDes groups. -/
def portsOn (s : State) (gs : List Nat) : List Nat :=
  (List.range 16).filter (fun p => (lanesOf (getW s (reg .eth p 0x100)).toNat).any (fun l => gs.contains (l / 3)))

/-- The record of a lost input (R561). -/
def clockRecord (s : State) (c : ClockIn) : State :=
  let i : Nat := match c with | .ao => 0 | .cxl => 1 | .eth0 => 2 | .eth1 => 3 | .synce => 4
  errRecord s .gov 4 13 (if i < 2 then 3 else 2) 62 i 0

/-- A clock input is lost. ETH_REFCLK0 feeds the sluice and the weir, so every port goes with it. -/
def clockLoss (s : State) (c : ClockIn) : State :=
  let gs := lostGroups s c
  let s := clkFault (clockRecord s c) (gs.map (· + 38))
  match c with
  | .ao => clockReset (clkFault s [0])
  | .cxl => clockReset (setLink (clkFault s [44, 45]) false)
  | .eth0 => portsDown (clkFault s [33, 34, 35, 36]) (List.range 16)
  | .eth1 => portsDown (clkFault s [37]) (((List.range 8).map (· + 8)) ++ portsOn s gs)
  | .synce => portsDown s (portsOn s gs)

def execClockLoss (c : ClockIn) (s : State) : Res := done (clockLoss s c)

end Sys2Proof.Machine
end

