-- ==== Sys2Proof/Machine/UbvParse.lean ====
section
/-! DEFINITION. Ubvovar reads a module (R160 to R165): header, sections, declarations, and the checks that end in REFUSE_BAD_MODULE
(R163 to R165, R167, R168, R197, R198, R232, R234, R602, R603). -/
namespace Sys2Proof.Machine

/-- A check that fails (R243, R246): refusal code, section-table index, item within the section, DETAIL. -/
structure Fail where
  code : Nat
  sec : Nat
  item : Nat
  detail : Nat
deriving DecidableEq, Repr

/-- A check: it fails with a code on an item of a section unless `ok` holds. -/
def chk (ok : Bool) (code sec item detail : Nat) : List Fail := if ok then [] else [⟨code, sec, item, detail⟩]

/-- SECTION and ITEM of a check that concerns no section. -/
def noSec : Nat := 0xFFFF
def noItem : Nat := 0xFFFFFFFF

/-- The first failure in the order of R243. -/
def firstFail (l : List Fail) : Option Fail := leastBy (fun f => [f.code, f.sec, f.item]) l

/-! ### Header and section table (R160, R164, R165) -/

/-- A section: its index in the section table, type, SUB, offset, length, COUNT and bytes. -/
structure Sect where
  idx : Nat
  typ : Nat
  sub : Nat
  off : Nat
  bytes : Nat
  count : Nat
  data : List Byte
deriving DecidableEq, Repr

/-- The entries of the section table. -/
def sectsOf (l : List Byte) : List Sect :=
  (List.range (leAt l 16 2)).map (fun i =>
    let a := leAt l 20 4 + 16 * i
    ⟨i, leAt l a 2, leAt l (a + 2) 2, leAt l (a + 4) 4, leAt l (a + 8) 4, leAt l (a + 12) 4,
      (l.drop (leAt l (a + 4) 4)).take (leAt l (a + 8) 4)⟩)

/-- The sections of a type. -/
def ofType (ss : List Sect) (t : Nat) : List Sect := ss.filter (fun x => x.typ = t)

/-- The first section of a type: its index in the table, `noSec` when there is none. -/
def secIdx (ss : List Sect) (t : Nat) : Nat := ((ofType ss t).head?.map (fun x => x.idx)).getD noSec

/-- Section-table index of the step table of an engine. -/
def tableIdx (ss : List Sect) (e : Nat) : Nat := ((ss.find? (fun x => x.typ = 1 ∧ x.sub = e)).map (fun x => x.idx)).getD noSec

/-- The entries of `n` bytes of a section of a type. -/
def entriesOf (ss : List Sect) (t n : Nat) : List (List Byte) :=
  match (ofType ss t).head? with
  | some x => (List.range x.count).map (fun i => sliceB x.data (n * i) n)
  | none => []

/-- Consecutive cheap-point entries (R187): `fuel` of them, each with its declaration and its reserved bytes, and the bytes left. -/
def cheapsOf : Nat → List Byte → List (CheapDecl × Bool) × List Byte
  | 0, l => ([], l)
  | n + 1, l =>
    let k := leAt l 12 2
    let rs := (List.range k).map (fun i => sliceB l (16 + 12 * i) 12)
    let d : CheapDecl := ⟨leAt l 0 2, leAt l 4 4, leAt l 8 4, rs.map (fun r => ⟨leAt r 0 2, leAt r 4 4, leAt r 8 4⟩)⟩
    let zero := leAt l 2 2 = 0 && leAt l 14 2 = 0 && rs.all (fun r => leAt r 2 2 = 0)
    let (es, rest) := cheapsOf n (l.drop (16 + 12 * k))
    ((d, zero) :: es, rest)

/-- Bytes that `cheapsOf` takes. -/
def cheapLen (l : List (CheapDecl × Bool)) : Nat := (l.map (fun d => 16 + 12 * d.1.ranges.length)).foldl (· + ·) 0

/-- Consecutive INIT_DATA records (R176): `fuel` of them, each with its reserved bytes. -/
def initsOf : Nat → List Byte → List (InitRec × Bool)
  | 0, _ => []
  | n + 1, l =>
    let k := leAt l 8 4
    let len := roundUp (12 + k) 16
    (⟨leAt l 0 2, leAt l 4 4, sliceB l 12 (min k l.length)⟩,
      leAt l 2 2 = 0 && (sliceB l (12 + k) (min (len - 12 - k) 16)).all (· = 0)) :: initsOf n (l.drop len)

/-- Bytes that INIT_DATA records take. -/
def initLen (l : List (InitRec × Bool)) : Nat := (l.map (fun d => roundUp (12 + d.1.data.length) 16)).foldl (· + ·) 0

/-- The radio timing section (R195). -/
def timingOf (l : List Byte) : RadioTiming :=
  ⟨leAt l 0 1, leAt l 2 2, (List.range (leAt l 1 1)).map (fun i =>
    let p := sliceB l (8 + 24 * i) 24
    ⟨leAt p 1 1, leAt p 2 1, leAt p 4 4, leAt p 8 4, leAt p 12 4, leAt p 16 2⟩)⟩

/-- The length that COUNT entries of a section require (R164); none for an annotation. -/
def sectLen (x : Sect) : Option Nat :=
  match x.typ with
  | 1 => some (x.count * 32)
  | 2 => some (x.count * 8)
  | 3 => some (x.count * 32)
  | 4 => some (x.count * 8)
  | 5 => some (x.count * 16)
  | 6 => some (cheapLen (cheapsOf (min x.count (x.bytes / 16 + 1)) x.data).1 + (x.count - (x.bytes / 16 + 1)))
  | 7 => some (x.count * 16)
  | 8 => some (8 + 24 * leAt x.data 1 1)
  | 9 => some (x.count * 128)
  | 10 => some (initLen (initsOf (min x.count (x.bytes / 16 + 1)) x.data) + (x.count - (x.bytes / 16 + 1)))
  | 11 => some (x.count * 4)
  | _ => none

/-! ### The module as the loader reads it -/

/-- A buffer declaration (R172). -/
def bufOf (l : List Byte) : BufDecl :=
  ⟨leAt l 0 2, leAt l 2 1, leAt l 3 1, leAt l 4 2, leAt l 6 2, leAt l 8 2, leAt l 10 2, leAt l 12 1, leAt l 13 1, leAt l 14 1,
    leAt l 16 8, leAt l 24 4⟩

/-- A sync declaration (R178). -/
def syncOf (l : List Byte) : SyncDecl := ⟨leAt l 0 2, leAt l 2 1, leAt l 3 1, leAt l 4 1, leAt l 8 4, leAt l 12 4⟩

/-- The module in its bytes. -/
def moduleOf (l : List Byte) : Module :=
  let ss := sectsOf l
  { flags := leAt l 24 4
    entry := leAt l 28 4
    instMax := leAt l 32 4
    args := leAt l 36 4
    tables := (ofType ss 1).foldl (fun m x =>
      mput m x.sub ((List.range x.count).map (fun i => BitVec.ofNat 256 (ofLE (sliceB x.data (32 * i) 32))))) []
    code := (entriesOf ss 2 8).map (fun e => BitVec.ofNat 64 (ofLE e))
    bufs := (entriesOf ss 3 32).map bufOf
    queues := (entriesOf ss 4 8).map (fun e => ⟨leAt e 0 1, leAt e 1 1, leAt e 2 1, leAt e 3 1⟩)
    syncs := (entriesOf ss 5 16).map syncOf
    cheap := match (ofType ss 6).head? with
      | some x => (cheapsOf x.count x.data).1.map (fun d => d.1)
      | none => []
    digests := (entriesOf ss 7 16).map (fun e => ⟨leAt e 0 1, leAt e 1 1, leAt e 4 4, leAt e 8 4⟩)
    masks := (entriesOf ss 9 128).map ofLE
    inits := match (ofType ss 10).head? with
      | some x => (initsOf x.count x.data).map (fun d => d.1)
      | none => []
    reqs := (entriesOf ss 11 4).map (fun e => (leAt e 0 2, leAt e 2 1))
    timing := (ofType ss 8).head?.map (fun x => timingOf x.data) }

/-- Whether two declarations carry one number. -/
def twice {α : Type} (f : α → Nat) (l : List α) (i : Nat) : Bool :=
  match l[i]? with
  | some x => (l.take i).any (fun y => f y = f x)
  | none => false

/-! ### Header and sections (R163 to R165) -/

/-- The header's own fields. -/
def headOkM (l : List Byte) (given : Nat) : Bool :=
  l.length = given && 128 ≤ l.length && leAt l 0 4 = 0x4B49544D && leAt l 4 2 = 1 && leAt l 8 4 = 128 && leAt l 12 4 = l.length
    && l.length ≤ 16777216 && leAt l 40 8 = crc64 (patchB l 40 (toLE 8 0))
    && 2 ≤ leAt l 16 2 && leAt l 16 2 ≤ 64 && leAt l 18 2 = 0 && leAt l 20 4 % 16 = 0 && leAt l 20 4 + 16 * leAt l 16 2 ≤ l.length
    && leAt l 24 4 < 8 && leAt l 28 4 % 8 = 0 && 1 ≤ leAt l 32 4 && leAt l 32 4 ≤ 480 && leAt l 36 4 ≤ 64
    && (sliceB l 80 48).all (· = 0)

/-- Whether two sections overlap. -/
def sectsMeet (a b : Sect) : Bool := 0 < a.bytes && 0 < b.bytes && a.off < b.off + b.bytes && b.off < a.off + a.bytes

/-- One section: listed, in its count limit, inside the module, clear of the others, and of the length its entries take. -/
def sectOk (l : List Byte) (ss : List Sect) (x : Sect) : Bool :=
  x.off % 16 = 0 && x.off + x.bytes ≤ l.length && ss.all (fun y => y.idx = x.idx || !sectsMeet x y)
    && (0x8000 ≤ x.typ || (1 ≤ x.typ && x.typ ≤ 11))
    && (if x.typ = 1 then 1 ≤ x.sub && x.sub ≤ 7 && ss.all (fun y => y.idx = x.idx || y.typ ≠ 1 || y.sub ≠ x.sub)
        else 0x8000 ≤ x.typ || (x.sub = 0 && ss.all (fun y => y.idx = x.idx || y.typ ≠ x.typ)))
    && (match sectLen x with | some n => x.bytes = n | none => true)
    && (x.typ ≠ 8 || x.count = leAt x.data 1 1) && (x.typ ≠ 9 || x.count ≤ 256)

/-- Header and section table. -/
def failHead (l : List Byte) (given : Nat) : List Fail :=
  let ss := sectsOf l
  let radio := bitAt (leAt l 24 4) 0
  chk (headOkM l given) 1 noSec noItem 0 ++ ss.flatMap (fun x => chk (sectOk l ss x) 1 x.idx noItem 0)
    ++ chk ((ofType ss 2).length = 1 && (ofType ss 6).length = 1 && (ofType ss 8).length = b2n radio) 1 noSec noItem 0
    ++ chk ((ofType ss 2).all (fun x => leAt l 28 4 < x.bytes)) 1 noSec noItem 0

/-! ### Declarations (R172 to R178, R193, R603) -/

/-- Whether a buffer is of a kind that lies off chip. -/
def BufDecl.off (b : BufDecl) : Bool := 3 ≤ b.kind

/-- A BUFFERS entry (R172, R603). -/
def bufOk (e : List Byte) : Bool :=
  let b := bufOf e
  b.id ≤ 1023 && b.kind ≤ 5 && (b.fmt ≤ 21 || b.fmt = 0xFF) && b.flags < 64 && (leAt e 14 1 &&& 0xC8) = 0 && leAt e 15 1 = 0
    && leAt e 28 4 = 0
    && (match b.kind with | 2 => b.align = 0 | 0 => 6 ≤ b.align && b.align ≤ 14 | 1 => 6 ≤ b.align && b.align ≤ 14 | _ => 6 ≤ b.align && b.align ≤ 34)
    && (b.off || b.arg = 0xFF)

/-- Reserved fields and numbers of the other declarations. -/
def failDecls (ss : List Sect) : List Fail :=
  let each (t n : Nat) (ok : List (List Byte) → List Byte → Nat → Bool) : List Fail :=
    let es := entriesOf ss t n
    (es.zipIdx).flatMap (fun p => chk (ok es p.1 p.2) 1 (secIdx ss t) p.2 0)
  each 3 32 (fun es e i => bufOk e && !twice (fun x => leAt x 0 2) es i)
    ++ each 4 8 (fun _ e _ => leAt e 4 4 = 0)
    ++ each 5 16 (fun _ e _ => leAt e 5 3 = 0)
    ++ each 7 16 (fun es e i => leAt e 0 1 ≤ 15 && leAt e 1 1 ≤ 1 && leAt e 2 2 = 0 && leAt e 12 4 = 0 && i < 16
        && !twice (fun x => leAt x 0 1) es i)
    ++ each 11 4 (fun _ e _ => leAt e 3 1 = 0)
    ++ ((ofType ss 6).flatMap (fun x =>
        let ds := (cheapsOf x.count x.data).1
        (ds.zipIdx).flatMap (fun p => chk (p.1.2 && p.1.1.id ≤ 1023 && p.1.1.ranges.all (fun r => 0 < r.len)
          && !twice (fun d => d.1.id) ds p.2) 1 x.idx p.2 0)))
    ++ ((ofType ss 10).flatMap (fun x => ((initsOf x.count x.data).zipIdx).flatMap (fun p => chk p.1.2 1 x.idx p.2 0)))
    ++ ((ofType ss 8).flatMap (fun x => chk (leAt x.data 4 4 = 0 && (List.range (leAt x.data 1 1)).all (fun i =>
        leAt x.data (8 + 24 * i + 3) 1 = 0 && leAt x.data (8 + 24 * i + 18) 6 = 0)) 1 x.idx noItem 0))

/-! ### Step records (R167, R168, R197, R198, R203 to R232) -/

/-- Bits of words 2 to 7 that an operation uses. -/
def recMask (op : Nat) : List Nat :=
  let cnt := 0x8FFFFFFF
  let all := 0xFFFFFFFF
  match op with
  | 0x001 => [cnt, 0, 0, 0, 0, 0]
  | 0x004 => [0x73FF, cnt, 0, 0, 0, 0]
  | 0x005 => [0x73FF, cnt, 0, 0, 0, 0]
  | 0x006 => [0x73FF, cnt, 0, 0, 0, 0]
  | 0x040 => [0x7FFFF, all, 0x1FFF, 0, 0, 0]
  | 0x041 => [0x7FFFF, all, 0x1FFF, 0, 0, 0]
  | 0x042 => [0x7FFFF, all, 0x1FFF, 0, 0, 0]
  | 0x043 => [0x7FFFF, all, 0x1FFF, 0, 0, 0]
  | 0x044 => [cnt, cnt, cnt, cnt, cnt, cnt]
  | 0x045 => [cnt, all, all, 0, 0, 0]
  | 0x080 => [0x1FFFFFFF, all, cnt, all, all, 0x1FF]
  | 0x0C0 => [0x3FFFFF, all, all, all, cnt, cnt]
  | 0x0C2 => [1, 0, 0, 0, 0, 0]
  | 0x104 => [0x3FFFFFF, cnt, all, all, all, 0x3F]
  | 0x107 => [0x3FFFFFF, cnt, all, all, all, 0xFFFFFFF]
  | 0x10C => [0x3FFFFFF, cnt, all, all, all, 0x31F]
  | 0x10D => [0x3FFFFFF, cnt, all, all, all, 0x31F]
  | _ => if 0x100 ≤ op ∧ op ≤ 0x10E then [0x3FFFFFF, cnt, all, all, all, 0] else [0, 0, 0, 0, 0, 0]

/-- Engines whose tables may hold an operation (R197). -/
def recEngines (op : Nat) : List Nat :=
  if 1 ≤ op ∧ op ≤ 6 then [1, 2, 3, 4, 5, 6, 7]
  else if op = 0x40 ∨ op = 0x41 then [1]
  else if op = 0x42 ∨ op = 0x43 then [2]
  else if op = 0x44 ∨ op = 0x45 then [1, 2]
  else if op = 0x80 then [3, 4, 5, 6]
  else if 0xC0 ≤ op ∧ op ≤ 0xC2 then [3, 4, 5, 6, 7]
  else if 0x100 ≤ op ∧ op ≤ 0x10E then [7]
  else []

/-- Whether a record opens a hoist operation. -/
def isHoistOp (r : Rec) : Bool := 0x40 ≤ recOp r && recOp r ≤ 0x43

/-- Source and destination space of a hoist record, and the one that is on chip (R68). -/
def hSrc (r : Rec) : Nat := recF r 2 0 3
def hDst (r : Rec) : Nat := recF r 2 3 3
def hOn (r : Rec) : Nat := if recOp r ≤ 0x41 then hDst r else hSrc r

/-- Queue ends that an operation uses: QA, QB and QO each unused (0), allowed (1) or required (2). -/
def recQueues (r : Rec) : Nat × Nat × Nat :=
  let op := recOp r
  if op = 6 ∨ op = 0xC2 then (0, 0, 2)
  else if op = 0x40 ∨ op = 0x41 then (0, 0, if hDst r = 2 then 2 else 0)
  else if op = 0x42 ∨ op = 0x43 then (if hSrc r = 2 then 2 else 0, 0, 0)
  else if op = 0xC0 then (0, 0, if oToQueue r then 2 else 0)
  else if 0x100 ≤ op then (1, if fHasB r then 1 else 0, if op = 0x10C ∨ op = 0x10D then 0 else 1)
  else (0, 0, 0)

/-- Whether a queue end is enabled as the operation asks. -/
def endOk (use : Nat) (q : Option Nat) : Bool := match use with | 0 => q.isNone | 1 => true | _ => q.isSome

/-- Whether descriptors that take a stride from a register leave its constant 0 (R169). -/
def strideOk (d : Nat) : Bool := !bitAt d 31 || bitsAt d 0 24 = 0

/-- Fields of one operation that are out of range. -/
def recFields (r : Rec) : Bool :=
  let op := recOp r
  let mode := recF r 2 12 3
  let fmtZero (b : Bool) (f : Nat) : Bool := b || f = 0
  match op with
  | 0x004 => mode ≤ 2
  | 0x005 => mode ≤ 1
  | 0x006 => mode = 0
  | 0x044 => strideOk (recW r 5) && strideOk (recW r 6) && strideOk (recW r 7)
  | 0x080 => mSparse r ≠ 3
  | _ =>
    if isHoistOp r then
      let e0 := recF r 4 0 13
      1 ≤ e0 && e0 ≤ 4096 && recF r 2 17 2 ≠ 3 && (hOn r ≠ 2 || e0 % 64 = 0)
        && ((hOn r ≠ 1 && hOn r ≠ 2) || recW r 3 = 0)
    else if 0x100 ≤ op then
      fmtZero (fHasB r) (fFmtB r) && fmtZero (! [0x106, 0x10C, 0x10D].contains op) (fFmtO r)
        && (op ≠ 0x104 || (1 ≤ fTaps r && fTaps r ≤ 32)) && (op ≠ 0x107 || recF r 7 24 4 ≤ 4)
        && ((op ≠ 0x10C && op ≠ 0x10D) || recF r 7 8 2 ≠ 0)
    else true

/-- One record of the step table of engine `e` (R168, R197). -/
def recordOk (e : Nat) (r : Rec) : Bool :=
  let op := recOp r
  let (qa, qb, qo) := recQueues r
  (recEngines op).contains e && recF r 0 10 3 = e && recF r 0 14 2 = 0 && recF r 0 26 6 = 0
    && (op = 3 || op = 4 || recCheap r = 0)
    && (recW r 1 &&& 0x70606060) = 0
    && ((recMask op).zipIdx).all (fun p => (recW r (p.2 + 2) &&& (p.1 ^^^ 0xFFFFFFFF)) = 0)
    && endOk qa (recQA r) && endOk qb (recQB r) && endOk qo (recQO r)
    && (op = 0xC0 || op = 0xC1 || (!recB r 1 31 && recF r 1 24 4 = 0)) && (op ≠ 0xC0 || recB r 1 31 || recF r 1 24 4 = 0)
    && (op ≠ 0xC1 || recB r 1 31) && recFields r

/-- Whether a record stands as R198 asks: an opener before its continuation, a continuation after its opener. -/
def contOk (t : List Rec) (i : Nat) (r : Rec) : Bool :=
  let next := (t[i + 1]?).map recOp
  let prev := if i = 0 then none else (t[i - 1]?).map recOp
  if recOp r = 0x40 ∨ recOp r = 0x42 then next = some 0x44 && !recEos r
  else if recOp r = 0x41 ∨ recOp r = 0x43 then next = some 0x45 && !recEos r
  else if recOp r = 0x44 then prev = some 0x40 || prev = some 0x42
  else if recOp r = 0x45 then prev = some 0x41 || prev = some 0x43
  else true

/-- Step tables. -/
def failTables (ss : List Sect) (m : Module) : List Fail :=
  m.tables.flatMap (fun e =>
    let sec := tableIdx ss e.1
    chk (0 < e.2.length && e.2.length ≤ 65536 && segCount e.2 ≤ 4096 && (e.2.getLast?.any recEos)) 1 sec noItem 0
      ++ (e.2.zipIdx).flatMap (fun p => chk (recordOk e.1 p.1 && contOk e.2 p.2 p.1) 1 sec p.2 0))

/-! ### Miller code (R170, R234) -/

/-- The immediate as a number. -/
def mImmN (i : DWord) : Nat := (mImm i).toNat

/-- The fields of a miller instruction: listed, in range, and unused bits 0 (R234). -/
def instrOk (i : DWord) : Bool :=
  let op := mMop i
  let alu := (1 ≤ op && op ≤ 0xE)
  let rd0 := mRd i = 0
  let ra0 := mRa i = 0
  let rb0 := mRb i = 0
  let fn0 := mFn i = 0
  let imm0 := mImmN i = 0
  if alu then mFn i ≤ 1 && (if mFn i = 1 then rb0 else imm0)
  else match op with
  | 0x10 => rb0 && fn0
  | 0x11 => rd0 && fn0
  | 0x12 => rb0 && fn0
  | 0x13 => rd0 && fn0
  | 0x14 => rd0 && imm0 && mFn i < 16
  | 0x20 => rd0 && mFn i ≤ 6 && mImmN i % 8 = 0 && 0 < mImmN i && mImmN i < 2 ^ 31
  | 0x21 => rd0 && rb0
  | 0x22 => rd0 && rb0 && fn0 && 2 ^ 31 ≤ mImmN i && mImmN i % 8 = 0
  | 0x30 => rb0 && fn0 && imm0 && mRd i < 16
  | 0x31 => rb0 && fn0 && imm0 && mRd i < 16
  | 0x32 => rd0 && rb0 && 1 ≤ mFn i && mFn i ≤ 7
  | 0x33 => rd0 && rb0 && mFn i < 32
  | 0x34 => rd0 && rb0 && mFn i < 32
  | 0x35 => rd0 && ra0 && mFn i ≤ 2 && (mImmN i &&& 0xFC00FC00) = 0
  | 0x36 => rd0 && ra0 && mFn i ≤ 1 && mImmN i < 1024
  | 0x37 => ra0 && fn0 && mImmN i < 1024
  | 0x38 => rd0 && ra0 && rb0 && fn0 && mImmN i < 1024
  | 0x3F => rd0 && ra0 && rb0 && fn0 && imm0
  | _ => false

/-- Instructions that may follow the one at index `k` (R234, R235). -/
def succsOf (code : List DWord) (k : Nat) : List Nat :=
  match code[k]? with
  | none => []
  | some i =>
    match mMop i with
    | 0x3F => []
    | 0x20 => let t := k + mImmN i / 8; if mFn i = 6 then [t] else [k + 1, t]
    | 0x21 => [k + 1, k + mFn i + 2]
    | 0x22 => [k + 1, k - (2 ^ 32 - mImmN i) / 8]
    | _ => [k + 1]

/-- Instructions that can be reached: `fuel` expansions of a worklist. -/
def reachFrom (code : List DWord) (stop : Nat → Bool) : Nat → List Nat → List Nat → List Nat
  | 0, _, seen => seen
  | _, [], seen => seen
  | fuel + 1, k :: work, seen =>
    if seen.contains k then reachFrom code stop fuel work seen
    else reachFrom code stop fuel ((if stop k then [] else succsOf code k) ++ work) (k :: seen)

/-- Instructions that can be reached from a list of starts. -/
def millerReach (code : List DWord) (starts : List Nat) (stop : Nat → Bool) : List Nat :=
  reachFrom code stop (3 * code.length + starts.length + 1) starts []

/-- Miller code: every instruction, and no path past its end (R170). -/
def failCode (ss : List Sect) (m : Module) : List Fail :=
  let sec := secIdx ss 2
  let starts := m.entry / 8 :: (match m.timing with | some t => t.phases.map (fun p => p.start / 8) | none => [])
  let out := (millerReach m.code starts (fun _ => false)).flatMap (fun k =>
    chk ((succsOf m.code k).all (· < m.code.length)) 1 sec k 0)
  (m.code.zipIdx).flatMap (fun p => chk (instrOk p.1) 1 sec p.2 0) ++ out
    ++ chk (starts.all (· < m.code.length)) 1 sec noItem 0

/-- Every check that ends in REFUSE_BAD_MODULE. -/
def failBad (l : List Byte) (given : Nat) : List Fail :=
  let h := failHead l given
  if h ≠ [] then h
  else
    let ss := sectsOf l
    let m := moduleOf l
    failDecls ss ++ failTables ss m ++ failCode ss m

end Sys2Proof.Machine
end

