-- ==== Sys2Proof/Machine/UbvCheck.lean ====
section
/-! DEFINITION. The other checks of Ubvovar (R243 to R254): what the module asks of the device, its partition and its launch, one list
of failures per refusal code. Analyses that follow every path of a module are verdicts of `Config` (log 12). -/
namespace Sys2Proof.Machine

/-- What a check looks at: the state, the load, the section table, the module, its bytes and the argument words. -/
structure LoadIn where
  s : State
  l : Load
  ss : List Sect
  m : Module
  bytes : List Byte
  args : List DWord

/-- Version of Ubvovar (R246). -/
def ubvVersion (s : State) : Word := match s.boot.image with | some x => x.2.2.1 | none => 0

/-- Every record with its engine, its section and its index. -/
def LoadIn.recs (x : LoadIn) : List (Nat × Nat × Nat × Rec) :=
  x.m.tables.flatMap (fun e => (e.2.zipIdx).map (fun p => (e.1, tableIdx x.ss e.1, p.2, p.1)))

/-- A check on every record that `on` selects. -/
def LoadIn.each (x : LoadIn) (on : Rec → Bool) (code : Nat) (ok : Nat → Nat → Rec → Bool) (detail : Rec → Nat) : List Fail :=
  x.recs.flatMap (fun r => if on r.2.2.2 then chk (ok r.1 r.2.2.1 r.2.2.2) code r.2.1 r.2.2.1 (detail r.2.2.2) else [])

/-- A check on every miller instruction that `on` selects. -/
def LoadIn.instrs (x : LoadIn) (on : DWord → Bool) (code : Nat) (ok : Nat → DWord → Bool) (detail : DWord → Nat) : List Fail :=
  (x.m.code.zipIdx).flatMap (fun p => if on p.1 then chk (ok p.2 p.1) code (secIdx x.ss 2) p.2 (detail p.1) else [])

/-- A check on every entry of a list of declarations of a section type. -/
def LoadIn.decls {α : Type} (x : LoadIn) (t : Nat) (l : List α) (code : Nat) (ok : Nat → α → Bool) (detail : α → Nat) : List Fail :=
  (l.zipIdx).flatMap (fun p => chk (ok p.2 p.1) code (secIdx x.ss t) p.2 (detail p.1))

def isMma (r : Rec) : Bool := recOp r = 0x80
def isStore (r : Rec) : Bool := recOp r = 0xC0
def isFlume (r : Rec) : Bool := 0x100 ≤ recOp r
def isTile (r : Rec) : Bool := recOp r = 0x10C || recOp r = 0x10D

/-! ### 0x02 to 0x05 (R51, R118, R161, R166, R245, R247) -/

/-- Capability that a record uses (R52). -/
def recCap (r : Rec) : Option Nat :=
  if isMma r then
    if mSparse r = 1 then some (if (rateOf r).1 = 128 then 0x30 else 0x31)
    else if mSparse r = 2 then some 0x32
    else if mActSkip r ∨ mCompact r then some 0x33 else none
  else if isStore r ∧ oDither r then some 0x41
  else none

/-- Whether a module lists a capability. -/
def Module.lists (m : Module) (id : Nat) : Bool := m.reqs.any (fun q => q.1 = id)

/-- REFUSE_MISSING_CAP: a capability used and not listed, or listed and not on the device at that version. -/
def failCaps (x : LoadIn) : List Fail :=
  x.decls 11 x.m.reqs 2 (fun _ q => hasCap x.s q.1 && q.2 ≤ 1) (fun _ => 0)
    ++ x.each (fun r => (recCap r).isSome) 2 (fun _ _ r => (recCap r).all x.m.lists) (fun _ => 0)
    ++ x.each (fun r => isMma r && mActSkip r) 2 (fun _ _ _ => x.m.lists 0x33) (fun _ => 0)
    ++ chk (!bitAt x.m.flags 2 || x.m.lists 0x40) 2 noSec noItem 0

/-- REFUSE_PARTITION_CLASS and REFUSE_PARTITION_STATE. -/
def failPart (x : LoadIn) : List Fail :=
  let p := getPart x.s x.l.part
  chk (!bitAt x.m.flags 0 || p.desc.radio) 3 noSec noItem 0
    ++ chk (p.st = .active && (getSlice x.s x.l.slice).st ≠ .none && (getSlice x.s x.l.slice).st ≠ .teardown && devState x.s = 2) 4 noSec noItem 0

/-- REFUSE_LAUNCH_ARGS. -/
def failArgs (x : LoadIn) : List Fail :=
  chk (1 ≤ x.l.instances && x.l.instances ≤ x.m.instMax) 5 noSec noItem x.l.instances
    ++ chk (x.m.args ≤ x.l.argCount) 5 noSec noItem x.l.argCount
    ++ x.decls 3 x.m.bufs 5 (fun _ b => !b.off || b.arg < x.m.args) (fun b => b.arg)
    ++ x.decls 5 x.m.syncs 5 (fun _ d => d.scope < 2 || d.arg < x.m.args) (fun d => d.arg)

/-! ### 0x10 to 0x15: formats and extents (R89, R97, R107, R109, R131, R141, R144, R150, R152, R199, R602) -/

/-- Whether a format is one of the flume's float formats (R602). -/
def isFloatOp (f : Nat) : Bool := f = 16 || f = 13 || f = 14

/-- Formats of a flume record that R602 allows; a sum or product of a fixed and a float operand is `REFUSE_FORMAT_PAIR` instead. -/
def flumeFmts (r : Rec) : Bool :=
  let a := fFmtA r
  let b := fFmtB r
  let o := fFmtO r
  let any (f : Nat) : Bool := isFixedFmt f || isFloatOp f
  let outOf : Bool := if isFixedFmt a then isFixedFmt o else isFloatOp o
  match fOp r with
  | 3 => isFloatOp a && isFloatOp b && isFloatOp o
  | 4 => [20, 15, 19].contains a && [20, 15].contains b && [20, 15].contains o
  | 5 => any a && (any o || o = 2 || o = 3)
  | 6 => [2, 3, 4, 5, 6, 13, 14, 16].contains a
  | 7 => a = 15 && b = 20 && (o = 0 || o = 17)
  | 8 => isFloatOp a && o = 16
  | 9 => isFloatOp a && o = 16
  | 10 => isFloatOp a && o = 16
  | 11 => isFloatOp a && o = 16
  | 12 => a = 21
  | 13 => a = 21
  | 14 => any a && outOf
  | _ => any a && any b && outOf && (isFixedFmt a ≠ isFixedFmt b || !(isCplx a || isCplx b) || isFloatOp a || isCplx o)

/-- REFUSE_FORMAT_USE. -/
def failFmt (x : LoadIn) : List Fail :=
  x.each isMma 0x10 (fun _ _ r => mFmtIn r ≤ 15 && mFmtW r ≤ 15) (fun _ => 0)
    ++ x.each isStore 0x10 (fun _ _ r => [0, 2, 3, 13, 14, 15, 16, 17, 18, 19, 20, 21].contains (oFmt r)
        && (!oCensus r || [2, 3, 13, 14, 16, 21].contains (oFmt r))) (fun _ => 0)
    ++ x.each isFlume 0x10 (fun _ _ r => flumeFmts r) (fun _ => 0)

/-- REFUSE_FORMAT_PAIR. -/
def failPair (x : LoadIn) : List Fail :=
  x.each isMma 0x11 (fun _ _ r => fmtClass (mFmtIn r) = fmtClass (mFmtW r) && (mGroup r = 32 || (mCplx r && mGang r = 0))) (fun _ => 0)
    ++ x.each (fun r => isFlume r && fHasB r) 0x11 (fun _ _ r => isFixedFmt (fFmtA r) = isFixedFmt (fFmtB r)) (fun _ => 0)

/-- REFUSE_SPARSE_FORMAT: 2:4 and bitmap weights, and how they are fed. -/
def failSparse (x : LoadIn) : List Fail :=
  x.each (fun r => isMma r && mSparse r ≠ 0) 0x12 (fun _ _ r =>
    let nib (f : Nat) : Bool := fmtBits f = 4 || fmtBits f = 6
    mFeedW r && (if mSparse r = 2 then mFmtW r ≠ 15
      else (nib (mFmtIn r) && nib (mFmtW r))
        || ([2, 3, 7, 8].contains (mFmtW r) && fmtBits (mFmtIn r) ≤ 8))) (fun _ => 0)

/-- A declaration by ID, if there is one. -/
def Module.findBuf (m : Module) (id : Nat) : Option BufDecl := m.bufs.find? (fun b => b.id = id)

/-- Whether a float operand has a declared bound: a census, or the scales of an MX tensor (R109, R175). -/
def bounded (m : Module) (fmt d : Nat) : Bool :=
  let b := m.buf (refBuf d)
  if isMx fmt then (m.findBuf b.scales).isSome else (m.findBuf b.census).isSome

/-- REFUSE_NO_CENSUS and REFUSE_ACC_RANGE. -/
def failCensus (x : LoadIn) : List Fail :=
  x.each (fun r => isMma r && mClass r = .float) 0x13 (fun _ _ r =>
      bounded x.m (mFmtIn r) (recW r 5) && bounded x.m (mFmtW r) (recW r 6)) (fun _ => 0)
    ++ x.each (fun r => isMma r && mCplx r) 0x14 (fun _ _ r => countMax (recW r 4) ≤ 255) (fun _ => 0)

/-- REFUSE_TILE_LIMIT. -/
def failTile (x : LoadIn) : List Fail :=
  x.each isMma 0x15 (fun _ _ r =>
      let m := dimMax (recF r 3 0 16)
      let n := dimMax (recF r 3 16 16)
      let k := countMax (recW r 4)
      let last := (ceilDiv m 32) * ceilDiv n (tileCols r) - 1
      m % 8 = 0 && m ≤ 1024 && n % 8 = 0 && n ≤ 1024 && k % kMult r = 0
        && (!recB r 7 8 || recF r 7 0 8 + last / 1024 < x.m.masks.length)) (fun _ => 0)
    ++ x.each isStore 0x15 (fun _ _ r => dimMax (recF r 3 0 16) ≤ 1024 && dimMax (recF r 3 16 16) ≤ 1024) (fun _ => 0)

/-! ### 0x20 to 0x23: loops, spaces, stones (R68, R71, R82, R129, R162, R201, R235) -/

/-- Loop depth after each record of a table, none once the nesting breaks (R201). -/
def loopWalk : Nat → List Rec → List (Option Nat)
  | _, [] => []
  | d, r :: t =>
    let d' : Option Nat :=
      if recOp r = 1 then (if recEos r ∨ 4 ≤ d then none else some (d + 1))
      else if recOp r = 2 then (if d = 0 ∨ (recEos r ∧ d ≠ 1) then none else some (d - 1))
      else if recEos r ∧ d ≠ 0 then none else some d
    d' :: loopWalk (d'.getD 0) t

/-- REFUSE_LOOP_NEST. -/
def failLoops (x : LoadIn) : List Fail :=
  x.m.tables.flatMap (fun e =>
    ((loopWalk 0 e.2).zipIdx).flatMap (fun p => chk p.1.isSome 0x20 (tableIdx x.ss e.1) p.2 0))

/-- Whether an instruction writes an `s` register (R234). -/
def writesReg (i : DWord) (r : Nat) : Bool :=
  r ≠ 0 && mRd i = r && ((1 ≤ mMop i && mMop i ≤ 0xE) || mMop i = 0x10 || mMop i = 0x12 || mMop i = 0x37)

/-- Miller loops open after each instruction: indices of their `mloop`s, innermost first; none where R235 breaks. -/
def millerLoops (code : List DWord) : List Nat → List (DWord × Nat) → List (Option (List Nat))
  | _, [] => []
  | st, (i, k) :: t =>
    let st' : Option (List Nat) :=
      if mMop i = 0x21 then (if 8 ≤ st.length then none else some (k :: st))
      else if mMop i = 0x22 then
        match st with
        | [] => none
        | o :: r =>
          let op := code.getD o 0
          if k = o + mFn op + 1 ∧ k - (2 ^ 32 - mImmN i) / 8 = o + 1 ∧ mRa i = mRa op ∧ 2 ^ 32 - mImmN i ≤ 8 * k then some r else none
      else if st.any (fun o => writesReg i (mRa (code.getD o 0))) then none
      else some st
    st' :: millerLoops code (st'.getD st) t

/-- REFUSE_MILLER_LOOP. -/
def failMillerLoops (x : LoadIn) : List Fail :=
  let w := millerLoops x.m.code [] x.m.code.zipIdx
  (w.zipIdx).flatMap (fun p => chk p.1.isSome 0x21 (secIdx x.ss 2) p.2 0)
    ++ chk (w.getLast?.all (fun o => o = some [] || o = none)) 0x21 (secIdx x.ss 2) noItem 0

/-- REFUSE_SPACE_PAIR. -/
def failSpaces (x : LoadIn) : List Fail :=
  x.each isHoistOp 0x22 (fun e _ r =>
    let off (v : Nat) : Bool := 3 ≤ v && v ≤ 6
    if e = 1 then off (hSrc r) && (hDst r ≤ 2 || hDst r = 7) else off (hDst r) && (hSrc r = 0 || hSrc r = 2)) (fun _ => 0)

/-- REFUSE_SPLIT_STONE: a gang that its engine does not drive, and what a SPLIT module may not name. -/
def failSplit (x : LoadIn) : List Fail :=
  let split := bitAt x.m.flags 2
  x.each isMma 0x23 (fun e _ r =>
      (match mGang r with | 0 => true | 3 => e = 3 && !split | _ => e = 3 || e = 5)) (fun _ => 0)
    ++ x.each (fun r => isHoistOp r && hOn r = 1) 0x23 (fun _ _ r => !split || recF r 2 9 2 < 2) (fun _ => 0)
    ++ x.m.tables.flatMap (fun e => chk (!split || (e.1 ≠ 5 && e.1 ≠ 6)) 0x23 (tableIdx x.ss e.1) noItem 0)

/-! ### Placement of on-chip buffers (R73, R173) -/

/-- The buffers of a module in ascending ID. -/
def Module.bufsById (m : Module) : List BufDecl := (m.bufs.foldl (fun k b => mput k b.id b) ([] : KMap BufDecl)).map (fun e => e.2)

/-- Place the buffers of a kind one after the other from `a`, each at the next offset that meets its ALIGN. -/
def placeBufs (kind : Nat) : Nat → List BufDecl → KMap Nat → Nat × KMap Nat
  | a, [], m => (a, m)
  | a, b :: r, m =>
    if b.kind = kind then
      let o := roundUp a (if kind = 2 then 8192 else 2 ^ b.align)
      placeBufs kind (o + b.maxBytes) r (mput m b.id o)
    else placeBufs kind a r m

/-- Bytes placed of each kind, and where every on-chip buffer starts: data memory, miller data memory above the launch block, tiles. -/
def placedOf (m : Module) : Nat × Nat × Nat × KMap Nat :=
  let l := m.bufsById
  let (d, b) := placeBufs 0 0 l []
  let (q, b) := placeBufs 1 1024 l b
  let (t, b) := placeBufs 2 0 l b
  (d, q, t, b)

/-- End of a buffer where it is placed. -/
def placedEnd (pl : KMap Nat) (b : BufDecl) : Nat := mget 0 pl b.id + b.maxBytes

/-! ### 0x30 to 0x39: declarations against the device, the partition and their uses -/

/-- Whether every granule of [a, a + n) may be used by a load: owned, or shared-read where nothing is written (R174). -/
def devUsable (s : State) (p a n : Nat) (wr : Bool) : Bool :=
  (piecesOf 16384 a n).all (fun g =>
    let w := ownNow s g
    (entOwner w = p && (entState w = 1 || (entState w = 2 && !wr))) || (!wr && entState w = 2))

/-- Base address of an off-chip buffer (R174). -/
def LoadIn.base (x : LoadIn) (b : BufDecl) : Nat := (x.args.getD b.arg 0).toNat

/-- REFUSE_IMEM_CAPACITY, REFUSE_BUFFER_SPACE, REFUSE_BUFFER_ALIGN. -/
def failSpace (x : LoadIn) : List Fail :=
  let (_, _, _, pl) := placedOf x.m
  let cap (k : Nat) : Nat := match k with | 0 => 786432 | 1 => 32768 | _ => 196608
  chk (Config.ubvNumber 2 (ubvVersion x.s) x.bytes ≤ 32768) 0x30 noSec noItem 0
    ++ x.decls 3 x.m.bufs 0x31 (fun _ b =>
        if b.kind ≤ 2 then placedEnd pl b ≤ cap b.kind
        else b.kind ≠ 3 || devUsable x.s x.l.part (x.base b) b.maxBytes (bitAt b.flags 1)) (fun b => b.id)
    ++ x.decls 3 x.m.bufs 0x32 (fun _ b => !b.off || x.base b % 2 ^ b.align = 0) (fun _ => 0)
    ++ x.instrs (fun i => mRa i = 0 && [0x10, 0x11, 0x33, 0x34].contains (mMop i)) 0x32
        (fun _ i => mImmN i % (if mMop i ≤ 0x11 then 4 else 64) = 0) (fun _ => 0)
    ++ x.each isTile 0x32 (fun _ _ r => refOff (recW r 4) % 8192 = 0) (fun _ => 0)

/-- Whether a BUFREF names a declared buffer of a kind that serves in no companion role (R175). -/
def plainBuf (m : Module) (d kind : Nat) : Bool :=
  match m.findBuf (refBuf d) with
  | some b => b.kind = kind && bitsAt b.flags 2 3 = 0
  | none => false

/-- Whether a companion of a buffer is declared, of a kind, in its role (bit of FLAGS). -/
def sideOk (m : Module) (id role kind : Nat) : Bool :=
  match m.findBuf id with
  | some b => b.kind = kind && bitAt b.flags role
  | none => false

/-- Whether a companion that a buffer names, if it names one, is of a kind, in its role. -/
def sideIf (m : Module) (id role kind : Nat) : Bool := id = 0xFFFF || sideOk m id role kind

/-- One operand of a stone operation (R214). -/
def stoneBuf (m : Module) (fmt d : Nat) (hopper skip : Bool) : Bool :=
  match m.findBuf (refBuf d) with
  | none => false
  | some b =>
    let pitch := roundUp (packedLen (fmtBits fmt) b.inner) 16
    (hopper || b.kind = 0) && bitsAt b.flags 2 3 = 0 && refOff d % max 1 pitch * 8 / max 1 (fmtBits fmt) % 32 = 0
      && (fmtClass fmt ≠ .float || (if isMx fmt then sideOk m b.scales 4 0 else sideOk m b.census 2 0)) && (!skip || sideOk m b.skip 3 0)

/-- REFUSE_BUFFER_KIND and REFUSE_BUFFER_BIND. -/
def failKind (x : LoadIn) : List Fail :=
  let m := x.m
  x.each isHoistOp 0x33 (fun _ _ r =>
      let is (k : Nat) : Bool := (m.findBuf (refBuf (recW r 3))).any (fun b => b.kind = k)
      if hOn r = 0 then is 0 else if hOn r = 7 then is 1 else true) (fun _ => 0)
    ++ x.m.tables.flatMap (fun e => (e.2.zipIdx).flatMap (fun p =>
        chk (!isHoistOp p.1 || recOp p.1 % 2 = 0 || plainBuf m (recW (e.2.getD (p.2 + 1) 0) 4) 0) 0x33 (tableIdx x.ss e.1) p.2 0))
    ++ x.each isMma 0x33 (fun _ _ r => stoneBuf m (mFmtIn r) (recW r 5) (mFeedIn r) (mActSkip r)
        && stoneBuf m (mFmtW r) (recW r 6) (mFeedW r) false) (fun _ => 0)
    ++ x.each isStore 0x33 (fun _ _ r =>
        match m.findBuf (refBuf (recW r 4)) with
        | some b => (oToQueue r || plainBuf m (recW r 4) 0) && (!oCensus r || sideOk m b.census 2 3) && (!oSkip r || sideOk m b.skip 3 3)
        | none => false) (fun _ => 0)
    ++ x.each isFlume 0x33 (fun _ _ r =>
        let dm (q : Option Nat) (d : Nat) : Bool := q.isSome || plainBuf m d 0
        let o := fOp r
        dm (recQA r) (recW r 4) && (!fHasB r || dm (recQB r) (recW r 5))
          && (isTile r || (if o = 6 then (m.findBuf (refBuf (recW r 6))).any (fun b => b.kind = 0) else dm (recQO r) (recW r 6)))
          && (! [4, 6, 12, 13].contains o || (recQA r).isNone) && (! [3, 4, 6].contains o || (recQO r).isNone)
          && (!isTile r || sideIf m (m.buf (refBuf (recW r 4))).census 2 0)
          && ((recQA r).isNone || [16, 13, 14, 17, 0, 19].contains (fFmtA r)) && ((recQB r).isNone || [16, 13, 14, 17, 0, 19].contains (fFmtB r))
          && ((recQO r).isNone || [16, 13, 14, 17, 0, 19].contains (fOutFmt r))) (fun _ => 0)
    ++ x.decls 10 m.inits 0x33 (fun _ d => (m.findBuf d.buf).any (fun b => b.kind ≤ 1 && bitAt b.flags 5)) (fun _ => 0)
    ++ x.decls 6 m.cheap 0x33 (fun _ d => d.ranges.all (fun r => (m.findBuf r.buf).any (fun b => b.kind ≤ 2))) (fun _ => 0)
    ++ x.decls 3 m.bufs 0x34 (fun i b => !b.off || (m.bufs.take i).all (fun c =>
        !c.off || bitsAt b.bind 0 3 ≠ bitsAt c.bind 0 3 || (bitsAt b.bind 4 2 &&& bitsAt c.bind 4 2) = 0)) (fun _ => 0)

/-- Whether a record is one of the complex class that can set the class of a tile (R604). -/
def complexInto (r : Rec) (t : Nat) : Bool :=
  (isMma r && mCplx r && decide (mT0 r ≤ t)
      && decide (t < mT0 r + ceilDiv (dimMax (recF r 3 0 16)) 32 * ceilDiv (dimMax (recF r 3 16 16)) 16))
    || (isTile r && tldCls r = .complex && decide (tldT0 r ≤ t) && decide (t < tldT0 r + ceilDiv (countMax (recW r 3)) 1024))

/-- Layout in which a store is counted (R604). -/
def storeCplx (m : Module) (r : Rec) : Bool :=
  isCplx (oFmt r) || m.tables.any (fun e => e.2.any (fun q => complexInto q (oT0 r)))

/-- Tiles that a record can reach, with its extents at their maxima (R249). -/
def recAcc (m : Module) (r : Rec) : Nat :=
  let rows := ceilDiv (dimMax (recF r 3 0 16)) 32
  let n := dimMax (recF r 3 16 16)
  if isMma r then mT0 r + rows * ceilDiv n (tileCols r)
  else if isStore r then oT0 r + rows * ceilDiv n (if storeCplx m r then 16 else 32)
  else if isTile r then tldT0 r + ceilDiv (countMax (recW r 3)) 1024
  else 0

/-- NEED_ACC (R249). -/
def needAcc (m : Module) : Nat := (m.tables.flatMap (fun e => e.2.map (recAcc m))).foldl max 0

/-- REFUSE_ACC_CAPACITY. -/
def failAcc (x : LoadIn) : List Fail :=
  x.each (fun _ => true) 0x35 (fun _ _ r => recAcc x.m r ≤ 24) (fun _ => needAcc x.m)

/-- Whether a queue is declared with an engine at one end. -/
def Module.queueEnd (m : Module) (q e : Nat) (push : Bool) : Bool :=
  m.queues.any (fun d => d.q = q && (if push then d.prod = e else d.cons = e))

/-- REFUSE_QUEUE_DECL. -/
def failQueues (x : LoadIn) : List Fail :=
  let m := x.m
  x.decls 4 m.queues 0x36 (fun i d => d.q < 32 && d.prod < 8 && d.cons < 8 && d.prod ≠ d.cons && 1 ≤ d.depth && d.depth ≤ 128
      && !twice (fun q => q.q) m.queues i && ((m.queues.take (i + 1)).map (fun q => q.depth)).foldl (· + ·) 0 ≤ 512) (fun _ => 0)
    ++ x.each (fun _ => true) 0x36 (fun e _ r => (recQA r).all (fun q => m.queueEnd q e false) && (recQB r).all (fun q => m.queueEnd q e false)
        && (recQO r).all (fun q => m.queueEnd q e true)) (fun _ => 0)
    ++ x.instrs (fun i => mMop i = 0x33 || mMop i = 0x34) 0x36 (fun _ i => m.queueEnd (mFn i) 0 (mMop i = 0x34)) (fun _ => 0)

/-- Objects of a partition's blocks that are not allocated, lowest first. -/
def freeObjs (s : State) (p : Nat) : List Nat :=
  (mkeys (fun _ q => q = p) s.sync.owner).flatMap (fun b =>
    ((List.range 256).map (fun i => 256 * b + i)).filter (fun n => (getObj s n).typ = .none))

/-- PRIVATE or SHARED declarations of a module. -/
def Module.scoped (m : Module) (scope : Nat) : List SyncDecl := m.syncs.filter (fun d => d.scope = scope)

/-- Objects that a launch takes: PRIVATE ones per context, SHARED ones once (R179). -/
def objsWanted (m : Module) (instances : Nat) : Nat := (m.scoped 0).length * instances + (m.scoped 1).length

/-- A SYNCS entry (R178, R179, R280, R288, R486). -/
def syncDeclOk (x : LoadIn) (d : SyncDecl) : Bool :=
  let arg := (x.args.getD d.arg 0).toNat
  let radio := (getPart x.s x.l.part).desc.radio
  d.loc ≤ 1023 && d.typ ≤ 4 && d.scope ≤ 3
    && (match d.typ with
        | 1 => 1 ≤ d.param && d.param ≤ 65535
        | 4 => d.param ≤ 18 && (d.param ≠ 16 || radio)
        | _ => d.param = 0)
    && (d.scope ≠ 2 || objOwner x.s (arg % 65536) = x.l.part) && (d.scope ≠ 3 || arg / 2 ^ 20 = 0)

/-- Whether a sync operation fits the declared type (R281): `op` 0 wait, 1 signal, 2 take. -/
def syncUse (m : Module) (loc op mode : Nat) : Bool :=
  match m.syncs.find? (fun d => d.loc = loc) with
  | none => false
  | some d => match op with
    | 0 => true
    | 1 => d.typ ≠ 4 && (mode = 0 || d.typ = 0 || d.typ = 2)
    | _ => d.typ = 3

/-- REFUSE_SYNC_DECL. -/
def failSyncs (x : LoadIn) : List Fail :=
  let m := x.m
  x.decls 5 m.syncs 0x37 (fun i d => syncDeclOk x d && !twice (fun y => y.loc) m.syncs i) (fun _ => 0)
    ++ x.each (fun r => 4 ≤ recOp r && recOp r ≤ 6) 0x37 (fun _ _ r => syncUse m (recF r 2 0 10) (recOp r - 4) (recF r 2 12 3)) (fun _ => 0)
    ++ x.instrs (fun i => 0x35 ≤ mMop i && mMop i ≤ 0x37) 0x37 (fun _ i => syncUse m (mImmN i % 1024) (mMop i - 0x35) (mFn i)) (fun _ => 0)
    ++ (match m.timing with
        | some t => (t.phases.zipIdx).flatMap (fun p => chk (m.syncs.any (fun d => d.loc = p.1.done)) 0x37 (secIdx x.ss 8) p.2 0)
        | none => [])
    ++ chk (objsWanted m x.l.instances ≤ (freeObjs x.s x.l.part).length) 0x37 (secIdx x.ss 5) noItem 0

/-- REFUSE_DIGEST_TENSOR (R194). -/
def failDigest (x : LoadIn) : List Fail :=
  x.each (fun r => (isStore r || recOp r = 0xC1) && recB r 1 31) 0x38 (fun _ _ r =>
    x.m.digests.any (fun d => d.id = recF r 1 24 4 && (recOp r = 0xC1 || d.tensor = recW r 5))) (fun _ => 0)

/-- Bytes beyond a buffer of an access that reaches `n` bytes from a BUFREF (R248); nothing where `n` is 0. -/
def excess (m : Module) (d n : Nat) : Nat := if n = 0 then 0 else refOff d + n - (m.buf (refBuf d)).maxBytes

/-- Bytes that a strided run of rows reaches: `n` rows of `len` bytes at a pitch. -/
def rowsReach (n pitch len : Nat) : Nat := if n = 0 ∨ len = 0 then 0 else (n - 1) * pitch + len

/-- Bytes that the declared maxima of a record carry beyond a buffer; `next` is the record after it. -/
def recExcess (m : Module) (r next : Rec) : Nat :=
  let op := recOp r
  let e0 := recF r 4 0 13
  if isHoistOp r then
    let runs := if op % 2 = 0 then countMax (recW next 2) * countMax (recW next 3) * countMax (recW next 4) else countMax (recW next 2)
    (if hOn r = 0 ∨ hOn r = 7 then excess m (recW r 3) (e0 * runs) else 0)
      + (if op % 2 = 1 then excess m (recW next 4) (4 * runs) else 0)
  else if isMma r then
    let side (fmt d n : Nat) : Nat :=
      excess m d (rowsReach n (roundUp (packedLen (fmtBits fmt) (m.buf (refBuf d)).inner) 16) (packedLen (fmtBits fmt) (countMax (recW r 4))))
    (if mFeedIn r then 0 else side (mFmtIn r) (recW r 5) (dimMax (recF r 3 0 16)))
      + (if mFeedW r then 0 else side (mFmtW r) (recW r 6) (dimMax (recF r 3 16 16)))
  else if isStore r then
    if oToQueue r then 0
    else
      let k := if storeCplx m r && !isCplx (oFmt r) then 2 else 1
      let row := packedLen (fmtBits (oFmt r)) (k * dimMax (recF r 3 16 16))
      excess m (recW r 4) (rowsReach (dimMax (recF r 3 0 16)) (roundUp row 16) row)
  else if isFlume r then
    let n := countMax (recW r 3)
    let len (f k : Nat) : Nat := packedLen (fmtBits f) k
    let a := if (recQA r).isSome then 0
      else if fOp r = 6 then excess m (recW r 4) (rowsReach n (fPitch m r) (len (fFmtA r) (m.buf (refBuf (recW r 4))).inner))
      else excess m (recW r 4) (len (fFmtA r) n)
    let hist := if fOp r = 4 then len (fFmtA r) (fTaps r - 1) - refOff (recW r 4) else 0
    let b := if (recQB r).isSome ∨ !fHasB r then 0 else excess m (recW r 5) (len (fFmtB r) (fCountB r n))
    let o := if (recQO r).isSome ∨ isTile r then 0
      else if fOp r = 6 then excess m (recW r 6) (n * ceilDiv (m.buf (refBuf (recW r 4))).inner 32)
      else excess m (recW r 6) (len (fOutFmt r) (fCountO r n))
    a + hist + b + o
  else 0

/-- REFUSE_COUNT_BOUNDS. -/
def failBounds (x : LoadIn) : List Fail :=
  x.m.tables.flatMap (fun e => (e.2.zipIdx).flatMap (fun p =>
    let extra := recExcess x.m p.1 (e.2.getD (p.2 + 1) 0)
    chk (extra = 0) 0x39 (tableIdx x.ss e.1) p.2 extra))

/-! ### 0x40 to 0x70 -/

/-- The verdict of an analysis of every path of the module. -/
def verdict (x : LoadIn) (code : Nat) : List Fail :=
  match Config.ubvVerdict code (ubvVersion x.s) x.bytes with
  | some (a, b, c) => [⟨code, a, b, c⟩]
  | none => []

/-- SAVE_BYTES as R190 computes it. -/
def saveBytes (m : Module) (d : CheapDecl) : Nat :=
  2048 + ((setBitsOf 32 d.queues).map (fun q => 64 * m.depth q)).foldl (· + ·) 0
    + (d.ranges.map (fun r => r.len * (if (m.buf r.buf).kind = 2 then 8192 else 1))).foldl (· + ·) 0

/-- A cut instruction of the miller (R186). -/
def isCut (i : DWord) : Bool := mMop i = 0x35 || mMop i = 0x38

/-- The declaration that a cut instruction names. -/
def cutCheap (i : DWord) : Nat := if mMop i = 0x35 then mCheap i else mImmN i % 1024

/-- The declarations that cut records of the module name. -/
def LoadIn.named (x : LoadIn) : List CheapDecl :=
  x.m.cheap.filter (fun d => x.recs.any (fun r => (recOp r.2.2.2 = 3 || recOp r.2.2.2 = 4) && recCheap r.2.2.2 = d.id)
    || x.m.code.any (fun i => isCut i && cutCheap i = d.id))

/-- SAVE_MAX (R192): which cut records may hold together is Ubvovar's analysis; it is no less than the least declaration that a
cut record names, and no more than the union of all of them (R189). -/
def saveMaxOf (x : LoadIn) : Nat :=
  let sizes := x.named.map (saveBytes x.m)
  let lo := match sizes with | [] => 2048 | a :: r => r.foldl min a
  let hi := saveBytes x.m ⟨0, 0, x.named.foldl (fun a d => a ||| d.queues) 0, (x.named.flatMap (fun d => d.ranges)).eraseDups⟩
  max lo (min hi (Config.ubvNumber 1 (ubvVersion x.s) x.bytes))

/-- REFUSE_CHEAP_CUT, REFUSE_CHEAP_LIVE, REFUSE_CHEAP_SPACING, REFUSE_SAVE_SIZE (R187, R190 to R192). -/
def failCheap (x : LoadIn) : List Fail :=
  let m := x.m
  let declared (id : Nat) : Bool := m.cheap.any (fun d => d.id = id)
  let loan := bitAt m.flags 1
  let num (k : Nat) : Nat := Config.ubvNumber k (ubvVersion x.s) x.bytes
  chk (0 < m.cheap.length) 0x50 (secIdx x.ss 6) noItem 0 ++ chk (m.code.any isCut) 0x50 (secIdx x.ss 2) noItem 0
    ++ x.each (fun r => recOp r = 3 || recOp r = 4) 0x50 (fun _ _ r => declared (recCheap r)) (fun _ => 0)
    ++ x.instrs isCut 0x50 (fun _ i => declared (cutCheap i)) (fun _ => 0)
    ++ verdict x 0x50 ++ verdict x 0x51
    ++ chk (!loan || num 0 ≤ 12000) 0x52 noSec noItem (num 0)
    ++ x.decls 6 m.cheap 0x53 (fun _ d => d.save = saveBytes m d) (fun _ => 0)
    ++ chk (!loan || saveMaxOf x ≤ 524288) 0x53 noSec noItem 0

/-- REFUSE_RADIO_TIMING (R195, R196, R253). -/
def failTiming (x : LoadIn) : List Fail :=
  match x.m.timing with
  | none => []
  | some t =>
    let sec := secIdx x.ss 8
    let index (i : Nat) : Nat := match (ofType x.ss 8).head? with | some y => leAt y.data (8 + 24 * i) 1 | none => i
    chk (t.mu ≤ 3 && 1 ≤ t.phases.length && t.phases.length ≤ 16 && 1 ≤ t.cells && t.cells ≤ 512) 0x60 sec noItem 0
      ++ (t.phases.zipIdx).flatMap (fun p =>
        let ph := p.1
        let inside (k : Nat) : Bool := ph.start / 8 ≤ k && k < ph.stop / 8
        chk (index p.2 = p.2 && ph.start % 8 = 0 && ph.stop % 8 = 0 && ph.start < ph.stop && ph.stop ≤ 8 * x.m.code.length
          && (match ph.trigger with | 0 => ph.targ = 0 | 1 => ph.targ ≤ 13 | 2 => ph.targ < p.2 | _ => false)
          && ph.deadline * 2 ^ t.mu ≤ 4000000
          && t.phases.zipIdx.all (fun q => q.2 = p.2 || q.1.stop ≤ ph.start || ph.stop ≤ q.1.start)
          && (millerReach x.m.code [ph.start / 8] (fun k => !inside k)).all (fun k => !inside k || mMop (x.m.code.getD k 0) ≠ 0x3F))
          0x60 sec p.2 0)
      ++ verdict x 0x60

/-- What the load report says of the module (R246). -/
def sizesOf (x : LoadIn) : LoadSizes :=
  let (d, q, t, _) := placedOf x.m
  let num (k : Nat) : Nat := Config.ubvNumber k (ubvVersion x.s) x.bytes
  { freezeClocks := num 0, saveMax := saveMaxOf x, imemBytes := num 2, accTiles := needAcc x.m, accRegion := max (needAcc x.m) (ceilDiv t 8192)
    queueEntries := (x.m.queues.map (fun q => q.depth)).foldl (· + ·) 0, dmemBytes := d, mdmBytes := q
    syncObjects := (x.m.scoped 0).length + (x.m.scoped 1).length
    phaseClocks := match x.m.timing with | some t => (List.range t.phases.length).map (fun j => num (3 + j)) | none => [] }

/-- Leaves that the partition can offer to a module (R250, R255): EMPTY ones of its mills, mills that a resize removes left out. -/
def offered (x : LoadIn) : List (Nat × Nat) :=
  let p := getPart x.s x.l.part
  let gone := match p.resize with | some z => z.rem | none => 0
  ((List.range 240).filter (fun n => millUser x.s n = some x.l.part && !bitAt gone n && millTakes x.s n x.m x.l.grid)).flatMap (fun n =>
    match millSite x.s n with
    | some site => ([0, 1].filter (fun lf => leafTakes x.s site lf x.m (sizesOf x).need false)).map (fun lf => (site, lf))
    | none => [])

/-- Choose `n` leaves one after the other, each beside what the earlier ones take of its mill. -/
def pickLeaves (nd : Need) : Nat → List (Nat × Nat) → State → List (Nat × Nat)
  | 0, _, _ => []
  | _, [], _ => []
  | n + 1, x :: r, s =>
    let mill := getMill s x.1
    match boundsFor (mill.leaf (1 - x.2)).bnd nd (leafStones mill.split x.2) with
    | some b => x :: pickLeaves nd n r (setLeaf s x.1 x.2 { getLeaf s x.1 x.2 with bnd := b })
    | none => pickLeaves nd (n + 1) r s

/-- Leaves for the instances of a launch (R250, R258); none when there are too few. -/
def placesFor (x : LoadIn) : Option (List (Nat × Nat)) :=
  if x.l.grid ≠ 0 then (if 15 < x.l.grid then none else gridPlaces x.s x.l.part x.m (sizesOf x).need x.l.instances x.l.grid)
  else
    let pl := pickLeaves (sizesOf x).need x.l.instances (offered x) x.s
    if pl.length = x.l.instances then some pl else none

/-- REFUSE_NO_PLACEMENT. -/
def failPlace (x : LoadIn) : List Fail := chk (placesFor x).isSome 0x70 noSec noItem (offered x).length

/-- Every check beyond the module's form. -/
def failRest (x : LoadIn) : List Fail :=
  failCaps x ++ failPart x ++ failArgs x ++ failFmt x ++ failPair x ++ failSparse x ++ failCensus x ++ failTile x ++ failLoops x
    ++ failMillerLoops x ++ failSpaces x ++ failSplit x ++ failSpace x ++ failKind x ++ failAcc x ++ failQueues x ++ failSyncs x
    ++ failDigest x ++ failBounds x ++ verdict x 0x40 ++ verdict x 0x41 ++ verdict x 0x42 ++ verdict x 0x43 ++ failCheap x
    ++ failTiming x ++ failPlace x

/-- The first check that refuses a load (R242, R243). -/
def loadVerdict (s : State) (l : Load) (bytes : List Byte) (args : List DWord) : Option Fail :=
  match firstFail (failBad bytes l.modBytes) with
  | some f => some f
  | none => firstFail (failRest ⟨s, l, sectsOf bytes, moduleOf bytes, bytes, args⟩)

end Sys2Proof.Machine
end

