-- ==== Sys2Proof/Machine/Loader.lean ====
section
/-! DEFINITION. LOAD_COMPLETE (R242 to R246, R255, R256): a load is first checked and its leaves and objects reserved, then made RESIDENT,
or refused, with its report. -/
namespace Sys2Proof.Machine

/-! ### The load report (R246) -/

/-- The 128 bytes of the report: refusal, or the sizes of an accepted module. -/
def loadReport (s : State) (bytes : List Byte) (cached : Bool) (r : Option Fail) (z : LoadSizes) : List Byte :=
  let f := r.getD ⟨0, noSec, noItem, 0⟩
  let head := toLE 1 f.code ++ toLE 1 (b2n cached) ++ toLE 2 0 ++ toLE 2 f.sec ++ toLE 2 0 ++ toLE 4 f.item ++ toLE 4 f.detail
    ++ toLE 4 (ubvVersion s).toNat
  let body := if r.isSome then toLE 36 0
    else [z.freezeClocks, z.saveMax, z.imemBytes, z.accTiles, z.queueEntries, z.dmemBytes, z.mdmBytes, z.syncObjects, z.slotClocks].flatMap (toLE 4)
  let phases := if r.isSome then [] else z.phaseClocks.flatMap (toLE 4)
  sliceB (head ++ body ++ toLE 8 (leAt bytes 40 8) ++ sliceB phases 0 64) 0 128

/-- A load ends: its report is written under the slice's PASID, or to a host-physical address for the mailbox; its completion entry
or the mailbox result follows (R369, R373). -/
def loadEnd (s : State) (n : Nat) (l : Load) (bytes : List Byte) (cached : Bool) (r : Option Fail) (z : LoadSizes)
    (ats : List (Option AtsAns)) : State :=
  let rep := loadReport s bytes cached r z
  let code : Nat := (r.map (fun (f : Fail) => f.code)).getD 0
  let s := if l.mailbox then hostPut s ⟨none, l.reportAddr, rep⟩ else (hostWrite s (getSlice s l.slice).pasid l.reportAddr rep ats).2
  let s := { s with sched := { s.sched with loads := mdel s.sched.loads n } }
  let s := if bitAt l.flags 0 then completeEntry s l.slice l.tag (if code = 0 then 0 else 1) code else s
  lendAll (if l.mailbox then mbxLoaded s code else s)

/-! ### Reading the module and the arguments (R242, R369) -/

/-- Read `n` bytes at an address for a load: none while bytes are awaited; an empty result when a translation is refused. -/
def loadRead (s : State) (l : Load) (a n : Nat) (env : XferEnv) : Option (Option (List Byte)) × State :=
  if l.mailbox then (if env.data.length < n then (none, s) else (some (some (env.data.take n)), s))
  else match hostRead s (getSlice s l.slice).pasid a n env.ats env.data with
    | (.ok b, s) => (some (some b), s)
    | (.refused, s) => (some none, s)
    | (.wait, s) => (none, s)

/-- Read the module and its argument words. -/
def loadInputs (s : State) (l : Load) (mod arg : XferEnv) : Option (Option (List Byte × List DWord)) × State :=
  if 16777216 < l.modBytes then (some none, s)
  else match loadRead s l l.modAddr l.modBytes mod with
    | (none, s) => (none, s)
    | (some none, s) => (some none, s)
    | (some (some b), s) =>
      match loadRead s l l.argAddr (8 * min l.argCount 64) arg with
      | (none, s) => (none, s)
      | (some none, s) => (some none, s)
      | (some (some a), s) => (some (some (b, (List.range l.argCount).map (fun i => BitVec.ofNat 64 (leAt a (8 * i) 8)))), s)

/-! ### Reservation (R75, R179, R241, R242, R255) -/

/-- A leaf becomes LOADING with the bounds of the module; its row is woken. -/
def reserveLeaf (p sl : Nat) (nd : Need) (s : State) (x : Nat × Nat) : State :=
  let mill := getMill s x.1
  match boundsFor (mill.leaf (1 - x.2)).bnd nd (leafStones mill.split x.2) with
  | none => s
  | some b =>
    let s := wakeRow s (x.1 / 16)
    setLeaf s x.1 x.2 { (mill.leaf x.2).vacant with st := .loading, part := p, slice := sl, bnd := b }

/-- Allocate the objects of some declarations: the lowest free ones of the partition's blocks, initialised (R179, R291). -/
def allocObjs (p : Nat) : List SyncDecl → State → KMap Nat × State
  | [], s => ([], s)
  | d :: r, s =>
    let n := (freeObjs s p).headD 0
    let s := setObj s n ⟨ObjType.ofCode d.typ, BitVec.ofNat 32 d.init, BitVec.ofNat 32 d.param, 0⟩
    let (m, s) := allocObjs p r s
    (mput m d.loc n, s)

/-- Allocate the PRIVATE objects of `k` contexts. -/
def allocPriv (p : Nat) (ds : List SyncDecl) : Nat → State → List (KMap Nat) × State
  | 0, s => ([], s)
  | k + 1, s =>
    let (m, s) := allocObjs p ds s
    let (ms, s) := allocPriv p ds k s
    (m :: ms, s)

/-- Use the translation cache: whether it held the module, and the cache after. -/
def cacheUse (s : State) (bytes : List Byte) : Bool × State :=
  let k := ofLE (Config.sha3 bytes)
  (s.sched.cache.contains k, { s with sched := { s.sched with cache := (k :: s.sched.cache.erase k).take 256 } })

/-- Mills of the partition that are lent and that a RADIO load could use. -/
def lentOut (s : State) (p : Nat) : List Nat := mkeys (fun n _ => bitAt (getPart s p).mills n && (millSite s n).isSome) s.sched.lent

/-- A RADIO load that finds too few leaves requests the reclaim of lent mills and waits for them (R312). -/
def reclaimFor (s : State) (l : Load) (offered : Nat) : State :=
  let want := (lentOut s l.part).take (max 1 (l.instances - offered))
  want.foldl reclaimMill s

/-- Reserve what a load that passed its checks needs. -/
def reserveLoad (s : State) (n : Nat) (l : Load) (x : LoadIn) (places : List (Nat × Nat)) : State :=
  let z := sizesOf x
  let (hit, s) := cacheUse s x.bytes
  let s := places.foldl (reserveLeaf l.part l.slice z.need) s
  let (sh, s) := allocObjs l.part (x.m.scoped 1) s
  let (pr, s) := allocPriv l.part (x.m.scoped 0) l.instances s
  let plan : LoadPlan := ⟨x.m, x.bytes, x.args, z, hit, places, sh, pr⟩
  { s with sched := { s.sched with loads := mput s.sched.loads n { l with plan := some plan } } }

/-- The workshop takes up a load: it is refused, or its leaves and objects are reserved. -/
def loadCheck (s : State) (n : Nat) (l : Load) (mod arg : XferEnv) (rep : List (Option AtsAns)) : State :=
  match loadInputs s l mod arg with
  | (none, _) => s
  | (some none, s) => loadEnd s n l [] false (some ⟨1, noSec, noItem, 0⟩) LoadSizes.zero rep
  | (some (some (bytes, args)), s) =>
    let x : LoadIn := ⟨s, l, sectsOf bytes, moduleOf bytes, bytes, args⟩
    match loadVerdict s l bytes args, placesFor x with
    | some f, _ =>
      if f.code = 0x70 ∧ bitAt x.m.flags 0 ∧ lentOut s l.part ≠ [] then reclaimFor s l (offered x).length
      else
        let hit := s.sched.cache.contains (ofLE (Config.sha3 bytes))
        loadEnd s n l bytes hit (some f) LoadSizes.zero rep
    | none, some pl => reserveLoad s n l x pl
    | none, none => s

/-! ### The contexts of a launch (R66, R171, R174, R176, R180) -/

/-- The launch block (R171). -/
def launchBlock (p : LoadPlan) (i : Nat) : List Byte :=
  toLE 4 i ++ toLE 4 p.places.length ++ toLE 56 0 ++ (p.args.take 64).flatMap (fun a => toLE 8 a.toNat)

/-- Write an INIT_DATA record into a context's memories. -/
def initBuf (m : Module) (c : Ctx) (d : InitRec) : Ctx :=
  let a := c.base d.buf + d.off
  if (m.buf d.buf).kind = 0 then c.dmemWrite a d.data else c.mdmWrite a d.data

/-- The base registers of a hoist: bit 4 of BIND names HOIST_IN, bit 5 HOIST_OUT. -/
def bindBases (m : Module) (args : List DWord) (bit : Nat) : KMap DWord :=
  m.bufs.foldl (fun r b => if b.off ∧ bitAt b.bind bit then mset 0 r (bitsAt b.bind 0 3) (args.getD b.arg 0) else r) []

/-- What every LOCAL of a context names (R179, R288). -/
def bindSyncs (p : LoadPlan) (i : Nat) : KMap SyncBind :=
  p.modl.syncs.foldl (fun r d =>
    let a := (p.args.getD d.arg 0).toNat
    mput r d.loc (match d.scope with
      | 0 => .obj (mget 0 (p.priv.getD i []) d.loc)
      | 1 => .obj (mget 0 p.shared d.loc)
      | 2 => .obj (a % 65536)
      | _ => .remote (bitsAt a 16 4) (a % 65536))) []

/-- Context `i` of a launch as it leaves LOADING (R180). -/
def newCtx (l : Load) (p : LoadPlan) (ln i : Nat) (now : Nat) : Ctx :=
  let x := p.places.getD i (0, 0)
  let (_, _, _, bases) := placedOf p.modl
  let c : Ctx := { Ctx.blank with
    launch := ln, inst := i, part := l.part, slice := l.slice, place := .leaf x.1 x.2
    miller := { Miller.zero with pc := p.modl.entry }
    hbIn := bindBases p.modl p.args 4, hbOut := bindBases p.modl p.args 5
    syncs := bindSyncs p i, bufBase := bases, placedAt := now }
  (p.modl.inits.foldl (initBuf p.modl) c).mdmWrite 0 (launchBlock p i)

/-- Context `i` enters its leaf, which becomes RESIDENT. -/
def residentAt (l : Load) (p : LoadPlan) (ln base : Nat) (s : State) (i : Nat) : State :=
  let x := p.places.getD i (0, 0)
  let s := setCtx s (base + i) (newCtx l p ln i (nowNs s))
  setLeaf s x.1 x.2 { getLeaf s x.1 x.2 with st := .resident, ctx := some (base + i) }

/-- Every leaf is written: all become RESIDENT together and the report is written; a leaf no longer LOADING refuses the load. -/
def loadFinish (s : State) (n : Nat) (l : Load) (p : LoadPlan) (rep : List (Option AtsAns)) : State :=
  if !p.places.all (fun x => (getLeaf s x.1 x.2).st = .loading) then
    kickPart (loadEnd (unplan s p) n l p.bytes p.cached (some ⟨4, noSec, noItem, 0⟩) LoadSizes.zero rep) l.part
  else if !p.places.all (fun x => rowRuns s (x.1)) then p.places.foldl (fun s x => wakeRow s (x.1 / 16)) s
  else
    let ln := keyAfter s.sched.launches
    let base := keyAfter s.sched.ctxs
    let s := setLaunch s ln ⟨l.part, l.slice, l.tag, l.flags, p.modl, p.bytes, p.places.length, p.args, l.grid, p.shared, p.places.length, p.sizes⟩
    let s := (List.range p.places.length).foldl (residentAt l p ln base) s
    loadEnd s n l p.bytes p.cached none p.sizes rep

/-- Whether a load is the oldest of its partition (R244). -/
def loadFirst (s : State) (n : Nat) (l : Load) : Bool := s.sched.loads.all (fun e => e.2.part ≠ l.part || n ≤ e.1)

/-- LOAD_COMPLETE of a load. -/
def loadComplete (s : State) (n : Nat) (mod arg : XferEnv) (rep : List (Option AtsAns)) : State :=
  match mfind s.sched.loads n with
  | none => s
  | some l =>
    if !s.sched.workshop ∨ !loadFirst s n l then s
    else match l.plan with
      | none => loadCheck s n l mod arg rep
      | some p => loadFinish s n l p rep

def execLoadComplete (load : Nat) (mod arg : XferEnv) (rep : List (Option AtsAns)) (s : State) : Res :=
  done (loadComplete s load mod arg rep)

end Sys2Proof.Machine
end

