-- ==== Sys2Proof/Machine/MemCmds.lean ====
section
/-! DEFINITION. Commands of the ownership table (R350 to R353, R576), host accesses to device memory (R349, R378), link repeats
(R338), bandwidth floors (R354) and the ECC mode (R340). -/
namespace Sys2Proof.Machine

/-! ### SET, SET_ZERO, BUMP (R350 to R352) -/

/-- The granules [first, first + n). -/
def granules (first n : Nat) : List Nat := (List.range n).map (fun i => first + i)

/-- `TSP_LOCKED` (R576). -/
def tspLocked (s : State) : Bool := getF s (reg .sec 0 0x14) 2 1 = 1

/-- Whether a new entry breaks R346 or R352. -/
def badEntry (w : Word) : Bool :=
  let o := entOwner w
  (o = 63) != (entState w = 0) || (32 ≤ o && o ≤ 62) || entState w = 3 || bitsAt w.toNat 24 8 ≠ 0

/-- Whether a slot is held by, or bound to, a partition other than `o` (R352, R577). -/
def slotOfOther (s : State) (k o : Nat) : Bool :=
  let x := mget KeySlot.empty s.mem.slots k
  (x.owner ≠ 63 && x.owner ≠ o) || (match x.bound with | some q => q ≠ o | none => false)

/-- KEY_SLOT (R352, R576) for one granule. -/
def keyRefused (s : State) (op : Nat) (w : Word) (g : Nat) : Bool :=
  let k := entKey w
  let o := entOwner w
  g < 8781824 &&
    ((entState w ≠ 0 && (k = 63 || (if (getPart s o).st = .free then slotOfOther s k o else slotOwner s k ≠ o)
        || (op = 2 && (slotKey s k).isNone)))
      || (tspLocked s && (mget KeySlot.empty s.mem.slots (entKey (ownNow s g))).tsp
          && (k ≠ entKey (ownNow s g) || entBias w != entBias (ownNow s g))))

/-- Read the entries of granules for a command, as OWN does (R347, R557): none once both copies of one are uncorrectable. -/
def readEntries : List Nat → State → Option (List Word) × State
  | [], s => (some [], s)
  | g :: r, s =>
    let ue := mget 0 s.mem.tblUe g = 3 && (s.mem.cached.find? (fun p => p.1 = g)).isNone && !mget false s.mem.fenced g
    let (w, s) := ownLookup s g
    if ue then (none, s)
    else match readEntries r s with
      | (some l, s) => (some (w.getD (ownA s g) :: l), s)
      | x => x

/-- An OWN command ends (R351, R359). -/
def ownEnd (s : State) (code done : Nat) : State :=
  let s := setW s (reg .own 0 0x114) (BitVec.ofNat 32 code)
  raiseInt (setW s (reg .own 0 0x118) (BitVec.ofNat 32 done)) .own 0 1

/-- Write both copies of an entry and the cache. -/
def putEntry (s : State) (g : Nat) (w : Word) : State := ownCache (setOwnB (setOwnA s g w) g w) g w

/-- An entry with its STATE replaced. -/
def withState (w : Word) (st : Nat) : Word := BitVec.ofNat 32 (putBits w.toNat 6 2 st)

/-- Set the entries of a command in-transfer (R351 step 2); BUMP leaves a fenced granule as it is (R557). -/
def inTransfer (op : Nat) (s : State) (x : Nat × Word) : State :=
  if op = 3 ∧ mget false s.mem.fenced x.1 then s else putEntry s x.1 (withState x.2 3)

/-- A write of `OWN.CMD` (R350 to R352). -/
def ownCommand (s : State) (op : Nat) (sig : Bool) : State :=
  gated s .own 0 (fun s =>
    if s.mem.cmd.isSome then raiseErr s .own 0 8
    else
      let first := getF s (reg .own 0 0x104) 0 24
      let count := getF s (reg .own 0 0x108) 0 17
      let w := getW s (reg .own 0 0x10C)
      let gs := granules first count
      if count = 0 ∨ 65536 < count ∨ 16777216 < first + count then ownEnd s 4 0
      else if op ≠ 3 ∧ badEntry w then ownEnd s 1 0
      else if op ≠ 3 ∧ gs.any (keyRefused s op w) then ownEnd s 2 0
      else if gs.any ownFixed then ownEnd s 3 0
      else match readEntries gs s with
        | (none, s) => ownEnd s 5 0
        | (some old, s) =>
          let s := (gs.zip old).foldl (inTransfer op) s
          { s with mem := { s.mem with cmd := some ⟨op, first, count, w, if sig then some (getF s (reg .own 0 0x110) 0 16) else none, old⟩ } })

def execOwnSet (sig : Bool) (s : State) : Res := done (ownCommand s 1 sig)
def execOwnSetZero (sig : Bool) (s : State) : Res := done (ownCommand s 2 sig)
def execOwnBump (sig : Bool) (s : State) : Res := done (ownCommand s 3 sig)

/-! ### OWN_COMMAND_DONE (R351, R353) -/

/-- The entry that a command leaves (R351). -/
def newEntry (op : Nat) (old w : Word) : Word :=
  if op = 3 then BitVec.ofNat 32 (putBits old.toNat 16 8 (entGen old + 1))
  else
    let moved := entOwner old ≠ entOwner w || entState old ≠ entState w || entKey old ≠ entKey w || entBias old != entBias w
    BitVec.ofNat 32 (putBits w.toNat 16 8 (if moved then entGen old + 1 else entGen old))

/-- Zero a granule under the key of a slot (R351 step 5). -/
def zeroGranule (s : State) (g k : Nat) : State :=
  let key := (slotKey s k).getD 0
  (List.range 256).foldl (fun s i => errsClear (linePut s (g * 256 + i) key []) (g * 256 + i)) s

/-- The last steps of a command for one granule (R351 steps 4 to 6): a SET or SET_ZERO lifts a fence (R557). -/
def finishGranule (c : OwnCmd) (s : State) (x : Nat × Word) : State :=
  let s := grnDropAll s (fun k _ => k / 64 / 256 = x.1)
  if c.op = 3 ∧ mget false s.mem.fenced x.1 then s
  else
    let w := newEntry c.op x.2 c.entry
    let s := if c.op = 2 ∧ x.1 < 8781824 then zeroGranule s x.1 (entKey w) else s
    let s := { s with mem := { s.mem with fenced := mset false s.mem.fenced x.1 false } }
    putEntry s x.1 w

/-- The command in progress ends. -/
def ownDone (s : State) : State :=
  match s.mem.cmd with
  | none => s
  | some c =>
    let s := ((granules c.first c.count).zip c.old).foldl (finishGranule c) { s with mem := { s.mem with cmd := none } }
    let s := ownEnd s 0 c.count
    match c.sig with
    | some n => signalExt s n false 1
    | none => s

def execOwnCommandDone (s : State) : Res := done (ownDone s)

/-! ### Host accesses to device memory (R349, R378) -/

/-- Whether the host reaches a line (R349, R378): HDM range, host bias, an owner other than the device, a settled state, a key. -/
def hostReaches (s : State) (ln : Nat) : Bool × State :=
  if 8781824 * 256 ≤ ln then (false, s)
  else match ownLookup s (ln / 256) with
    | (some w, s) => (entBias w && entOwner w ≠ 62 && entState w ≠ 3 && (slotKey s (entKey w)).isSome, s)
    | (none, s) => (false, s)

/-- A host read that is uncorrectable (R357, R378): all ones, HOST_UE, and the RAS header log. -/
def hostUe (s : State) (ln : Nat) : State :=
  let s := raiseInt s .hif 0 1
  { s with hif := { s.hif with ras := some (ln * 64) } }

/-- 64 bytes of ones. -/
def onesLine : List Byte := List.replicate 64 0xFF

/-- A host CXL.mem read of a line. -/
def hostMemRead (s : State) (ln : Nat) (upset : Nat) : State :=
  let s := if upset = 0 then s else errsAdd s ln upset
  match hostReaches s ln with
  | (false, s) => answer (ownFail s (ln / 256) 63 2) (some onesLine)
  | (true, s) =>
    match dramLine s ln 63 with
    | (.bad, s) => answer (hostUe s ln) (some onesLine)
    | (.ok, s) => answer s (some (linePlain s ln (lineTerms s ln).2.1))

def execHostMemRead (ln : BitVec 33) (upset : BitVec 544) (s : State) : Res := done (hostMemRead s ln.toNat upset.toNat)

/-- The bytes of a line with those selected by a mask replaced. -/
def maskBytes (mask : Nat) (old new : List Byte) : List Byte :=
  (List.range 64).map (fun i => if bitAt mask i then new.getD i 0 else old.getD i 0)

/-- A host CXL.mem write of the bytes of a line that `mask` selects (R341): a partial write of an uncorrectable line is not made. -/
def hostMemWrite (s : State) (ln mask : Nat) (data : Line) (upset : Nat) : State :=
  let s := if upset = 0 then s else errsAdd s ln upset
  match hostReaches s ln with
  | (false, s) => ownFail s (ln / 256) 63 2
  | (true, s) =>
    let key := (lineTerms s ln).2.1
    if mask = 2 ^ 64 - 1 then linePut (errsClear s ln) ln key (lineBytes data)
    else match dramLine s ln 63 with
      | (.bad, s) => hostUe s ln
      | (.ok, s) => linePut (errsClear s ln) ln key (maskBytes mask (linePlain s ln key) (lineBytes data))

def execHostMemWrite (ln : BitVec 33) (mask : BitVec 64) (data : Line) (upset : BitVec 544) (s : State) : Res :=
  done (hostMemWrite s ln.toNat mask.toNat data upset.toNat)

/-! ### GDDR7_RETRY, FLOOR_WINDOW, ECC_MODE_WRITE -/

/-- A transfer of a GDDR7 device is repeated (R338). -/
def execGddr7Retry (d : Fin 24) (s : State) : Res := done (bump32 s (reg .mem (1 + d) 0x108) 1)

/-- A window ends in which `n` channels fell short of the floor of a radio partition (R354). -/
def execFloorWindow (p : Fin 32) (n : Fin 97) (s : State) : Res :=
  done (if isRadio s p then bump32 s (reg .mem (25 + p / 8) (0x110 + 0x20 * (p % 8))) n else s)

/-- A write of `ECC_CTRL` (R11, R340). -/
def eccModeWrite (s : State) (v : Word) : State :=
  gated s .mem 0 (fun s =>
    if s.sched.parts.any (fun e => e.2.st ≠ .free) then raiseErr s .mem 0 11
    else if v.toNat % 4 = 3 then invalidWrite s .mem 0
    else setF s (reg .mem 0 0x104) 0 2 v.toNat)

def execEccModeWrite (v : Word) (s : State) : Res := done (eccModeWrite s v)

end Sys2Proof.Machine
end

