-- ==== Sys2Proof/Machine/Parts.lean ====
section
/-! DEFINITION. The workshop's mailbox (R373) and the partition requests of the manager: creation (R299 to R301), resizing (R303, R304),
teardown (R322), migration (R327 to R330). -/
namespace Sys2Proof.Machine

/-! ### The partition descriptor (R299) -/

/-- The descriptor in a creation request. -/
def descOf (l : List Byte) : PartDesc :=
  { radio := leAt l 0 1 = 1, flags := leAt l 2 1, mu := leAt l 3 1, quantum := leAt l 4 4, seed := leAt l 8 8
    sliceBase := leAt l 16 2, sliceCount := leAt l 18 2, weirBase := leAt l 20 2, weirCount := leAt l 22 2
    keySlots := leAt l 24 8, mills := leAt l 32 32, grn := leAt l 64 8, ways := leAt l 72 2, bolter := leAt l 74 2
    memFloor := leAt l 76 4, blocks := leAt l 80 32, saveBase := leAt l 112 8, saveGran := leAt l 120 4, slot0 := leAt l 124 8 }

/-- The partitions that exist (R302). -/
def livingParts (s : State) : List (Nat × Part) := s.sched.parts.filter (fun e => e.2.st ≠ .free)

/-- The sum of a descriptor field over the partitions that exist. -/
def partSum (s : State) (f : PartDesc → Nat) : Nat := ((livingParts s).map (fun e => f e.2.desc)).foldl (· + ·) 0

/-- PR_BAD_DESC of a creation (R300, R355, R422, R453). -/
def descBad (s : State) (l : List Byte) : Bool :=
  let d := descOf l
  let zero (off n : Nat) : Bool := leAt l off n = 0
  1 < leAt l 0 1 || 31 < leAt l 1 1 || 3 < d.flags || (d.radio && bitAt d.flags 1)
    || (if d.radio then decide (3 < d.mu) else d.mu ≠ 0)
    || d.quantum < 50 || 100000 < d.quantum || d.sliceCount = 0 || 8192 < d.sliceBase + d.sliceCount
    || (d.weirCount ≠ 0 && (d.weirBase < 1536 || 4096 < d.weirBase + d.weirCount)) || d.keySlots = 0 || 2 ^ 240 ≤ d.mills
    || (!d.radio && (d.bolter ≠ 0 || d.memFloor ≠ 0 || d.slot0 ≠ 0)) || (d.radio && d.ways ≠ 0xFFFF) || d.saveBase % 16384 ≠ 0 || d.saveGran = 0
    || !zero 132 124 || 1024 < partSum s (·.bolter) + d.bolter
    || getF s (reg .mem 0 0x124) 0 16 < partSum s (·.memFloor) + d.memFloor

/-- Whether two ranges of numbers meet. -/
def rangesMeet (a n b m : Nat) : Bool := 0 < n && 0 < m && a < b + m && b < a + n

/-- Mills that are in the pool: present, held by no partition, promised to no resize (R303, R332). -/
def poolMill (s : State) (n : Nat) : Bool :=
  (millSite s n).isSome && (livingParts s).all (fun e => !bitAt e.2.mills n
    && (match e.2.resize with | some z => !bitAt z.add n | none => true))

/-- A key slot that a creation of partition `p` may not take (R300, R344, R577). -/
def slotTaken (s : State) (p k : Nat) : Bool :=
  let x := mget KeySlot.empty s.mem.slots k
  k = 63 || x.owner ≠ 63 || (match x.bound with | some q => q ≠ p | none => false)

/-- PR_IN_USE of a creation. -/
def descInUse (s : State) (p : Nat) (d : PartDesc) : Bool :=
  (getPart s p).st ≠ .free || (setBitsOf 240 d.mills).any (fun n => !poolMill s n)
    || (livingParts s).any (fun e => rangesMeet d.sliceBase d.sliceCount e.2.desc.sliceBase e.2.desc.sliceCount
        || rangesMeet d.weirBase d.weirCount e.2.desc.weirBase e.2.desc.weirCount
        || (!d.radio && !e.2.desc.radio && (d.grn &&& e.2.desc.grn) ≠ 0 && (d.ways &&& e.2.desc.ways) ≠ 0))
    || (setBitsOf 256 d.blocks).any (fun b => mget 63 s.sync.owner b ≠ 63)
    || (setBitsOf 64 d.keySlots).any (slotTaken s p)

/-- Whether a granary slice is retired (R547). -/
def sliceRetired (s : State) (i : Nat) : Bool := s.rep.dt.any (fun e => e.kind = 8 && e.loc = i)

/-- PR_GRANARY of a creation (R270, R547). -/
def descGranary (s : State) (d : PartDesc) : Bool :=
  let sl := setBitsOf 64 d.grn
  sl.any (sliceRetired s)
    || (if d.radio then
          sl.length = 0 || 16 < sl.length || (livingParts s).any (fun e => (e.2.desc.grn &&& d.grn) ≠ 0)
        else sl.length = 0 || d.ways = 0 || sl.any (fun i => mget 63 s.grn.dedic i ≠ 63))

/-- PR_SAVE_AREA of a creation (R300, R301). -/
def descSave (s : State) (p : Nat) (d : PartDesc) : Bool :=
  (List.range d.saveGran).any (fun i =>
    let g := d.saveBase / 16384 + i
    let w := ownNow s g
    8781824 ≤ g || mget false s.mem.fenced g || entOwner w ≠ p || entState w ≠ 1 || !bitAt d.keySlots (entKey w))

/-- Whether an I/O-die array has used up its spares: no partition can be created then (R547). -/
def ioLost (s : State) : Bool :=
  s.rep.dt.any (fun e => (e.kind = 3 || e.kind = 4) && e.spare = noSpare
    && [Block.slu.code, Block.weir.code, Block.hif.code, Block.syn.code, Block.sch.code].contains (e.loc / 65536))

/-- Whether the debug gate is open (R582). -/
def gateOpen (s : State) : Bool := getF s (reg .sec 2 0x100) 0 1 = 1

/-- The result of a creation request: the lowest code that applies (R300). -/
def createCode (s : State) (l : List Byte) : Nat :=
  let d := descOf l
  let p := leAt l 1 1
  if descBad s l then 1
  else if descInUse s p d then 2
  else if d.radio ∧ 8 ≤ ((livingParts s).filter (fun e => e.2.desc.radio)).length then 3
  else if descGranary s d then 4
  else if descSave s p d then 5
  else if devState s ≠ 2 ∨ gateOpen s ∨ ioLost s then 6
  else 0

/-! ### The mailbox (R373) -/

/-- A mailbox command: discarded while one runs; left unanswered while the workshop does not respond (R18); otherwise taken up, with
its result once that is known. -/
def mbxTake (s : State) (op p : Nat) (act : State → Option Nat × State) : State :=
  gated s .mgt 0 (fun s =>
    if s.sched.mbx.isSome then raiseErr s .mgt 0 8
    else if !s.sched.workshop then { s with sched := { s.sched with mbx := some ⟨op, p, none⟩ } }
    else
      let (r, s) := act s
      { s with sched := { s.sched with mbx := some ⟨op, p, r⟩ } })

/-- A request that names a partition in byte 0, accepted in some states of it only: `code` is PR_OK or the refusal (R300, R509,
R558). -/
def partReq (s : State) (op : Nat) (l : List Byte) (code : Nat → Nat) (act : Nat → State → Option Nat × State) : State :=
  let p := leAt l 0 1
  mbxTake s op p (fun s =>
    if 31 < p then (some 1, s)
    else if devState s ≠ 2 ∨ (op ≠ 3 ∧ (mfind s.rep.partConf p).isSome) then (some 6, s)
    else if code p = 0 then act p s else (some (code p), s))

/-! ### PART_CREATE (R299 to R301, R577) -/

/-- Registers of a partition's SCH page from 0x100 on return to reset, all but FAULT_CNT (R302, R333, R408). -/
def schPageReset (s : State) (p : Nat) : State :=
  let lo := pageBase .sch (1 + p)
  { s with bus := { s.bus with words := s.bus.words.filter (fun e =>
      !(lo + 0x100 ≤ e.1 && e.1 < lo + 0x1000 && e.1 ≠ lo + 0x1BC)) } }

/-- A key slot goes to a partition: an empty one receives a fresh key (R577). -/
def slotGive (p : Nat) (s : State) (k : Nat) : State :=
  let x := mget KeySlot.empty s.mem.slots k
  let (key, n) := match x.key with
    | some i => (i, s.mem.nextKey)
    | none => (s.mem.nextKey, s.mem.nextKey + 1)
  { s with mem := { s.mem with
      slots := mset KeySlot.empty s.mem.slots k { x with key := some key, owner := p, bound := some p }, nextKey := n } }

/-- Bind the resources of a new partition (R298, R301). -/
def partBind (s : State) (p : Nat) (d : PartDesc) : State :=
  let s := schPageReset s p
  let s := { s with
    sync := { s.sync with owner := (setBitsOf 256 d.blocks).foldl (fun m b => mset 63 m b p) s.sync.owner }
    grn := { s.grn with
      dedic := if d.radio then (setBitsOf 64 d.grn).foldl (fun m i => mset 63 m i p) s.grn.dedic else s.grn.dedic
      ways := (setBitsOf 64 d.grn).foldl (fun m i => (setBitsOf 16 d.ways).foldl (fun m w => mset 63 m (i * 16 + w) p) m) s.grn.ways }
    hif := { s.hif with lapsed := mset false s.hif.lapsed p false } }
  let s := (setBitsOf 64 d.keySlots).foldl (slotGive p) s
  let s := setW (setW s (reg .sch (1 + p) 0x10) (BitVec.ofNat 32 d.flags)) (reg .sch (1 + p) 0x100) (BitVec.ofNat 32 d.quantum)
  let s := setD64 s (reg .hif 6 (0x100 + 8 * p)) 0
  let s := if d.radio then setW s (reg .syn 2 (0x100 + 4 * p)) (BitVec.ofNat 32 (1000 / 2 ^ d.mu)) else s
  let s := setPart s p ⟨.creating, d, d.mills, none, none, 0⟩
  let s := if d.radio then setPart s p { getPart s p with slots := nextBoundary s p (nowNs s) } else s
  millsMoved s

/-- A creation request. -/
def partCreate (s : State) (l : List Byte) : State :=
  mbxTake s 1 (leAt l 1 1) (fun s =>
    match createCode s l with
    | 0 => (some 0, partBind s (leAt l 1 1) (descOf l))
    | c => (some c, s))

def execPartCreate (req : List (BitVec 8)) (s : State) : Res := done (partCreate s req)

/-! ### PART_RESIZE, RESIZE_APPLY (R303, R304) -/

/-- Mills to add and to remove of a resize request. -/
def resizeAdd (l : List Byte) : Nat := leAt l 32 32
def resizeRem (l : List Byte) : Nat := leAt l 64 32

/-- Whether a mill holds a RESIDENT, RUNNING or FROZEN context of a RADIO module. -/
def millHasRadio (s : State) (n : Nat) : Bool :=
  match millSite s n with
  | none => false
  | some site => [0, 1].any (fun lf =>
      let l := getLeaf s site lf
      match l.ctx with
      | some c => [LeafSt.resident, .running, .frozen].contains l.st && bitAt (ctxModule s (getCtx s c)).flags 0
      | none => false)

/-- Mills of a partition after a resize. -/
def millsAfter (x : Part) (add rem : Nat) : Nat := (x.mills &&& (rem ^^^ (2 ^ 240 - 1))) ||| add

/-- The result of a resize request. -/
def resizeCode (s : State) (l : List Byte) (p : Nat) : Nat :=
  let x := getPart s p
  let add := resizeAdd l
  let rem := resizeRem l
  if 2 ^ 240 ≤ add ∨ 2 ^ 240 ≤ rem ∨ (add &&& rem) ≠ 0 ∨ (x.mills &&& rem) ≠ rem then 1
  else if (setBitsOf 240 add).any (fun n => !poolMill s n) then 2
  else if x.st ≠ .active ∨ !x.desc.radio ∨ x.resize.isSome ∨ (setBitsOf 240 rem).any (millHasRadio s) then 6
  else if !admits s p (millsAfter x add rem) (admCells s p none) then (if (admCells s p none).isEmpty then 0 else 7)
  else 0

/-- The first slot boundary of a partition at least 20 µs away. -/
def resizeAt (s : State) (p : Nat) : Nat := nextBoundary s p (nowNs s + 20000 - 1)

/-- A resize is accepted: lent mills that it removes are reclaimed, and rows that gain a mill go to OPP0 (R304, R494). -/
def partResize (s : State) (l : List Byte) : State :=
  partReq s 2 l (resizeCode s l) (fun p s =>
    let s := setPart s p { getPart s p with resize := some ⟨resizeAdd l, resizeRem l, resizeAt s p⟩ }
    let s := (setBitsOf 240 (resizeRem l)).foldl reclaimMill s
    (some 0, (setBitsOf 240 (resizeAdd l)).foldl (fun s n => setRow s (n / 15) { getRow s (n / 15) with opp := 0 }) s))

def execPartResize (req : List (BitVec 8)) (s : State) : Res := done (partResize s req)

/-- A mill leaves a partition: contexts that it still holds are torn down, loads that reserved it end, its leaves are EMPTY. -/
def millLeaves (s : State) (n : Nat) : State :=
  match millSite s n with
  | none => s
  | some site =>
    let s := dropLoads s (fun l => match l.plan with | some p => p.places.any (fun x => x.1 = site) | none => false)
    [0, 1].foldl (fun s lf =>
      let s := match (getLeaf s site lf).ctx with
        | some c => ctxFault s c cfKilled 0 0
        | none => s
      clearLeaf s site lf) s

/-- A resize takes effect at its slot boundary, once the removed mills are back. -/
def resizeApply (s : State) (p : Nat) : State :=
  let x := getPart s p
  match x.resize with
  | none => s
  | some z =>
    if !reached (nowNs s) z.at_ ∨ (setBitsOf 240 z.rem).any (isLent s) then s
    else
      let s := (setBitsOf 240 z.rem).foldl (fun s n => putLend (millLeaves s n) p n false) s
      let s := setPart s p { getPart s p with mills := millsAfter x z.add z.rem, resize := none }
      kickPart (millsMoved s) p

def execResizeApply (p : Fin 32) (s : State) : Res := done (resizeApply s p)

/-! ### PART_TEARDOWN, PARTITION_TEARDOWN_DONE (R322) -/

/-- Slices of a partition that exist. -/
def partSlices (s : State) (p : Nat) : List Nat := mkeys (fun _ x => x.part = p && x.st ≠ .none) s.sched.slices

/-- Lent mills that a partition lends or borrows. -/
def partLoans (s : State) (p : Nat) : List Nat := mkeys (fun n b => b = p || bitAt (getPart s p).mills n) s.sched.lent

/-- The result of a teardown request. -/
def teardownCode (s : State) (p : Nat) : Nat :=
  let x := getPart s p
  if ([PartSt.active, .frozen, .restoring].contains x.st && x.resize.isNone)
      || ((mfind s.rep.partConf p).isSome && x.st ≠ .free && x.st ≠ .teardown) then 0 else 6

/-- A teardown begins: slices are torn down, loans end. -/
def partTeardown (s : State) (l : List Byte) : State :=
  partReq s 3 l (teardownCode s) (fun p s =>
    let s := setPart s p { getPart s p with st := .teardown, resize := none }
    let s := (partSlices s p).foldl sliceKill s
    (none, (partLoans s p).foldl reclaimMill s))

def execPartTeardown (req : List (BitVec 8)) (s : State) : Res := done (partTeardown s req)

/-- Erase a key slot (R578). -/
def slotErase (s : State) (k : Nat) : State :=
  bump32 { s with mem := { s.mem with slots := mset KeySlot.empty s.mem.slots k KeySlot.empty } } (reg .sec 1 0x108) 1

/-- Key slots that a partition holds. -/
def partKeys (s : State) (p : Nat) : List Nat := mkeys (fun _ x => x.owner = p) s.mem.slots

/-- Sync blocks return to the pool: objects to NONE, `REMOTE_OK` bits to 0 (R291). -/
def blocksFree (s : State) (p : Nat) : State :=
  let s := (mkeys (fun n _ => objOwner s n = p) s.sync.objs).foldl freeObj s
  let bl := mkeys (fun _ q => q = p) s.sync.owner
  let s := bl.foldl (fun s b => setF s (reg .syn 3 (0x100 + 4 * (b / 32))) (b % 32) 1 0) s
  { s with sync := { s.sync with owner := s.sync.owner.filter (fun e => e.2 ≠ p) } }

/-- A windowed item of a page returns to reset: its registers are listed no more. -/
def winReset (s : State) (item page : Nat) : State :=
  { s with bus := { s.bus with words := s.bus.words.filter (fun e => e.1 / 4096 ≠ winKey item page / 4096) } }

/-- Weir queues and steering entries of a partition end (R467): frames in transmission complete, nothing is signalled. -/
def weirFree (s : State) (p : Nat) : State :=
  let d := (getPart s p).desc
  let s := (List.range d.weirCount).foldl (fun s i =>
    let q := d.weirBase + i
    { winReset s q (reg .weir 1 0) with net := { s.net with queues := mdel s.net.queues q } }) s
  ((List.range 256).filter (fun e => steerOn s e && getF s (stReg e 0x110) 8 5 = p)).foldl (fun s e =>
    setSteer (setF s (stReg e 0x110) 0 1 0) e Steer.off) s

/-- Everything of a partition goes back to the pool (R291, R298, R322, R387, R424, R467, R578). -/
def partFree (s : State) (p : Nat) : State :=
  let x := getPart s p
  let s := grnDropAll s (fun _ g => g.owner = p)
  let s := (mkeys (fun _ c => c.part = p) s.cells).foldl cellFree s
  let s := (bolSets s p).foldl (fun s i => bolterDisable (bolterDisable s i 0) i 1) s
  let s := weirFree (blocksFree s p) p
  let s := (partKeys s p).foldl slotErase s
  let conf := match mfind s.rep.partConf p with
    | some (a, b) => (a ||| b) &&& ((livingParts s).filter (fun e => e.1 ≠ p && (match mfind s.rep.partConf e.1 with | some (a, b) => decide (a = b) | none => true))).foldl
        (fun m e => m &&& (e.2.mills ^^^ (2 ^ 240 - 1))) (2 ^ 240 - 1)
    | none => 0
  let s := (setBitsOf 240 (x.mills ||| conf)).foldl millLeaves s
  let s := { s with
    grn := { s.grn with dedic := s.grn.dedic.filter (fun e => e.2 ≠ p), ways := s.grn.ways.filter (fun e => e.2 ≠ p) }
    rep := { s.rep with partConf := mdel s.rep.partConf p } }
  let s := setW s (reg .sch (1 + p) 0x10) 0
  let s := setW s (reg .sch (1 + p) 0x18) (getW s (reg .sch (1 + p) 0x18) &&& 0xFF)
  let s := setW s (reg .sch (1 + p) 0x20) (getW s (reg .sch (1 + p) 0x20) &&& 1)
  millsMoved (setPart (schPageReset s p) p Part.free)

/-- Whether every step of a teardown has ended but the last. -/
def teardownOver (s : State) (p : Nat) : Bool :=
  (partSlices s p).isEmpty && (partLoans s p).isEmpty && s.sched.ctxs.all (fun e => e.2.part ≠ p)
    && s.sched.drains.all (fun e => e.2.part ≠ p)

/-- The last step of a teardown: the partition is FREE, and the workshop may answer. -/
def teardownDone (s : State) (p : Nat) : State :=
  if (getPart s p).st ≠ .teardown ∨ !s.sched.workshop ∨ !teardownOver s p then s
  else
    let s := partFree s p
    match s.sched.mbx with
    | some c => if c.op = 3 ∧ c.part = p then { s with sched := { s.sched with mbx := some { c with res := some 0 } } } else s
    | none => s

def execPartitionTeardownDone (p : Fin 32) (s : State) : Res := done (teardownDone s p)

/-! ### FREEZE, PART_RESUME (R327) -/

/-- FREEZE: every context of the partition is to freeze, grid launches together. A partition that serves cells refuses. -/
def partFreeze (s : State) (l : List Byte) : State :=
  partReq s 4 l (fun p => if (getPart s p).st = .active ∧ (getPart s p).resize.isNone ∧ !partHasCells s p then 0 else 6) (fun p s =>
    let s := setPart s p { getPart s p with st := .freezing }
    let s := (mkeys (fun _ c => c.part = p && !c.killed) s.sched.ctxs).foldl (fun s c => freezeGroup s c 5) s
    (some 0, partFrozen s p))

def execFreeze (req : List (BitVec 8)) (s : State) : Res := done (partFreeze s req)

/-- RESUME: the partition is ACTIVE again; contexts of slices that are not paused go on. -/
def partResume (s : State) (l : List Byte) : State :=
  partReq s 7 l (fun p => if (getPart s p).st = .frozen ∨ (getPart s p).st = .restoring then 0 else 6) (fun p s =>
    let s := setPart s p { getPart s p with st := .active }
    let s := (mkeys (fun _ c => c.part = p && !c.killed && (getSlice s c.slice).st = .active) s.sched.ctxs).foldl unfreeze s
    (some 0, kickPart s p))

def execPartResume (req : List (BitVec 8)) (s : State) : Res := done (partResume s req)

/-! ### EXPORT, IMPORT (R329, R330) -/

/-- A context as an image carries it. -/
def imageCtx (s : State) (full : Bool) (c : Ctx) : Ctx :=
  { (if full then c else liveOnly (ctxModule s c) c) with place := .saved, saveUnits := [], freezing := true, freezeWhy := 0 }

/-- The image of a FROZEN partition. -/
def partImage (s : State) (p : Nat) (full : Bool) (km : List Byte) : Image :=
  { dfp := getD64 s (reg .root 0 0x108), full := full, desc := (getPart s p).desc
    slices := s.sched.slices.filter (fun e => e.2.part = p && e.2.st ≠ .none)
    ctxs := mmap (fun _ c => imageCtx s full c) (s.sched.ctxs.filter (fun e => e.2.part = p && !e.2.killed))
    objs := s.sync.objs.filter (fun e => objOwner s e.1 = p)
    launches := s.sched.launches.filter (fun e => e.2.part = p)
    km := km }

/-- EXPORT: the sealed image is written to the buffer. Its length is a free value (log 5). -/
def partExport (s : State) (l : List Byte) : State :=
  partReq s 5 l (fun p => if 1 < leAt l 1 1 then 1 else if (getPart s p).st ≠ .frozen ∨ s.sec.km.isNone then 6 else 0) (fun p s =>
    let (i, s) := freshId s
    if leAt l 16 8 < (Config.freeValue i).toNat then (some 1, s)
    else
      let img := partImage s p (leAt l 1 1 = 1) (s.sec.km.getD [])
      (some 0, { s with sec := { s.sec with exports := s.sec.exports ++ [(leAt l 8 8, img)] } }))

def execExportImage (req : List (BitVec 8)) (s : State) : Res := done (partExport s req)

/-- PASIDs of an IMPORT request, one per slice in slice order. -/
def importPasids (l : List Byte) (n : Nat) : List Nat := (List.range n).map (fun i => leAt l (64 + 4 * i) 4)

/-- The result of an IMPORT request with its image (R7, R330, R580). -/
def importCode (s : State) (l : List Byte) (img : Option Image) (p : Nat) : Nat :=
  let x := getPart s p
  match img, s.sec.km with
  | some m, some km =>
    let pas := importPasids l m.slices.length
    if pas.any (fun v => 2 ^ 20 ≤ v) then 1
    else if x.st ≠ .active ∨ !(partSlices s p).isEmpty ∨ s.sched.ctxs.any (fun e => e.2.part = p) ∨ m.km ≠ km
        ∨ m.dfp ≠ getD64 s (reg .root 0 0x108) ∨ m.desc.sliceBase ≠ x.desc.sliceBase ∨ m.desc.sliceCount ≠ x.desc.sliceCount
        ∨ m.desc.blocks ≠ x.desc.blocks ∨ pas.any (pasidBound s) ∨ pas.eraseDups.length ≠ pas.length
        ∨ m.launches.any (fun e => e.2.grid ≠ 0 && (gridPlaces s p e.2.modl e.2.sizes.need e.2.instances e.2.grid).isNone) then 6
    else 0
  | _, _ => 6

/-- A launch of an image under its number `k` in the image: a new launch number. -/
def importLaunch (p base : Nat) (s : State) (e : Nat × Launch) : State := setLaunch s (base + e.1) { e.2 with part := p }

/-- A context of an image: saved in the partition's save area (R308, R309); none when the area has no room. -/
def importCtx (p cbase lbase : Nat) (o : Option State) (e : Nat × Ctx) : Option State :=
  o.bind (fun s =>
    let c := { e.2 with part := p, launch := lbase + e.2.launch, savedAt := s.sched.saves }
    let img := imageBytes (getLaunch s c.launch).modl c
    let need := unitsFor img.length
    let units := (freeUnits s p).take need
    if units.length < need then none
    else
      let s := writeUnits p (getPart s p).desc.saveBase units (chunksOf 4096 need img) s
      some (setCtx { s with sched := { s.sched with saves := s.sched.saves + 1 } } (cbase + e.1) { c with saveUnits := units }))

/-- Restore an image: the slices with their PASIDs, objects, launches and contexts. None when the save area has no room. -/
def importAll (s : State) (p : Nat) (pas : List Nat) (m : Image) : Option State :=
  let s := setPart s p { getPart s p with st := .restoring }
  let s := (m.slices.zip pas).foldl (fun s x => setSlice s x.1.1 { x.1.2 with part := p, pasid := x.2 }) s
  let s := m.objs.foldl (fun s e => setObj s e.1 e.2) s
  let lbase := keyAfter s.sched.launches
  let cbase := keyAfter s.sched.ctxs
  m.ctxs.foldl (importCtx p cbase lbase) (some (m.launches.foldl (importLaunch p lbase) s))

/-- IMPORT. -/
def partImport (s : State) (l : List Byte) (img : Option Image) : State :=
  partReq s 6 l (importCode s l img) (fun p s =>
    match img with
    | some m =>
      match importAll s p (importPasids l m.slices.length) m with
      | some s' => (some 0, s')
      | none => (some 6, s)
    | none => (some 6, s))

def execImportImage (req : List (BitVec 8)) (image : Option Image) (s : State) : Res := done (partImport s req image)

/-! ### MBX_LAUNCH, MAILBOX_DONE (R373) -/

/-- A mailbox LAUNCH: the load is requested for the slice, and its code will be the result. -/
def mbxLaunch (s : State) (l : List Byte) : State :=
  let sl := leAt l 0 2
  mbxTake s 8 (getSlice s sl).part (fun s => (none, addLoad s (loadOf (getSlice s sl).part sl true (bytesLine (sliceB l 64 64)))))

def execMbxLaunch (req : List (BitVec 8)) (s : State) : Res := done (mbxLaunch s req)

/-- The workshop ends the mailbox command whose result is known; a partition just created is ACTIVE from then on (R301). -/
def mailboxDone (s : State) : State :=
  match s.sched.mbx with
  | some c =>
    match c.res with
    | some r =>
      if !s.sched.workshop then s
      else
        let s := { s with sched := { s.sched with mbx := none } }
        let s := raiseInt (setW s (reg .mgt 0 0x10C) (BitVec.ofNat 32 r)) .mgt 0 1
        let s := if c.op ≤ 7 then raiseInt s .sch 0 1 else s
        if c.op = 1 ∧ r = 0 ∧ (getPart s c.part).st = .creating then setPart s c.part { getPart s c.part with st := .active } else s
    | none => s
  | none => s

def execMailboxDone (s : State) : Res := done (mailboxDone s)

end Sys2Proof.Machine
end

