-- ==== Sys2Proof/Machine/Boot.lean ====
section
/-! DEFINITION. The start sequence and its story stick (chapter 21), with what its steps do in the other units. -/
namespace Sys2Proof.Machine

/-- A register of MGT page 1. -/
def bootReg (off : Nat) : Nat := reg .mgt 1 off

/-! ### The step table (R518, R520) -/

/-- What a step does when it fails: RETRY with its count, ALTERNATE with its last alternate, SKIP_MARK, HALT. -/
inductive Policy where
  | retry (n : Nat)
  | alternate (last : Nat)
  | skip
  | halt
deriving DecidableEq, Repr

/-- The steps whose policy is SKIP_MARK. -/
def skipSteps : List Nat := [6, 18, 19, 20, 21, 23, 24, 25, 26, 27, 28, 29, 30, 34]

def stepPolicy (i : Nat) : Policy :=
  if [2, 3, 10, 22, 38].contains i then .retry 3
  else if i = 9 then .retry 2
  else if [5, 7, 11].contains i then .alternate 1
  else if i = 16 then .alternate 2
  else if skipSteps.contains i then .skip
  else .halt

/-- The steps that a step needs. -/
def stepNeeds (i : Nat) : List Nat :=
  if i = 1 then [] else if i = 2 then [1] else if i = 3 then [2]
  else if [4, 5, 33, 38].contains i then [3]
  else if i = 6 then [5] else if i = 7 then [4, 6] else if i = 8 then [7]
  else if [9].contains i then [8] else if i = 10 then [4] else if i = 11 then [9, 10]
  else if i = 12 ∨ i = 14 then [11] else if i = 13 then [12]
  else if i = 15 then [14] else if i = 16 then [15] else if i = 17 then [16]
  else if 18 ≤ i ∧ i ≤ 21 then [14] else if i = 22 then [20, 21]
  else if 23 ≤ i ∧ i ≤ 30 then [22]
  else if i = 31 then [17, 19, 23, 24, 25, 26, 27, 28, 29, 30]
  else if i = 32 ∨ i = 36 then [11, 31] else if i = 34 then [13, 33] else if i = 35 then [9]
  else if i = 37 then [32, 36] else if i = 39 then [17, 38]
  else [32, 33, 34, 35, 36, 37, 38, 39]

/-- The longest run of an attempt, in ms. -/
def stepLimit (i : Nat) : Nat :=
  ([2, 10, 2, 20, 10, 20, 60, 5, 20, 20, 30, 1, 1, 10, 5, 250, 150, 30, 20, 40, 40, 10, 40, 40, 40, 40, 40, 40, 40, 40, 5, 2, 2, 50,
    10, 2, 1, 100, 5, 5] : List Nat).getD (i - 1) 0

/-- The steps with alternates, in the order of `ALT_STAT` (R528). -/
def altSteps : List Nat := [5, 7, 11, 16]

/-! ### Where a start stands -/

/-- Whether a step has completed. -/
def stepDone (s : State) (i : Nat) : Bool := bitAt (getD64 s (bootReg 0x108)).toNat i

/-- The run of a step that is in progress. -/
def stepRun (s : State) (i : Nat) : Option BootRun := s.boot.running.find? (fun r => r.step = i)

/-- Whether a step may start (R518, R519). -/
def stepReady (s : State) (i : Nat) : Bool :=
  1 ≤ i && !stepDone s i && (stepRun s i).isNone && (stepNeeds i).all (stepDone s)
    && (i ≠ 34 || s.boot.pwrgdAt + 100000000 ≤ nowNs s)

/-- Set a bit of a 64-bit mask register of MGT page 1. -/
def bootMark (s : State) (off i : Nat) : State :=
  setD64 s (bootReg off) (getD64 s (bootReg off) ||| BitVec.ofNat 64 (2 ^ i))

/-- Replace a field of `RET` (R528). -/
def setRet (s : State) (lo len v : Nat) : State :=
  setD64 s (bootReg 0x118) (BitVec.ofNat 64 (putBits (getD64 s (bootReg 0x118)).toNat lo len v))

/-- The alternate at which a step begins (R522). -/
def startAlt (s : State) (i : Nat) : Nat :=
  let ret := s.boot.prevRet.toNat
  if i = 5 then (if bitsAt ret 32 8 = 5 then min 1 (bitsAt ret 40 2 + 1) else 0)
  else if altSteps.contains i then mget 0 s.boot.memo i
  else 0

/-- A fresh key for slot 63 (R579). -/
def freshKey63 (s : State) : State :=
  { s with mem := { s.mem with
    slots := mput s.mem.slots 63 ⟨some s.mem.nextKey, 62, none, false⟩
    nextKey := s.mem.nextKey + 1 } }

/-- An attempt of a step begins: `RET` names it first (R522). -/
def startRun (s : State) (i alt tries : Nat) : State :=
  let s := setRet (setRet s 16 8 i) 24 2 alt
  let s := { s with boot := { s.boot with
    running := s.boot.running ++ [⟨i, alt, tries, nowNs s⟩]
    alts := if altSteps.contains i then mset 0 s.boot.alts i alt else s.boot.alts } }
  if i = 17 then freshKey63 s else s

/-- Ready steps start, the lowest first, while fewer than four run (R519). -/
def startReady : Nat → State → State
  | 0, s => s
  | n + 1, s =>
    if s.boot.halted ∨ devState s ≠ 1 ∨ !s.boot.pwrgd ∨ s.boot.railBad ∨ 4 ≤ s.boot.running.length then s
    else
      match (List.range 41).find? (stepReady s) with
      | none => s
      | some i => startReady n (startRun s i (startAlt s i) 0)

/-- `BOOT_STEP` shows the lowest step in progress. -/
def bootShow (s : State) : State :=
  setF s (bootReg 0x100) 0 8 (((List.range 41).find? (fun i => (stepRun s i).isSome)).getD 0)

/-- Steps start as far as they may. -/
def bootMove (s : State) : State := bootShow (startReady 4 s)

/-! ### The flash log (R522, R527) -/

/-- The entries that the 1 MiB log holds behind a header of 96 bytes (log 7). -/
def logRoom : Nat := 32765

/-- Append an entry; when the log is full the oldest goes. -/
def logPut (l : List LogEnt) (e : LogEnt) : List LogEnt := (if logRoom ≤ l.length then l.drop 1 else l) ++ [e]

/-- The fields of `RET` that name a failure: step, alternate, kind. -/
def retFail (ret : Nat) : Nat × Nat × Nat := (bitsAt ret 32 8, bitsAt ret 40 2, bitsAt ret 44 2)

/-- The log entry of a start that `RET` alone describes: the cause and the masks are not in `RET` (log 5). -/
def lostEntry (s : State) (no : Nat) : LogEnt × State :=
  let ret := s.boot.prevRet.toNat
  let (a, s) := freshId s
  let (b, s) := freshId s
  let (c, s) := freshId s
  let (f, alt, k) := retFail ret
  (⟨no, (Config.freeValue a).toNat % 256, if bitAt ret 63 then 0 else 1, f, alt, k, (Config.freeValue b).toNat, (Config.freeValue c).toNat⟩, s)

/-- Step 6: a start that the log misses is entered, the memos are taken up, and this start gets its number. -/
def mergeLog (s : State) : State :=
  let ret := s.boot.prevRet.toNat
  let gap := (bitsAt ret 0 16 + 2 ^ 16 - s.boot.hdrNo % 2 ^ 16) % 2 ^ 16
  let newer := ret ≠ 0 ∧ 0 < gap ∧ gap < 2 ^ 15
  let no := if newer then s.boot.hdrNo + gap else s.boot.hdrNo
  let s := if newer then
      let (e, s) := lostEntry s no
      { s with boot := { s.boot with log := logPut s.boot.log e, hdrNo := no } }
    else s
  let s := setRet (setW s (bootReg 0x124) (BitVec.ofNat 32 (no + 1))) 0 16 (no + 1)
  { s with boot := { s.boot with memo := s.boot.hdrMemo, logOk := true } }

/-- The memos that the header takes: the alternates at which steps succeeded (R522), none after a clear (R523). -/
def newMemos (s : State) : KMap Nat :=
  if s.boot.memoClr then []
  else altSteps.foldl (fun m i => if stepDone s i then mset 0 m i (mget 0 s.boot.alts i) else m) s.boot.hdrMemo

/-- The entry of this start and the header are written, in a fresh log when step 6 failed. -/
def writeLog (s : State) (outcome : Nat) : State :=
  let (f, alt, k) := retFail (getD64 s (bootReg 0x118)).toNat
  let e : LogEnt := ⟨startNo s, getF s (reg .gov 4 0x188) 0 4, outcome, f, alt, k, (getD64 s (bootReg 0x108)).toNat, (getD64 s (bootReg 0x110)).toNat⟩
  { s with boot := { s.boot with
    log := if s.boot.logOk then logPut s.boot.log e else [e]
    hdrNo := startNo s, hdrMemo := newMemos s, logOk := true } }

/-- A start halts (R520): no new step starts, and the log says so when it can be written. -/
def haltStart (s : State) : State :=
  if s.boot.halted then s
  else
    let s := setDevState { s with boot := { s.boot with halted := true } } 5
    if s.boot.logOk then writeLog s 1 else s

/-! ### Marks of the SKIP_MARK steps (R520, R544, R546, R547) -/

/-- The spare of a failing site: site 15 of its row unless it is gone. -/
def siteSpare (s : State) (row x : Nat) : Nat :=
  if x = 15 ∨ s.rep.dt.any (fun e => e.kind = 1 && e.loc % 16 = row && (e.spare = 15 || e.loc / 256 = 15)) then noSpare else 15

/-- A MILL_SITE mark of this start. -/
def siteMark (s : State) (row x : Nat) : Option DtEntry :=
  if (siteEntry s row x).isSome then none else some ⟨1, 1, row + 256 * x, siteSpare s row x, startNo s⟩

/-- How many entries of a kind a part has. -/
def marksAt (s : State) (kind : Nat) (here : Nat → Bool) : Nat := (s.rep.dt.filter (fun e => e.kind = kind && here e.loc)).length

/-- The mark that stands for what a step found: a part whose spares are used up gives up the next coarser part. -/
def markOf (s : State) (e : DtEntry) : Option DtEntry :=
  let row := e.loc % 16
  let x := bitsAt e.loc 8 4
  let plain (sp : Nat) : Option DtEntry := some ⟨e.kind, 1, e.loc, sp, startNo s⟩
  if e.kind = 1 then siteMark s row x
  else if e.kind = 2 then
    if 0 < marksAt s 2 (fun l => l % 2 ^ 18 = e.loc % 2 ^ 18) then siteMark s row x else plain 0
  else if e.kind = 3 ∨ e.kind = 4 then
    if marksAt s e.kind (fun l => l = e.loc) < 4 then plain e.spare
    else if e.loc / 65536 = Block.mill.code then siteMark s (bitsAt e.loc 12 4) (bitsAt e.loc 8 4)
    else if e.loc / 65536 = Block.grn.code then some ⟨8, 1, bitsAt e.loc 8 8, noSpare, startNo s⟩
    else plain noSpare
  else if e.kind = 6 then
    plain (((List.range 20).find? (fun i => bolterRole s i = 1 && i ≠ e.loc && !bolterFenced s i)).getD noSpare)
  else if e.kind = 7 then (if marksAt s 7 (fun l => l % 256 = e.loc % 256) < 4 then plain e.spare else none)
  else if e.kind = 5 ∨ e.kind = 8 then plain e.spare
  else none

/-- A mark enters the table, and its copies once step 17 wrote them; a record tells the step. -/
def markPart (step : Nat) (s : State) (e : DtEntry) : State :=
  match markOf s e with
  | none => s
  | some m =>
    let put (l : List DtEntry) : List DtEntry := if l.length < 4096 then l ++ [m] else l
    let both := stepDone s 17
    let s := { s with rep := { s.rep with
      dt := put s.rep.dt
      dtA := if both then put s.rep.dtA else s.rep.dtA
      dtB := if both then put s.rep.dtB else s.rep.dtB } }
    errRecord s .rep 0 6 2 62 m.loc step

/-! ### What the steps do (R518) -/

/-- Whether what a step found out is of the step's kind. -/
def dataFits (i : Nat) (d : StepData) : Bool :=
  match d with
  | .image _ _ _ _ => i = 7
  | .identity _ => i = 10
  | .record _ => i = 11
  | .plain => i ≠ 7 && i ≠ 10 && i ≠ 11

/-- Words of a digest in consecutive registers. -/
def putWords (s : State) (a : Nat) (l : List Byte) (n : Nat) : State :=
  (List.range n).foldl (fun s i => setW s (a + 4 * i) (BitVec.ofNat 32 (leAt l (4 * i) 4))) s

/-- A fresh DBG_NONCE (R581). -/
def drawNonce (s : State) : State :=
  (List.range 8).foldl (fun s i =>
    let (n, s) := freshId s
    setW s (reg .sec 2 (0x120 + 4 * i)) ((Config.freeValue n).setWidth 32)) s

/-- Step 8: the floors of the authentic copy with the greater COMMIT_NO (R567). -/
def heldFloor (s : State) : Option FloorRec :=
  match s.sec.floorA, s.sec.floorB with
  | some a, some b => some (if a.no < b.no then b else a)
  | some a, none => some a
  | none, b => b

def loadFloors (s : State) : State :=
  let f : FloorRec := (heldFloor s).getD ⟨0, 0, 0⟩
  let s := setF s (reg .sec 0 0x14) 3 1 (b2n (heldFloor s).isNone)
  setW (setW s (reg .sec 0 0x108) (BitVec.ofNat 32 f.img)) (reg .sec 0 0x10C) (BitVec.ofNat 32 f.cfg)

/-- Step 11: whether the record passes (R523, R525, R546, R567, R571). -/
def recordPasses (s : State) (r : CfgRecord) : Bool :=
  getW s (reg .sec 0 0x10C) ≤ r.svn && r.idDigest = s.sec.idDigest && r.locks.length ≤ 64
    && r.repairs.all (fun e => 1 ≤ e.kind && e.kind ≤ 8)

def takeRecord (s : State) (r : CfgRecord) : State :=
  let other : Bool := match s.boot.lastRecord with | some x => x ≠ r.recordId | none => false
  let s := setD64 (setW s (reg .sec 0 0x104) r.svn) (bootReg 0x130) r.recordId
  { s with
    card := { s.card with rcd := some r, repairs := r.repairs }
    boot := { s.boot with
      lastRecord := some r.recordId
      memoClr := s.boot.memoClr || other
      hdrMemo := if other then [] else s.boot.hdrMemo } }

/-- The fingerprint record (R533). -/
def fingerprint (s : State) : List Byte :=
  let fw : Word := match s.boot.image with | some x => x.2.1 | none => 0
  let opt := (if hasCap s 0x30 then 0x1F else 0) + 2 ^ 8 * b2n (hasCap s 0x31) + 2 ^ 9 * b2n (hasCap s 0x32)
    + 2 ^ 10 * b2n (hasCap s 0x33) + 2 ^ 11 * b2n (hasCap s 0x40) + 2 ^ 12 * b2n (hasCap s 0x41)
  toLE 2 0x7240 ++ toLE 1 (getF s (reg .root 0 0x100) 16 8) ++ [1] ++ toLE 4 fw.toNat ++ toLE 4 (ubvVersion s).toNat ++ toLE 4 opt
    ++ List.replicate 16 0

/-- Step 32: the capability list and the fingerprint (R50, R525, R533). -/
def buildCaps (s : State) : State :=
  let wanted : List Nat := match s.card.rcd with | some r => r.caps | none => []
  let s := { s with card := { s.card with caps := Card.zero.caps.filter (fun c => wanted.contains c) } }
  let f := fingerprint s
  setD64 (putWords s (reg .root 0 0x120) f 8) (reg .root 0 0x108) (BitVec.ofNat 64 (leAt (Config.sha3 f) 0 8))

/-- Step 36: the board's numbers (R489, R501). -/
def loadBoard (s : State) : State :=
  match s.card.rcd with
  | none => s
  | some r =>
    let s := { s with card := { s.card with boardMax := r.boardMax, floorBase := r.floorBase, rowRadio := r.rowRadio } }
    capClamp (setF s (reg .gov 0 0x100) 0 10 r.boardMax)

/-- Step 37: the pages of the LOCKS section (R43, R525). -/
def lockPages (s : State) : State :=
  match s.card.rcd with
  | none => s
  | some r => r.locks.foldl (fun s p =>
      match pageAt p.1 with
      | some (b, i) => setF (setF s (reg b i 0x30) 0 11 p.2) (reg b i 0x2C) 0 2 3
      | none => s) s

/-- FLOOR_LIMIT at a GDDR7 rate (R355). -/
def floorLimit (alt : Nat) : Nat := ([1800, 1620, 1440] : List Nat).getD alt 0

/-- Step 16 has trained the groups at an alternate (R337). -/
def trained (s : State) (alt : Nat) : State :=
  setF (setF (setF s (reg .mem 0 0x100) 0 2 alt) (reg .mem 0 0x124) 0 16 (floorLimit alt)) (reg .mem 0 0x14) 0 1 1

/-- An attempt of step 16 is counted for every device. -/
def countTry (s : State) (i : Nat) : State :=
  if i = 16 then (List.range 24).foldl (fun s d => setF s (reg .mem (1 + d) 0x10C) 0 4 (min 15 (getF s (reg .mem (1 + d) 0x10C) 0 4 + 1))) s
  else s

/-- Measurement blocks 1 to 6 and 8 (R573); block 7 is formed at each request. -/
def measNow (s : State) : KMap (List Byte) :=
  let body : List Byte := match s.boot.image with | some x => x.2.2.2 | none => []
  let rcd : List Byte := match s.card.rcd with | some r => r.digest | none => []
  let word (a : Nat) : List Byte := toLE 4 (getW s a).toNat
  let entry (e : DtEntry) : List Byte := toLE 1 e.kind ++ toLE 1 e.origin ++ [0, 0] ++ toLE 4 e.loc ++ toLE 4 e.spare ++ toLE 4 e.start
  [(1, Config.sha3 (Config.romDigest false ++ Config.romDigest true)),
   (2, Config.sha3 (body ++ word (reg .sec 0 0x100) ++ word (reg .sec 0 0x108) ++ toLE 1 (getF s (reg .sec 0 0x114) 0 1))),
   (3, Config.imagePart false body), (4, Config.imagePart true body),
   (5, Config.sha3 (rcd ++ toLE 8 (getD64 s (bootReg 0x130)).toNat ++ word (reg .sec 0 0x104) ++ word (reg .sec 0 0x10C))),
   (6, fingerprint s), (8, Config.sha3 (s.rep.dt.flatMap entry))]

/-- Step 40: the device reports itself ready (R522, R526). -/
def bootReady (s : State) : State :=
  let s := setRet (bootMark s 0x108 40) 63 1 1
  let s := writeLog s 0
  let us := min ((nowNs s - s.boot.from_) / 1000) 0xFFFFFFFF
  let s := setW s (bootReg 0x138) (BitVec.ofNat 32 us)
  setDevState { s with boot := { s.boot with memActive := true }, sec := { s.sec with meas := measNow s } } 2

/-- What a step does as it completes; none where it fails instead. -/
def stepEffect (s : State) (r : BootRun) (d : StepData) : Option State :=
  match d with
  | .image svn fw ubv dg =>
    let s := setF (setW s (reg .sec 0 0x100) svn) (reg .sec 0 0x114) 0 1 r.alt
    some { s with boot := { s.boot with image := some (svn, fw, ubv, dg) } }
  | .identity dg =>
    let s := setF (putWords s (reg .sec 0 0x140) dg 16) (reg .sec 0 0x14) 1 1 1
    some { s with sec := { s.sec with idDigest := dg } }
  | .record x => if recordPasses s x then some (takeRecord s x) else none
  | .plain =>
    if r.step = 4 then some (drawNonce (setF s (reg .sec 0 0x14) 0 1 1))
    else if r.step = 6 then some (mergeLog s)
    else if r.step = 8 then
      let s := loadFloors s
      if getW s (reg .sec 0 0x100) < getW s (reg .sec 0 0x108) then none else some s
    else if r.step = 9 then some { s with sched := { s.sched with workshop := true } }
    else if r.step = 13 then some { s with boot := { s.boot with cardReleased := true } }
    else if r.step = 14 then some { s with rep := { s.rep with dt := (s.card.repairs ++ s.rep.field).take 4096 } }
    else if r.step = 16 then some (trained (countTry s 16) r.alt)
    else if r.step = 17 then some { s with rep := { s.rep with dtA := s.rep.dt, dtB := s.rep.dt } }
    else if r.step = 32 then some (buildCaps s)
    else if r.step = 35 then some { s with sched := { s.sched with cache := [] } }
    else if r.step = 36 then some (loadBoard s)
    else if r.step = 37 then some (lockPages s)
    else if r.step = 38 then some (setLink s true)
    else if r.step = 39 then some { s with boot := { s.boot with memValid := true } }
    else if r.step = 40 then some (bootReady s)
    else some s

/-- A run ends. -/
def endRun (s : State) (i : Nat) : State := { s with boot := { s.boot with running := s.boot.running.filter (fun r => r.step ≠ i) } }

/-- A run of a step fails (R520): `RET` records it and the step's policy applies. -/
def stepFails (s : State) (r : BootRun) (kind : Nat) (marks : List DtEntry) : State :=
  let s := raiseInt (countTry (endRun s r.step) r.step) .mgt 1 1
  let s := setRet (setRet (setRet s 32 8 r.step) 40 2 r.alt) 44 2 kind
  let again (s : State) (alt tries : Nat) : State := if s.boot.halted then s else startRun s r.step alt tries
  let s := match stepPolicy r.step with
    | .retry n => if r.tries < n then again s r.alt (r.tries + 1) else haltStart s
    | .alternate m => if r.alt < m then again s (r.alt + 1) 0 else haltStart s
    | .skip =>
      let s := setF (marks.foldl (markPart r.step) s) (reg .mgt 1 0x14) 0 1 1
      domsFollow (bootMark (bootMark s 0x110 r.step) 0x108 r.step)
    | .halt => haltStart s
  bootMove s

/-! ### STEP_COMPLETE, STEP_ERROR, STEP_LIMIT -/

/-- Whether a step can complete now: step 38 waits for PERST_N (R518). -/
def mayComplete (s : State) (i : Nat) : Bool := i ≠ 38 || s.boot.perst

/-- A step in progress completes. -/
def stepComplete (s : State) (i : Nat) (d : StepData) : State :=
  match stepRun s i with
  | none => s
  | some r =>
    if !mayComplete s i ∨ !dataFits i d then s
    else
      match stepEffect (endRun s i) r d with
      | none => stepFails s r 1 []
      | some s => bootMove (domsFollow (bootMark s 0x108 i))

def execStepComplete (step : Fin 41) (d : StepData) (s : State) : Res := done (stepComplete s step d)

/-- A step in progress reports an error, with the parts it found faulty. -/
def execStepError (step : Fin 41) (marks : List DtEntry) (s : State) : Res :=
  done (match stepRun s step with | some r => stepFails s r 1 marks | none => s)

/-- Whether an attempt has run for its limit; step 38 counts from the rise of PERST_N. -/
def atLimit (s : State) (r : BootRun) : Bool :=
  let from_ := if r.step = 38 then max r.since s.boot.perstAt else r.since
  (r.step ≠ 38 || s.boot.perst) && from_ + stepLimit r.step * 1000000 ≤ nowNs s

/-- A step reaches its limit. -/
def stepLimited (s : State) (i : Nat) (marks : List DtEntry) : State :=
  match stepRun s i with
  | some r => if atLimit s r then stepFails s r 2 marks else s
  | none => s

def execStepLimit (step : Fin 41) (marks : List DtEntry) (s : State) : Res := done (stepLimited s step marks)

/-! ### MEMO_CLR (R523), SVN_COMMIT (R568, R584) -/

/-- A write of `MEMO_CLR`. -/
def memoClear (s : State) (v : Nat) : State :=
  gated s .mgt 1 (fun s =>
    if v % 2 ^ 16 ≠ 0x3C5A then invalidWrite s .mgt 1
    else if bitAt v 31 then { s with boot := { s.boot with memoClr := true, hdrMemo := [] } }
    else s)

def execMemoClr (v : Word) (s : State) : Res := done (memoClear s v.toNat)

/-- The floors rise to what runs. -/
def raiseFloors (s : State) : State :=
  let img := max (getW s (reg .sec 0 0x108)).toNat (getW s (reg .sec 0 0x100)).toNat
  let cfg := max (getW s (reg .sec 0 0x10C)).toNat (getW s (reg .sec 0 0x104)).toNat
  let no := match heldFloor s with | some f => f.no | none => 0
  let f : FloorRec := ⟨img, cfg, no + 1⟩
  let s := { s with sec := { s.sec with floorA := some f, floorB := some f } }
  let s := setW (setW s (reg .sec 0 0x108) (BitVec.ofNat 32 img)) (reg .sec 0 0x10C) (BitVec.ofNat 32 cfg)
  raiseInt s .sec 0 1

/-- A write of `SVN_COMMIT`. -/
def svnCommit (s : State) (v : Nat) : State :=
  if devState s = 1 ∨ devState s = 4 then raiseErr s .sec 0 8
  else gated s .sec 0 (fun s =>
    if v % 2 ^ 16 ≠ 0x5A3C then invalidWrite s .sec 0
    else if bitAt v 31 then raiseFloors s
    else s)

def execSvnCommit (v : Word) (s : State) : Res := done (svnCommit s v.toNat)

/-! ### The start itself (R514, R522) -/

/-- A start begins, at step 1 or at the full-reset entry. -/
def beginStart (s : State) (full : Bool) : State :=
  let ret := getD64 s (bootReg 0x118)
  let no := bitsAt ret.toNat 0 16 + 1
  let s := { s with boot := { s.boot with
    running := [], halted := false, from_ := nowNs s, prevRet := ret, alts := [], memo := [], logOk := false, memoClr := false } }
  let s := setW (setD64 s (bootReg 0x118) (BitVec.ofNat 64 (no % 2 ^ 16))) (bootReg 0x124) (BitVec.ofNat 32 no)
  let s := if full then setD64 s (bootReg 0x108) 6 else s
  bootMove (domsFollow (setDevState s 1))

/-- What one tick of the fantail does with no command waiting (log 2): COUNT rises while the time island is clocked (R470, R502), and
the start of a full reset that nothing holds, and steps of a start whose time has come, begin (R514). -/
def tick (s : State) : State :=
  let s : State := if (getDom s 1).st = 3 then { s with ftl := { s.ftl with count := s.ftl.count + 1 } } else s
  if devState s = 4 ∧ s.boot.d3 = false then beginStart s true else bootMove s

end Sys2Proof.Machine
end

