-- ==== Sys2Proof/Machine/Repair.lean ====
section
/-! DEFINITION. The repair unit: field sparing (R550 to R556), the wear monitors (R548, R549), commands (R560), error records (R563), and
what the patrol scrub finds (R342, R558, R559). -/
namespace Sys2Proof.Machine

/-- A register of REP page 0. -/
def repReg (off : Nat) : Nat := reg .rep 0 off

/-- `REP_RESULT`: the code of a command, and whether it still runs. -/
def repResult (s : State) (code : Nat) (busy : Bool) : State := setF (setF s (repReg 0x10C) 0 3 code) (repReg 0x10C) 31 1 (b2n busy)

/-! ### Accepting a sparing (R550, R551) -/

/-- Whether the site serves a context of a radio-class partition. -/
def siteRadio (s : State) (site : Nat) : Bool :=
  [0, 1].any (fun lf => match (getLeaf s site lf).ctx with | some c => isRadio s (getCtx s c).part | none => false)

/-- Why a sparing of a site is refused (R550, R560): 1 BUSY, 2 NO_SPARE, 3 BAD_ARG; 0 when it is accepted. -/
def spareCode (s : State) (site : Nat) : Nat :=
  let spare := site / 16 * 16 + 15
  if s.rep.sparing.isSome then 1
  else if site = spare ∨ siteRole s site = 2 then 3
  else if siteRole s spare ≠ 1 ∨ siteFenced s spare then 2
  else if [0, 1].any (fun lf => (getLeaf s site lf).st = .loading) then 1
  else 0

/-- Freeze a leaf of the failing site, with the other members of a grid launch (R188, R259); a freeze already requested for a swap, a
pause, a reclaim or a migration goes on. -/
def spareFreeze (s : State) (site lf : Nat) : State :=
  let l := getLeaf s site lf
  match l.ctx with
  | some c =>
    if (l.st = .resident ∨ l.st = .running) ∧ !((getCtx s c).freezing ∧ 2 ≤ (getCtx s c).freezeWhy) then freezeGroup s c 6 else s
  | none => s

/-- The repair unit accepts the sparing of a site. A lent mill is reclaimed. -/
def spareAccept (s : State) (site : Nat) (byCmd : Bool) : State :=
  let st (lf : Nat) : Nat := (getLeaf s site lf).st.code
  let x : Sparing := ⟨site, nowNs s, byCmd, st 0, st 1⟩
  let s := wakeRow { s with rep := { s.rep with sparing := some x } } (site / 16)
  let s := if byCmd then repResult s 0 true else s
  let s := setMill s site { getMill s site with swTo := none }
  match siteMill s site with
  | some n => if isLent s n then reclaimMill s n else spareFreeze (spareFreeze s site 0) site 1
  | none => s

/-- A SPARE_SITE command. -/
def spareSite (s : State) : State :=
  gated s .rep 0 (fun s =>
    let a := (getW s (repReg 0x104)).toNat
    let site := a % 16 * 16 + bitsAt a 8 4
    match spareCode s site with
    | 0 => spareAccept s site true
    | code => setF s (repReg 0x10C) 0 3 code)

def execSpareSite (s : State) : Res := done (spareSite s)

/-! ### The end of a sparing (R551, R553, R556) -/

/-- A frozen context of the sparing continues at its leaf: as it was, or still frozen for a pause or a migration that came since. -/
def spareResume (s : State) (cid : Nat) (was : Nat) : State :=
  let c := getCtx s cid
  match c.place with
  | .saved => s
  | .leaf site lf =>
    if (getLeaf s site lf).st ≠ .frozen ∨ c.freezeWhy ≠ 6 then s
    else if (getSlice s c.slice).st = .paused then setCtx s cid { c with freezeWhy := 3 }
    else if (getPart s c.part).st = .freezing ∨ (getPart s c.part).st = .frozen then setCtx s cid { c with freezeWhy := 5 }
    else
      let s := unfreeze s cid
      if was = LeafSt.running.code then startLeaf s site lf else s

/-- Every context that the sparing froze continues. -/
def spareRelease (s : State) (x : Sparing) (site : Nat) : State :=
  let was (c : Ctx) : Nat := match c.place with
    | .leaf st lf => if st = site then (if lf = 0 then x.st0 else x.st1) else LeafSt.resident.code
    | .saved => 0
  (mkeys (fun _ c => c.freezeWhy = 6) s.sched.ctxs).foldl (fun s c => spareResume s c (was (getCtx s c))) s

/-- The context of a leaf is lost with the failing site (R553). -/
def spareLose (site : Nat) (s : State) (lf : Nat) : State :=
  match (getLeaf s site lf).ctx with
  | none => s
  | some c =>
    let s := ctxFault s c cfSpareLost 0 0
    let s := setCtx s c { getCtx s c with place := .saved }
    let s := setLeaf s site lf { Leaf.empty with gang := (getLeaf s site lf).gang }
    errRecord s .rep 0 10 1 (getCtx s c).part site 0

/-- A context moves with its site. -/
def Ctx.moveTo (c : Ctx) (site dst : Nat) : Ctx :=
  match c.place with
  | .leaf x lf => if x = site then { c with place := .leaf dst lf } else c
  | .saved => c

/-- The mill's state lies at another site from now on. -/
def millMove (s : State) (site dst : Nat) : State :=
  let s := setMill (setMill s dst (getMill s site)) site Mill.zero
  { s with sched := { s.sched with ctxs := mmap (fun _ c => c.moveTo site dst) s.sched.ctxs } }

/-- The sparing ends: its command, if there was one, has its result. -/
def spareOver (s : State) (x : Sparing) (code : Nat) : State :=
  let s := { s with rep := { s.rep with sparing := none } }
  raiseInt (if x.byCmd then repResult s code false else s) .rep 0 3

/-- The partition that runs on a site now. -/
def siteUser (s : State) (site : Nat) : Option Nat := (siteMill s site).bind (millUser s)

/-- The remap: the lost leaves are EMPTY, the logical column is bound to site 15, and the other contexts continue there. -/
def spareRemap (s : State) (x : Sparing) (lost : List Nat) : State :=
  let dst := x.site / 16 * 16 + 15
  let s := lost.foldl (spareLose x.site) s
  let s := dtAdd (millMove s x.site dst) 1 (x.site / 16 + 256 * (x.site % 16)) 15
  let s := spareOver (errRecord (spareRelease s x dst) .rep 0 9 2 62 x.site 0) x 0
  match siteUser s dst with
  | some p => kickPart s p
  | none => s

/-- Site 15 failed: the contexts go on where they were, and the spare is recorded as failed. -/
def spareAbandon (s : State) (x : Sparing) : State :=
  let s := dtAdd (spareRelease s x x.site) 1 (x.site / 16 + 256 * 15) noSpare
  let s := spareOver s x 5
  match siteUser s x.site with
  | some p => kickPart s p
  | none => s

/-- Whether everything of the site stands still, so that the copy can end. -/
def spareStill (s : State) (x : Sparing) : Bool :=
  rowRuns s x.site && [0, 1].all (fun lf => (getLeaf s x.site lf).st = .empty || (getLeaf s x.site lf).st = .frozen)
    && (match siteMill s x.site with | some n => !isLent s n | none => true)

/-- The copy ends, with the leaves that hold an uncorrectable word; `failed15` when site 15 failed. -/
def spareCopied (s : State) (lost : List LeafNo) (failed15 : Bool) : State :=
  match s.rep.sparing with
  | some x =>
    if !spareStill s x then s
    else if failed15 then spareAbandon s x
    else spareRemap s x (lost.eraseDups.map (fun l => l.val))
  | none => s

def execSpareCopyDone (lost : List LeafNo) (failed15 : Bool) (s : State) : Res := done (spareCopied s lost failed15)

/-- The failing site has not answered for 1,000 clocks. -/
def execSpareSiteTimeout (s : State) : Res :=
  done (match s.rep.sparing with | some x => spareRemap s x [0, 1] | none => s)

/-! ### MARK, TABLE_PICK (R554, R559, R560) -/

/-- A command of `REP_CMD` other than SPARE_SITE: refused while a commanded sparing runs. -/
def repCommand (s : State) (act : State → Nat → Nat → Nat × State) : State :=
  gated s .rep 0 (fun s =>
    if s.rep.sparing.any (·.byCmd) then setF s (repReg 0x10C) 0 3 1
    else
      let (code, s) := act s (getW s (repReg 0x104)).toNat (getW s (repReg 0x108)).toNat
      repResult s code false)

/-- A lane move is recorded. -/
def repMark (s : State) (a b : Nat) : Nat × State := if 18 ≤ a ∨ (b ≠ 16 ∧ b ≠ 17) then (3, s) else (0, dtAdd s 5 a b)

def execRepMark (s : State) : Res := done (repCommand s repMark)

/-- One copy of an entry that differs is taken for both copies and the working copy. -/
def tablePick (s : State) (i copy : Nat) : Nat × State :=
  let n := max s.rep.dtA.length s.rep.dtB.length
  match (if copy = 0 then s.rep.dtA[i]? else s.rep.dtB[i]?) with
  | none => (3, s)
  | some e =>
    if 1 < copy ∨ n ≤ i then (3, s)
    else if !dtConflict s i then (4, s)
    else (0, { s with rep := { s.rep with dt := s.rep.dt.set i e, dtA := s.rep.dtA.set i e, dtB := s.rep.dtB.set i e } })

def execTablePick (s : State) : Res := done (repCommand s tablePick)

/-! ### Wear (R548, R549) -/

/-- A site asks to be spared: its bit is set, and with AUTO_SPARE the repair unit spares it unless it serves radio. -/
def spareWanted (s : State) (site : Nat) : State :=
  let a := repReg (0x120 + 4 * (site / 32))
  let s := raiseInt (setF s a (site % 32) 1 1) .rep 0 2
  if getF s (repReg 0x110) 0 1 = 1 ∧ !siteRadio s site ∧ spareCode s site = 0 then spareAccept s site false else s

/-- The slack of a site is measured; a fall below AGE_WARN_PM is recorded once. -/
def slackSample (s : State) (site v : Nat) : State :=
  let low := v < getF s (reg .rep 3 0x10C) 0 8
  let was := mget false s.rep.below site
  let least := match mfind s.rep.least site with | some m => min m v | none => v
  let s := { s with rep := { s.rep with
    slack := mset 0 s.rep.slack site v, least := mput s.rep.least site least, below := mset false s.rep.below site low } }
  if low ∧ !was then spareWanted (errRecord s .mill site 8 0 62 site v) site else s

/-- Corrected errors of a site are counted; more than CE_LIMIT within an hour are recorded. -/
def ceSample (s : State) (site n : Nat) : State :=
  let (c, t) := mget (0, nowNs s) s.rep.ce site
  let fresh := t + 3600000000000 ≤ nowNs s
  let c := if fresh then 0 else c
  let s := { s with rep := { s.rep with ce := mput s.rep.ce site (c + n, if fresh then nowNs s else t) } }
  let limit := getF s (repReg 0x110) 8 16
  if c ≤ limit ∧ limit < c + n then spareWanted (errRecord s .mill site 7 0 62 site (c + n)) site else s

/-- One round of the monitors: the slack of each site in turn, and the corrected errors counted since the last. -/
def ageMonitor (s : State) (slack : List (BitVec 8)) (ce : List (Site × BitVec 16)) : State :=
  if !deviceUp s then s
  else
    let s := ((slack.take 256).zipIdx).foldl (fun s p => slackSample s p.2 p.1.toNat) s
    ce.foldl (fun s p => ceSample s p.1 p.2.toNat) s

def execAgeMonitor (slack : List (BitVec 8)) (ce : List (Site × BitVec 16)) (s : State) : Res := done (ageMonitor s slack ce)

/-! ### REC_POP (R563) -/

def recPop (s : State) (v : Nat) : State :=
  gated s .rep 1 (fun s => if v % 2 = 1 then { s with rep := { s.rep with recs := s.rep.recs.drop 1 } } else s)

def execRecPop (v : Word) (s : State) : Res := done (recPop s v.toNat)

/-! ### SCRUB_READ (R342, R347, R357, R557 to R559) -/

/-- The last line of backed memory: a pass of the scrub ends with it. -/
def lastLine : Nat := 8847360 * 256 - 1

/-- A line and its check field are read. -/
def scrubLine (s : State) (ln pat : Nat) : State :=
  let s := errsAdd s ln pat
  let s := match eccRead s ln with
    | (.bad, s) => errRecord s .mem (1 + lineDevice (ln * 64)) 2 1 62 (ln * 64) 0
    | (_, s) => s
  if ln = lastLine then bump32 s (reg .mem 0 0x10C) 1 else s

/-- Both copies of an ownership entry are read. -/
def scrubOwn (s : State) (g : Nat) (diff : Word) (ue : Nat) : State :=
  if ownFixed g ∨ mget false s.mem.fenced g then s
  else
    let s := setOwnB s g (ownB s g ^^^ diff)
    let s := { s with mem := { s.mem with tblUe := mset 0 s.mem.tblUe g ue } }
    match ue with
    | 0 => if ownA s g = ownB s g then s else ownConflict (ownUncache s g) g
    | 1 => tableCopy (setOwnA s g (ownB s g)) g
    | 2 => tableCopy (setOwnB s g (ownA s g)) g
    | _ => reserveLost s

/-- Both copies of a partition's record are read: the mills that each names (R558). -/
def scrubPart (s : State) (p a b : Nat) : State :=
  if a = b ∨ (getPart s p).st = .free then s
  else
    let other : List Nat := mkeys (fun q x => q ≠ p && (x.mills &&& (a ||| b)) ≠ 0) s.sched.parts
    let own (q : Nat) : Nat × Nat := ((getPart s q).mills, (getPart s q).mills)
    let conf := other.foldl (fun m q => mput m q ((mfind m q).getD (own q))) (mput s.rep.partConf p (a, b))
    let s := { s with rep := { s.rep with partConf := conf } }
    let s := faultAll s (fun c => c.part = p || other.contains c.part) cfTableConflict 0 0
    raiseInt (errRecord s .rep 0 5 1 p p 1) .rep 0 4

/-- Both copies of a dutchman entry are read (R559). -/
def scrubDutchman (s : State) (i : Nat) (b : DtEntry) : State :=
  if s.rep.dtB.length ≤ i ∨ s.rep.dtB[i]? = some b ∨ dtConflict s i then s
  else
    let s := { s with rep := { s.rep with dtB := s.rep.dtB.set i b } }
    let hit (c : Ctx) : Bool := match c.place with | .leaf site _ => siteFenced s site | .saved => false
    let s := faultAll s hit cfTableConflict 0 0
    raiseInt (errRecord s .rep 0 5 1 62 i 2) .rep 0 4

/-- The patrol scrub comes to an item; a scrub that is stopped reads nothing. -/
def scrubRead (s : State) (x : ScrubItem) : State :=
  if getF s (reg .mem 0 0x108) 0 8 = 0 ∨ !deviceUp s then s
  else
    match x with
    | .line ln pat => scrubLine s ln.toNat pat.toNat
    | .own g diff ue => scrubOwn s g.toNat diff ue.toNat
    | .part p a b => scrubPart s p a.toNat b.toNat
    | .dutchman i b => scrubDutchman s i b

def execScrubRead (x : ScrubItem) (s : State) : Res := done (scrubRead s x)

end Sys2Proof.Machine
end

