-- ==== Sys2Proof/Machine/Reset.lean ====
section
/-! DEFINITION. The reset levels (R511 to R515), supply monitors (R595), what the I3C ports answer (R527, R591), and the pins
(R516). -/
namespace Sys2Proof.Machine

/-! ### What the levels keep (R513) -/

/-- Cold power-on: flash, GDDR7 cells, pins and what has left the block stay; fantail time begins again. -/
def coldState (s : State) : State :=
  { State.reset with
    pending := s.pending, freshNo := s.freshNo
    bus := { Bus.zero with sent := s.bus.sent, reply := s.bus.reply }
    mem := { Mem.zero with cells := s.mem.cells, lineKey := s.mem.lineKey, errs := s.mem.errs, nextKey := s.mem.nextKey }
    hif := { Hif.zero with hostW := s.hif.hostW, fab := s.hif.fab, answers := s.hif.answers }
    ftl := { Ftl.zero with todSent := s.ftl.todSent, ptpRx := s.ftl.ptpRx }
    net := { Net.zero with signal := s.net.signal, sent := s.net.sent }
    rep := { Rep.zero with field := s.rep.field }
    boot := { Boot.zero with
      pwrgd := s.boot.pwrgd, perst := s.boot.perst, railBad := s.boot.railBad, hdrMemo := s.boot.hdrMemo, hdrNo := s.boot.hdrNo
      log := s.boot.log, lastRecord := s.boot.lastRecord, i3c := s.boot.i3c }
    sec := { Sec.zero with floorA := s.sec.floorA, floorB := s.sec.floorB, rsp := s.sec.rsp } }

/-- Cold power-on with VDD_AO kept: the retention register stays. -/
def mainState (s : State) : State :=
  { setD64 (coldState s) (bootReg 0x118) (getD64 s (bootReg 0x118)) with
    boot := { (coldState s).boot with aoFresh := s.boot.aoFresh } }

/-- Whether a stored register survives a full reset: the fantail's configuration (R470), the counters of the repair unit, `RST_CNT`,
`RET` (R513). -/
def keptWord (k : Nat) : Bool :=
  let within (a n : Nat) : Bool := a ≤ k && k < a + n
  k = reg .ftl 0 0x10 || [1, 2, 3].any (fun i => k = reg .ftl i 0x10 || within (reg .ftl i 0x100) 0xF00)
    || within (reg .rep 1 0x12C) 12 || k = reg .gov 4 0x18C || within (bootReg 0x118) 8

/-- The CXL link, the configuration space, the MSI-X table and the keys of IDE streams are reset (R513, R574). -/
def linkReset (s : State) : State :=
  { s with
    bus := { s.bus with msix := [], pba := [], funcMask := false }
    hif := { s.hif with linkUp := false, ras := none }
    sec := { s.sec with ide := [] } }

/-- Full reset, the link kept: every row OFF from now on. -/
def fullState (s : State) : State :=
  let c := coldState s
  let now := nowNs s
  let x : State := { c with
    bus := { s.bus with words := s.bus.words.filter (fun e => keptWord e.1), latch := [], hold := [] }
    hif := { c.hif with linkUp := s.hif.linkUp, ras := s.hif.ras }
    ftl := { c.ftl with count := s.ftl.count, rate := s.ftl.rate, offset := s.ftl.offset, servos := s.ftl.servos,
                        slewing := s.ftl.slewing, refLost := s.ftl.refLost }
    rep := { c.rep with recs := s.rep.recs, nextSeq := s.rep.nextSeq, ce := s.rep.ce, least := s.rep.least }
    gov := { Gov.zero with doms := [(0, ⟨3, false, now, 0⟩)] }
    boot := { c.boot with
      aoFresh := false, d3 := s.boot.d3, pwrgdAt := s.boot.pwrgdAt, perstAt := s.boot.perstAt, cardReleased := s.boot.cardReleased } }
  (List.range 16).foldl (fun x r => setRow x r { Row.blank with since := now }) x

/-! ### Triggers of a full reset (R510 to R515) -/

/-- A full reset proceeds: the device is RESETTING, and `RST_CAUSE` and `RST_CNT` are set. The start begins with a tick (log 111) unless
D3hot holds it. -/
def fullReset (s : State) (cause row : Nat) (link hold : Bool) : State :=
  let s := fullState (setDevState s 4)
  let s := if link then linkReset s else s
  let s := bump32 (setW s (reg .gov 4 0x188) (BitVec.ofNat 32 (cause + row * 2 ^ 8))) (reg .gov 4 0x18C) 1
  let s := setF s (reg .gov 4 0x180) 0 3 4
  { s with boot := { s.boot with d3 := hold } }

/-- A trigger of a full reset: one that meets a reset or a start merges with it; after a trip none has effect. -/
def trigger (s : State) (cause row : Nat) (hold : Bool) : State :=
  let link : Bool := cause = 2
  if !s.boot.aoOn then s
  else if devState s = 6 then (if link then linkReset s else setF s (reg .gov 4 0x188) 16 1 1)
  else if devState s = 1 ∨ devState s = 4 then (if link then linkReset s else s)
  else fullReset s cause row link hold

/-- A write of `RST_CTRL` (R512). -/
def rstCtrl (s : State) (v : Nat) : State :=
  if v % 2 ^ 16 ≠ 0xA5C3 then invalidWrite s .gov 4 else if bitAt v 31 then trigger s 4 0 false else s

def execRstCtrlGo (v : Word) (s : State) : Res := done (rstCtrl s v.toNat)

def execPerstNAssert (s : State) : Res := done (trigger { s with boot := { s.boot with perst := false } } 2 0 false)

/-- PERST_N rises: the link may train (R526). -/
def execPerstNDeassert (s : State) : Res := done { s with boot := { s.boot with perst := true, perstAt := nowNs s } }

def execCxlReset (s : State) : Res := done (trigger s 3 0 false)

/-- A row's supply falls below the reset level; a row that is OFF is ignored. -/
def execRowUndervolt (r : Fin 16) (s : State) : Res := done (if (getRow s r).st = .off then s else trigger s 5 r false)

def execD3hotEntry (s : State) : Res := done (trigger s 6 0 true)

/-- The function returns to D0: a start that D3hot held begins. -/
def execD0Return (s : State) : Res :=
  done (let t : State := { s with boot := { s.boot with d3 := false } }
    if s.boot.d3 ∧ devState s = 4 then beginStart t true else t)

/-! ### Cold power-on (R511, R595) -/

/-- VDD_AO rises; PWRGD is still to come. -/
def execAoPowerOn (s : State) : Res :=
  done { coldState s with boot := { (coldState s).boot with pwrgd := false, railBad := false } }

/-- PWRGD has risen with every rail valid: the story stick runs from step 1. -/
def powerUp (s : State) : State :=
  let cause : Nat := if s.boot.aoFresh then 0 else 1
  let s := setW s (reg .gov 4 0x188) (BitVec.ofNat 32 cause)
  let now := nowNs s
  beginStart { s with boot := { s.boot with aoFresh := false, pwrgdAt := now, perstAt := now } } false

/-- PWRGD rises. With a core rail out of tolerance the story stick waits for it. -/
def pwrgdRise (s : State) : State :=
  if s.boot.pwrgd ∨ !s.boot.aoOn then s
  else
    let s := { s with boot := { s.boot with pwrgd := true } }
    if s.boot.railBad then s else powerUp s

def execPwrgdRise (s : State) : Res := done (pwrgdRise s)

/-- PWRGD falls: the device is held in reset until it rises. -/
def pwrgdFall (s : State) : State :=
  if s.boot.aoOn then { mainState s with boot := { (mainState s).boot with pwrgd := false } } else s

def execPwrgdFall (s : State) : Res := done (pwrgdFall s)

/-- A rail leaves its tolerance. -/
def railFault (s : State) (r : Rail) : State :=
  match r with
  | .ao => { coldState s with boot := { (coldState s).boot with aoOn := false, pwrgd := false }, gov := { Gov.zero with doms := [] } }
  | .iod | .srd | .puf => if s.boot.aoOn then { mainState s with boot := { (mainState s).boot with railBad := true } } else s
  | .millA | .millB => s
  | .ddr _ => if deviceUp s then reserveLost s else s

def execRailFault (r : Rail) (s : State) : Res := done (railFault s r)

/-- A core rail has been in tolerance again for 1 ms. -/
def railRecovery (s : State) : State :=
  if !s.boot.railBad then s
  else
    let s := { s with boot := { s.boot with railBad := false } }
    if s.boot.pwrgd then powerUp { s with boot := { s.boot with aoFresh := false } } else s

def execRailRecovery (s : State) : Res := done (railRecovery s)

/-! ### I3C (R527, R591) -/

/-- The 4 bytes that I3C_B answers at an offset. -/
def i3cWord (s : State) (off : Nat) : Nat :=
  if off = 0 then devState s + 2 ^ 8 * b2n (tripped s)
  else if off = 4 then tmaxWord s
  else if off = 8 then powerAvg s
  else if off = 12 then capEff s
  else 0

def i3cAnswer (s : State) (l : List Byte) : State := { s with boot := { s.boot with i3c := s.boot.i3c ++ [l] } }

/-- I3C_B answers from step 3 on. -/
def execI3cBRead (off : BitVec 8) (s : State) : Res :=
  done (if fromStep3 s || devState s = 4 then i3cAnswer s (toLE 4 (i3cWord s off.toNat)) else s)

/-- After a HALT before step 38, I3C_A answers with `RET` and `BOOT_STEP`. -/
def execI3cAHaltRead (s : State) : Res :=
  done (if s.boot.halted && !stepDone s 38 then
    i3cAnswer s (toLE 8 (getD64 s (bootReg 0x118)).toNat ++ toLE 8 (getW s (bootReg 0x100)).toNat) else s)

/-! ### Pins (R516) -/

/-- ALERT_N is low in RESET_REQUIRED, HALTED and TRIPPED. -/
def pinAlertN (s : State) : Bool := devState s ≠ 3 && devState s ≠ 5 && devState s ≠ 6

/-- THERM_TRIP_N is low from a trip to cold power-on (R498). -/
def pinThermTripN (s : State) : Bool := !tripped s

/-- CARD_RESET_N is low from AO power-on until step 13. -/
def pinCardResetN (s : State) : Bool := s.boot.cardReleased

/-- RESET_n of the GDDR7 devices is released by training. -/
def pinDdrResetN (s : State) : Bool := getF s (reg .mem 0 0x14) 0 1 = 1

/-- Whether the transmitter of a lane is in electrical idle (R428, R516). -/
def pinTxIdle (s : State) (l : Nat) : Bool :=
  !(deviceUp s || devState s = 5) || getF s (reg .eth (16 + l) 0x10) 0 1 = 1
    || !(List.range 16).any (fun p => portMode s p ≠ 0 && (lanesOf (getW s (reg .eth p 0x100)).toNat).contains l)

/-- The level of TIME_PPS_OUTn (R484, R488): the pulse of its ticker at its active level while EN is set, otherwise low. -/
def pinPps (s : State) (n : Nat) : Bool :=
  let a := reg .ftl 5 (0x100 + 4 * n)
  getF s a 8 1 = 1 && ((mfind s.ftl.pulses n).isSome != (getF s a 9 1 = 1))

/-- Direction (1 out) and level of GPIO0 to GPIO15: inputs until step 12 applied the record's settings. -/
def pinGpio (s : State) : BitVec 16 × BitVec 16 :=
  match s.card.rcd with
  | some r => if stepDone s 12 then (r.gpioDir, r.gpioLevel) else (0, 0)
  | none => (0, 0)

/-- JTAG TDO is driven only while the debug gate is open with JTAG in scope (R581, R582). -/
def pinTdo (s : State) : Bool := getF s (reg .sec 2 0x100) 0 1 = 1 && getF s (reg .sec 2 0x100) 2 1 = 1

end Sys2Proof.Machine
end

