-- ==== Sys2Proof/Machine/Security.lean ====
section
/-! DEFINITION. The security unit: key slots (R578), the debug gate (R581, R582), the migration key (R580), the SPDM responder (R572, R573),
CXL IDE and TSP (R574 to R576). Keys and signatures are those of opaque functions (log 14). -/
namespace Sys2Proof.Machine

/-- Free bytes, eight at a time (log 5): what the DRBG draws. -/
def freeBytes : Nat → State → List Byte × State
  | 0, s => ([], s)
  | n + 1, s =>
    let (i, s) := freshId s
    let (l, s) := freeBytes n s
    (toLE 8 (Config.freeValue i).toNat ++ l, s)

/-- The bytes of a key by its identity: a fresh key's, or those of a key that was loaded. -/
def keyBytes (id : Nat) : List Byte := toLE 64 (if 2 ^ 600 ≤ id then id - 2 ^ 600 else (Config.keyValue id).toNat)

/-- A command of a SEC page: discarded during a start (R585); otherwise it acts, and CMD_DONE is set as it ends. -/
def secCommand (s : State) (page : Nat) (act : State → State) : State :=
  if devState s = 1 ∨ devState s = 4 then raiseErr s .sec 0 8
  else gated s .sec page (fun s => raiseInt (act s) .sec 0 1)

/-! ### ERASE (R578) -/

/-- A write of ERASE to `KEY_CMD`. -/
def keyErase (s : State) (v : Nat) : State :=
  let k := bitsAt v 8 6
  let code : Nat :=
    if tspLocked s then 3 else if k = 63 then 2 else if (mget KeySlot.empty s.mem.slots k).owner ≠ 63 then 1 else 0
  setF (if code = 0 then slotErase s k else s) (reg .sec 1 0x104) 0 3 code

def execKeyErase (v : Word) (s : State) : Res := done (secCommand s 1 (fun s => keyErase s v.toNat))

/-! ### OPEN, CLOSE (R581, R582) -/

/-- Whether a token opens the gate: MAGIC, ID_DIGEST, DBG_NONCE, scope, signature, and the key whose digest is VDEBUG. -/
def tokenOk (s : State) (t : List Byte) : Bool :=
  let nonce := (List.range 8).flatMap (fun i => toLE 4 (getW s (reg .sec 2 (0x120 + 4 * i))).toNat)
  leAt t 0 4 = 0x4B544244 && sliceB t 4 64 = sliceB s.sec.idDigest 0 64 && sliceB t 68 32 = nonce
    && Config.sha3 (sliceB t 4731 2592) = Config.romDigest true
    && Config.verify (sliceB t 4731 2592) (sliceB t 0 104) (sliceB t 104 4627)

/-- OPEN with the token that `DBG_TOKEN` points to; a new nonce is drawn after every attempt. -/
def gateTry (s : State) (t : List Byte) : State :=
  let code : Nat := if !(livingParts s).isEmpty then 1 else if tspLocked s then 3 else if !tokenOk s t then 2 else 0
  let s := if code = 0 then
      let s := (mkeys (fun k _ => k < 63) s.mem.slots).foldl slotErase s
      setW s (reg .sec 2 0x100) (BitVec.ofNat 32 (1 + 4 * (leAt t 100 1 % 4)))
    else s
  drawNonce (setF s (reg .sec 2 0x114) 0 3 code)

def execOpenGate (token : List Byte) (s : State) : Res := done (secCommand s 2 (fun s => gateTry s token))

/-- CLOSE starts a full reset. -/
def closeGate (s : State) : State :=
  if devState s = 1 ∨ devState s = 4 then raiseErr s .sec 0 8 else gated s .sec 2 (fun s => trigger s 4 0 false)

def execCloseGate (s : State) : Res := done (closeGate s)

/-! ### The migration key (R580) -/

/-- `MIGR_RESULT` and KEY_HELD. -/
def migrEnd (s : State) (code : Nat) : State :=
  setF (setF s (reg .sec 3 0x10C) 0 3 code) (reg .sec 3 0x110) 0 1 (b2n s.sec.km.isSome)

/-- Bytes written at `MIGR_ADDR` in host memory. -/
def migrOut (s : State) (l : List Byte) : State := hostPut s ⟨none, (getD64 s (reg .sec 3 0x100)).toNat, l⟩

/-- What an offer signs: the encapsulation key, the nonce and `ROOT.DFP`. -/
def offerBytes (s : State) (ek nonce : List Byte) : List Byte := ek ++ nonce ++ toLE 8 (getD64 s (reg .root 0 0x108)).toNat

/-- OFFER, at the destination. -/
def migrOffer (s : State) : State :=
  let (dk, s) := freeBytes 8 s
  let (nonce, s) := freeBytes 4 s
  let (n, s) := freshId s
  let m := offerBytes s (Config.kemPublic dk) nonce
  let s := { s with sec := { s.sec with km := none, kem := some (dk, nonce) } }
  migrEnd (migrOut s (m ++ Config.sign s.sec.idDigest n m)) 0

def execMigrOffer (s : State) : Res := done (secCommand s 3 migrOffer)

/-- K_m of a shared secret, a nonce and the digests of source and destination. -/
def migrKey (ss nonce src dst : List Byte) : List Byte := Config.shake256 (ss ++ nonce ++ src ++ dst) 32

/-- ACCEPT, at the source, of an offer with the destination's chain. -/
def migrAccept (s : State) (blob chain : List Byte) : State :=
  let ek := sliceB blob 0 1568
  let nonce := sliceB blob 1568 32
  let dfp := leAt blob 1600 8
  let s := { s with sec := { s.sec with km := none } }
  match Config.chainKey chain with
  | none => migrEnd s 1
  | some pk =>
    if !Config.verify pk (sliceB blob 0 1608) (sliceB blob 1608 4627) then migrEnd s 1
    else if dfp ≠ (getD64 s (reg .root 0 0x108)).toNat then migrEnd s 2
    else
      let (rnd, s) := freeBytes 4 s
      let (ct, ss) := Config.kemEncaps ek rnd
      let s := { s with sec := { s.sec with km := some (migrKey ss nonce s.sec.idDigest (Config.sha3 pk)) } }
      migrEnd (migrOut s ct) 0

def execMigrAccept (blob chain : List Byte) (s : State) : Res := done (secCommand s 3 (fun s => migrAccept s blob chain))

/-- COMPLETE, at the destination, with the ciphertext and the source's digest. -/
def migrComplete (s : State) (ct src : List Byte) : State :=
  match s.sec.kem with
  | none => migrEnd s 3
  | some (dk, nonce) =>
    let km := migrKey (Config.kemDecaps dk ct) nonce src s.sec.idDigest
    migrEnd { s with sec := { s.sec with km := some km, kem := none } } 0

def execMigrComplete (ct src : List Byte) (s : State) : Res := done (secCommand s 3 (fun s => migrComplete s ct src))

/-- The slots of a partition as EXPORT_KEYS wraps them: for each, its number and its key. -/
def wrapSlots (s : State) (slots : Nat) : List Byte :=
  (setBitsOf 63 slots).flatMap (fun k => match (mget KeySlot.empty s.mem.slots k).key with
    | some id => toLE 1 k ++ keyBytes id
    | none => [])

/-- EXPORT_KEYS of a frozen partition. -/
def exportKeys (s : State) (p : Nat) : State :=
  match s.sec.km with
  | none => migrEnd s 3
  | some km =>
    if (getPart s p).st ≠ .frozen then migrEnd s 4
    else migrEnd (migrOut s (Config.gcmSeal km (wrapSlots s (getPart s p).desc.keySlots))) 0

def execExportKeys (p : Fin 32) (s : State) : Res := done (secCommand s 3 (fun s => exportKeys s p))

/-- The wrapped slots that bytes hold. -/
def unwrapSlots (l : List Byte) : List (Nat × Nat) := (chunksOf 65 63 l).map (fun e => (leAt e 0 1 % 64, leAt e 1 64))

/-- IMPORT_KEYS for a partition number. -/
def importKeys (s : State) (p : Nat) (blob : List Byte) : State :=
  match s.sec.km with
  | none => migrEnd s 3
  | some km =>
    if (getPart s p).st ≠ .free then migrEnd s 4
    else
      match Config.gcmOpen km blob with
      | none => migrEnd s 5
      | some l =>
        let es := unwrapSlots l
        if es.any (fun e => e.1 = 63 || (mget KeySlot.empty s.mem.slots e.1).key.isSome) then migrEnd s 4
        else
          let slots := es.foldl (fun m e => mset KeySlot.empty m e.1
            { mget KeySlot.empty m e.1 with key := some (2 ^ 600 + e.2), bound := some p }) s.mem.slots
          migrEnd { s with mem := { s.mem with slots := slots } } 0

def execImportKeys (p : Fin 32) (blob : List Byte) (s : State) : Res := done (secCommand s 3 (fun s => importKeys s p blob))

/-- CLEAR. -/
def migrClear (s : State) : State := migrEnd { s with sec := { s.sec with km := none } } 0

def execMigrClear (s : State) : Res := done (secCommand s 3 migrClear)

/-! ### The SPDM responder (R572, R573); message order and error codes are those of SPDM (log 28) -/

def Transport.code : Transport → Nat
  | .doe => 0 | .i3c => 1 | .mctp => 2

/-- Whether the responder answers on a transport: once the identity is known; over CXL while the link is up. -/
def spdmUp (s : State) (t : Transport) : Bool := getF s (reg .sec 0 0x14) 1 1 = 1 && (t = .i3c || s.hif.linkUp)

def spdmSay (s : State) (t : Transport) (r : SpdmRsp) : State := { s with sec := { s.sec with rsp := s.sec.rsp ++ [(t, r)] } }

/-- A request on a transport whose negotiation has come at least to `need`; otherwise UnexpectedRequest. -/
def spdmAsk (s : State) (t : Transport) (need : Nat) (act : State → State) : State :=
  if !spdmUp s t then s
  else if mget 0 s.sec.conns (Transport.code t) < need then spdmSay s t (.error 0x04)
  else act s

/-- A transport's negotiation has come to a stage. -/
def spdmStage (s : State) (t : Transport) (n : Nat) : State :=
  { s with sec := { s.sec with conns := mset 0 s.sec.conns (Transport.code t) n } }

def execGetVersion (t : Transport) (s : State) : Res :=
  done (spdmAsk s t 0 (fun s => spdmSay (spdmStage s t 1) t .version))

def execGetCapabilities (t : Transport) (s : State) : Res :=
  done (spdmAsk s t 1 (fun s => spdmSay (spdmStage s t 2) t .capabilities))

def execNegotiateAlgorithms (t : Transport) (s : State) : Res :=
  done (spdmAsk s t 2 (fun s => spdmSay (spdmStage s t 3) t .algorithms))

def execGetDigests (t : Transport) (s : State) : Res :=
  done (spdmAsk s t 3 (fun s => spdmSay s t (.digests (Config.sha3 (Config.certChain s.sec.idDigest)))))

/-- A part of the chain in slot 0; other slots are not supported. -/
def spdmChain (s : State) (t : Transport) (slot off len : Nat) : State :=
  let l := Config.certChain s.sec.idDigest
  if slot ≠ 0 ∨ l.length ≤ off then spdmSay s t (.error 0x01)
  else
    let part := (l.drop off).take len
    spdmSay s t (.certificate part (l.length - off - part.length))

def execGetCertificate (t : Transport) (slot : Fin 8) (off len : BitVec 16) (s : State) : Res :=
  done (spdmAsk s t 3 (fun s => spdmChain s t slot off.toNat len.toNat))

/-- A signature of the identity key. -/
def spdmSign (s : State) (m : List Byte) : List Byte × State := let (n, s) := freshId s; (Config.sign s.sec.idDigest n m, s)

def execChallenge (t : Transport) (slot : Fin 8) (nonce : List Byte) (s : State) : Res :=
  done (spdmAsk s t 3 (fun s =>
    if slot ≠ 0 then spdmSay s t (.error 0x01)
    else let (g, s) := spdmSign s (Config.certChain s.sec.idDigest ++ nonce); spdmSay s t (.challengeAuth g)))

/-- Measurement block 7: the states of the debug gate and of TSP. -/
def measGate (s : State) : List Byte := toLE 1 (getW s (reg .sec 2 0x100)).toNat ++ toLE 1 (b2n (tspLocked s))

/-- The measurement blocks (R573): those fixed at step 40, before that the present ones, and block 7 as it is now. -/
def measBlocks (s : State) : List (Nat × List Byte) :=
  let l := if s.sec.meas.isEmpty then measNow s else s.sec.meas
  mput l 7 (measGate s)

/-- Measurements: one block, or all of them for index 0xFF. -/
def spdmMeasure (s : State) (t : Transport) (idx : Nat) (nonce : List Byte) : State :=
  let l := (measBlocks s).filter (fun e => idx = 0xFF || e.1 = idx)
  if l.isEmpty then spdmSay s t (.error 0x01)
  else
    let (g, s) := spdmSign s (l.flatMap (fun e => toLE 1 e.1 ++ e.2) ++ nonce)
    spdmSay s t (.measurements l g)

def execGetMeasurements (t : Transport) (idx : BitVec 8) (nonce : List Byte) (s : State) : Res :=
  done (spdmAsk s t 3 (fun s => spdmMeasure s t idx.toNat nonce))

/-- KEY_EXCHANGE: a session opens, or the limit of four refuses it. -/
def keyExchange (s : State) (t : Transport) (ek : List Byte) : State :=
  if 4 ≤ s.sec.sessions.length then spdmSay s t (.error 0x0A)
  else
    let (rnd, s) := freeBytes 4 s
    let (ct, _) := Config.kemEncaps ek rnd
    let n := s.sec.nextSess
    let (g, s) := spdmSign s (ek ++ ct)
    let s := { s with sec := { s.sec with sessions := mput s.sec.sessions n ⟨t, false, 0⟩, nextSess := n + 1 } }
    spdmSay s t (.keyExchange n ct g)

def execKeyExchange (t : Transport) (ek : List Byte) (s : State) : Res := done (spdmAsk s t 3 (fun s => keyExchange s t ek))

/-- A request in a session of the transport; `ready` whether FINISH must have completed it. -/
def inSession (s : State) (t : Transport) (n : Nat) (ready : Bool) (act : State → Session → State) : State :=
  spdmAsk s t 3 (fun s =>
    match mfind s.sec.sessions n with
    | some x => if x.transport = t ∧ x.ready = ready then act s x else spdmSay s t (.error 0x04)
    | none => spdmSay s t (.error 0x04))

/-- Replace a session. -/
def setSession (s : State) (n : Nat) (x : Session) : State := { s with sec := { s.sec with sessions := mput s.sec.sessions n x } }

def execFinish (t : Transport) (sess : Nat) (s : State) : Res :=
  done (inSession s t sess false (fun s x => spdmSay (setSession s sess { x with ready := true }) t (.finish sess)))

def execKeyUpdate (t : Transport) (sess : Nat) (s : State) : Res :=
  done (inSession s t sess true (fun s x => spdmSay (setSession s sess { x with keyGen := x.keyGen + 1 }) t (.keyUpdate sess)))

def execHeartbeat (t : Transport) (sess : Nat) (s : State) : Res :=
  done (inSession s t sess true (fun s _ => spdmSay s t (.heartbeat sess)))

def execEndSession (t : Transport) (sess : Nat) (s : State) : Res :=
  done (inSession s t sess true (fun s _ =>
    spdmSay { s with sec := { s.sec with sessions := mdel s.sec.sessions sess } } t (.endSession sess)))

/-! ### IDE (R574) and TSP (R576) -/

/-- A vendor-defined request of a capability in a completed session; UnsupportedRequest without the capability. -/
def vendorAsk (s : State) (t : Transport) (sess cap : Nat) (act : State → State) : State :=
  inSession s t sess true (fun s _ => if hasCap s cap then act s else spdmSay s t (.error 0x07))

/-- IDE_KM programs the key of a stream: 0 the link, 1 to 8 selective. -/
def execIdeKm (t : Transport) (sess : Nat) (stream : Fin 9) (key : List Byte) (s : State) : Res :=
  done (vendorAsk s t sess 0x60 (fun s =>
    spdmSay { s with sec := { s.sec with ide := mput s.sec.ide stream key } } t (.vendor sess true)))

/-- Data under a keyed stream fails its integrity check and is discarded. -/
def ideFail (s : State) (stream : Nat) : State :=
  if (mfind s.sec.ide stream).isNone then s
  else if stream = 0 then setLink s false
  else bump32 s (reg .sec 3 0x11C) 1

def execIdeFail (stream : Fin 9) (s : State) : Res := done (ideFail s stream)

/-- SET_TARGET_KEY: a key for a slot that no partition holds, bound to a partition number that is FREE. -/
def setTargetKey (s : State) (t : Transport) (sess k p : Nat) (key : BitVec 512) : State :=
  let x := mget KeySlot.empty s.mem.slots k
  if k = 63 ∨ x.owner ≠ 63 ∨ (getPart s p).st ≠ .free then spdmSay s t (.vendor sess false)
  else
    let s := { s with mem := { s.mem with
      slots := mset KeySlot.empty s.mem.slots k { x with key := some (2 ^ 600 + key.toNat), bound := some p, tsp := true } } }
    spdmSay s t (.vendor sess true)

def execSetTargetKey (t : Transport) (sess : Nat) (slot : Fin 64) (p : Fin 32) (key : BitVec 512) (s : State) : Res :=
  done (vendorAsk s t sess 0x61 (fun s => setTargetKey s t sess slot p key))

def execLockTargetConfiguration (t : Transport) (sess : Nat) (s : State) : Res :=
  done (vendorAsk s t sess 0x61 (fun s => spdmSay (setF s (reg .sec 0 0x14) 2 1 1) t (.vendor sess true)))

def execGetTargetCapabilities (t : Transport) (sess : Nat) (s : State) : Res :=
  done (vendorAsk s t sess 0x61 (fun s => spdmSay s t (.tspCapabilities sess)))

/-- The settings that the lock freezes: the inbound windows, `SHADOW` and `SHARE_GRANT`. -/
def lockedSettings (s : State) : List Nat :=
  (List.range 4).flatMap (fun i => [0, 4, 8, 16, 20].map (fun o => (getW s (inReg i + o)).toNat))
    ++ [(getW s (reg .hif 0 0x100)).toNat] ++ (List.range 32).map (fun p => (getW s (reg .own 1 (0x100 + 4 * p))).toNat)

/-- The configuration report: the lock, the bound slots with their partitions, the settings. -/
def execGetTargetConfigurationReport (t : Transport) (sess : Nat) (s : State) : Res :=
  done (vendorAsk s t sess 0x61 (fun s =>
    let bound := s.mem.slots.filterMap (fun e => e.2.bound.map (fun p => (e.1, p)))
    spdmSay s t (.tspReport sess (tspLocked s) bound (lockedSettings s))))

end Sys2Proof.Machine
end

