-- ==== Sys2Proof/Machine/View.lean ====
section
/-! DEFINITION. What the registers that are computed from the state read (R47 to R52, R86, R87, R159, R276, R296, R332, R333, R358, R359,
R385, R425, R450, R451, R468, R488, R501, R517, R528, R563, R585). Each function gives the whole register at offset `o` of page
`i`; none where the stored word is what the register reads. `item` is the value of the page's selector. -/
namespace Sys2Proof.Machine

/-- A field at a bit position. -/
def at_ (lo v : Nat) : Nat := v * 2 ^ lo

/-- A Bool at a bit position. -/
def flag (lo : Nat) (b : Bool) : Nat := b2n b * 2 ^ lo

/-- Bits of a mask of logical mills, sites, … that lie in word `k`. -/
def maskWord (k m : Nat) : Nat := m / 2 ^ (32 * k) % 2 ^ 32

/-- The index of `o` in an array of `n` registers from `base`. -/
def idx (o base stride n : Nat) : Option Nat :=
  if base ≤ o ∧ (o - base) % stride = 0 ∧ (o - base) / stride < n then some ((o - base) / stride) else none

/-! ### Capability entries (R49 to R52) -/

/-- The pages that may hold entries, in rising offset order, with the identifiers of each. -/
def capPages : List (Nat × List Nat) :=
  [(pageBase .sec 0, [0x60, 0x61]), (pageBase .ftl 0, [0x20]), (pageBase .eth 0, [0x10]), (pageBase .hif 0, [0x50]),
   (pageBase .mill 0, [0x30, 0x31, 0x32, 0x33, 0x40, 0x41])]

/-- Bytes of an entry (R49). -/
def capSize (id : Nat) : Nat := if id = 0x30 then 16 else 8

/-- The entries of a page from an offset on. -/
def capPlace : Nat → List Nat → List (Nat × Nat)
  | _, [] => []
  | a, id :: r => (a, id) :: capPlace (a + capSize id) r

/-- The chain (R50): offset and identifier of each entry, empty until step 32 has built it. -/
def capChain (s : State) : List (Nat × Nat) :=
  if bitAt (getD64 s (reg .mgt 1 0x108)).toNat 32 then
    capPages.flatMap (fun p => capPlace (p.1 + 0x40) (p.2.filter (fun id => s.card.caps.contains id)))
  else []

/-- The words of a chain: (offset, value). -/
def capWords : List (Nat × Nat) → List (Nat × Nat)
  | [] => []
  | (a, id) :: r =>
    let next := match r with | (b, _) :: _ => b | [] => 0
    [(a, id + at_ 16 1 + at_ 24 (if id = 0x30 then 1 else 0)), (a + 4, next)] ++ (if id = 0x30 then [(a + 8, 0x1F)] else []) ++ capWords r

/-- The word at a BAR0 offset within 0x040–0x0FF of a page. -/
def capWord (s : State) (a : Nat) : Nat := match (capWords (capChain s)).find? (fun w => w.1 = a) with | some w => w.2 | none => 0

/-- `CAP_NEXT` of a page (R40, R50). -/
def capNext (s : State) (b : Block) (i : Nat) : Nat :=
  let l := capChain s
  match (if b = .root then l.head? else l.find? (fun e => e.1 / 0x1000 = pageBase b i / 0x1000)) with
  | some e => e.1
  | none => 0

/-! ### ROOT, SEC -/

/-- `PEND_BLOCK` (R47). -/
def pendBlock (s : State) : Nat :=
  allBlocks.foldl (fun a b => a + flag b.code ((List.range b.pages).any (fun i => pageOut s b i))) 0

def viewSec (s : State) (i o : Nat) : Option Nat :=
  if i ≠ 3 then none
  else if o = 0x110 then some (b2n s.sec.km.isSome)
  else if o = 0x114 then some (min 4 (s.sec.sessions.length))
  else if o = 0x118 then
    some (b2n (mfind s.sec.ide 0).isSome + (List.range 8).foldl (fun a k => a + flag (4 + k) (mfind s.sec.ide (k + 1)).isSome) 0)
  else none

/-! ### GOV -/

/-- The domains of a GOV page, in entry order (R517). -/
def pageDoms (i : Nat) : List Nat :=
  if i = 4 then [0, 1, 2, 3, 4, 58, 59]
  else if i ≤ 20 then [i]
  else if i ≤ 24 then [i, i + 4]
  else if i = 25 then [29, 30, 31, 32]
  else if i = 26 then [33, 34, 35, 36, 37]
  else if i = 27 then [38, 39, 40, 41, 42, 43]
  else if i = 28 then [44, 45]
  else [46 + 2 * (i - 29), 47 + 2 * (i - 29), 52 + 2 * (i - 29), 53 + 2 * (i - 29)]

/-- State of a domain (R503). -/
def domState (s : State) (d : Nat) : Nat :=
  if 5 ≤ d ∧ d ≤ 20 then
    match (getRow s (d - 5)).st with | .off => 0 | .parked => 1 | .starting => 2 | .running => 3
  else (getDom s d).st

/-- Whether a domain's PLL is locked (R502 to R504): domains that have one, clocked or stopped, with their input present. -/
def domLock (s : State) (d : Nat) : Bool :=
  let fromAo := !(33 ≤ d && d ≤ 35) && d ≠ 44
  d ≠ 0 && d ≠ 36 && d ≠ 37 && !(38 ≤ d && d ≤ 43) && d ≠ 45 && domState s d % 2 = 1 && !(getDom s d).fault
    && !(fromAo && (getDom s 0).fault)

/-- KHZ of an operating point (R494). -/
def oppKhz (n : Nat) : Nat := ([1500000, 1350000, 1200000, 1050000, 900000, 800000, 700000, 600000] : List Nat).getD n 0

/-- Present frequency of a domain in kHz (R502, R517). -/
def domFreq (s : State) (d : Nat) : Nat :=
  if domState s d = 0 then 0
  else if d = 0 then (if (getDom s 0).fault then (Config.domKhz 0).toNat else 38400)
  else if d = 1 then 1250000
  else if d = 2 then 1000000
  else if d ≤ 4 then 750000
  else if d ≤ 20 then oppKhz (getRow s (d - 5)).opp
  else if d ≤ 32 then 1500000
  else if d ≤ 35 then 1250000
  else if d ≤ 37 then 1562500
  else if d = 44 then 1000000
  else if 46 ≤ d ∧ d ≤ 51 then 1250000
  else if 58 ≤ d then 1500000
  else (Config.domKhz d).toNat

/-- Fantail time that a domain has spent RUNNING (R517). -/
def domRun (s : State) (d : Nat) : Nat :=
  if 5 ≤ d ∧ d ≤ 20 then
    let x := getRow s (d - 5)
    x.runNs + (if x.st = .running then nowNs s - x.since else 0)
  else
    let x := getDom s d
    x.runNs + (if x.st = 3 then nowNs s - x.since else 0)

/-- `ROW_OPPk` (R501). -/
def rowOpps (s : State) (k : Nat) : Nat :=
  (List.range 8).foldl (fun a j => a + at_ (4 * j) ((getRow s (8 * k + j)).opp % 8 + flag 3 (radioRow s (8 * k + j)))) 0

/-- The bytes of a governor record (R499). -/
def evBytes (e : EvRec) : List Byte := toLE 8 e.time ++ toLE 1 e.typ ++ toLE 1 e.val ++ toLE 2 e.aux16 ++ toLE 4 e.aux32

/-- Row state of R505 as `ROW_STATE` shows it, with its wake. -/
def rowCode (x : Row) : Nat :=
  match x.st with | .off => 0 | .parked => 1 | .starting => (if x.fromOff then 0 else 1) | .running => 2

def viewGov0 (s : State) (o : Nat) : Option Nat :=
  if o = 0x14 then some (b2n (s.gov.bCap ≠ 0) + at_ 1 (getF s (reg .gov 0 0x14) 1 1))
  else if o = 0x104 then some s.card.boardMax
  else if o = 0x108 then some (capFloor s)
  else if o = 0x10C then some (capEff s)
  else if o = 0x110 then some (s.gov.powers.headD 0)
  else if o = 0x114 then some (powerAvg s)
  else if o = 0x118 then some (s.gov.bCap + at_ 8 s.gov.bTherm + at_ 16 s.gov.bDip + at_ 24 (bubble s))
  else if o = 0x124 then some (rowOpps s 0)
  else if o = 0x128 then some (rowOpps s 1)
  else if o = 0x138 then
    some ((getD64 s (reg .gov 0 0x138)).toNat + (match s.gov.throttleFrom with | some t => nowNs s - t | none => 0))
  else none

/-- The register at `+d` of entry `j` of a domain page. -/
def viewDom (s : State) (i j d : Nat) : Nat :=
  match (pageDoms i)[j]? with
  | none => 0
  | some c =>
    if d = 0 then c + at_ 8 (domState s c) + flag 12 (domLock s c) + flag 13 (getDom s c).fault + at_ 31 1
    else if d = 4 then domFreq s c
    else domRun s c

def viewGov (s : State) (i o : Nat) : Option Nat :=
  if i = 0 then viewGov0 s o
  else if i = 2 then
    if o = 0x108 then some (wrapTo 16 (mget 0 s.gov.temps (getF s (reg .gov 2 0x104) 0 6)))
    else if o = 0x10C then some (tmaxWord s)
    else none
  else if i = 3 then
    if o = 0x100 then some s.gov.evs.length
    else if let some k := idx o 0x108 4 4 then some (match s.gov.evs with | e :: _ => leAt (evBytes e) (4 * k) 4 | [] => 0)
    else none
  else if 4 ≤ i then
    if let some j := idx o 0x100 16 8 then some (viewDom s i j 0)
    else if let some j := idx o 0x104 16 8 then some (viewDom s i j 4)
    else if let some j := idx o 0x108 16 8 then some (viewDom s i j 8)
    else if 5 ≤ i ∧ i ≤ 20 ∧ o = 0x188 then
      let x := getRow s (i - 5)
      some (rowCode x + flag 2 (radioRow s (i - 5)) + flag 3 (x.st = .starting))
    else if 5 ≤ i ∧ i ≤ 20 ∧ o = 0x198 then
      let x := getRow s (i - 5)
      some (x.offNs + (if x.st = .off then nowNs s - x.since else 0))
    else none
  else none

/-! ### FTL -/

/-- The word of the oldest stamp (R488). -/
def tsInfo (e : TsEnt) : Nat := e.seqId % 2 ^ 16 + at_ 16 (e.typ % 16) + at_ 24 (e.port % 16) + at_ 28 (e.dom % 2)

def viewFtl (s : State) (i o : Nat) : Option Nat :=
  if i = 0 then
    if o = 0x14 then some ((getServo s (servoSel s)).st + flag 2 s.ftl.refLost)
    else if o = 0x100 then some (nowNs s)
    else if o = 0x108 then some s.ftl.snapFrac.toNat
    else if o = 0x110 then some s.ftl.snapCount.toNat
    else if o = 0x118 then some s.ftl.rate.toNat
    else if o = 0x140 then some (nowNs s / 10 ^ 9)
    else if o = 0x148 then some s.ftl.snapNsec.toNat
    else none
  else if i = 1 ∨ i = 2 then
    if o = 0x14 then some (getServo s (i - 1)).st
    else if o = 0x120 then some (wrapTo 64 (virtNow s (i - 1) / 2 ^ 32))
    else none
  else if i = 5 ∧ o = 0x1C0 then some (match s.ftl.todRx with | b :: _ => b.toNat | [] => 0)
  else if i = 6 then
    if o = 0x100 then some s.ftl.stamps.length
    else if o = 0x108 then some (match s.ftl.stamps with | e :: _ => e.ns | [] => 0)
    else if o = 0x110 then some (match s.ftl.stamps with | e :: _ => tsInfo e | [] => 0)
    else none
  else none

/-! ### ETH, SLU, WEIR -/

/-- The port lane that `LANE_MAP` binds to a lane (R428): (port, port lane). -/
def laneBound (s : State) (l : Nat) : Option (Nat × Nat) :=
  (List.range 16).findSome? (fun p =>
    ([0, 1, 2, 3].find? (fun k => getF s (reg .eth p 0x100) (8 * k) 5 = l)).map (fun k => (p, k)))

def viewEth (s : State) (i o : Nat) : Option Nat :=
  if 16 ≤ i then
    if o = 0x14 then
      some (flag 0 (mget false s.net.signal (i - 16)) + (match laneBound s (i - 16) with
        | some (p, k) => 2 + at_ 4 p + at_ 9 k
        | none => 0))
    else none
  else
    let x := getPort s i
    if o = 0x14 then some (flag 0 x.up + flag 1 (portConsumed s i) + flag 2 x.training)
    else if let some k := idx o 0x180 4 32 then some (match x.esmc with | f :: _ => leAt f (4 * k) 4 | [] => 0)
    else if o = 0x200 then some (x.esmc.length + (match x.esmc with | f :: _ => at_ 16 (f.length % 256) | [] => 0))
    else if i = 0 ∧ o = 0x300 then some ((getW s (reg .eth 0 0x300)).toNat + flag 24 (squelched s 0))
    else if i = 0 ∧ o = 0x304 then some ((getW s (reg .eth 0 0x304)).toNat + flag 24 (squelched s 1))
    else none

def viewSlu (s : State) (i o item : Nat) : Option Nat :=
  if i = 1 ∧ o = 0x104 then some (match mfind s.net.flows item with | some f => 1 + at_ 4 f.cell | none => 0) else none

/-- KIND of a queue number (R452, R468). -/
def queueKind (q : Nat) : Nat :=
  if 1536 ≤ q then 3 else if q % 96 < 64 then 1 else if q % 96 < 66 then 2 else 0

def viewWeir (s : State) (i o item : Nat) : Option Nat :=
  if i = 1 ∧ o = 0x108 then some (queueKind item + at_ 8 ((queuePart s item).getD 63)) else none

/-! ### HIF, MEM, OWN, SYN -/

def viewHif (s : State) (i o item : Nat) : Option Nat :=
  if i = 0 ∧ o = 0x14 then some (b2n s.hif.linkUp)
  else if i = 1 ∧ o = 0x124 then
    let r := getRing s item
    some (flag 0 r.enabled + flag 1 r.sqErr + flag 2 r.xlateErr)
  else if i = 6 ∧ o = 0x204 then some ((List.range 32).foldl (fun a p => a + flag p (!leaseValid s p)) 0)
  else none

/-- GDDR7 rows repaired in a device (R358, R546). -/
def spareRows (s : State) (d : Nat) : Nat := (s.rep.dt.filter (fun e => e.kind = 7 && e.loc % 256 / 4 = d)).length

def viewMem (s : State) (i o : Nat) : Option Nat :=
  if i = 0 ∧ o = 0x128 then some (partSum s (fun d => if d.radio then d.memFloor else 0))
  else if 1 ≤ i ∧ i ≤ 24 ∧ o = 0x110 then some (min 255 (spareRows s (i - 1)))
  else if 25 ≤ i ∧ i ≤ 28 then (idx o 0x100 32 8).map (fun k => (getPart s (8 * (i - 25) + k)).desc.memFloor)
  else if i = 29 then
    if let some k := idx o 0x100 4 2 then
      some ((List.range 32).foldl (fun a j => a + flag j (mget KeySlot.empty s.mem.slots (32 * k + j)).key.isSome) 0)
    else if let some k := idx o 0x110 4 16 then
      some ((List.range 4).foldl (fun a j => a + at_ (8 * j) (mget KeySlot.empty s.mem.slots (4 * k + j)).owner) 0)
    else none
  else none

def viewOwn (s : State) (i o : Nat) : Option Nat :=
  let g := getF s (reg .own 2 0x100) 0 24
  if i = 0 ∧ o = 0x114 then some (getF s (reg .own 0 0x114) 0 3 + flag 31 s.mem.cmd.isSome)
  else if i = 1 then
    (idx o 0x100 4 32).map (fun p => if isRadio s p then 0
      else (getW s (reg .own 1 o)).toNat &&& ((List.range 32).foldl (fun a q => a + flag q (!isRadio s q)) 0))
  else if i ≠ 2 then none
  else if o = 0x104 then some (ownA s g).toNat
  else if o = 0x108 then some (ownB s g).toNat
  else if o = 0x10C then some (mget 0 s.mem.tblUe g)
  else none

def viewSyn (s : State) (i o : Nat) : Option Nat :=
  let x := getObj s (getF s (reg .syn 0 0x100) 0 16)
  if i = 0 then
    if o = 0x104 then some x.typ.code
    else if o = 0x108 then some x.value.toNat
    else if o = 0x10C then some x.param.toNat
    else none
  else if i = 1 then
    (idx o 0x100 4 64).map (fun k => (List.range 4).foldl (fun a j => a + at_ (8 * j) (mget 63 s.sync.owner (4 * k + j))) 0)
  else none

/-! ### SCH -/

/-- The mills in the pool, as a mask (R332). -/
def poolMask (s : State) : Nat := (List.range 240).foldl (fun a n => a + flag n (poolMill s n)) 0

def viewSch0 (s : State) (o : Nat) : Option Nat :=
  if o = 0x100 then some ((List.range 32).foldl (fun a p => a + flag p ((getPart s p).st ≠ .free)) 0)
  else if o = 0x104 then some ((List.range 32).foldl (fun a p => a + flag p (isRadio s p)) 0)
  else if o = 0x108 then some (popCount 240 (poolMask s))
  else (idx o 0x110 4 8).map (fun k => maskWord k (poolMask s))

/-- The state with every RUNNING leaf's time charged up to now (R334). -/
def settled (s : State) : State := s.mills.foldl (fun s e => chargeLeaf (chargeLeaf s e.1 0) e.1 1) s

/-- Mills that a radio partition lends or a compute partition borrows (R333). -/
def lentMask (s : State) (p : Nat) : Nat :=
  s.sched.lent.foldl (fun a e => a + flag e.1 (if isRadio s p then bitAt (getPart s p).mills e.1 else e.2 = p)) 0

/-- The fields of the selected slice (R333, R334): nothing for a slice that is not the partition's. -/
def viewSlice (s : State) (p o : Nat) : Option Nat :=
  let n := getF s (reg .sch (1 + p) 0x194) 0 13
  let x := getSlice s n
  if o < 0x198 ∨ 0x1B0 < o then none
  else if x.st = .none ∨ x.part ≠ p then some 0
  else if o = 0x198 then some (x.st.code + at_ 8 (min 255 (s.sched.ctxs.filter (fun e => e.2.slice = n)).length))
  else
    let y := getSlice (settled s) n
    if o = 0x1A0 then some y.millNs.toNat
    else if o = 0x1A8 then some y.stoneNs.toNat
    else if o = 0x1B0 then some y.vt.toNat
    else none

/-- A partition page (R333, R408): every block-specific field reads 0 while FREE, those of R408 in a compute partition too. -/
def viewPart (s : State) (p o : Nat) : Option Nat :=
  let x := getPart s p
  if x.st = .free then
    if o = 0x18 then some (putBits (getW s (reg .sch (1 + p) 0x18)).toNat 8 1 0)
    else if o = 0x20 then some (putBits (getW s (reg .sch (1 + p) 0x20)).toNat 1 7 0)
    else if o = 0x10 ∨ o = 0x14 ∨ 0x100 ≤ o then some 0
    else none
  else if !x.desc.radio ∧ 0x200 ≤ o then some 0
  else if o = 0x14 then some (x.st.code + flag 3 x.desc.radio)
  else if o = 0x108 then some x.desc.seed
  else if o = 0x110 then some x.desc.saveBase
  else if o = 0x118 then some (freeUnits s p).length
  else if o = 0x190 then some (getF s (reg .sch (1 + p) 0x190) 0 3 + flag 31 x.sliceCmd.isSome)
  else if let some k := idx o 0x120 4 8 then some (maskWord k x.mills)
  else if let some k := idx o 0x160 4 8 then some (maskWord k (lentMask s p))
  else viewSlice s p o

/-! ### BOL, GRN, MILL, REP, MGT -/

def viewBol (s : State) (i o : Nat) : Option Nat :=
  if o = 0x14 then some (bolterRole s i + (match bolterLogical s i with | some n => at_ 4 n | none => 0))
  else if i = 0 ∧ o = 0x300 then some ((List.range 18).filter (fun n => (bolterPhys s 4 n).isSome)).length
  else if i = 0 ∧ o = 0x304 then some (partSum s (·.bolter))
  else none

def viewGrn (s : State) (i o : Nat) : Option Nat :=
  if o = 0x100 then
    let d := mget 63 s.grn.dedic i
    some (d + flag 8 (d ≠ 63))
  else (idx o 0x104 4 4).map (fun k => (List.range 4).foldl (fun a j => a + at_ (8 * j) (mget 63 s.grn.ways (i * 16 + 4 * k + j))) 0)

/-- A word of a leaf's bound block (R87). -/
def leafWord (l : Leaf) (d : Nat) : Nat :=
  let b := l.bnd
  match d with
  | 0 => l.part + at_ 16 l.slice
  | 4 => b.dmemBase + at_ 8 b.dmemCnt
  | 8 => b.accBase + at_ 8 b.accCnt
  | 12 => b.qBase + at_ 16 b.qCnt
  | 16 => b.mdmBase + at_ 8 b.mdmCnt
  | _ => b.stones

/-- Whether an engine's wait is one on a queue or a sync object (`ENG_STAT.BLOCKED`). -/
def waitBlocks : Option Wait → Bool
  | some (.sync _ _ _ _) => true
  | some (.pop _) => true
  | some (.push _) => true
  | some (.take _) => true
  | _ => false

/-- `ENG_STAT` (R87): engines of the RUNNING leaves that have issued, and those that wait on a queue or a sync object. -/
def engStat (s : State) (site : Nat) : Nat :=
  let bits := [0, 1].flatMap (fun lf => match runningAt s site lf with
    | none => []
    | some (_, c) =>
      (if waitBlocks c.miller.wait then [8] else []) ++ c.engs.flatMap (fun e =>
        let n := physEng (ctxModule s c) lf e.1
        (if e.2.op.isSome then [n] else []) ++ (if waitBlocks e.2.wait then [8 + n] else [])))
  maskOf bits

/-- Stones that an operation holds (R159). -/
def heldStones (s : State) (site : Nat) : Nat := maskOf ([0, 1, 2, 3].filter (fun k => (getStone s site k).heldBy.isSome))

/-- The fault word of a leaf (R87). -/
def leafFault (l : Leaf) : Nat := l.faultCode + at_ 8 l.faultEng + at_ 16 l.faultStep

def viewMill (s : State) (site o : Nat) : Option Nat :=
  let m := getMill s site
  if o = 0x14 then some (rowCode (getRow s (site / 16)) + at_ 2 (siteRole s site))
  else if o = 0x100 then some (match siteMill s site with | some n => n + at_ 31 1 | none => 0)
  else if o = 0x104 then
    some (m.leaf0.st.code + at_ 4 m.leaf1.st.code + at_ 8 m.runLeaf + flag 9 m.split + flag 10 m.swTo.isSome)
  else if o = 0x108 then some (leafFault m.leaf0)
  else if o = 0x10C then some (leafFault m.leaf1)
  else if 0x120 ≤ o ∧ o < 0x138 then some (leafWord m.leaf0 (o - 0x120))
  else if 0x140 ≤ o ∧ o < 0x158 then some (leafWord m.leaf1 (o - 0x140))
  else if o = 0x168 then some (engStat s site)
  else if o = 0x170 then some (getLeaf (chargeLeaf s site 0) site 0).activeClk.toNat
  else if o = 0x178 then some (getLeaf (chargeLeaf s site 1) site 1).activeClk.toNat
  else if o = 0x1A0 then
    some ((getD64 s (reg .mill site 0x1A0)).toNat + (match m.hopFrom with | some t => (nowNs s - t) * 3 / 2 | none => 0))
  else if o = 0x1B8 then some (m.leaf0.gang + at_ 4 m.leaf1.gang + at_ 8 (heldStones s site))
  else if o = 0x1BC then some (min 8 (m.spout.length - 1) + flag 8 (!m.spout.isEmpty))
  else none

/-- The bytes of an error record (R561). -/
def recBytes (e : ErrRec) : List Byte :=
  toLE 8 e.time ++ toLE 4 e.seqNo ++ toLE 2 e.block ++ toLE 1 e.inst ++ toLE 1 e.kind ++ toLE 1 e.sev ++ toLE 1 e.part
    ++ toLE 2 0 ++ toLE 8 e.addr ++ toLE 4 e.detail

/-- The bytes of a table entry (R545). -/
def dtBytes (e : DtEntry) : List Byte := toLE 1 e.kind ++ toLE 1 e.origin ++ toLE 2 0 ++ toLE 4 e.loc ++ toLE 4 e.spare ++ toLE 4 e.start

/-- The copy of the table that `DT_SEL` shows. -/
def dtShown (s : State) : List DtEntry :=
  match getF s (reg .rep 2 0x100) 12 2 with | 1 => s.rep.dtA | 2 => s.rep.dtB | _ => s.rep.dt

def viewRep (s : State) (i o : Nat) : Option Nat :=
  if i = 0 ∧ o = 0x14 then some (b2n s.rep.sparing.isSome)
  else if i = 1 then
    if o = 0x100 then some s.rep.recs.length
    else (idx o 0x108 4 8).map (fun k => match s.rep.recs with | e :: _ => leAt (recBytes e) (4 * k) 4 | [] => 0)
  else if i = 2 then
    if o = 0x114 then some (dtShown s).length
    else if o = 0x118 then some (1024 - s.rep.field.length)
    else (idx o 0x104 4 4).map (fun k => match (dtShown s)[getF s (reg .rep 2 0x100) 0 12]? with
      | some e => leAt (dtBytes e) (4 * k) 4
      | none => 0)
  else if i = 3 then
    let n := getF s (reg .rep 3 0x100) 0 8
    if o = 0x104 then some (mget 0 s.rep.slack n)
    else if o = 0x108 then some (mget 0 s.rep.least n)
    else none
  else none

def viewMgt (s : State) (i o : Nat) : Option Nat :=
  if i = 0 ∧ o = 0x10C then some (getF s (reg .mgt 0 0x10C) 0 8 + flag 31 s.sched.mbx.isSome)
  else if i = 1 ∧ o = 0x120 then
    some ((altSteps.zipIdx).foldl (fun a e => a + at_ (2 * e.2) (mget 0 s.boot.alts e.1 % 4)) 0)
  else none

/-! ### All blocks -/

/-- The read-only header (R39, R40), except STAT. -/
def viewHeader (s : State) (b : Block) (i o : Nat) : Option Nat :=
  if o = 0x0 then some (b.code + at_ 16 i + at_ 24 1)
  else if o = 0x4 then some 0x100
  else if o = 0x8 then some (capNext s b i)
  else if o = 0xC then some 0x1000
  else none

/-- A block's registers. -/
def viewBlock (s : State) (b : Block) (i o item : Nat) : Option Nat :=
  match b with
  | .root => if o = 0x110 then some (pendBlock s) else none
  | .sec => viewSec s i o
  | .gov => viewGov s i o
  | .ftl => viewFtl s i o
  | .eth => viewEth s i o
  | .slu => viewSlu s i o item
  | .weir => viewWeir s i o item
  | .hif => viewHif s i o item
  | .mem => viewMem s i o
  | .own => viewOwn s i o
  | .syn => viewSyn s i o
  | .sch => if i = 0 then viewSch0 s o else viewPart s (i - 1) o
  | .bol => viewBol s i o
  | .grn => viewGrn s i o
  | .noc => none
  | .mill => viewMill s i o
  | .rep => viewRep s i o
  | .mgt => viewMgt s i o

/-- What a register reads, where it is computed from the state. -/
def viewReg (s : State) (b : Block) (i o item : Nat) : Option Nat := (viewHeader s b i o).or (viewBlock s b i o item)

end Sys2Proof.Machine
end

