-- ==== Sys2Proof/Machine/RegBus.lean ====
section
/-! DEFINITION. Reads and writes of BAR0 and BAR2: sizes and halves (R34, R35), readiness (R37), access codes (R38), the common registers
(R39 to R44), what a write of each register with an effect does, the MSI-X table and pending bits (R33, R45), and BAR2 (R364). -/
namespace Sys2Proof.Machine

/-- The register at a 4-byte aligned BAR0 offset: CTRL and STAT of a block that defines neither hold no field (R39). -/
def regOf (a : Nat) : Option RegHit :=
  match regAt a with
  | some h => some h
  | none =>
    match pageAt a with
    | some (b, i) =>
      if a % 0x1000 = 0x10 ∨ a % 0x1000 = 0x14 then some ⟨b, i, ⟨i, i, a % 0x1000, 1, 4, false, none, []⟩, false⟩ else none
    | none => none

/-- BAR0 offset of the register's first word. -/
def RegHit.base (h : RegHit) (a : Nat) : Nat := if h.hi then a - 4 else a

/-- The item that the register's selector shows. -/
def RegHit.item (s : State) (h : RegHit) : Nat := match h.row.sel with | some w => (getW s w).toNat | none => 0

/-- Key of the register's stored words. -/
def RegHit.key (s : State) (h : RegHit) (a : Nat) : Nat :=
  match h.row.sel with | some w => winKey (getW s w).toNat (h.base a) | none => h.base a

/-- Mask of the fields that `p` selects. -/
def RegRow.mask (r : RegRow) (p : Fld → Bool) : Nat := (r.flds.filter p).foldl (fun a f => a + (2 ^ f.len - 1) * 2 ^ f.lo) 0

/-- The stored value of a register. -/
def stored (s : State) (h : RegHit) (a : Nat) : Nat :=
  if h.row.wide then (getD64 s (h.key s a)).toNat else (getW s (h.key s a)).toNat

/-- Store a register. -/
def store (s : State) (h : RegHit) (a v : Nat) : State :=
  if h.row.wide then setD64 s (h.key s a) (BitVec.ofNat 64 v) else setW s (h.key s a) (BitVec.ofNat 32 v)

/-- Registers of a feature whose capability is absent: reserved (R51). -/
def regAbsent (s : State) (b : Block) (i o : Nat) : Bool :=
  match b with
  | .ftl => i = 0 && (o = 0x130 || o = 0x138) && !hasCap s 0x20
  | .eth => i = 0 && o = 0x30C && !hasCap s 0x10
  | .slu => i = 2 && (o = 0x120 || o = 0x128) && !hasCap s 0x10
  | .hif => i = 0 && o = 0x100 && !hasCap s 0x50
  | .sec => i = 3 && (o = 0x118 || o = 0x11C) && !hasCap s 0x60
  | _ => false

/-- What a register reads: computed or stored; WO fields read 0 (R38); `STAT.PAGE_READY` is in every page (R40). -/
def regVal (s : State) (h : RegHit) (a : Nat) : Nat :=
  let o := h.base a % 0x1000
  if regAbsent s h.blk h.page o then 0
  else
    let v := (viewReg s h.blk h.page o (h.item s)).getD (stored s h a)
    let v := v % 2 ^ (if h.row.wide then 64 else 32)
    let v := if o = 0x14 then putBits v 31 1 (b2n (pageReady s h.blk h.page)) else v
    v - (v &&& h.row.mask (fun f => f.acc = .wo))

/-! ### Refused accesses -/

/-- An access of an unassigned offset (R33). -/
def unmapped (s : State) (a : Nat) : State := raiseErr (setW s (reg .root 0 0x114) (BitVec.ofNat 32 (a % 2 ^ 26))) .root 0 4

/-- Whether an offset lies in the MSI-X table or the pending-bit array (R33). -/
def inMsix (a : Nat) : Bool := 0x900000 ≤ a && a < 0x908100

/-- Whether an access is of an accepted size and alignment (R34). -/
def sizeOk (a : Nat) : AccSize → Bool
  | .w32 => a % 4 = 0
  | .w64 => a % 8 = 0
  | .other => false

/-- A partial or unaligned access of BAR0 (R34). -/
def sizeErr (s : State) (a : Nat) : State :=
  match pageAt a with
  | some (b, i) => raiseErr s b i 2
  | none => if inMsix a then raiseErr s .root 0 2 else unmapped s a

/-! ### MSI-X table and pending bits (R33, R45) -/

/-- A word of the table or of the array. -/
def msixRead (s : State) (a : Nat) : Nat :=
  if a < 0x908000 then (msixWord s ((a - 0x900000) / 16) (a % 16 / 4)).toNat
  else (List.range 32).foldl (fun m j => m + flag j (mget false s.bus.pba ((a - 0x908000) / 4 * 32 + j))) 0

/-- Write a word of the table: a vector that is unmasked sends its pending message. The array is read only. -/
def msixWrite (s : State) (a v : Nat) : State :=
  if 0x908000 ≤ a then s
  else
    let n := (a - 0x900000) / 16
    let j := a % 16 / 4
    let w : Word := BitVec.ofNat 32 (if j = 3 then v % 2 else v)
    let s := { s with bus := { s.bus with msix := mset (if j = 3 then 1 else 0) s.bus.msix (n * 4 + j) w } }
    if mget false s.bus.pba n && !msixMasked s n then msixSend s n else s

/-! ### Reads (R34, R35, R37, R38) -/

/-- What a read does besides answering: read-to-clear fields clear (R38), reads of time take their snapshots (R488), a read of a
capture makes room for the next (R485), and `TOD_RX_POP` removes its byte. -/
def readEffect (s : State) (h : RegHit) (a : Nat) : State :=
  let o := h.base a % 0x1000
  let m := h.row.mask (fun f => f.acc = .rc)
  let s := if m = 0 then s else store s h a (stored s h a - (stored s h a &&& m))
  if h.blk ≠ .ftl then s
  else if h.page = 0 ∧ o = 0x100 then timeSnap s
  else if h.page = 0 ∧ o = 0x140 then secSnap s
  else if h.page = 5 ∧ o = 0x120 then { s with ftl := { s.ftl with unread := mdel s.ftl.unread 0 } }
  else if h.page = 5 ∧ o = 0x130 then { s with ftl := { s.ftl with unread := mdel s.ftl.unread 1 } }
  else if h.page = 5 ∧ o = 0x1C0 then { s with ftl := { s.ftl with todRx := s.ftl.todRx.drop 1 } }
  else s

/-- Answer with a number. -/
def replyNat (s : State) (v : Nat) : State := replyWith s (BitVec.ofNat 64 v)

/-- Read one 32-bit word of a register (R35). -/
def readWord (s : State) (h : RegHit) (a : Nat) : State :=
  let v := regVal s h a
  let base := h.base a
  if !h.row.wide then replyNat (readEffect s h a) v
  else if !h.hi then
    let s := readEffect s h a
    replyNat { s with bus := { s.bus with latch := mput s.bus.latch base (BitVec.ofNat 32 (v / 2 ^ 32)) } } (v % 2 ^ 32)
  else
    match mfind s.bus.latch base with
    | some w => replyNat { s with bus := { s.bus with latch := mdel s.bus.latch base } } w.toNat
    | none => replyNat s (v / 2 ^ 32)

/-- A page register's access at 0x100 or above needs the page ready (R37); the header answers always. -/
def answers (s : State) (b : Block) (i a : Nat) : Bool := a % 0x1000 < 0x100 || pageReady s b i

/-- A 32-bit read of BAR0. -/
def read32 (s : State) (a : Nat) : State :=
  match pageAt a with
  | none => if inMsix a then replyNat s (msixRead s a) else replyNat (unmapped s a) 0
  | some (b, i) =>
    if !answers s b i a then replyNat (notReady s b i) 0
    else
      match regOf a with
      | none => replyNat s (capWord s a)
      | some h => readWord s h a

/-- The 64-bit register whose low half is at an offset. -/
def wideAt (a : Nat) : Option RegHit := (regOf a).filter (fun h => h.row.wide && !h.hi)

/-- The latch and the hold of a register become invalid (R35). -/
def halvesClear (s : State) (a : Nat) : State :=
  { s with bus := { s.bus with latch := mdel s.bus.latch a, hold := mdel s.bus.hold a } }

/-- A 64-bit read of BAR0: one of both halves, or two reads with the low word first. -/
def read64 (s : State) (a : Nat) : State :=
  match wideAt a with
  | some h =>
    if !answers s h.blk h.page a then replyNat (notReady s h.blk h.page) 0
    else replyNat (halvesClear (readEffect s h a) a) (regVal s h a)
  | none =>
    let lo := read32 s a
    let hi := read32 lo (a + 4)
    replyWith hi (hi.bus.reply.setWidth 32 ++ lo.bus.reply.setWidth 32)

/-- A word of a slice's doorbell page (R364). -/
def bar2Word (s : State) (sl o : Nat) : Nat :=
  let r := getRing s sl
  if o = 8 then flag 0 r.enabled + flag 1 r.sqErr + flag 2 r.xlateErr + at_ 16 (r.sqHead % 2 ^ 16) else 0

/-- A refused access of BAR2 (R34). -/
def bar2Refuse (s : State) : State := bump32 s (reg .hif 0 0x128) 1

/-- A read of BAR2 (R34, R364). -/
def bar2Read (s : State) (a : Nat) (sz : AccSize) : State :=
  let w (x : Nat) : Nat := bar2Word s (x / 4096) (x % 4096)
  if !sizeOk a sz then replyNat (bar2Refuse s) 0
  else match sz with
    | .w64 => replyNat s (w a + 2 ^ 32 * w (a + 4))
    | _ => replyNat s (w a)

/-- A read of BAR0 or BAR2. -/
def busRead (s : State) (a : BusAddr) (sz : AccSize) : State :=
  match a with
  | .bar2 x => bar2Read s x.toNat sz
  | .bar0 x =>
    let a := x.toNat
    if !sizeOk a sz then replyNat (sizeErr s a) 0
    else match sz with
      | .w64 => read64 s a
      | _ => read32 s a

/-! ### Writes by access code (R38, R42) -/

/-- Whether a field may take a value (R11). -/
def Fld.takes (f : Fld) (v : Nat) : Bool := f.ok.isEmpty || f.ok.any (fun r => r.1 ≤ v && v ≤ r.2)

/-- One field of a write: the register's value so far, whether a reserved encoding was written, whether a locked field was. -/
def writeFld (locked : Bool) (v : Nat) (x : Nat × Bool × Bool) (f : Fld) : Nat × Bool × Bool :=
  let (cur, bad, lk) := x
  let w := bitsAt v f.lo f.len
  match f.acc with
  | .rw => if f.takes w then (putBits cur f.lo f.len w, bad, lk) else (cur, true, lk)
  | .w1c => (putBits cur f.lo f.len (bitsAt cur f.lo f.len - (bitsAt cur f.lo f.len &&& w)), bad, lk)
  | .w1s => (putBits cur f.lo f.len (bitsAt cur f.lo f.len ||| w), bad, lk)
  | .rwl => if locked then (cur, bad, true) else (putBits cur f.lo f.len w, bad, lk)
  | .ro | .wo | .rc => (cur, bad, lk)

/-- A write of a register whose fields only hold what is written. -/
def plainWrite (s : State) (h : RegHit) (a v : Nat) : State :=
  let locked := getF s (reg h.blk h.page 0x2C) 0 1 = 1
  let (w, bad, lk) := h.row.flds.foldl (writeFld locked v) (stored s h a, false, false)
  let s := store s h a w
  let s := if bad then invalidWrite s h.blk h.page else s
  if lk then lockedWrite s h.blk h.page else s

/-! ### Writes with an effect -/

/-- The common registers: interrupt causes and enables (R44), and causes set for test (R40). -/
def writeHeader (s : State) (h : RegHit) (a v : Nat) : State :=
  let o := a % 0x1000
  let b := h.blk
  let i := h.page
  if o = 0x20 ∨ o = 0x24 then afterIntWrite (plainWrite s h a v) b i
  else if o = 0x28 then
    afterIntWrite (setW s (reg b i 0x20) (getW s (reg b i 0x20) ||| BitVec.ofNat 32 v)) b i
  else plainWrite s h a v

def writeSec (s : State) (h : RegHit) (a v : Nat) : State :=
  let o := a % 0x1000
  match h.page with
  | 0 => if o = 0x110 then svnCommit s v else plainWrite s h a v
  | 1 =>
    if o = 0x100 then (if v % 4 = 1 then secCommand s 1 (fun s => keyErase s v) else invalidWrite s .sec 1) else plainWrite s h a v
  | 2 =>
    if o = 0x110 then (if v % 4 = 2 then closeGate s else if v % 4 = 1 then s else invalidWrite s .sec 2) else plainWrite s h a v
  | _ =>
    if o = 0x108 then
      match v % 8 with
      | 1 => secCommand s 3 migrOffer
      | 4 => secCommand s 3 (fun s => exportKeys s (bitsAt v 8 5))
      | 6 => secCommand s 3 migrClear
      | 0 | 7 => invalidWrite s .sec 3
      | _ => s
    else plainWrite s h a v

def writeGov (s : State) (h : RegHit) (a v : Nat) : State :=
  let o := a % 0x1000
  if h.page = 0 ∧ o = 0x100 then capWrite s v
  else if h.page = 0 then dwellMark (plainWrite s h a v)
  else if h.page = 3 ∧ o = 0x118 then evPop s v
  else if h.page = 4 ∧ o = 0x184 then rstCtrl s v
  else plainWrite s h a v

/-- A write of page 0's CTRL of the fantail (R474, R480, R488). -/
def writeFtlCtrl (s : State) (v : Nat) : State :=
  let s := setF s (reg .ftl 0 0x10) 2 1 (bitsAt v 2 1)
  switchTo (compatEn s (bitAt v 0)) (bitsAt v 1 1)

/-- A write of a servo's CTRL. -/
def writeServoCtrl (s : State) (d v : Nat) : State :=
  let s := if bitsAt v 1 2 = 3 then invalidWrite s .ftl (1 + d) else setF s (reg .ftl (1 + d) 0x10) 1 2 (bitsAt v 1 2)
  servoEnable s d (bitAt v 0)

def writeFtl (s : State) (h : RegHit) (a v : Nat) : State :=
  let o := a % 0x1000
  let item := h.item s
  match h.page with
  | 0 =>
    if o = 0x10 then writeFtlCtrl s v
    else if o = 0x120 then stepTime s (BitVec.ofNat 64 v).toInt
    else if o = 0x128 then followRate (plainWrite s h a v)
    else if o = 0x130 then
      let s := plainWrite s h a v
      if compatOn s then compatRate s else s
    else if o = 0x138 then compatAdj s (BitVec.ofNat 32 v)
    else plainWrite s h a v
  | 1 => if o = 0x10 then writeServoCtrl s 0 v else plainWrite s h a v
  | 2 => if o = 0x10 then writeServoCtrl s 1 v else plainWrite s h a v
  | 4 =>
    if o = 0x104 then tickerCtrl s item (BitVec.ofNat 32 v)
    else if o ≠ 0x100 ∧ 0x100 ≤ o ∧ getF s (tickReg item 0x104) 0 1 = 1 then s
    else plainWrite s h a v
  | 5 =>
    let s := plainWrite s h a v
    if 0x180 ≤ o ∧ o < 0x1C0 then { s with ftl := { s.ftl with todArmed := true } } else s
  | 6 => if o = 0x114 then (if v % 2 = 1 then tsPop s else s) else plainWrite s h a v
  | _ => plainWrite s h a v

def writeEth (s : State) (h : RegHit) (a v : Nat) : State :=
  let o := a % 0x1000
  let p := h.page
  if 16 ≤ p then plainWrite s h a v
  else if o = 0x10 then modeWrite s p (v % 4)
  else if o = 0x100 then laneMapWrite s p (BitVec.ofNat 32 v)
  else if o = 0x204 then (if v % 2 = 1 then esmcPop s p else s)
  else if o = 0x208 then esmcSend s p (v % 256)
  else if o = 0x300 ∨ o = 0x304 then domsFollow (plainWrite s h a v)
  else if o = 0x308 then synceSrc s (bitAt v 0)
  else plainWrite s h a v

/-- The fields of a bound flow's descriptor do not change (R437). -/
def writeSlu (s : State) (h : RegHit) (a v : Nat) : State :=
  if h.page = 1 ∧ 0x180 ≤ a % 0x1000 ∧ (mfind s.net.flows (h.item s)).isSome then raiseErr s .slu 1 8 else plainWrite s h a v

def writeWeir (s : State) (h : RegHit) (a v : Nat) : State :=
  let o := a % 0x1000
  let item := h.item s
  if h.page = 1 then
    if o = 0x104 then queueCtrl s item (BitVec.ofNat 32 v)
    else if o = 0x110 ∨ o = 0x118 ∨ o = 0x11C then (if queueOn s item then s else plainWrite s h a v)
    else if o = 0x12C ∨ o = 0x130 then plainWrite (refill s item) h a v
    else plainWrite s h a v
  else if h.page = 2 then
    if o = 0x110 then steerCtrl s item (BitVec.ofNat 32 v)
    else if o ≠ 0x100 ∧ 0x100 ≤ o ∧ steerOn s item then s
    else plainWrite s h a v
  else plainWrite s h a v

/-- Page 1 of the HIF: rings (R363) and digest rings (R537). -/
def writeRing (s : State) (h : RegHit) (a v : Nat) : State :=
  let o := a % 0x1000
  let sl := h.item s
  if o = 0x108 ∨ o = 0x110 ∨ o = 0x118 ∨ o = 0x11C then
    if (getRing s sl).enabled then raiseErr s .hif 1 8 else plainWrite s h a v
  else if o = 0x120 then
    match v % 4 with
    | 1 => ringEnable s sl
    | 2 => ringDisable s sl
    | _ => invalidWrite s .hif 1
  else if o = 0x138 then digCtrl s sl (BitVec.ofNat 32 v)
  else if 0x130 ≤ o ∧ o ≤ 0x150 ∧ getF s (ringReg sl 0x138) 0 1 = 1 then s
  else plainWrite s h a v

/-- While TSP_LOCKED, `SHADOW` and page 7 do not change (R576). -/
def writeHif (s : State) (h : RegHit) (a v : Nat) : State :=
  let o := a % 0x1000
  if (h.page = 7 ∨ (h.page = 0 ∧ o = 0x100)) ∧ tspLocked s then lockedWrite s .hif h.page
  else if h.page = 1 then writeRing s h a v
  else if h.page = 6 ∧ o = 0x200 then leaseRevoke s v
  else plainWrite s h a v

def writeMem (s : State) (h : RegHit) (a v : Nat) : State :=
  if h.page = 0 ∧ a % 0x1000 = 0x104 then eccModeWrite s (BitVec.ofNat 32 v) else plainWrite s h a v

/-- `SHARE_GRANT` does not change while TSP_LOCKED (R576). -/
def writeOwn (s : State) (h : RegHit) (a v : Nat) : State :=
  if h.page = 0 ∧ a % 0x1000 = 0x100 then (if v % 4 = 0 then invalidWrite s .own 0 else ownCommand s (v % 4) (bitAt v 8))
  else if h.page = 1 ∧ tspLocked s then lockedWrite s .own 1
  else plainWrite s h a v

def writeSyn (s : State) (h : RegHit) (a v : Nat) : State :=
  if h.page = 0 ∧ a % 0x1000 = 0x108 then objValueWrite s (BitVec.ofNat 32 v) else plainWrite s h a v

/-- A write of `LENDk` (R310, R312): each bit that changes lends or reclaims its mill. -/
def writeLend (s : State) (p k v : Nat) : State :=
  let cur := (getW s (reg .sch (1 + p) (0x140 + 4 * k))).toNat
  (List.range 32).foldl (fun s j =>
    if 32 * k + j < 240 ∧ bitAt v j ≠ bitAt cur j then lendWrite s p (32 * k + j) (bitAt v j) else s) s

/-- A write of `SLICE_CMD` (R305). -/
def writeSliceCmd (s : State) (p v : Nat) : State :=
  let n := v % 2 ^ 13
  match bitsAt v 13 3 with
  | 1 => sliceCmd s p n sliceCreate
  | 2 => sliceCmd s p n sliceTeardown
  | 3 => sliceCmd s p n setShare
  | 4 => sliceCmd s p n slicePause
  | 5 => sliceCmd s p n sliceResume
  | _ => invalidWrite s .sch (1 + p)

/-- A partition page: nothing is written while FREE; the fields of R408 only in a radio partition; LOAN_ACCEPT only in a compute one
(R333, R408). -/
def writeSch (s : State) (h : RegHit) (a v : Nat) : State :=
  let o := a % 0x1000
  if h.page = 0 then plainWrite s h a v
  else
    let p := h.page - 1
    let x := getPart s p
    if x.st = .free then s
    else if o = 0x10 then plainWrite s h a (if x.desc.radio then v % 2 else v)
    else if o = 0x180 then writeSliceCmd s p v
    else if 0x140 ≤ o ∧ o < 0x160 then writeLend s p ((o - 0x140) / 4) v
    else if 0x200 ≤ o ∧ !x.desc.radio then s
    else plainWrite s h a v

/-- A ring set's registers (R411, R425): base, size and objects of a ring do not change while it is enabled. -/
def writeBol (s : State) (h : RegHit) (a v : Nat) : State :=
  let o := a % 0x1000
  let i := h.page
  if o = 0x224 then
    [0, 1].foldl (fun s r =>
      if bitAt v r then bolterEnable s i r else if ringOn s i r then bolterDisable s i r else s) s
  else if ((o = 0x208 ∨ o = 0x21C) ∧ ringOn s i 0) ∨ ((o = 0x210 ∨ o = 0x220) ∧ ringOn s i 1) then s
  else if o = 0x218 then
    let keep (r v : Nat) : Nat := if ringOn s i r then putBits v (8 * r) 4 (getF s (bolReg i 0x218) (8 * r) 4) else v
    plainWrite s h a (keep 0 (keep 1 v))
  else plainWrite s h a v

def writeRep (s : State) (h : RegHit) (a v : Nat) : State :=
  let o := a % 0x1000
  if h.page = 0 ∧ o = 0x100 then
    match v % 4 with
    | 1 => spareSite s
    | 2 => repCommand s repMark
    | 3 => repCommand s tablePick
    | _ => invalidWrite s .rep 0
  else if h.page = 1 ∧ o = 0x128 then recPop s v
  else plainWrite s h a v

/-- A mailbox command that reads its request from host memory is a command of its own; other codes are reserved (R373). -/
def writeMgt (s : State) (h : RegHit) (a v : Nat) : State :=
  let o := a % 0x1000
  if h.page = 1 ∧ o = 0x128 then memoClear s v
  else if h.page = 0 ∧ o = 0x108 then (if 1 ≤ v % 256 ∧ v % 256 ≤ 8 then s else invalidWrite s .mgt 0)
  else plainWrite s h a v

/-- A write of a whole register takes effect. -/
def regWrite (s : State) (h : RegHit) (a v : Nat) : State :=
  let o := a % 0x1000
  if regAbsent s h.blk h.page o then s
  else if o ≠ 0x10 ∧ o < 0x100 then writeHeader s h a v
  else match h.blk with
    | .root => s
    | .sec => writeSec s h a v
    | .gov => writeGov s h a v
    | .ftl => writeFtl s h a v
    | .eth => writeEth s h a v
    | .slu => writeSlu s h a v
    | .weir => writeWeir s h a v
    | .hif => writeHif s h a v
    | .mem => writeMem s h a v
    | .own => writeOwn s h a v
    | .syn => writeSyn s h a v
    | .sch => writeSch s h a v
    | .bol => writeBol s h a v
    | .grn => plainWrite s h a v
    | .noc => plainWrite s h a v
    | .mill => plainWrite s h a v
    | .rep => writeRep s h a v
    | .mgt => writeMgt s h a v

/-- A 32-bit write of a half of a 64-bit register (R35). -/
def writeHalf (s : State) (h : RegHit) (a v : Nat) : State :=
  let base := h.base a
  if !h.hi then { s with bus := { s.bus with hold := mput s.bus.hold base (BitVec.ofNat 32 v) } }
  else
    match mfind s.bus.hold base with
    | some w => regWrite { s with bus := { s.bus with hold := mdel s.bus.hold base } } { h with hi := false } base (v * 2 ^ 32 + w.toNat)
    | none => regWrite s { h with hi := false } base (v * 2 ^ 32 + regVal s h a % 2 ^ 32)

/-- A 32-bit write of BAR0. -/
def write32 (s : State) (a v : Nat) : State :=
  match pageAt a with
  | none => if inMsix a then msixWrite s a v else unmapped s a
  | some (b, i) =>
    if !answers s b i a then notReady s b i
    else
      match regOf a with
      | none => s
      | some h => if h.row.wide then writeHalf s h a v else regWrite s h a v

/-- A 64-bit write of BAR0: both halves at once, or two writes with the low word first. -/
def write64 (s : State) (a v : Nat) : State :=
  match wideAt a with
  | some h =>
    if !answers s h.blk h.page a then notReady s h.blk h.page else regWrite (halvesClear s a) h a v
  | none => write32 (write32 s a (v % 2 ^ 32)) (a + 4) (v / 2 ^ 32)

/-- A write of one word of BAR2 (R364). -/
def bar2Write32 (s : State) (a v : Nat) : State :=
  if a % 4096 = 0 then sqTail s (a / 4096) (v % 2 ^ 16)
  else if a % 4096 = 4 then cqHead s (a / 4096) (v % 2 ^ 16)
  else s

/-- A write of BAR0 or BAR2 (R34). -/
def busWrite (s : State) (a : BusAddr) (sz : AccSize) (v : Nat) : State :=
  match a with
  | .bar2 x =>
    let a := x.toNat
    if !sizeOk a sz then bar2Refuse s
    else match sz with
      | .w64 => bar2Write32 (bar2Write32 s a (v % 2 ^ 32)) (a + 4) (v / 2 ^ 32)
      | _ => bar2Write32 s a (v % 2 ^ 32)
  | .bar0 x =>
    let a := x.toNat
    if !sizeOk a sz then sizeErr s a
    else match sz with
      | .w64 => write64 s a v
      | _ => write32 s a (v % 2 ^ 32)

/-! ### The commands -/

/-- REGISTER_WRITE. -/
def execRegisterWrite (a : BusAddr) (sz : AccSize) (v : DWord) (s : State) : Res := done (busWrite s a sz v.toNat)

/-- RC_READ: a read of any register answers; its read-to-clear fields clear. -/
def execRcRead (a : BusAddr) (sz : AccSize) (s : State) : Res := done (busRead s a sz)

/-- LOW_HALF_READ. -/
def execLowHalfRead (a : BitVec 26) (s : State) : Res := done (busRead s (.bar0 a) .w32)

/-- HIGH_HALF_READ. -/
def execHighHalfRead (a : BitVec 26) (s : State) : Res := done (busRead s (.bar0 a) .w32)

/-- LOW_HALF_WRITE. -/
def execLowHalfWrite (a : BitVec 26) (v : Word) (s : State) : Res := done (busWrite s (.bar0 a) .w32 v.toNat)

/-- HIGH_HALF_WRITE. -/
def execHighHalfWrite (a : BitVec 26) (v : Word) (s : State) : Res := done (busWrite s (.bar0 a) .w32 v.toNat)

/-- An access of an unassigned offset: a write is discarded, a read answers 0 (R33). -/
def unmappedAccess (s : State) (a : Nat) (wr : Bool) : State :=
  if (pageAt a).isSome ∨ inMsix a then s else if wr then unmapped s a else replyNat (unmapped s a) 0

/-- UNMAPPED_ACCESS. -/
def execUnmappedAccess (a : BitVec 26) (wr : Bool) (s : State) : Res := done (unmappedAccess s a.toNat wr)

/-- INT_SET_WRITE. -/
def execIntSetWrite (a : BitVec 26) (v : Word) (s : State) : Res := done (busWrite s (.bar0 a) .w32 v.toNat)

/-- LOCK_WRITE. -/
def execLockWrite (a : BitVec 26) (v : Word) (s : State) : Res := done (busWrite s (.bar0 a) .w32 v.toNat)

end Sys2Proof.Machine
end

