-- ==== Sys2Proof/Machine/Sched.lean ====
section
/-! DEFINITION. Contexts at run time (chapters 03, 10, 11): satisfied waits (R284), the end of a context (R186), the stall
watchdog (R294), writes of instruction leaves (R78), switches (R79, R82), scheduling decisions (R315, R316), freezes and saves
(R188, R308, R328), and the end of a teardown (R320). -/
namespace Sys2Proof.Machine

/-! ### WAIT_SATISFIED (R284) -/

/-- A satisfied wait releases its engine, unless it holds under a freeze. -/
def waitDone (s : State) (site lf e : Nat) : State :=
  match runningAt s site lf with
  | none => s
  | some (cid, c) =>
    if e = 0 then
      match c.miller.wait, c.miller.held with
      | some (.sync _ _ _ true), false =>
        setCtx s cid ({ c with miller := { c.miller with wait := none, pc := (c.miller.pc + 8) % 2 ^ 32 } }.moved s)
      | _, _ => s
    else
      let x := c.eng e
      match x.wait, x.held, ((ctxModule s c).table e)[x.next]? with
      | some (.sync _ _ _ true), false, some r => putEng s cid c e ({ x with wait := none }.past r x.next)
      | _, _, _ => s

def execWaitSatisfied (site : Site) (lf : LeafNo) (e : EngNo) (s : State) : Res := done (waitDone s site lf e)

/-! ### CONTEXT_END (R186) -/

/-- Whether a context has ended: `miller.end` issued, every engine idle with nothing pending. -/
def Ctx.ended (c : Ctx) : Bool := c.miller.ended && c.engs.all (fun e => e.2.done)

/-- A context ends: its leaf is cleared, what it held is released, and the scheduler decides for the leaf (R179, R186, R315). -/
def ctxEnd (s : State) (site lf : Nat) : State :=
  match runningAt s site lf with
  | none => s
  | some (cid, c) =>
    if !c.ended then s
    else
      let s := stopLeaf s site lf .resident
      let s := clearLeaf s site lf
      let s := launchLeft (releaseCtx (orphanCells s cid none) cid) c.launch
      let s := settlePart s c.part
      lendAll (decideLeaf s site lf none)

def execContextEnd (site : Site) (lf : LeafNo) (s : State) : Res := done (ctxEnd s site lf)

/-! ### STALL_WATCHDOG (R294, R295) -/

/-- Whether a wait is one that counts as stalled (R294). -/
def waitStalls (w : Option Wait) : Bool :=
  match w with
  | some (.sync _ _ _ sat) => !sat
  | some (.pop _) | some (.push _) | some .hopper | some .mcastSend | some .mcastRecv => true
  | _ => false

/-- Whether a RUNNING context is stalled (R294). -/
def ctxStalled (s : State) (c : Ctx) : Bool :=
  (c.miller.ended || waitStalls c.miller.wait) && c.engs.all (fun e => e.2.done || waitStalls e.2.wait)
    && !(c.miller.ended && c.engs.all (fun e => e.2.done))
    && !excused s c

/-- Whether a wait is on an object that is NONE (R282). -/
def waitsNone (s : State) (c : Ctx) (w : Option Wait) : Bool :=
  match w with
  | some (.sync loc _ _ _) => match mfind c.syncs loc with | some (.obj n) => (getObj s n).typ = .none | _ => false
  | _ => false

/-- When the count of a stalled context began (R294): at its last move, but for a wait on a NONE object of a radio-class partition
no earlier than its first cell started (log 146). -/
def stalledFrom (s : State) (c : Ctx) : Nat :=
  let waits := waitsNone s c c.miller.wait || c.engs.any (fun e => waitsNone s c e.2.wait)
  match c.radioFrom with
  | some t => if isRadio s c.part ∧ waits ∧ c.lastMove < t then t else c.lastMove
  | _ => c.lastMove

/-- Engine and step that a stall or a freeze timeout records: the lowest engine that is not quiet. -/
def slowEng (c : Ctx) (quiet : Eng → Bool) (miller : Bool) : Nat × Nat :=
  if !miller then (0, c.miller.pc / 8)
  else match c.engs.find? (fun e => !quiet e.2) with
    | some e => (e.1, e.2.next)
    | none => (0, c.miller.pc / 8)

/-- The watchdog (R294): a context stalled longer than its partition's limit faults. -/
def stallCheck (s : State) (site lf : Nat) : State :=
  match runningAt s site lf with
  | none => s
  | some (cid, c) =>
    if ctxStalled s c ∧ (getW s (reg .syn 2 (0x100 + 4 * c.part))).toNat * 1000 < nowNs s - stalledFrom s c then
      let (e, i) := slowEng c Eng.done c.miller.ended
      let s := ctxFault s cid cfStall (physEng (ctxModule s c) lf e) i
      raiseInt (bump32 s (reg .syn 0 0x110) 1) .syn 0 1
    else s

def execStallWatchdog (site : Site) (lf : LeafNo) (s : State) : Res := done (stallCheck s site lf)

/-! ### IMEM_WRITE (R78, R87, R505) -/

/-- A workshop write of one line of an instruction leaf: accepted in LOADING; otherwise refused, logged and counted. A row that
does not run is woken, and the write waits. -/
def imemWrite (s : State) (site lf line : Nat) (data : Line) : State :=
  if !rowRuns s site then wakeRow s (site / 16)
  else
    let l := getLeaf s site lf
    if l.st = .loading then setLeaf s site lf { l with imem := mset 0 l.imem line data }
    else
      let m := getMill s site
      let active := l.st = .running || m.swTo = some lf
      let log := lf + l.st.code * 2 + b2n active * 16 + line * 2 ^ 16 + 2 ^ 31
      let s := setW s (reg .mill site 0x160) (BitVec.ofNat 32 log)
      raiseErr (bump32 s (reg .mill site 0x164) 1) .mill site 8

def execImemWrite (site : Site) (lf : LeafNo) (line : Fin 512) (data : Line) (s : State) : Res :=
  done (imemWrite s site lf line data)

/-! ### CONTEXT_SWITCH (R79, R80, R82, R317) -/

/-- Whether a RESIDENT leaf may start: its context is whole, its slice and partition act. -/
def mayStart (s : State) (site lf : Nat) : Bool :=
  let l := getLeaf s site lf
  match l.st, l.ctx with
  | .resident, some c =>
    (getSlice s l.slice).st = .active && (getPart s l.part).st = .active && (getCtx s c).freezeWhy < 4
      && (match siteMill s site with | some n => (mfind s.sched.reclaims n).isNone | none => false)
  | _, _ => false

/-- Enter split mode (R82, R317): both leaves hold RESIDENT contexts of SPLIT modules, and the partition allows it. -/
def maySplit (s : State) (site : Nat) : Bool :=
  let m := getMill s site
  let ok (l : Leaf) : Bool := match l.st, l.ctx with
    | .resident, some c => bitAt (ctxModule s (getCtx s c)).flags 2
    | _, _ => false
  ok m.leaf0 && ok m.leaf1 && getF s (reg .sch (1 + m.leaf0.part) 0x10) 0 1 = 1 && hasCap s 0x40

/-- Put a mill into split mode. -/
def enterSplit (s : State) (site : Nat) : State :=
  let m := getMill s site
  setMill s site { m with
    split := true
    leaf0 := { m.leaf0 with bnd := { m.leaf0.bnd with stones := 0x3 } }
    leaf1 := { m.leaf1 with bnd := { m.leaf1.bnd with stones := 0xC } } }

/-- The outgoing leaf of a switch reaches its context boundary (R79): it becomes RESIDENT. None while it has not. -/
def outgoing (s : State) (site lf : Nat) : Option State :=
  let l := getLeaf s site lf
  if l.st ≠ .running then some s
  else match l.ctx with
    | some c =>
      let x := getCtx s c
      if x.freezing ∧ x.freezeWhy = 1 ∧ x.holds then some (stopLeaf (dropHoppers s site lf) site lf .resident) else none
    | none => none

/-- A switch to, or a start of, a RESIDENT leaf (R79). `split` when the scheduler takes the boundary to enter split mode. -/
def ctxSwitch (s : State) (site lf : Nat) (split : Bool) : State :=
  if !rowRuns s site then wakeRow s (site / 16)
  else if !mayStart s site lf then s
  else
    let s0 := if (getMill s site).split then some s else outgoing s site (1 - lf)
    match s0 with
    | none => s
    | some s =>
      let s := leaveSplit s site
      let go := split && maySplit s site
      let s := if go then enterSplit s site else s
      let s := if (getMill s site).split then s else dropHoppers s site lf
      let s := startLeaf s site lf
      let s := if go ∧ mayStart s site (1 - lf) then startLeaf s site (1 - lf) else s
      let m := getMill s site
      let s := setMill s site { m with runLeaf := if m.split then m.runLeaf else lf, swTo := none }
      raiseInt s .mill site 3

def execContextSwitch (site : Site) (lf : LeafNo) (split : Bool) (s : State) : Res := done (ctxSwitch s site lf split)

/-! ### QUANTUM_EXPIRY and BLOCKED_SWAP (R315, R316) -/

/-- Whether a context may be swapped out by a decision (R315): not of a RADIO module, and no freeze is under way. -/
def mayEvict (s : State) (c : Ctx) : Bool := !bitAt (ctxModule s c).flags 0 && !c.freezing && !c.killed

/-- Reserve save units for a context and its grid launch, and request their freeze (R309, R315). -/
def evict (s : State) (cid : Nat) : Option State :=
  ((groupOf s cid).foldl (fun (o : Option State) c => o.bind (fun s => reserveUnits s c)) (some s)).map (fun s => freezeGroup s cid 2)

/-- Whether a grid launch of the partition waits, all saved, for this one's leaves. -/
def gridWaits (s : State) (p : Nat) : Bool :=
  s.sched.launches.any (fun e => e.2.part = p && e.2.grid ≠ 0
    && (mkeys (fun _ c => c.launch = e.1) s.sched.ctxs).any (fun c => ctxRunnable s (getCtx s c)))

/-- A quantum expires (R315): the chosen context replaces the current one, or the mill switches to the other RESIDENT leaf, or
the quantum restarts. -/
def quantumEnd (s : State) (site lf : Nat) : State :=
  match runningAt s site lf with
  | none => s
  | some (cid, c) =>
    let grid := (getLaunch s c.launch).grid ≠ 0
    let late := (getW s (reg .sch (1 + c.part) 0x100)).toNat * 1000 ≤ nowNs s - c.placedAt
    if !late ∨ c.freezing ∨ (grid ∧ c.inst ≠ 0) then s
    else
      let restart := setCtx s cid { c with placedAt := nowNs s }
      let pick := chooseFor s site lf true
      match (if mayEvict s c ∧ (pick.isSome ∨ (grid ∧ gridWaits s c.part)) then evict s cid else none) with
      | some s => setLeaf s site lf { getLeaf s site lf with want := pick }
      | none =>
        if !(getMill s site).split ∧ !grid ∧ mayStart s site (1 - lf) then
          let s := freezeCtx s cid 1
          setMill s site { getMill s site with swTo := some (1 - lf) }
        else restart

def execQuantumExpiry (site : Site) (lf : LeafNo) (s : State) : Res := done (quantumEnd s site lf)

/-- The blocked context that a blocked swap takes out (R316): blocked the longest, then the lower share, then the lower slice,
then leaf 0. -/
def blockedPick (s : State) (site : Nat) : Option Nat :=
  leastBy (fun lf =>
    match (getLeaf s site lf).ctx with
    | some cid =>
      let c := getCtx s cid
      let since := if (getLeaf s site lf).st = .running then c.lastMove else nowNs s - c.lastMove
      [since, (getSlice s c.slice).share, c.slice, lf]
    | none => [])
    ([0, 1].filter (fun lf =>
      match (getLeaf s site lf).ctx with
      | some cid => mayEvict s { getCtx s cid with freezing := false } && (chooseFor s site lf true).isSome
          && (getLaunch s (getCtx s cid).launch).grid = 0
      | none => false))

/-- Whether a decision placed a context in an EMPTY leaf of a site. -/
def placedIn (s t : State) (site : Nat) : Bool := [0, 1].any (fun lf => (getLeaf s site lf).st = .empty && (getLeaf t site lf).st ≠ .empty)

/-- A blocked swap (R316): every resident context of the mill is blocked, or it has none, and a saved one may run there: in an EMPTY
leaf if one takes it (R308), else in the place of a blocked context. -/
def blockedSwap (s : State) (site : Nat) : State :=
  let res := [0, 1].filter (fun lf => (getLeaf s site lf).st = .running || (getLeaf s site lf).st = .resident)
  let blocked (lf : Nat) : Bool := match (getLeaf s site lf).ctx with
    | some c => ctxBlocked s (getCtx s c)
    | none => false
  let t := decideLeaf (decideLeaf s site 0 none) site 1 none
  if !res.all blocked then s
  else if placedIn s t site then t
  else match blockedPick s site with
    | none => s
    | some lf =>
      match (getLeaf s site lf).ctx with
      | none => s
      | some cid =>
        match evict s cid with
        | none => s
        | some s' => setLeaf s' site lf { getLeaf s' site lf with want := chooseFor s site lf true }

def execBlockedSwap (site : Site) (s : State) : Res := done (blockedSwap s site)

/-! ### FREEZE_COMPLETE, FREEZE_TIMEOUT, SAVE_DONE -/

/-- Whether a context in a leaf has completed its freeze. -/
def freezeReady (s : State) (cid : Nat) : Bool :=
  let c := getCtx s cid
  match c.place with
  | .saved => true
  | .leaf site lf =>
    let st := (getLeaf s site lf).st
    st = .frozen || (c.freezing && 1 < c.freezeWhy && c.holds && (st = .running || st = .resident))

/-- A context becomes FROZEN. -/
def freezeLeaf (s : State) (cid : Nat) : State :=
  match (getCtx s cid).place with
  | .saved => s
  | .leaf site lf => if (getLeaf s site lf).st = .frozen then s else stopLeaf s site lf .frozen

/-- Every engine of a context, and of its grid launch, holds: they become FROZEN together (R188, R259). -/
def freezeDone (s : State) (site lf : Nat) : State :=
  match ctxAt s site lf with
  | none => s
  | some (cid, c) =>
    if (getLeaf s site lf).st = .frozen ∨ !freezeReady s cid ∨ !((groupOf s cid).all (freezeReady s)) then s
    else settlePart ((groupOf s cid).foldl freezeLeaf s) c.part

def execFreezeComplete (site : Site) (lf : LeafNo) (s : State) : Res := done (freezeDone s site lf)

/-- A freeze for migration, pause, swap or sparing that takes longer than FREEZE_LIMIT faults its context; the limit does not
apply on a lent mill (R328, R551). -/
def freezeLate (s : State) (site lf : Nat) : State :=
  match ctxAt s site lf with
  | none => s
  | some (cid, c) =>
    let lent := match siteMill s site with | some n => isLent s n | none => false
    let limit := (getW s (reg .sch (1 + c.part) 0x104)).toNat * 1000
    if c.freezing ∧ 1 < c.freezeWhy ∧ !c.holds ∧ !lent ∧ limit < nowNs s - c.freezeFrom
        ∧ (getLeaf s site lf).st = .running then
      let (e, i) := slowEng c Eng.quiet (c.miller.held || c.miller.ended)
      ctxFault s cid cfFreezeTimeout (physEng (ctxModule s c) lf e) i
    else s

def execFreezeTimeout (site : Site) (lf : LeafNo) (s : State) : Res := done (freezeLate s site lf)

/-- Save the members of a group, and decide for the leaves they leave. -/
def saveAll : List Nat → State → Option State
  | [], s => some s
  | c :: r, s =>
    match (getCtx s c).place with
    | .saved => saveAll r s
    | .leaf _ _ =>
      match saveCtx s c with
      | some s => saveAll r s
      | none => none

/-- The live sets of a FROZEN context and of its grid launch are in the save area, their leaves are EMPTY, and the scheduler
decides for them (R308, R315, R319). Contexts frozen for migration or sparing stay where they are. -/
def saveDone (s : State) (site lf : Nat) : State :=
  match ctxAt s site lf with
  | none => s
  | some (cid, c) =>
    let want := (getLeaf s site lf).want
    let grp := groupOf s cid
    if (getLeaf s site lf).st ≠ .frozen ∨ !(2 ≤ c.freezeWhy ∧ c.freezeWhy ≤ 3) ∨ !grp.all (freezeReady s) then s
    else match saveAll grp s with
      | none => s
      | some s => kickPart (decideLeaf (settlePart s c.part) site lf want) c.part

def execSaveDone (site : Site) (lf : LeafNo) (s : State) : Res := done (saveDone s site lf)

/-! ### TEARDOWN_DRAIN_DONE (R320) -/

/-- The drain of a torn-down context ends: its leaf is EMPTY, its cells are reported, what it held is released, and its fault
completion entry is written (R179, R309, R320, R370, R406). -/
def drainDone (s : State) (cid : Nat) : State :=
  match mfind s.sched.drains cid with
  | none => s
  | some d =>
    let here := match (getCtx s cid).place with
      | .leaf site lf => if (getLeaf s site lf).ctx = some cid then some (site, lf) else none
      | .saved => none
    let s := match here with
      | some (site, lf) => clearLeaf s site lf
      | none => s
    let s := { s with sched := { s.sched with drains := mdel s.sched.drains cid } }
    let s := orphanCells s cid (some d.since)
    let s := releaseCtx s cid
    let tag := (getLaunch s d.launch).tag
    let s := complete s d.slice ⟨tag, 2, 2, d.code, d.inst, d.eng, d.step, 0⟩
    let s := launchLeft s d.launch
    let s := settlePart s d.part
    match here with
    | some (site, lf) => lendAll (decideLeaf s site lf none)
    | none => s

def execTeardownDrainDone (ctx : Nat) (s : State) : Res := done (drainDone s ctx)

end Sys2Proof.Machine
end

