-- ==== Sys2Proof/Machine/Meanings.lean ====
section
/-! DEFINITION. Every family of meanings, for the dispatch. -/
end

