-- ==== Sys2Proof/Machine/Dispatch.lean ====
section
/-! DEFINITION. The one dispatch from commands to their meanings: each arm one direct call. -/
namespace Sys2Proof.Machine

/-- The command's effect on everything but the queue. -/
def exec (i : Instr) (s : State) : Host.Outcome State Fault Refusal :=
  match i with
  | .registerWrite a sz v => Sys2Proof.Machine.execRegisterWrite a sz v s
  | .rcRead a sz => Sys2Proof.Machine.execRcRead a sz s
  | .lowHalfRead a => Sys2Proof.Machine.execLowHalfRead a s
  | .highHalfRead a => Sys2Proof.Machine.execHighHalfRead a s
  | .lowHalfWrite a v => Sys2Proof.Machine.execLowHalfWrite a v s
  | .highHalfWrite a v => Sys2Proof.Machine.execHighHalfWrite a v s
  | .unmappedAccess a wr => Sys2Proof.Machine.execUnmappedAccess a wr s
  | .intSetWrite a v => Sys2Proof.Machine.execIntSetWrite a v s
  | .lockWrite a v => Sys2Proof.Machine.execLockWrite a v s
  | .loopBegin site lf e => Sys2Proof.Machine.execLoopBegin site lf e s
  | .loopEnd site lf e => Sys2Proof.Machine.execLoopEnd site lf e s
  | .markCheap site lf e => Sys2Proof.Machine.execMarkCheap site lf e s
  | .syncWait site lf e => Sys2Proof.Machine.execSyncWait site lf e s
  | .syncSignal site lf e => Sys2Proof.Machine.execSyncSignal site lf e s
  | .syncTake site lf e ans => Sys2Proof.Machine.execSyncTake site lf e ans s
  | .hoistLoad site lf => Sys2Proof.Machine.execHoistLoad site lf s
  | .hoistGather site lf => Sys2Proof.Machine.execHoistGather site lf s
  | .hoistStore site lf => Sys2Proof.Machine.execHoistStore site lf s
  | .hoistScatter site lf => Sys2Proof.Machine.execHoistScatter site lf s
  | .hoistTransfer site lf e env => Sys2Proof.Machine.execHoistTransfer site lf e env s
  | .hoistStepDone site lf e => Sys2Proof.Machine.execHoistStepDone site lf e s
  | .memberDetach site lf => Sys2Proof.Machine.execMemberDetach site lf s
  | .stoneMma site lf e => Sys2Proof.Machine.execStoneMma site lf e s
  | .gangAcquire site lf e => Sys2Proof.Machine.execGangAcquire site lf e s
  | .hopperResume site lf e => Sys2Proof.Machine.execHopperResume site lf e s
  | .mmaLanded site lf e => Sys2Proof.Machine.execMmaLanded site lf e s
  | .spoutStore site lf e => Sys2Proof.Machine.execSpoutStore site lf e s
  | .storeComplete site lf e => Sys2Proof.Machine.execStoreComplete site lf e s
  | .granaryAtomic site lf e => Sys2Proof.Machine.execGranaryAtomic site lf e s
  | .spoutDigest site lf e => Sys2Proof.Machine.execSpoutDigest site lf e s
  | .spoutStatus site lf e => Sys2Proof.Machine.execSpoutStatus site lf e s
  | .flumeAdd site lf => Sys2Proof.Machine.execFlumeAdd site lf s
  | .flumeSub site lf => Sys2Proof.Machine.execFlumeSub site lf s
  | .flumeMul site lf => Sys2Proof.Machine.execFlumeMul site lf s
  | .flumeFma site lf => Sys2Proof.Machine.execFlumeFma site lf s
  | .flumeTapm site lf => Sys2Proof.Machine.execFlumeTapm site lf s
  | .flumeConv site lf => Sys2Proof.Machine.execFlumeConv site lf s
  | .flumeCensus site lf => Sys2Proof.Machine.execFlumeCensus site lf s
  | .flumeDemap site lf => Sys2Proof.Machine.execFlumeDemap site lf s
  | .flumeExp2 site lf => Sys2Proof.Machine.execFlumeExp2 site lf s
  | .flumeRecip site lf => Sys2Proof.Machine.execFlumeRecip site lf s
  | .flumeSum site lf => Sys2Proof.Machine.execFlumeSum site lf s
  | .flumeMax site lf => Sys2Proof.Machine.execFlumeMax site lf s
  | .flumeTld site lf => Sys2Proof.Machine.execFlumeTld site lf s
  | .flumeTadd site lf => Sys2Proof.Machine.execFlumeTadd site lf s
  | .flumeNeg site lf => Sys2Proof.Machine.execFlumeNeg site lf s
  | .flumeResult site lf => Sys2Proof.Machine.execFlumeResult site lf s
  | .aluAdd site lf => Sys2Proof.Machine.execAluAdd site lf s
  | .aluSub site lf => Sys2Proof.Machine.execAluSub site lf s
  | .aluAnd site lf => Sys2Proof.Machine.execAluAnd site lf s
  | .aluOr site lf => Sys2Proof.Machine.execAluOr site lf s
  | .aluXor site lf => Sys2Proof.Machine.execAluXor site lf s
  | .aluShl site lf => Sys2Proof.Machine.execAluShl site lf s
  | .aluShr site lf => Sys2Proof.Machine.execAluShr site lf s
  | .aluSra site lf => Sys2Proof.Machine.execAluSra site lf s
  | .aluMul site lf => Sys2Proof.Machine.execAluMul site lf s
  | .aluMulhu site lf => Sys2Proof.Machine.execAluMulhu site lf s
  | .aluSlt site lf => Sys2Proof.Machine.execAluSlt site lf s
  | .aluSltu site lf => Sys2Proof.Machine.execAluSltu site lf s
  | .aluMinu site lf => Sys2Proof.Machine.execAluMinu site lf s
  | .aluMaxu site lf => Sys2Proof.Machine.execAluMaxu site lf s
  | .ldw site lf => Sys2Proof.Machine.execLdw site lf s
  | .stw site lf => Sys2Proof.Machine.execStw site lf s
  | .ldb site lf => Sys2Proof.Machine.execLdb site lf s
  | .stb site lf => Sys2Proof.Machine.execStb site lf s
  | .whb site lf => Sys2Proof.Machine.execWhb site lf s
  | .bf site lf => Sys2Proof.Machine.execBf site lf s
  | .mloop site lf => Sys2Proof.Machine.execMloop site lf s
  | .brLoop site lf => Sys2Proof.Machine.execBrLoop site lf s
  | .wlc site lf => Sys2Proof.Machine.execWlc site lf s
  | .wofs site lf => Sys2Proof.Machine.execWofs site lf s
  | .seqRun site lf => Sys2Proof.Machine.execSeqRun site lf s
  | .segmentStart site lf e => Sys2Proof.Machine.execSegmentStart site lf e s
  | .qpop site lf => Sys2Proof.Machine.execQpop site lf s
  | .qpush site lf => Sys2Proof.Machine.execQpush site lf s
  | .queueResume site lf e => Sys2Proof.Machine.execQueueResume site lf e s
  | .millerSyncWait site lf => Sys2Proof.Machine.execMillerSyncWait site lf s
  | .millerSyncSignal site lf => Sys2Proof.Machine.execMillerSyncSignal site lf s
  | .millerSyncTake site lf ans => Sys2Proof.Machine.execMillerSyncTake site lf ans s
  | .millerMarkCheap site lf => Sys2Proof.Machine.execMillerMarkCheap site lf s
  | .millerEnd site lf => Sys2Proof.Machine.execMillerEnd site lf s
  | .waitSatisfied site lf e => Sys2Proof.Machine.execWaitSatisfied site lf e s
  | .contextEnd site lf => Sys2Proof.Machine.execContextEnd site lf s
  | .stallWatchdog site lf => Sys2Proof.Machine.execStallWatchdog site lf s
  | .imemWrite site lf line data => Sys2Proof.Machine.execImemWrite site lf line data s
  | .contextSwitch site lf split => Sys2Proof.Machine.execContextSwitch site lf split s
  | .quantumExpiry site lf => Sys2Proof.Machine.execQuantumExpiry site lf s
  | .blockedSwap site => Sys2Proof.Machine.execBlockedSwap site s
  | .freezeComplete site lf => Sys2Proof.Machine.execFreezeComplete site lf s
  | .freezeTimeout site lf => Sys2Proof.Machine.execFreezeTimeout site lf s
  | .saveDone site lf => Sys2Proof.Machine.execSaveDone site lf s
  | .teardownDrainDone ctx => Sys2Proof.Machine.execTeardownDrainDone ctx s
  | .sliceCreate p n => Sys2Proof.Machine.execSliceCreate p n s
  | .sliceTeardown p n => Sys2Proof.Machine.execSliceTeardown p n s
  | .sliceTeardownDone n => Sys2Proof.Machine.execSliceTeardownDone n s
  | .setShare p n => Sys2Proof.Machine.execSetShare p n s
  | .slicePause p n => Sys2Proof.Machine.execSlicePause p n s
  | .sliceResume p n => Sys2Proof.Machine.execSliceResume p n s
  | .lend p n => Sys2Proof.Machine.execLend p n s
  | .reclaim p n => Sys2Proof.Machine.execReclaim p n s
  | .reclaimDone n => Sys2Proof.Machine.execReclaimDone n s
  | .partCreate req => Sys2Proof.Machine.execPartCreate req s
  | .partResize req => Sys2Proof.Machine.execPartResize req s
  | .resizeApply p => Sys2Proof.Machine.execResizeApply p s
  | .partTeardown req => Sys2Proof.Machine.execPartTeardown req s
  | .partitionTeardownDone p => Sys2Proof.Machine.execPartitionTeardownDone p s
  | .freeze req => Sys2Proof.Machine.execFreeze req s
  | .exportImage req => Sys2Proof.Machine.execExportImage req s
  | .importImage req image => Sys2Proof.Machine.execImportImage req image s
  | .partResume req => Sys2Proof.Machine.execPartResume req s
  | .mbxLaunch req => Sys2Proof.Machine.execMbxLaunch req s
  | .mailboxDone => Sys2Proof.Machine.execMailboxDone s
  | .loadComplete load mod arg rep => Sys2Proof.Machine.execLoadComplete load mod arg rep s
  | .objValueWrite v => Sys2Proof.Machine.execObjValueWrite v s
  | .remotePoll site lf e v => Sys2Proof.Machine.execRemotePoll site lf e v s
  | .inboundAddSignal win n v => Sys2Proof.Machine.execInboundAddSignal win n v s
  | .inboundSetSignal win n v => Sys2Proof.Machine.execInboundSetSignal win n v s
  | .inboundTake win n inc => Sys2Proof.Machine.execInboundTake win n inc s
  | .inboundValueRead win n => Sys2Proof.Machine.execInboundValueRead win n s
  | .inboundRead win off n upset => Sys2Proof.Machine.execInboundRead win off n upset s
  | .inboundWrite win off data upset => Sys2Proof.Machine.execInboundWrite win off data upset s
  | .inboundAtomic win off op wide v cmp upset => Sys2Proof.Machine.execInboundAtomic win off op wide v cmp upset s
  | .linkCrcError q => Sys2Proof.Machine.execLinkCrcError q s
  | .linkDown q ctxs => Sys2Proof.Machine.execLinkDown q ctxs s
  | .ownSet sig => Sys2Proof.Machine.execOwnSet sig s
  | .ownSetZero sig => Sys2Proof.Machine.execOwnSetZero sig s
  | .ownBump sig => Sys2Proof.Machine.execOwnBump sig s
  | .ownCommandDone => Sys2Proof.Machine.execOwnCommandDone s
  | .gddr7Retry d => Sys2Proof.Machine.execGddr7Retry d s
  | .scrubRead x => Sys2Proof.Machine.execScrubRead x s
  | .floorWindow p n => Sys2Proof.Machine.execFloorWindow p n s
  | .eccModeWrite v => Sys2Proof.Machine.execEccModeWrite v s
  | .hostMemRead ln upset => Sys2Proof.Machine.execHostMemRead ln upset s
  | .hostMemWrite ln mask data upset => Sys2Proof.Machine.execHostMemWrite ln mask data upset s
  | .sqTail n v => Sys2Proof.Machine.execSqTail n v s
  | .cqHead n v => Sys2Proof.Machine.execCqHead n v s
  | .entryFetch n env => Sys2Proof.Machine.execEntryFetch n env s
  | .kick n => Sys2Proof.Machine.execKick n s
  | .watchSatisfied n => Sys2Proof.Machine.execWatchSatisfied n s
  | .launch n => Sys2Proof.Machine.execLaunch n s
  | .lease n => Sys2Proof.Machine.execLease n s
  | .leaseRevoke v => Sys2Proof.Machine.execLeaseRevoke v s
  | .leaseLapse p waiting => Sys2Proof.Machine.execLeaseLapse p waiting s
  | .heldFaultDrop n => Sys2Proof.Machine.execHeldFaultDrop n s
  | .completionTimeout r => Sys2Proof.Machine.execCompletionTimeout r s
  | .lateCompletion => Sys2Proof.Machine.execLateCompletion s
  | .ringEnable => Sys2Proof.Machine.execRingEnable s
  | .ringDisable => Sys2Proof.Machine.execRingDisable s
  | .atsInvalidation pasid va log => Sys2Proof.Machine.execAtsInvalidation pasid va log s
  | .invalidationComplete => Sys2Proof.Machine.execInvalidationComplete s
  | .snpData ln => Sys2Proof.Machine.execSnpData ln s
  | .snpInv ln => Sys2Proof.Machine.execSnpInv ln s
  | .snpCur ln => Sys2Proof.Machine.execSnpCur ln s
  | .cxlLinkDown => Sys2Proof.Machine.execCxlLinkDown s
  | .slotWorkList n env tbs => Sys2Proof.Machine.execSlotWorkList n env tbs s
  | .configureCell n env => Sys2Proof.Machine.execConfigureCell n env s
  | .removeCell n => Sys2Proof.Machine.execRemoveCell n s
  | .cellRemoveApply cell => Sys2Proof.Machine.execCellRemoveApply cell s
  | .listDeadline cell k => Sys2Proof.Machine.execListDeadline cell k s
  | .slotStatusWrite cell k => Sys2Proof.Machine.execSlotStatusWrite cell k s
  | .dlLatch cell k sym upset => Sys2Proof.Machine.execDlLatch cell k sym upset s
  | .cplaneRelease cell k k1 => Sys2Proof.Machine.execCplaneRelease cell k k1 s
  | .ulWindowClose cell k sym => Sys2Proof.Machine.execUlWindowClose cell k sym s
  | .frameReceive port bytes good => Sys2Proof.Machine.execFrameReceive port bytes good s
  | .esmcTxLen port n => Sys2Proof.Machine.execEsmcTxLen port n s
  | .esmcRxPop port => Sys2Proof.Machine.execEsmcRxPop port s
  | .modeWrite p m => Sys2Proof.Machine.execModeWrite p m s
  | .laneMapWrite p v => Sys2Proof.Machine.execLaneMapWrite p v s
  | .linkUp p => Sys2Proof.Machine.execLinkUp p s
  | .lossOfSignal l => Sys2Proof.Machine.execLossOfSignal l s
  | .synceTxSrcWrite src => Sys2Proof.Machine.execSynceTxSrcWrite src s
  | .txStart p => Sys2Proof.Machine.execTxStart p s
  | .frameSent p => Sys2Proof.Machine.execFrameSent p s
  | .lateDrop q => Sys2Proof.Machine.execLateDrop q s
  | .queueEnable v => Sys2Proof.Machine.execQueueEnable v s
  | .steerEnable v => Sys2Proof.Machine.execSteerEnable v s
  | .depthSample => Sys2Proof.Machine.execDepthSample s
  | .bolterRingEnable k1 r => Sys2Proof.Machine.execBolterRingEnable k1 r s
  | .bolterRingDisable k1 r => Sys2Proof.Machine.execBolterRingDisable k1 r s
  | .descriptorFetch k1 r upset => Sys2Proof.Machine.execDescriptorFetch k1 r upset s
  | .unitStart b => Sys2Proof.Machine.execUnitStart b s
  | .unitDone b upset => Sys2Proof.Machine.execUnitDone b upset s
  | .descriptorComplete k1 r => Sys2Proof.Machine.execDescriptorComplete k1 r s
  | .bolterParity b => Sys2Proof.Machine.execBolterParity b s
  | .stepNs v => Sys2Proof.Machine.execStepNs v s
  | .compatAdj v => Sys2Proof.Machine.execCompatAdj v s
  | .compatEnWrite on => Sys2Proof.Machine.execCompatEnWrite on s
  | .servoSwitch d => Sys2Proof.Machine.execServoSwitch d s
  | .servoUpdate d inp => Sys2Proof.Machine.execServoUpdate d inp s
  | .servoHoldover d => Sys2Proof.Machine.execServoHoldover d s
  | .slewDone => Sys2Proof.Machine.execSlewDone s
  | .refLost => Sys2Proof.Machine.execRefLost s
  | .tickerEnable v => Sys2Proof.Machine.execTickerEnable v s
  | .tickerEvent t => Sys2Proof.Machine.execTickerEvent t s
  | .ppsInEdge d => Sys2Proof.Machine.execPpsInEdge d s
  | .todRxByte b => Sys2Proof.Machine.execTodRxByte b s
  | .todRxPop => Sys2Proof.Machine.execTodRxPop s
  | .tsPop => Sys2Proof.Machine.execTsPop s
  | .timeNowRead wide => Sys2Proof.Machine.execTimeNowRead wide s
  | .timeSecRead wide => Sys2Proof.Machine.execTimeSecRead wide s
  | .rowWakeTimer r => Sys2Proof.Machine.execRowWakeTimer r s
  | .capWrite v => Sys2Proof.Machine.execCapWrite v s
  | .powerWindow p pc => Sys2Proof.Machine.execPowerWindow p pc s
  | .dvfsStep => Sys2Proof.Machine.execDvfsStep s
  | .softStartRelease site stone => Sys2Proof.Machine.execSoftStartRelease site stone s
  | .dipStart r => Sys2Proof.Machine.execDipStart r s
  | .dipEnd r mv => Sys2Proof.Machine.execDipEnd r mv s
  | .dipHoldExpiry => Sys2Proof.Machine.execDipHoldExpiry s
  | .rampStep => Sys2Proof.Machine.execRampStep s
  | .thermalSample temps => Sys2Proof.Machine.execThermalSample temps s
  | .thermalTrip sensor t => Sys2Proof.Machine.execThermalTrip sensor t s
  | .evPop v => Sys2Proof.Machine.execEvPop v s
  | .rowPark r => Sys2Proof.Machine.execRowPark r s
  | .rowOff r => Sys2Proof.Machine.execRowOff r s
  | .rowWake r => Sys2Proof.Machine.execRowWake r s
  | .rowRunning r => Sys2Proof.Machine.execRowRunning r s
  | .clockLoss c => Sys2Proof.Machine.execClockLoss c s
  | .railFault r => Sys2Proof.Machine.execRailFault r s
  | .rstCtrlGo v => Sys2Proof.Machine.execRstCtrlGo v s
  | .perstNAssert => Sys2Proof.Machine.execPerstNAssert s
  | .cxlReset => Sys2Proof.Machine.execCxlReset s
  | .rowUndervolt r => Sys2Proof.Machine.execRowUndervolt r s
  | .d3hotEntry => Sys2Proof.Machine.execD3hotEntry s
  | .d0Return => Sys2Proof.Machine.execD0Return s
  | .aoPowerOn => Sys2Proof.Machine.execAoPowerOn s
  | .pwrgdRise => Sys2Proof.Machine.execPwrgdRise s
  | .pwrgdFall => Sys2Proof.Machine.execPwrgdFall s
  | .stepComplete step d => Sys2Proof.Machine.execStepComplete step d s
  | .stepLimit step marks => Sys2Proof.Machine.execStepLimit step marks s
  | .memoClr v => Sys2Proof.Machine.execMemoClr v s
  | .svnCommit v => Sys2Proof.Machine.execSvnCommit v s
  | .spareSite => Sys2Proof.Machine.execSpareSite s
  | .spareCopyDone lost failed15 => Sys2Proof.Machine.execSpareCopyDone lost failed15 s
  | .spareSiteTimeout => Sys2Proof.Machine.execSpareSiteTimeout s
  | .repMark => Sys2Proof.Machine.execRepMark s
  | .tablePick => Sys2Proof.Machine.execTablePick s
  | .ageMonitor slack ce => Sys2Proof.Machine.execAgeMonitor slack ce s
  | .recPop v => Sys2Proof.Machine.execRecPop v s
  | .keyErase v => Sys2Proof.Machine.execKeyErase v s
  | .openGate token => Sys2Proof.Machine.execOpenGate token s
  | .closeGate => Sys2Proof.Machine.execCloseGate s
  | .migrOffer => Sys2Proof.Machine.execMigrOffer s
  | .migrAccept blob chain => Sys2Proof.Machine.execMigrAccept blob chain s
  | .migrComplete ct src => Sys2Proof.Machine.execMigrComplete ct src s
  | .exportKeys p => Sys2Proof.Machine.execExportKeys p s
  | .importKeys p blob => Sys2Proof.Machine.execImportKeys p blob s
  | .migrClear => Sys2Proof.Machine.execMigrClear s
  | .getVersion t => Sys2Proof.Machine.execGetVersion t s
  | .getCapabilities t => Sys2Proof.Machine.execGetCapabilities t s
  | .negotiateAlgorithms t => Sys2Proof.Machine.execNegotiateAlgorithms t s
  | .getDigests t => Sys2Proof.Machine.execGetDigests t s
  | .getCertificate t slot off len => Sys2Proof.Machine.execGetCertificate t slot off len s
  | .challenge t slot nonce => Sys2Proof.Machine.execChallenge t slot nonce s
  | .getMeasurements t idx nonce => Sys2Proof.Machine.execGetMeasurements t idx nonce s
  | .keyExchange t ek => Sys2Proof.Machine.execKeyExchange t ek s
  | .finish t sess => Sys2Proof.Machine.execFinish t sess s
  | .keyUpdate t sess => Sys2Proof.Machine.execKeyUpdate t sess s
  | .heartbeat t sess => Sys2Proof.Machine.execHeartbeat t sess s
  | .endSession t sess => Sys2Proof.Machine.execEndSession t sess s
  | .ideKm t sess stream key => Sys2Proof.Machine.execIdeKm t sess stream key s
  | .setTargetKey t sess slot p key => Sys2Proof.Machine.execSetTargetKey t sess slot p key s
  | .lockTargetConfiguration t sess => Sys2Proof.Machine.execLockTargetConfiguration t sess s
  | .getTargetCapabilities t sess => Sys2Proof.Machine.execGetTargetCapabilities t sess s
  | .getTargetConfigurationReport t sess => Sys2Proof.Machine.execGetTargetConfigurationReport t sess s
  | .ideFail stream => Sys2Proof.Machine.execIdeFail stream s
  | .digEnable v => Sys2Proof.Machine.execDigEnable v s
  | .digestPublish n upset => Sys2Proof.Machine.execDigestPublish n upset s
  | .compareReadReturn n k1 data => Sys2Proof.Machine.execCompareReadReturn n k1 data s
  | .compareRetry n k1 => Sys2Proof.Machine.execCompareRetry n k1 s
  | .digWaitExpiry n k1 => Sys2Proof.Machine.execDigWaitExpiry n k1 s
  | .i3cBRead off => Sys2Proof.Machine.execI3cBRead off s
  | .i3cAHaltRead => Sys2Proof.Machine.execI3cAHaltRead s
  | .perstNDeassert => Sys2Proof.Machine.execPerstNDeassert s
  | .railRecovery => Sys2Proof.Machine.execRailRecovery s
  | .signalReturn l => Sys2Proof.Machine.execSignalReturn l s
  | .cxlLinkUp => Sys2Proof.Machine.execCxlLinkUp s
  | .portDown p => Sys2Proof.Machine.execPortDown p s
  | .slotBoundary p => Sys2Proof.Machine.execSlotBoundary p s
  | .stepError step marks => Sys2Proof.Machine.execStepError step marks s
  | .globalObservationResponse n ats => Sys2Proof.Machine.execGlobalObservationResponse n ats s
  | .workshopStopsResponding => Sys2Proof.Machine.execWorkshopStopsResponding s
  | .ppsPulseEnd n => Sys2Proof.Machine.execPpsPulseEnd n s
  | .ptpMessageSend port event bytes => Sys2Proof.Machine.execPtpMessageSend port event bytes s

end Sys2Proof.Machine
end

