-- ==== Sys2Proof/Safety.lean ====
section
/-! DEFINITION. What stays true of the block (domains and rows as their conditions ask, maps in canonical form), and how statements say
what a command leaves alone. -/
namespace Sys2Proof.Machine

/-- The governor without its rows and clock domains: those follow every command (R403, R502). -/
def Gov.core (g : Gov) : Gov := { g with rows := [], doms := [] }

/-- The part of the state that the end of a command leaves alone. -/
def State.core (s : State) : State := { s with gov := s.gov.core }

/-- The components of the state, besides the queue and the governor's rows and clock domains. -/
inductive Comp where
  | fresh | bus | mills | sync | sched | mem | grn | hif | ftl | cells | rep | gov | net | bol | card | boot | sec
deriving DecidableEq, Repr

/-- Two states agree in a component. -/
def Comp.same (s t : State) : Comp → Prop
  | .fresh => t.freshNo = s.freshNo
  | .bus => t.bus = s.bus
  | .mills => t.mills = s.mills
  | .sync => t.sync = s.sync
  | .sched => t.sched = s.sched
  | .mem => t.mem = s.mem
  | .grn => t.grn = s.grn
  | .hif => t.hif = s.hif
  | .ftl => t.ftl = s.ftl
  | .cells => t.cells = s.cells
  | .rep => t.rep = s.rep
  | .gov => t.gov.core = s.gov.core
  | .net => t.net = s.net
  | .bol => t.bol = s.bol
  | .card => t.card = s.card
  | .boot => t.boot = s.boot
  | .sec => t.sec = s.sec

/-- `t` agrees with `s` outside the components of `l`; the queue is the same. -/
def OnlyIn (l : List Comp) (s t : State) : Prop := t.pending = s.pending ∧ ∀ c, c ∉ l → c.same s t

/-- Every stored register word outside `l` is the same, and so are the latches, the holds and the MSI-X table. -/
def WordsOnly (l : List Nat) (s t : State) : Prop :=
  (∀ a, a ∉ l → getW t a = getW s a) ∧ t.bus.latch = s.bus.latch ∧ t.bus.hold = s.bus.hold ∧ t.bus.msix = s.bus.msix
    ∧ t.bus.funcMask = s.bus.funcMask

/-- Of the scheduler's data only the context numbered `c` changes. -/
def CtxOnly (c : Nat) (s t : State) : Prop :=
  t.sched = { s.sched with ctxs := t.sched.ctxs } ∧ ∀ k, k ≠ c → mfind t.sched.ctxs k = mfind s.sched.ctxs k

/-- Every clock domain other than a row's stands in the state that its condition asks (R502, R503). -/
def DomainsFollow (s : State) : Prop := ∀ d ∈ plainDoms, (getDom s d).st = domWant s d

/-- While the device is up, a row that holds a mill of a radio-class partition is not OFF, and it runs at OPP0 (R403, R494). -/
def RadioRowsUp (s : State) : Prop :=
  deviceUp s = true → ∀ r < 16, radioRow s r = true → (getRow s r).st ≠ RowSt.off ∧ (getRow s r).opp = 0

/-- What every step leaves behind. -/
def Settled (s : State) : Prop := DomainsFollow s ∧ RadioRowsUp s

/-- Every stored register word differs from its reset value, and keys rise. -/
def WordsCanonical (s : State) : Prop := mwf resetKey s.bus.words = true

end Sys2Proof.Machine
end

