-- ==== Sys2Proof/WellFormed.lean ====
section
/-! DEFINITION. Commands that the world outside the block can send: operands whose Lean type admits more than the spec does. No command is
refused for being ill-formed; a statement may take `Instr.wf` as a premise. -/
namespace Sys2Proof

/-- A mailbox request: what the workshop reads at `MBX_ADDR` (R299, R373): the 256 bytes of a descriptor, or an import's PASIDs. -/
def requestWf (l : List Byte) : Bool := 256 ≤ l.length && l.length ≤ 64 + 4 * 8192

/-- Bit errors that appear in stored lines: addresses of data memory (R335), patterns over the 68 stored bytes of a line (R339). -/
def upsetWf (l : List (Nat × Nat)) : Bool := l.all (fun p => p.1 < 144955146240 && p.2 < 2 ^ 544)

/-- An Ethernet frame without its FCS: from its addresses and type to 9,216 bytes (R427, R438). -/
def frameWf (l : List Byte) : Bool := 14 ≤ l.length && l.length ≤ 9216

/-- An answer of ATS (R374): a page of 4 KiB or more, aligned. -/
def atsWf (l : List (Option AtsAns)) : Bool :=
  l.all (fun x => match x with | some t => 12 ≤ t.log && t.log < 64 && t.hpa % 2 ^ t.log = 0 && t.hpa < 2 ^ 64 | none => true)

/-- What the world answers a transfer. -/
def envWf (e : XferEnv) : Bool := atsWf e.ats && upsetWf e.upset

/-- The nonce of an SPDM request (R572). -/
def nonceWf (l : List Byte) : Bool := l.length = 32

/-- Whether a command can reach the block. -/
def Instr.wf : Instr → Bool
  | .hoistTransfer _ _ _ env => envWf env
  | .partCreate req => requestWf req
  | .partResize req => requestWf req
  | .partTeardown req => requestWf req
  | .freeze req => requestWf req
  | .exportImage req => requestWf req
  | .importImage req _ => requestWf req
  | .partResume req => requestWf req
  | .mbxLaunch req => requestWf req
  | .loadComplete _ mod arg rep => envWf mod && envWf arg && atsWf rep
  | .inboundRead _ _ _ upset => upsetWf upset
  | .inboundWrite _ _ data upset => 0 < data.length && data.length ≤ 4096 && upsetWf upset
  | .inboundAtomic _ _ _ _ _ _ upset => upsetWf upset
  | .entryFetch _ env => envWf env
  | .slotWorkList _ env tbs => envWf env && tbs.all envWf
  | .configureCell _ env => envWf env
  | .dlLatch _ _ _ upset => upsetWf upset
  | .frameReceive _ bytes _ => frameWf bytes
  | .ptpMessageSend _ _ bytes => frameWf bytes
  | .descriptorFetch _ _ upset => upsetWf upset
  | .unitDone _ upset => upsetWf upset
  | .thermalSample temps => temps.length = 64
  | .ageMonitor slack _ => slack.length = 256
  | .challenge _ _ nonce => nonceWf nonce
  | .getMeasurements _ _ nonce => nonceWf nonce
  | .digestPublish _ upset => upsetWf upset
  | .globalObservationResponse _ ats => atsWf ats
  | _ => true

end Sys2Proof
end

