-- ==== Sys2Proof/Certificates/Slice0/Obligations.lean ====
section
/-! DEFINITION. The statements about the block, for the provers. Each names in its docstring the rules it rests on; `OnlyIn` and `WordsOnly`
(Safety.lean) say what a command leaves alone. -/

open Sys2Proof Sys2Proof.Machine



/-- An access of an unassigned BAR0 offset reads 0 or is discarded, sets ROOT.ERR_STAT.UNMAPPED and records the offset (spec/02_register_pages.md R33). -/
def Obligations.UnassignedOffsetsReadZeroAndAreRecorded : Prop :=
  ∀ (s : State) (a : BitVec 26), pageAt a.toNat = none → inMsix a.toNat = false →
    (∀ wr : Bool, ∃ t, exec (.unmappedAccess a wr) s = .next t
      ∧ getW t (reg .root 0 0x114) = a.setWidth 32
      ∧ getW t (reg .root 0 0x18) = getW s (reg .root 0 0x18) ||| 0x10
      ∧ (wr = false → t.bus.reply = 0)
      ∧ OnlyIn [.bus] s t ∧ WordsOnly [reg .root 0 0x114, reg .root 0 0x18, reg .root 0 0x20] s t)
    ∧ (a.toNat % 4 = 0 → exec (.rcRead (.bar0 a) .w32) s = exec (.unmappedAccess a false) s
      ∧ ∀ v : DWord, exec (.registerWrite (.bar0 a) .w32 v) s = exec (.unmappedAccess a true) s)

/-- In every page INT_SET sets causes, INT_STAT clears them, INT_EN takes what is written, and LOCK only ever sets (spec/02_register_pages.md R38, spec/02_register_pages.md R40, spec/02_register_pages.md R41, spec/02_register_pages.md R44).
Where the spec is open it shows the model's choice: log 36. -/
def Obligations.InterruptAndLockRegistersOfEveryPage : Prop :=
  ∀ (s : State) (a : BitVec 26) (b : Block) (i : Nat), pageAt a.toNat = some (b, i) →
    (a.toNat % 0x1000 = 0x28 → ∀ v : Word, ∃ t, exec (.intSetWrite a v) s = .next t
      ∧ getW t (reg b i 0x20) = getW s (reg b i 0x20) ||| v
      ∧ ((getW s (reg b i 0x20) ||| v) &&& getW s (reg b i 0x24) ≠ 0 →
          if msixMasked s (getF s (reg b i 0x30) 0 11) then mget false t.bus.pba (getF s (reg b i 0x30) 0 11) = true
          else t.bus.sent.map Msg.vec = s.bus.sent.map Msg.vec ++ [getF s (reg b i 0x30) 0 11])
      ∧ OnlyIn [.bus] s t ∧ WordsOnly [reg b i 0x20] s t)
    ∧ (a.toNat % 0x1000 = 0x2C → ∀ v : Word, ∃ t, exec (.lockWrite a v) s = .next t
      ∧ getW t (reg b i 0x2C) = getW s (reg b i 0x2C) ||| (v &&& 1)
      ∧ OnlyIn [.bus] s t ∧ WordsOnly [reg b i 0x2C] s t)
    ∧ (a.toNat % 0x1000 = 0x20 → ∀ v : Word, ∃ t, exec (.registerWrite (.bar0 a) .w32 (v.setWidth 64)) s = .next t
      ∧ getW t (reg b i 0x20) = getW s (reg b i 0x20) &&& ~~~v
      ∧ OnlyIn [.bus] s t ∧ WordsOnly [reg b i 0x20] s t)
    ∧ (a.toNat % 0x1000 = 0x24 → ∀ v : Word, ∃ t, exec (.registerWrite (.bar0 a) .w32 (v.setWidth 64)) s = .next t
      ∧ getW t (reg b i 0x24) = v
      ∧ OnlyIn [.bus] s t ∧ WordsOnly [reg b i 0x24] s t)

/-- A register write stores each RW field, keeps RO and RC fields, and refuses reserved encodings and pages not ready (spec/00_scope.md R11, spec/02_register_pages.md R37, spec/02_register_pages.md R38).
Where the spec is open it shows the model's choice: logs 8, 9, 95. -/
def Obligations.WritesFollowTheAccessCodesOfTheFields : Prop :=
  ∀ (s : State) (a : BitVec 26) (v : DWord), a.toNat % 4 = 0 → 0x100 ≤ a.toNat % 0x1000 →
    (∀ h : RegHit, regOf a.toNat = some h → h.row.wide = false → h.row.sel = none → pageReady s h.blk h.page = true →
      (h.blk = .gov ∧ (h.page = 1 ∨ h.page = 2 ∨ 5 ≤ h.page) ∨ h.blk = .syn ∧ 2 ≤ h.page ∨ h.blk = .rep ∧ h.page = 3 ∨
        h.blk = .ftl ∧ h.page = 3 ∨ h.blk = .own ∧ h.page = 2 ∨ h.blk = .grn ∨ h.blk = .noc ∨ h.blk = .mill) →
      ∃ t, exec (.registerWrite (.bar0 a) .w32 v) s = .next t
        ∧ (∀ f ∈ h.row.flds, f.acc = .rw → f.takes (bitsAt v.toNat f.lo f.len) = true →
            getF t a.toNat f.lo f.len = bitsAt v.toNat f.lo f.len)
        ∧ (∀ f ∈ h.row.flds, f.acc = .rw → f.takes (bitsAt v.toNat f.lo f.len) = false →
            getF t a.toNat f.lo f.len = getF s a.toNat f.lo f.len ∧ getF t (reg h.blk h.page 0x18) 0 1 = 1)
        ∧ (∀ f ∈ h.row.flds, f.acc = .ro ∨ f.acc = .rc → getF t a.toNat f.lo f.len = getF s a.toNat f.lo f.len)
        ∧ OnlyIn [.bus] s t ∧ WordsOnly [a.toNat, reg h.blk h.page 0x18, reg h.blk h.page 0x20] s t)
    ∧ (∀ (b : Block) (i : Nat), pageAt a.toNat = some (b, i) → pageReady s b i = false →
      ∃ t, exec (.registerWrite (.bar0 a) .w32 v) s = .next t
        ∧ getW t (reg b i 0x18) = getW s (reg b i 0x18) ||| 8
        ∧ OnlyIn [.bus] s t ∧ WordsOnly [reg b i 0x18, reg b i 0x20] s t
        ∧ ∃ u, exec (.rcRead (.bar0 a) .w32) s = .next u ∧ u.bus = { t.bus with reply := 0 } ∧ OnlyIn [.bus] s u)

/-- A read of a 32-bit RC counter answers its value and clears it; the halves of a 64-bit register use its latch and its hold (spec/02_register_pages.md R34, spec/02_register_pages.md R35, spec/02_register_pages.md R38).
Where the spec is open it shows the model's choice: logs 95, 96. -/
def Obligations.RcCountersClearAndWideHalvesLatchAndHold : Prop :=
  (∀ (s : State) (e : Block × Nat × Nat),
    e ∈ [(.sec, 1, 0x108), (.gov, 1, 0x10C), (.gov, 3, 0x11C), (.gov, 5, 0x18C), (.ftl, 6, 0x118), (.eth, 3, 0x134),
      (.hif, 0, 0x104), (.hif, 6, 0x208), (.hif, 7, 0x180), (.mem, 1, 0x108), (.own, 3, 0x100), (.syn, 0, 0x114),
      (.bol, 2, 0x238), (.grn, 9, 0x138), (.noc, 1, 0x120), (.mill, 17, 0x164), (.rep, 1, 0x12C)] →
    pageReady s e.1 e.2.1 = true →
    (∃ t, exec (.rcRead (.bar0 (BitVec.ofNat 26 (reg e.1 e.2.1 e.2.2))) .w32) s = .next t
      ∧ t.bus.reply = (getW s (reg e.1 e.2.1 e.2.2)).setWidth 64
      ∧ getW t (reg e.1 e.2.1 e.2.2) = 0
      ∧ OnlyIn [.bus] s t ∧ WordsOnly [reg e.1 e.2.1 e.2.2] s t)
    ∧ (∃ t, exec (.rcRead (.bar0 (BitVec.ofNat 26 (reg e.1 e.2.1 e.2.2))) .other) s = .next t
      ∧ t.bus.reply = 0 ∧ getW t (reg e.1 e.2.1 0x18) = getW s (reg e.1 e.2.1 0x18) ||| 4
      ∧ OnlyIn [.bus] s t ∧ WordsOnly [reg e.1 e.2.1 0x18, reg e.1 e.2.1 0x20] s t))
  ∧ (∀ (s : State) (a : BitVec 26) (h : RegHit), wideAt a.toNat = some h → a.toNat % 8 = 0 → answers s h.blk h.page a.toNat = true →
    (∃ t, exec (.lowHalfRead a) s = .next t
      ∧ t.bus.reply.toNat = regVal s h a.toNat % 2 ^ 32
      ∧ mfind t.bus.latch a.toNat = some (BitVec.ofNat 32 (regVal s h a.toNat / 2 ^ 32))
      ∧ (∀ k : Nat, k ≠ a.toNat → mfind t.bus.latch k = mfind s.bus.latch k) ∧ t.bus.hold = s.bus.hold ∧ OnlyIn [.bus, .ftl] s t)
    ∧ (∀ w : Word, mfind s.bus.latch a.toNat = some w → ∃ t, exec (.highHalfRead (a + 4)) s = .next t
      ∧ t.bus = { s.bus with reply := w.setWidth 64, latch := t.bus.latch } ∧ mfind t.bus.latch a.toNat = none
      ∧ (∀ k : Nat, k ≠ a.toNat → mfind t.bus.latch k = mfind s.bus.latch k) ∧ OnlyIn [.bus] s t)
    ∧ (mfind s.bus.latch a.toNat = none → ∃ t, exec (.highHalfRead (a + 4)) s = .next t
      ∧ t.bus = { s.bus with reply := t.bus.reply } ∧ t.bus.reply.toNat = regVal s h a.toNat / 2 ^ 32 ∧ OnlyIn [.bus] s t)
    ∧ (∀ v : Word, ∃ t, exec (.lowHalfWrite a v) s = .next t
      ∧ t.bus = { s.bus with hold := t.bus.hold } ∧ mfind t.bus.hold a.toNat = some v
      ∧ (∀ k : Nat, k ≠ a.toNat → mfind t.bus.hold k = mfind s.bus.hold k) ∧ OnlyIn [.bus] s t)
    ∧ (∀ v : Word, exec (.highHalfWrite (a + 4) v) s = .next (settle
        (match mfind s.bus.hold a.toNat with
        | some w => regWrite { s with bus := { s.bus with hold := mdel s.bus.hold a.toNat } } h a.toNat (v.toNat * 2 ^ 32 + w.toNat)
        | none => regWrite s h a.toNat (v.toNat * 2 ^ 32 + regVal s h a.toNat % 2 ^ 32)))))

/-- PEND_BLOCK bit n is 1 exactly while some page of block type n has its output at 1 (spec/02_register_pages.md R47). -/
def Obligations.PendBlockShowsEveryBlockWithAnOutput : Prop :=
  ∀ s : State, pageReady s .root 0 = true →
    ∃ t, exec (.rcRead (.bar0 (BitVec.ofNat 26 (reg .root 0 0x110))) .w32) s = .next t
      ∧ (∀ n : Nat, bitAt t.bus.reply.toNat n = true ↔ ∃ (b : Block) (i : Nat), b.code = n ∧ i < b.pages ∧ pageOut s b i = true)
      ∧ t.bus = { s.bus with reply := t.bus.reply } ∧ OnlyIn [.bus] s t

/-- A loop is entered with its latched count, skipped at 0 and refused above its maximum; its end repeats or leaves it; segments start (spec/03_mill_core.md R56, spec/03_mill_core.md R57, spec/03_mill_core.md R58, spec/06_motik_programs.md R167). -/
def Obligations.SequencersRunLoopsAndSegments : Prop :=
  (∀ (s : State) (site : Site) (lf : LeafNo) (e : EngNo) (cid g : Nat) (c : Ctx) (r : List Nat),
      runningAt s site lf = some (cid, c) → (c.eng e).cur = none → (c.eng e).pend = g :: r → (c.eng e).held = false →
      c.miller.wait ≠ some (.seqFull e) →
      ∃ t, exec (.segmentStart site lf e) s = .next t
        ∧ getCtx t cid = { c.setEng e { c.eng e with cur := some g, next := segStart ((ctxModule s c).table e) g, pend := r, loops := [] }
            with lastMove := nowNs s }
        ∧ CtxOnly cid s t ∧ OnlyIn [.sched] s t)
  ∧ (∀ (s : State) (site : Site) (lf : LeafNo) (e : EngNo) (i : Issue), issueAt s site lf e [1] = some i →
      (∀ n : Nat, countOf i.c.miller (recW i.rcd 2) = some (n + 1) → ∃ t, exec (.loopBegin site lf e) s = .next t
        ∧ getCtx t i.cid = { i.c.setEng e { i.eng with loops := i.eng.loops ++ [⟨n + 1, 0, i.idx + 1⟩], next := i.idx + 1 }
            with lastMove := nowNs s }
        ∧ CtxOnly i.cid s t ∧ OnlyIn [.sched] s t)
      ∧ (∀ (j : Nat) (r : Rec), countOf i.c.miller (recW i.rcd 2) = some 0 → j = matchEnd (i.m.table e) (i.m.table e).length (i.idx + 1) 0 →
        (i.m.table e)[j]? = some r → ∃ t, exec (.loopBegin site lf e) s = .next t
        ∧ getCtx t i.cid = { i.c.setEng e (i.eng.past r j) with lastMove := nowNs s }
        ∧ CtxOnly i.cid s t ∧ OnlyIn [.sched] s t)
      ∧ (countOf i.c.miller (recW i.rcd 2) = none →
        exec (.loopBegin site lf e) s = .next (settle (ctxFault s i.cid 0x01 (physEng i.m lf e) i.idx))))
  ∧ (∀ (s : State) (site : Site) (lf : LeafNo) (e : EngNo) (i : Issue) (l : LoopLv), issueAt s site lf e [2] = some i →
      i.eng.loops.getLast? = some l →
      (l.done + 1 < l.count → ∃ t, exec (.loopEnd site lf e) s = .next t
        ∧ getCtx t i.cid = { i.c.setEng e { i.eng with loops := i.eng.loops.dropLast ++ [{ l with done := l.done + 1 }], next := l.first }
            with lastMove := nowNs s }
        ∧ CtxOnly i.cid s t ∧ OnlyIn [.sched] s t)
      ∧ (l.count ≤ l.done + 1 → ∃ t, exec (.loopEnd site lf e) s = .next t
        ∧ getCtx t i.cid = { i.c.setEng e { i.adv with loops := i.eng.loops.dropLast } with lastMove := nowNs s }
        ∧ CtxOnly i.cid s t ∧ OnlyIn [.sched] s t))

/-- MARK_CHEAP and SYNC_WAIT go on, wait or, with a freeze pending, hold their engine at the cut they name (spec/06_motik_programs.md R188, spec/07_motik_operations.md R202, spec/10_sync_objects.md R282, spec/10_sync_objects.md R284). -/
def Obligations.CutAndWaitRecordsHoldUnderAFreeze : Prop :=
  ∀ (s : State) (site : Site) (lf : LeafNo) (e : EngNo) (i : Issue),
    (issueAt s site lf e [3] = some i →
      (i.c.freezing = false → ∃ t, exec (.markCheap site lf e) s = .next t
        ∧ getCtx t i.cid = { i.c.setEng e i.adv with lastMove := nowNs s } ∧ CtxOnly i.cid s t ∧ OnlyIn [.sched] s t)
      ∧ (i.c.freezing = true → ∃ t, exec (.markCheap site lf e) s = .next t
        ∧ getCtx t i.cid = { i.c.setEng e { i.adv with held := true, cut := some (recCheap i.rcd) } with lastMove := nowNs s }
        ∧ CtxOnly i.cid s t ∧ OnlyIn [.sched] s t))
    ∧ (issueAt s site lf e [4] = some i → ∀ (v n : Nat) (b : Bool), countOf i.c.miller (recW i.rcd 3) = some v →
      mfind i.c.syncs (syncLocal i.rcd) = some (.obj n) →
      b = waitCond (getObj s n) (syncMode i.rcd) (BitVec.ofNat 32 v) →
      (i.c.freezing = false → b = true → ∃ t, exec (.syncWait site lf e) s = .next t
        ∧ getCtx t i.cid = { i.c.setEng e i.adv with lastMove := nowNs s } ∧ CtxOnly i.cid s t ∧ OnlyIn [.sched] s t)
      ∧ (i.c.freezing = false → b = false → ∃ t, exec (.syncWait site lf e) s = .next t
        ∧ getCtx t i.cid = { i.c.setEng e { i.eng with wait := some (.sync (syncLocal i.rcd) (syncMode i.rcd) (BitVec.ofNat 32 v) false) }
            with lastMove := nowNs s }
        ∧ CtxOnly i.cid s t ∧ OnlyIn [.sched] s t)
      ∧ (i.c.freezing = true → ∃ t, exec (.syncWait site lf e) s = .next t
        ∧ getCtx t i.cid = { i.c.setEng e
            { i.eng with held := true, cut := some (recCheap i.rcd), wait := some (.sync (syncLocal i.rcd) (syncMode i.rcd) (BitVec.ofNat 32 v) b) }
              with lastMove := nowNs s }
        ∧ CtxOnly i.cid s t ∧ OnlyIn [.sched] s t))

/-- An engine's signal adds to, ors into or sets its object by type; a take gives the old value of a WORK object to queue QO (spec/10_sync_objects.md R281, spec/10_sync_objects.md R283, spec/10_sync_objects.md R284, spec/07_motik_operations.md R204).
Where the spec is open it shows the model's choice: logs 30, 34. -/
def Obligations.EngineSignalsAndTakesActOnTheirObject : Prop :=
  ∀ (s : State) (site : Site) (lf : LeafNo) (e : EngNo) (i : Issue) (v n : Nat),
    countOf i.c.miller (recW i.rcd 3) = some v → mfind i.c.syncs (syncLocal i.rcd) = some (.obj n) →
    (issueAt s site lf e [5] = some i →
      ((getObj s n).typ = .counter ∨ (getObj s n).typ = .flag ∨
        (getObj s n).typ = .barrier ∧ syncMode i.rcd ≠ 1 ∧ (getObj s n).param ≠ 0 ∨
        (getObj s n).typ = .work ∧ syncMode i.rcd ≠ 1 ∧ (getObj s n).value.toNat + v < 2 ^ 32) →
      ∃ t, exec (.syncSignal site lf e) s = .next t
        ∧ (getObj t n).value = (match (getObj s n).typ with
            | .counter => if syncMode i.rcd = 1 then BitVec.ofNat 32 v else (getObj s n).value + BitVec.ofNat 32 v
            | .flag => if syncMode i.rcd = 1 then BitVec.ofNat 32 v else (getObj s n).value ||| BitVec.ofNat 32 v
            | .barrier => (getObj s n).value + BitVec.ofNat 32 (((getObj s n).arrivals + v) / (getObj s n).param.toNat)
            | _ => (getObj s n).value + BitVec.ofNat 32 v)
        ∧ ((getObj s n).typ = .barrier → (getObj t n).arrivals = ((getObj s n).arrivals + v) % (getObj s n).param.toNat)
        ∧ (∀ m : Nat, m ≠ n → getObj t m = getObj s m)
        ∧ (getCtx t i.cid).eng e = i.adv ∧ OnlyIn [.sync, .sched, .hif, .cells] s t)
    ∧ (issueAt s site lf e [6] = some i → (getObj s n).typ = .work →
      (∀ ans : Word, v ≠ 0 → (getObj s n).value.toNat + v < 2 ^ 32 →
        (i.c.queue (recF i.rcd 1 16 5)).ents.length < i.m.depth (recF i.rcd 1 16 5) →
        ∃ t, exec (.syncTake site lf e ans) s = .next t
          ∧ getObj t n = { getObj s n with value := (getObj s n).value + BitVec.ofNat 32 v }
          ∧ (∀ m : Nat, m ≠ n → getObj t m = getObj s m)
          ∧ ((getCtx t i.cid).queue (recF i.rcd 1 16 5)).ents =
              (i.c.queue (recF i.rcd 1 16 5)).ents ++ [bytesLine (toLE 4 (getObj s n).value.toNat)]
          ∧ (getCtx t i.cid).eng e = i.adv
          ∧ getD64 t (reg .syn 0 0x118) = getD64 s (reg .syn 0 0x118) + 1
          ∧ OnlyIn [.sync, .sched, .hif, .bus] s t)
      ∧ (∀ ans : Word, v = 0 ∨ 2 ^ 32 ≤ (getObj s n).value.toNat + v →
        exec (.syncTake site lf e ans) s = .next (settle (ctxFault s i.cid 0x01 (physEng i.m lf e) i.idx))))

/-- The four hoist records issue one step with its base, run length and extents, and pass their continuation record (spec/03_mill_core.md R69, spec/07_motik_operations.md R198, spec/07_motik_operations.md R206, spec/07_motik_operations.md R207).
Where the spec is open it shows the model's choice: logs 16, 32. -/
def Obligations.HoistRecordsIssueTheirPattern : Prop :=
  ∀ (s : State) (site : Site) (lf : LeafNo) (i : Issue) (k : Rec) (op : Nat) (q : Instr),
    (op, q) ∈ [(0x040, .hoistLoad site lf), (0x041, .hoistGather site lf), (0x042, .hoistStore site lf), (0x043, .hoistScatter site lf)] →
    issueAt s site lf (if op < 0x042 then 1 else 2) [op] = some i → (i.m.table i.e)[i.idx + 1]? = some k →
    (∀ a b d : Nat, countOf i.c.miller (recW k 2) = some a → (op % 2 = 0 → countOf i.c.miller (recW k 3) = some b ∧
        countOf i.c.miller (recW k 4) = some d) → (op % 2 = 0 → recF i.rcd 2 17 2 = 0) →
      ∃ (t : State) (o : HoistOp), exec q s = .next t
        ∧ o.base = mget 0 (if op < 0x042 then i.c.hbIn else i.c.hbOut) (recF i.rcd 2 6 3)
        ∧ o.e0 = recF i.rcd 4 0 13 ∧ o.done = 0 ∧ o.total = (if op % 2 = 0 then a * b * d else a)
        ∧ o.onAddr = i.c.refAddr (recW i.rcd 3) ∧ o.inbound = decide (op < 0x042)
        ∧ o.offSp = recF i.rcd 2 (if op < 0x042 then 0 else 3) 3 ∧ o.onSp = recF i.rcd 2 (if op < 0x042 then 3 else 0) 3
        ∧ getCtx t i.cid = { i.c.setEng i.e { i.eng.past k (i.idx + 1) with op := some (.hoist o) } with lastMove := nowNs s }
        ∧ CtxOnly i.cid s t ∧ OnlyIn [.sched] s t)
    ∧ (countOf i.c.miller (recW k 2) = none →
      exec q s = .next (settle (ctxFault s i.cid 0x01 (physEng i.m lf i.e) i.idx)))

/-- A transfer puts the bytes read into data memory in order, or faults; a finished step post-modifies its base; a full member detaches (spec/03_mill_core.md R69, spec/03_mill_core.md R71, spec/03_mill_core.md R72, spec/07_motik_operations.md R208, spec/09_grid_and_granary.md R266).
Where the spec is open it shows the model's choice: logs 16, 24, 35. -/
def Obligations.HoistTransfersMoveTheirRun : Prop :=
  ∀ (s : State) (site : Site) (lf : LeafNo) (cid : Nat) (c : Ctx) (x : Eng) (o : HoistOp),
    (hoistAt s site lf 1 = some (cid, c, x, o) → o.inbound = true → o.onSp = 0 → o.mcast = 0 → o.buf = [] → o.done < o.total →
      x.wait = none → ∀ env : XferEnv, env.upset = [] →
      (∀ (a : Nat) (l : List Byte) (s1 : State), onChipOk s c o = true → xferAddr s c o o.done = some a →
        offRead s c o.offSp a o.e0 env = (.ok l, s1) →
        ∃ t, exec (.hoistTransfer site lf 1 env) s = .next t
          ∧ (getCtx t cid).eng 1 = { x with op := some (.hoist { o with done := o.done + 1 }), wait := none }
          ∧ (∀ (j : Nat) (h : j < l.length), mget 0 (getCtx t cid).dmem (o.onAddr + o.done * o.e0 + j) = l[j])
          ∧ (∀ b : Nat, b < o.onAddr + o.done * o.e0 ∨ o.onAddr + o.done * o.e0 + l.length ≤ b →
              mget 0 (getCtx t cid).dmem b = mget 0 (getCtx s1 cid).dmem b)
          ∧ CtxOnly cid s1 t ∧ OnlyIn [.bus, .sched] s1 t)
      ∧ (onChipOk s c o = false →
        exec (.hoistTransfer site lf 1 env) s = .next (settle (ctxFault s cid 0x03 (physEng (ctxModule s (getCtx s cid)) lf 1) o.step)))
      ∧ (∀ (a code : Nat) (s1 : State), onChipOk s c o = true → xferAddr s c o o.done = some a → code ≠ 0x11 →
        offRead s c o.offSp a o.e0 env = (.fault code, s1) →
        exec (.hoistTransfer site lf 1 env) s =
          .next (settle (ctxFault s1 cid code (physEng (ctxModule s1 (getCtx s1 cid)) lf 1) o.step))))
    ∧ (∀ e : EngNo, hoistAt s site lf e = some (cid, c, x, o) → o.total ≤ o.done → o.buf = [] → x.wait ≠ some .mcastRecv → o.mcast = 0 →
      ∃ t, exec (.hoistStepDone site lf e) s = .next t
        ∧ (getCtx t cid).eng e = { x with op := none, wait := none }
        ∧ (∀ p : Int, o.post = some p → mget 0 (if o.inbound then (getCtx t cid).hbIn else (getCtx t cid).hbOut) o.hb =
            BitVec.ofInt 64 ((mget 0 (if o.inbound then c.hbIn else c.hbOut) o.hb).toNat + p))
        ∧ (o.post = none → ∀ b : Nat, mget 0 (getCtx t cid).hbIn b = mget 0 c.hbIn b ∧ mget 0 (getCtx t cid).hbOut b = mget 0 c.hbOut b)
        ∧ CtxOnly cid s t ∧ OnlyIn [.sched] s t)
    ∧ (hoistAt s site lf 1 = some (cid, c, x, o) → o.mcast = 2 → o.detached = false → o.done < o.total → x.wait ≠ some .mcastRecv →
      hopperRoom s site o.stone o.part o.e0 = false →
      ∃ t, exec (.memberDetach site lf) s = .next t
        ∧ (getCtx t cid).eng 1 = { x with op := some (.hoist { o with detached := true }) }
        ∧ CtxOnly cid s t ∧ OnlyIn [.bus, .sched] s t)

/-- A stone operation that passes its checks takes every stone of its gang or waits for it; a failed check faults before any word changes (spec/05_stones_and_sparsity.md R130, spec/05_stones_and_sparsity.md R131, spec/07_motik_operations.md R213, spec/07_motik_operations.md R217).
Where the spec is open it shows the model's choice: logs 16, 22. -/
def Obligations.StoneOperationsTakeTheirWholeGang : Prop :=
  ∀ (s : State) (site : Site) (lf : LeafNo) (e : EngNo),
    (∀ (i : Issue) (m n k : Nat), issueAt s site lf e [0x080] = some i →
      dimOf i.c.miller (recF i.rcd 3 0 16) = some m → dimOf i.c.miller (recF i.rcd 3 16 16) = some n →
      countOf i.c.miller (recW i.rcd 4) = some k →
      (mmaFault s i.m i.c i.rcd m n k = none →
        (gangFree s site (gangStones (mGang i.rcd) (physEng i.m lf e - 3)) = true →
          ∃ (t : State) (o : MmaOp), exec (.stoneMma site lf e) s = .next t
            ∧ ((getCtx t i.cid).eng e).op = some (.mma o) ∧ o.held = true ∧ (o.m, o.n, o.k) = (m, n, k) ∧ o.rcd = i.rcd
            ∧ (getCtx t i.cid).tiles = i.c.tiles
            ∧ (∀ j ∈ gangStones (mGang i.rcd) (physEng i.m lf e - 3), (getStone t site j).heldBy = some ((lf : Nat), physEng i.m lf e))
            ∧ CtxOnly i.cid s t ∧ OnlyIn [.sched, .mills, .gov, .bus] s t)
        ∧ (gangFree s site (gangStones (mGang i.rcd) (physEng i.m lf e - 3)) = false →
          ∃ (t : State) (o : MmaOp), exec (.stoneMma site lf e) s = .next t
            ∧ getCtx t i.cid = { i.c.setEng e { i.adv with op := some (.mma o), wait := some .gang } with lastMove := nowNs s }
            ∧ o.held = false ∧ (o.m, o.n, o.k) = (m, n, k) ∧ o.rcd = i.rcd
            ∧ (∀ j : Nat, (getStone t site j).heldBy = (getStone s site j).heldBy)
            ∧ CtxOnly i.cid s t ∧ OnlyIn [.sched, .mills, .gov] s t))
      ∧ (∀ code : Nat, mmaFault s i.m i.c i.rcd m n k = some code →
        exec (.stoneMma site lf e) s = .next (settle (ctxFault s i.cid code (physEng i.m lf e) i.idx))))
    ∧ (∀ (cid : Nat) (c : Ctx) (x : Eng) (o : MmaOp), mmaAt s site lf e = some (cid, c, x, o) → x.wait = some .gang →
      gangFree s site o.stones = true →
      ∃ (t : State) (u : MmaOp), exec (.gangAcquire site lf e) s = .next t
        ∧ ((getCtx t cid).eng e).op = some (.mma u) ∧ u.held = true ∧ (u.m, u.n, u.k) = (o.m, o.n, o.k) ∧ u.rcd = o.rcd
        ∧ (getCtx t cid).tiles = c.tiles
        ∧ (∀ j ∈ o.stones, (getStone t site j).heldBy = some ((lf : Nat), o.eng))
        ∧ CtxOnly cid s t ∧ OnlyIn [.sched, .mills, .gov, .bus] s t)

/-- An operation takes the hopper bytes that came; once it has all its operands it lands in the tiles and frees its gang (spec/05_stones_and_sparsity.md R126, spec/05_stones_and_sparsity.md R130, spec/05_stones_and_sparsity.md R138, spec/05_stones_and_sparsity.md R159, spec/05_stones_and_sparsity.md R605).
Where the spec is open it shows the model's choice: logs 17, 22, 31. -/
def Obligations.StonesLandTheirProductsAndFreeTheirGang : Prop :=
  ∀ (s : State) (site : Site) (lf : LeafNo) (e : EngNo) (cid : Nat) (c : Ctx) (x : Eng) (o : MmaOp),
    mmaAt s site lf e = some (cid, c, x, o) → o.held = true →
    (x.wait = some .hopper → ∀ (st : Stone) (o1 : MmaOp), st = getStone s site (o.stones.getD 0 0) →
      o1 = { o with stat := o.stat ++ (if mFeedIn o.rcd then st.stat else []), strm := o.strm ++ (if mFeedW o.rcd then st.strm else []) } →
      (mFeedIn o.rcd = true ∧ st.stat ≠ [] ∨ mFeedW o.rcd = true ∧ st.strm ≠ []) →
      ((mmaFed (ctxModule s c) c o1).isNone → ∃ t, exec (.hopperResume site lf e) s = .next t
        ∧ getCtx t cid = { c.setEng e { x with op := some (.mma o1), wait := some .hopper } with lastMove := nowNs s }
        ∧ (mFeedIn o.rcd = true → (getStone t site (o.stones.getD 0 0)).stat = [])
        ∧ (mFeedW o.rcd = true → (getStone t site (o.stones.getD 0 0)).strm = [])
        ∧ CtxOnly cid s t ∧ OnlyIn [.sched, .mills, .bus] s t)
      ∧ ((mmaFed (ctxModule s c) c o1).isSome → ∃ (t : State) (u : MmaOp), exec (.hopperResume site lf e) s = .next t
        ∧ getCtx t cid = { c.setEng e { x with op := some (.mma u), wait := none } with lastMove := nowNs s }
        ∧ u.stat <+: o1.stat ∧ u.strm <+: o1.strm ∧ u.rcd = o.rcd
        ∧ CtxOnly cid s t ∧ OnlyIn [.sched, .mills, .bus] s t))
    ∧ (x.wait = none → (∀ k ∈ o.stones, softHeld s site k = false) →
      ∀ (fs : List Fed) (a b : List Byte), mmaFed (ctxModule s c) c o = some (fs, a, b) →
      ∃ t, exec (.mmaLanded site lf e) s = .next t
        ∧ (getCtx t cid).tiles = (landAll (ctxModule s c) c o.rcd o.m o.n o.k fs).tiles
        ∧ (getCtx t cid).eng e = { x with op := none }
        ∧ (∀ k < 4, (getStone s site k).heldBy = some ((lf : Nat), o.eng) → (getStone t site k).heldBy = none)
        ∧ (∀ k < 4, (getStone s site k).heldBy ≠ some ((lf : Nat), o.eng) → getStone t site k = getStone s site k)
        ∧ (∀ k : Nat, k ≠ cid → getCtx t k = getCtx s k) ∧ OnlyIn [.sched, .mills, .bus] s t)

/-- A spout store queues behind earlier ones, folds its digest and saturations, writes its rows, then makes its granary updates one by one (spec/03_mill_core.md R55, spec/05_stones_and_sparsity.md R154, spec/05_stones_and_sparsity.md R155, spec/05_stones_and_sparsity.md R156, spec/05_stones_and_sparsity.md R157, spec/07_motik_operations.md R218, spec/07_motik_operations.md R219).
Where the spec is open it shows the model's choice: logs 17, 23. -/
def Obligations.SpoutStoresWriteRowsThenGranaryUpdates : Prop :=
  ∀ (s : State) (site : Site) (lf : LeafNo) (e : EngNo),
    (∀ (i : Issue) (g : Region), issueAt s site lf e [0x0C0] = some i → regionOf i = some g →
      (storeFault s i g = none → oToQueue i.rcd = false →
        ∃ (t : State) (o : StoreOp), exec (.spoutStore site lf e) s = .next t
          ∧ (getCtx t i.cid).eng e = { i.adv with op := some (.store o) }
          ∧ o.ents = [] ∧ (g.n = 0 → o.rows = []) ∧ (g.n ≠ 0 → o.rows.length = g.m)
          ∧ (∀ (j : Nat) (p : Nat × List Byte), o.rows[j]? = some p →
              p = (i.c.refAddr (recW i.rcd 4) + j * roundUp (g.rowBytes (oFmt i.rcd)) 16,
                packElems (fmtBits (oFmt i.rcd)) (rowOut s i.c i.rcd g j).1))
          ∧ (getMill t site).spout = (getMill s site).spout ++ [((lf : Nat), physEng i.m lf e)]
          ∧ getD64 t (reg .mill site 0x1B0) = getD64 s (reg .mill site 0x1B0) + BitVec.ofNat 64 (g.m * g.n * (if g.cplx then 2 else 1))
          ∧ (getCtx t i.cid).dmem = i.c.dmem ∧ (getCtx t i.cid).tiles = i.c.tiles
          ∧ CtxOnly i.cid s t ∧ OnlyIn [.sched, .mills, .bus] s t)
      ∧ (∀ code : Nat, storeFault s i g = some code →
        exec (.spoutStore site lf e) s = .next (settle (ctxFault s i.cid code (physEng i.m lf e) i.idx))))
    ∧ (∀ (cid : Nat) (c : Ctx) (x : Eng) (o : StoreOp), storeAt s site lf e = some (cid, c, x, o) → o.ents = [] →
      (∀ rest : List (Nat × Nat), (getMill s site).spout = ((lf : Nat), physEng (ctxModule s c) lf e) :: rest →
        ∃ t, exec (.storeComplete site lf e) s = .next t
          ∧ (getCtx t cid).dmem = o.rows.foldl (fun m p => writeMap m p.1 p.2) c.dmem
          ∧ (getCtx t cid).eng e = { x with op := if o.atoms = [] then none else some (.store { o with rows := [] }) }
          ∧ (getMill t site).spout = rest ∧ CtxOnly cid s t ∧ OnlyIn [.sched, .mills] s t)
      ∧ (∀ (a : Atom) (rest : List Atom), o.rows = [] → o.atoms = a :: rest →
        (∀ (l : List Byte) (s1 : State), devAtomic s c.part a = (.ok l, s1) →
          ∃ t, exec (.granaryAtomic site lf e) s = .next t
            ∧ (getCtx t cid).eng e = { x with op := if rest = [] then none else some (.store { o with atoms := rest }) }
            ∧ CtxOnly cid s1 t ∧ OnlyIn [.sched] s1 t)
        ∧ (∀ s1 : State, devAtomic s c.part a = (.denied, s1) →
          exec (.granaryAtomic site lf e) s = .next (settle (ctxFault s1 cid 0x10 (physEng (ctxModule s1 c) lf e) o.step)))))

/-- spout.digest hands the digest register with its tensor, layer and instance to the HIF; spout.status pushes the saturation count (spec/05_stones_and_sparsity.md R156, spec/07_motik_operations.md R220, spec/07_motik_operations.md R221, spec/22_determinism.md R536).
Where the spec is open it shows the model's choice: log 114. -/
def Obligations.SpoutHandsOverDigestsAndStatus : Prop :=
  ∀ (s : State) (site : Site) (lf : LeafNo) (e : EngNo) (i : Issue),
    (issueAt s site lf e [0x0C1] = some i → ∀ d : DigestDecl, i.m.digests.find? (fun y => y.id = recF i.rcd 1 24 4) = some d →
      ∃ t, exec (.spoutDigest site lf e) s = .next t
        ∧ t.hif = { s.hif with digQ := s.hif.digQ ++
            [⟨i.c.part, i.c.slice, mget 0 i.c.digests (recF i.rcd 1 24 4), d.tensor, d.layer, i.c.inst, recF i.rcd 1 24 4⟩] }
        ∧ mget 0 (getCtx t i.cid).digests (recF i.rcd 1 24 4) =
            (if bitAt d.flags 0 then 0 else mget 0 i.c.digests (recF i.rcd 1 24 4))
        ∧ (getCtx t i.cid).eng e = i.adv ∧ CtxOnly i.cid s t ∧ OnlyIn [.sched, .hif] s t)
    ∧ (issueAt s site lf e [0x0C2] = some i →
      (i.c.queue (recF i.rcd 1 16 5)).ents.length < i.m.depth (recF i.rcd 1 16 5) →
      ∃ t, exec (.spoutStatus site lf e) s = .next t
        ∧ ((getCtx t i.cid).queue (recF i.rcd 1 16 5)).ents =
            (i.c.queue (recF i.rcd 1 16 5)).ents ++ [bytesLine (toLE 4 i.c.satCnt.toNat)]
        ∧ (getCtx t i.cid).satCnt = (if recB i.rcd 2 0 then 0 else i.c.satCnt)
        ∧ (getCtx t i.cid).eng e = i.adv ∧ CtxOnly i.cid s t ∧ OnlyIn [.sched] s t)

/-- Each of the fifteen flume records issues with its length and what its operand queues hold, or faults before anything changes (spec/03_mill_core.md R63, spec/07_motik_operations.md R222, spec/07_motik_operations.md R223, spec/07_motik_operations.md R224, spec/07_motik_operations.md R225).
Where the spec is open it shows the model's choice: logs 17, 37, 38. -/
def Obligations.FlumeRecordsIssueWithTheirQueueOperands : Prop :=
  ∀ (s : State) (site : Site) (lf : LeafNo) (i : Issue) (n k : Nat) (q : Instr),
    (k, q) ∈ [(0, .flumeAdd site lf), (1, .flumeSub site lf), (2, .flumeMul site lf), (3, .flumeFma site lf), (4, .flumeTapm site lf),
      (5, .flumeConv site lf), (6, .flumeCensus site lf), (7, .flumeDemap site lf), (8, .flumeExp2 site lf), (9, .flumeRecip site lf),
      (10, .flumeSum site lf), (11, .flumeMax site lf), (12, .flumeTld site lf), (13, .flumeTadd site lf), (14, .flumeNeg site lf)] →
    issueAt s site lf 7 [0x100 + k] = some i →
    (countOf i.c.miller (recW i.rcd 3) = some n → flumeFault s i n = none →
      ∃ (t : State) (o : FlumeOp), exec q s = .next t
        ∧ ((getCtx t i.cid).eng 7).op = some (.flume o) ∧ o.rcd = i.rcd ∧ o.len = n ∧ o.out = none
        ∧ o.gotA.length ≤ o.needA ∧ o.gotB.length ≤ o.needB
        ∧ (((getCtx t i.cid).eng 7).wait = none ↔ o.gotA.length = o.needA ∧ o.gotB.length = o.needB)
        ∧ (recQA i.rcd = none → recQB i.rcd = none → o.needA = 0 ∧ o.needB = 0 ∧
            getCtx t i.cid = { i.c.setEng 7 { i.adv with op := some (.flume o) } with lastMove := nowNs s })
        ∧ (getCtx t i.cid).dmem = i.c.dmem ∧ (getCtx t i.cid).tiles = i.c.tiles ∧ (getCtx t i.cid).miller = i.c.miller
        ∧ CtxOnly i.cid s t ∧ OnlyIn [.sched] s t)
    ∧ (∀ code : Nat, countOf i.c.miller (recW i.rcd 3) = some n → flumeFault s i n = some code →
      exec q s = .next (settle (ctxFault s i.cid code (physEng i.m lf 7) i.idx)))
    ∧ (countOf i.c.miller (recW i.rcd 3) = none → exec q s = .next (settle (ctxFault s i.cid 0x01 (physEng i.m lf 7) i.idx)))

/-- A flume operation with all its operands writes its packed results to data memory or to queue QO and frees the engine (spec/04_arithmetic.md R96, spec/07_motik_operations.md R222, spec/07_motik_operations.md R223, spec/07_motik_operations.md R224, spec/07_motik_operations.md R226, spec/07_motik_operations.md R602).
Where the spec is open it shows the model's choice: logs 17, 37, 38. -/
def Obligations.FlumeResultsAreWrittenWhole : Prop :=
  ∀ (s : State) (site : Site) (lf : LeafNo) (cid : Nat) (c : Ctx) (o : FlumeOp),
    runningAt s site lf = some (cid, c) → (c.eng 7).op = some (.flume o) → (c.eng 7).wait = none → o.out = none →
    (fOp o.rcd ∈ [4, 6, 12, 13] → ∃ t, exec (.flumeResult site lf) s = .next t
        ∧ (getCtx t cid).dmem = (flumeRun (ctxModule s c) c o).1.dmem ∧ (getCtx t cid).tiles = (flumeRun (ctxModule s c) c o).1.tiles
        ∧ (getCtx t cid).eng 7 = { c.eng 7 with op := none } ∧ CtxOnly cid s t ∧ OnlyIn [.sched] s t)
    ∧ (fOp o.rcd ∉ [4, 6, 12, 13] → recQO o.rcd = none → ∃ t, exec (.flumeResult site lf) s = .next t
        ∧ (getCtx t cid).dmem = writeMap c.dmem (c.refAddr (recW o.rcd 6)) (flumeBytes c o)
        ∧ (getCtx t cid).eng 7 = { c.eng 7 with op := none }
        ∧ (getCtx t cid).tiles = c.tiles ∧ CtxOnly cid s t ∧ OnlyIn [.sched] s t)
    ∧ (∀ q : Nat, fOp o.rcd ∉ [4, 6, 12, 13] → recQO o.rcd = some q →
        (c.queue q).ents.length + (bytesToEntries (flumeBytes c o)).length ≤ (ctxModule s c).depth q →
        ∃ t, exec (.flumeResult site lf) s = .next t
          ∧ ((getCtx t cid).queue q).ents = (c.queue q).ents ++ bytesToEntries (flumeBytes c o)
          ∧ (getCtx t cid).dmem = c.dmem ∧ (getCtx t cid).eng 7 = { c.eng 7 with op := none }
          ∧ CtxOnly cid s t ∧ OnlyIn [.sched] s t)
    ∧ (∀ (a b : Nat) (x y u v : Int), isCplx (fFmtO o.rcd) = false → laneOf (fFmtA o.rcd) a = (x, y) → fixedB o.rcd b = (u, v) →
        (fOp o.rcd = 0 → fixedElem o.rcd a b = wrapTo (fixedPart (fFmtO o.rcd))
          (narrowFixed (fixedPart (fFmtO o.rcd)) ((x + u) * 2 ^ 23) (-46) (fExp o.rcd) none).1)
        ∧ (fOp o.rcd = 1 → fixedElem o.rcd a b = wrapTo (fixedPart (fFmtO o.rcd))
          (narrowFixed (fixedPart (fFmtO o.rcd)) ((x - u) * 2 ^ 23) (-46) (fExp o.rcd) none).1)
        ∧ (fOp o.rcd = 2 → fixedElem o.rcd a b = wrapTo (fixedPart (fFmtO o.rcd))
          (narrowFixed (fixedPart (fFmtO o.rcd)) (x * u - y * v) (-46) (fExp o.rcd) none).1)
        ∧ (fOp o.rcd = 14 → fixedElem o.rcd a b = wrapTo (fixedPart (fFmtO o.rcd))
          (narrowFixed (fixedPart (fFmtO o.rcd)) (-x * 2 ^ 23) (-46) (fExp o.rcd) none).1))

/-- The word that a list of products leaves in a tile is the same whatever their order: the sum modulo 2^56 and the join of special states (spec/04_arithmetic.md R98, spec/04_arithmetic.md R100, spec/04_arithmetic.md R101, spec/04_arithmetic.md R105). -/
def Obligations.AccumulationDoesNotDependOnOrder : Prop :=
  ∀ (anchor : Int) (w : DWord) (ps qs : List Prod), ps.Perm qs → (∀ p ∈ ps, p.sp < 4) →
    accProds anchor w ps = accProds anchor w qs
    ∧ accVal (accProds anchor w ps) = sext 56 (wrapTo 56 (accVal w + (ps.map (fun p => alignP p.p p.q anchor)).sum))
    ∧ accSpec (accProds anchor w ps) = (ps.map (fun p => p.sp)).foldl specJoin (accSpec w)

/-- Packed elements read back at their index; a fixed output is the floor of the value in its LSB, clamped symmetrically (spec/04_arithmetic.md R96, spec/04_arithmetic.md R114, spec/04_arithmetic.md R115). -/
def Obligations.PackedElementsReadBackAndFixedOutputsRoundDown : Prop :=
  (∀ (w i : Nat) (es : List Nat) (h : i < es.length), w ∈ [4, 6, 8, 16, 24, 32, 48, 64] → elemAt (packElems w es) w i = es[i] % 2 ^ w)
  ∧ (∀ (w : Nat) (v lsb oexp : Int), 2 ≤ w → lsb ≤ oexp →
      (∀ n : Int, n * 2 ^ (oexp - lsb).toNat ≤ v → v < (n + 1) * 2 ^ (oexp - lsb).toNat →
        (-(2 ^ (w - 1) - 1) ≤ n → n ≤ 2 ^ (w - 1) - 1 → narrowFixed w v lsb oexp none = (n, false))
        ∧ (n < -(2 ^ (w - 1) - 1) → narrowFixed w v lsb oexp none = (-(2 ^ (w - 1) - 1), true))
        ∧ (2 ^ (w - 1) - 1 < n → narrowFixed w v lsb oexp none = (2 ^ (w - 1) - 1, true))))

/-- A flume operation that adds two ACC64 words shifts the word of the lower anchor right arithmetically, keeps its special state, and gives the higher anchor (spec/04_arithmetic.md R102). -/
def Obligations.FlumeSumsAlignToTheHigherAnchor : Prop :=
  (∀ (w v : DWord) (a b : Int), a ≤ b →
    (∀ r ∈ ([accAddAnchored w a v b, accAddAnchored v b w a] : List (DWord × Int)),
      r.2 = b ∧ (accVal r.1 - (accVal w / 2 ^ (b - a).toNat + accVal v)) % 2 ^ 56 = 0 ∧ accSpec r.1 = specJoin (accSpec w) (accSpec v)))
  ∧ (∀ (cls : TileClass) (t : Tile) (anchor : Int) (ws : List Nat) (k w : Nat), k < 1024 → ws[k]? = some w →
    (tldTile true cls t anchor ws).anchor = max t.anchor anchor
      ∧ mget 0 (tldTile true cls t anchor ws).words k = (accAddAnchored (mget 0 t.words k) t.anchor (cleanWord w) anchor).1
      ∧ (accAddAnchored (mget 0 t.words k) t.anchor (cleanWord w) anchor).2 = max t.anchor anchor)

/-- The fourteen ALU instructions write their result to s[RD], leave s0 at 0, and step the miller by 8 bytes (spec/03_mill_core.md R66, spec/07_motik_operations.md R233, spec/07_motik_operations.md R234). -/
def Obligations.MillerAluInstructionsComputeAndStep : Prop :=
  ∀ (s : State) (site : Site) (lf : LeafNo) (i : MIssue) (mop : Nat) (q : Instr) (f : Word → Word → Word),
    (mop, q, f) ∈ ([(0x01, .aluAdd site lf, fun a b => a + b), (0x02, .aluSub site lf, fun a b => a - b),
      (0x03, .aluAnd site lf, fun a b => a &&& b), (0x04, .aluOr site lf, fun a b => a ||| b), (0x05, .aluXor site lf, fun a b => a ^^^ b),
      (0x06, .aluShl site lf, fun a b => a <<< (b.toNat % 32)), (0x07, .aluShr site lf, fun a b => a >>> (b.toNat % 32)),
      (0x08, .aluSra site lf, fun a b => BitVec.ofInt 32 (a.toInt / 2 ^ (b.toNat % 32))), (0x09, .aluMul site lf, fun a b => a * b),
      (0x0A, .aluMulhu site lf, fun a b => BitVec.ofNat 32 (a.toNat * b.toNat / 2 ^ 32)),
      (0x0B, .aluSlt site lf, fun a b => if a.toInt < b.toInt then 1 else 0), (0x0C, .aluSltu site lf, fun a b => if a.toNat < b.toNat then 1 else 0),
      (0x0D, .aluMinu site lf, fun a b => if a.toNat ≤ b.toNat then a else b), (0x0E, .aluMaxu site lf, fun a b => if a.toNat ≤ b.toNat then b else a)] : List (Nat × Instr × (Word → Word → Word))) →
    millerAt s site lf mop = some i →
    ∃ t, exec q s = .next t
      ∧ (∀ r < 32, (getCtx t i.cid).miller.get r =
          if r = mRd i.w ∧ r ≠ 0 then f (i.m.get (mRa i.w)) (if bitAt (mFn i.w) 0 then mImm i.w else i.m.get (mRb i.w)) else i.m.get r)
      ∧ getCtx t i.cid = { i.c with
          miller := { i.m with s := (getCtx t i.cid).miller.s, pc := (i.m.pc + 8) % 2 ^ 32 }, lastMove := nowNs s }
      ∧ CtxOnly i.cid s t ∧ OnlyIn [.sched] s t

/-- Loads and stores of miller data memory move aligned little-endian words or bytes; whb, wlc and wofs write the other engines' registers (spec/03_mill_core.md R57, spec/03_mill_core.md R66, spec/03_mill_core.md R68, spec/07_motik_operations.md R234, spec/07_motik_operations.md R236). -/
def Obligations.MillerLoadsStoresAndRegisterWrites : Prop :=
  ∀ (s : State) (site : Site) (lf : LeafNo) (i : MIssue),
    (∀ (n mop : Nat) (q : Instr), (n, mop, q) ∈ [(4, 0x10, Instr.ldw site lf), (1, 0x12, .ldb site lf)] → millerAt s site lf mop = some i →
      (mAddr i % n = 0 → mAddr i + n ≤ mdmSize s i.c → ∃ t, exec q s = .next t
        ∧ getCtx t i.cid = { i.c with lastMove := nowNs s, miller :=
            { i.m.set (mRd i.w) (BitVec.ofNat 32 (ofLE (i.c.mdmRead (mAddr i) n))) with pc := (i.m.pc + 8) % 2 ^ 32 } }
        ∧ CtxOnly i.cid s t ∧ OnlyIn [.sched] s t)
      ∧ (mAddr i % n ≠ 0 ∨ mdmSize s i.c < mAddr i + n → exec q s = .next (settle (ctxFault s i.cid 0x03 0 (i.m.pc / 8)))))
    ∧ (∀ (n mop : Nat) (q : Instr), (n, mop, q) ∈ [(4, 0x11, Instr.stw site lf), (1, 0x13, .stb site lf)] → millerAt s site lf mop = some i →
      (mAddr i % n = 0 → mAddr i + n ≤ mdmSize s i.c → ∃ t, exec q s = .next t
        ∧ (∀ a : Nat, mget 0 (getCtx t i.cid).mdm a = if mAddr i ≤ a ∧ a < mAddr i + n
            then BitVec.ofNat 8 (i.rb.toNat / 2 ^ (8 * (a - mAddr i))) else mget 0 i.c.mdm a)
        ∧ getCtx t i.cid = { i.c with mdm := (getCtx t i.cid).mdm, lastMove := nowNs s, miller := { i.m with pc := (i.m.pc + 8) % 2 ^ 32 } }
        ∧ CtxOnly i.cid s t ∧ OnlyIn [.sched] s t)
      ∧ (mAddr i % n ≠ 0 ∨ mdmSize s i.c < mAddr i + n → exec q s = .next (settle (ctxFault s i.cid 0x03 0 (i.m.pc / 8)))))
    ∧ (millerAt s site lf 0x14 = some i → ∃ t, exec (.whb site lf) s = .next t
        ∧ (∀ k : Nat, mget 0 (getCtx t i.cid).hbIn k =
            if k = mFn i.w % 8 ∧ bitAt (mFn i.w) 3 = false then i.rb ++ i.ra else mget 0 i.c.hbIn k)
        ∧ (∀ k : Nat, mget 0 (getCtx t i.cid).hbOut k =
            if k = mFn i.w % 8 ∧ bitAt (mFn i.w) 3 = true then i.rb ++ i.ra else mget 0 i.c.hbOut k)
        ∧ (getCtx t i.cid).miller = { i.m with pc := (i.m.pc + 8) % 2 ^ 32 } ∧ CtxOnly i.cid s t ∧ OnlyIn [.sched] s t)
    ∧ (millerAt s site lf 0x30 = some i → ∃ t, exec (.wlc site lf) s = .next t
        ∧ (∀ k : Nat, mget 0 (getCtx t i.cid).miller.lc k = if k = mRd i.w % 16 then i.ra else mget 0 i.m.lc k)
        ∧ getCtx t i.cid = { i.c with lastMove := nowNs s, miller :=
            { i.m with lc := (getCtx t i.cid).miller.lc, pc := (i.m.pc + 8) % 2 ^ 32 } }
        ∧ CtxOnly i.cid s t ∧ OnlyIn [.sched] s t)
    ∧ (millerAt s site lf 0x31 = some i → ∃ t, exec (.wofs site lf) s = .next t
        ∧ (∀ k : Nat, mget 0 (getCtx t i.cid).miller.ofs k = if k = mRd i.w % 16 then i.ra else mget 0 i.m.ofs k)
        ∧ getCtx t i.cid = { i.c with lastMove := nowNs s, miller :=
            { i.m with ofs := (getCtx t i.cid).miller.ofs, pc := (i.m.pc + 8) % 2 ^ 32 } }
        ∧ CtxOnly i.cid s t ∧ OnlyIn [.sched] s t)

/-- bf branches on its condition; mloop enters, skips or refuses a loop; br.loop counts down to 1; miller.end ends the miller (spec/06_motik_programs.md R186, spec/07_motik_operations.md R234, spec/07_motik_operations.md R235). -/
def Obligations.MillerBranchesLoopsAndEnd : Prop :=
  ∀ (s : State) (site : Site) (lf : LeafNo) (i : MIssue),
    (millerAt s site lf 0x20 = some i → ∃ t, exec (.bf site lf) s = .next t
      ∧ getCtx t i.cid = { i.c with lastMove := nowNs s, miller :=
          { i.m with pc := if mCond (mFn i.w % 8) i.ra i.rb then (i.m.pc + (mImm i.w).toNat) % 2 ^ 32 else (i.m.pc + 8) % 2 ^ 32 } }
      ∧ CtxOnly i.cid s t ∧ OnlyIn [.sched] s t)
    ∧ (millerAt s site lf 0x21 = some i →
      (i.ra ≠ 0 → i.ra.toNat ≤ (mImm i.w).toNat → ∃ t, exec (.mloop site lf) s = .next t
        ∧ getCtx t i.cid = { i.c with lastMove := nowNs s, miller :=
            { i.m with loops := i.m.loops ++ [(i.m.pc, i.m.pc + 8 * (mFn i.w + 1))], pc := (i.m.pc + 8) % 2 ^ 32 } }
        ∧ CtxOnly i.cid s t ∧ OnlyIn [.sched] s t)
      ∧ (i.ra = 0 → ∃ t, exec (.mloop site lf) s = .next t
        ∧ getCtx t i.cid = { i.c with lastMove := nowNs s, miller := { i.m with pc := (i.m.pc + 8 * (mFn i.w + 1) + 8) % 2 ^ 32 } }
        ∧ CtxOnly i.cid s t ∧ OnlyIn [.sched] s t)
      ∧ ((mImm i.w).toNat < i.ra.toNat → exec (.mloop site lf) s = .next (settle (ctxFault s i.cid 0x01 0 (i.m.pc / 8)))))
    ∧ (millerAt s site lf 0x22 = some i → ∃ t, exec (.brLoop site lf) s = .next t
      ∧ (i.ra ≠ 1 → getCtx t i.cid = { i.c with lastMove := nowNs s, miller :=
          { i.m.set (mRa i.w) (i.ra - 1) with pc := (i.m.pc + (mImm i.w).toNat) % 2 ^ 32 } })
      ∧ (i.ra = 1 → getCtx t i.cid = { i.c with lastMove := nowNs s, miller :=
          { i.m.set (mRa i.w) 0 with loops := i.m.loops.dropLast, pc := (i.m.pc + 8) % 2 ^ 32 } })
      ∧ CtxOnly i.cid s t ∧ OnlyIn [.sched] s t)
    ∧ (millerAt s site lf 0x3F = some i → ∃ t, exec (.millerEnd site lf) s = .next t
      ∧ getCtx t i.cid = { i.c with lastMove := nowNs s, miller := { i.m with ended := true } }
      ∧ CtxOnly i.cid s t ∧ OnlyIn [.sched] s t)

/-- seq.run queues a segment on an engine; qpop and qpush move one entry between a queue and miller data memory, or wait (spec/03_mill_core.md R56, spec/03_mill_core.md R63, spec/06_motik_programs.md R185, spec/07_motik_operations.md R236).
Where the spec is open it shows the model's choice: log 16. -/
def Obligations.MillerRunsSegmentsAndMovesQueueEntries : Prop :=
  ∀ (s : State) (site : Site) (lf : LeafNo),
    (∀ (i : MIssue) (e seg : Nat), millerAt s site lf 0x32 = some i → e = mFn i.w % 8 → seg = (i.ra + mImm i.w).toNat →
      (e ≠ 0 → seg < segCount ((ctxModule s i.c).table e) →
        ((i.c.eng e).pend.length < 4 → i.c.freezing = false → ∃ t, exec (.seqRun site lf) s = .next t
          ∧ getCtx t i.cid = { i.c.setEng e { i.c.eng e with pend := (i.c.eng e).pend ++ [seg] } with
              lastMove := nowNs s, miller := { i.m with pc := (i.m.pc + 8) % 2 ^ 32 } }
          ∧ CtxOnly i.cid s t ∧ OnlyIn [.sched] s t)
        ∧ (4 ≤ (i.c.eng e).pend.length → ∃ t, exec (.seqRun site lf) s = .next t
          ∧ getCtx t i.cid = { i.c with lastMove := nowNs s, miller := { i.m with wait := some (.seqFull e) } }
          ∧ CtxOnly i.cid s t ∧ OnlyIn [.sched] s t))
      ∧ (e = 0 ∨ segCount ((ctxModule s i.c).table e) ≤ seg →
        exec (.seqRun site lf) s = .next (settle (ctxFault s i.cid 0x02 0 (i.m.pc / 8)))))
    ∧ (∀ (i : MIssue) (q : Nat), millerAt s site lf 0x33 = some i → q = mFn i.w % 32 → mdmOk i s 64 = true →
      (∀ (l : Line) (r : List Line), (i.c.queue q).ents = l :: r → ∃ t, exec (.qpop site lf) s = .next t
        ∧ ((getCtx t i.cid).queue q).ents = r ∧ (getCtx t i.cid).mdm = writeMap i.c.mdm (mAddr i) (lineBytes l)
        ∧ (getCtx t i.cid).miller = { i.m with pc := (i.m.pc + 8) % 2 ^ 32 } ∧ CtxOnly i.cid s t ∧ OnlyIn [.sched] s t)
      ∧ ((i.c.queue q).ents = [] → ∃ t, exec (.qpop site lf) s = .next t
        ∧ getCtx t i.cid = { i.c with lastMove := nowNs s, miller := { i.m with wait := some (.pop q) } }
        ∧ CtxOnly i.cid s t ∧ OnlyIn [.sched] s t))
    ∧ (∀ (i : MIssue) (q : Nat), millerAt s site lf 0x34 = some i → q = mFn i.w % 32 → mdmOk i s 64 = true →
      ((i.c.queue q).ents.length < (ctxModule s i.c).depth q → ∃ t, exec (.qpush site lf) s = .next t
        ∧ ((getCtx t i.cid).queue q).ents = (i.c.queue q).ents ++ [bytesLine (i.c.mdmRead (mAddr i) 64)]
        ∧ (getCtx t i.cid).mdm = i.c.mdm
        ∧ (getCtx t i.cid).miller = { i.m with pc := (i.m.pc + 8) % 2 ^ 32 } ∧ CtxOnly i.cid s t ∧ OnlyIn [.sched] s t)
      ∧ ((ctxModule s i.c).depth q ≤ (i.c.queue q).ents.length → ∃ t, exec (.qpush site lf) s = .next t
        ∧ getCtx t i.cid = { i.c with lastMove := nowNs s, miller := { i.m with wait := some (.push q) } }
        ∧ CtxOnly i.cid s t ∧ OnlyIn [.sched] s t))
    ∧ (∀ (cid q : Nat) (c : Ctx), runningAt s site lf = some (cid, c) →
      (c.miller.wait = some (.pop q) ∧ (c.queue q).ents ≠ [] ∨
        c.miller.wait = some (.push q) ∧ (c.queue q).ents.length < (ctxModule s c).depth q) →
      ∃ t, exec (.queueResume site lf 0) s = .next t
        ∧ getCtx t cid = { c with lastMove := nowNs s, miller := { c.miller with wait := none } } ∧ CtxOnly cid s t ∧ OnlyIn [.sched] s t)
    ∧ (∀ (cid q : Nat) (c : Ctx) (e : EngNo) (h : HoistOp), runningAt s site lf = some (cid, c) → e ≠ 0 →
      (c.eng e).op = some (.hoist h) → (c.eng e).wait = some (.push q) →
      (c.queue q).ents.length + h.buf.length ≤ (ctxModule s c).depth q →
      ∃ t, exec (.queueResume site lf e) s = .next t
        ∧ ((getCtx t cid).queue q).ents = (c.queue q).ents ++ h.buf
        ∧ (getCtx t cid).eng e = { c.eng e with op := some (.hoist { h with buf := [] }), wait := none }
        ∧ CtxOnly cid s t ∧ OnlyIn [.sched] s t)

/-- The miller's wait, signal, take and cut instructions act as the engines' do; a satisfied wait lets its engine go on (spec/06_motik_programs.md R188, spec/10_sync_objects.md R281, spec/10_sync_objects.md R282, spec/10_sync_objects.md R283, spec/10_sync_objects.md R284). -/
def Obligations.MillerSyncInstructionsAndSatisfiedWaits : Prop :=
  ∀ (s : State) (site : Site) (lf : LeafNo),
    (∀ (i : MIssue) (n : Nat) (b : Bool), millerAt s site lf 0x35 = some i → mfind i.c.syncs (mLocal i.w) = some (.obj n) →
      b = waitCond (getObj s n) (mFn i.w % 8) i.rb →
      ∃ t, exec (.millerSyncWait site lf) s = .next t
        ∧ getCtx t i.cid = { i.c with lastMove := nowNs s, miller :=
            if i.c.freezing then
              { i.m with held := true, cut := some (mCheap i.w), wait := some (.sync (mLocal i.w) (mFn i.w % 8) i.rb b) }
            else if b then { i.m with pc := (i.m.pc + 8) % 2 ^ 32 }
            else { i.m with wait := some (.sync (mLocal i.w) (mFn i.w % 8) i.rb false) } }
        ∧ CtxOnly i.cid s t ∧ OnlyIn [.sched] s t)
    ∧ (∀ i : MIssue, millerAt s site lf 0x38 = some i → ∃ t, exec (.millerMarkCheap site lf) s = .next t
        ∧ (getCtx t i.cid).miller.pc = (i.m.pc + 8) % 2 ^ 32 ∧ ((getCtx t i.cid).miller.held = true ↔ i.c.freezing = true)
        ∧ (i.c.freezing = true → (getCtx t i.cid).miller.cut = some (bitsAt i.w.toNat 32 10))
        ∧ CtxOnly i.cid s t ∧ OnlyIn [.sched] s t)
    ∧ (∀ (i : MIssue) (n : Nat), millerAt s site lf 0x36 = some i → mfind i.c.syncs (mLocal i.w) = some (.obj n) →
      (getObj s n).typ = .counter → ∃ t, exec (.millerSyncSignal site lf) s = .next t
        ∧ getObj t n = { getObj s n with value := if mFn i.w % 8 = 1 then i.rb else (getObj s n).value + i.rb }
        ∧ (∀ m : Nat, m ≠ n → getObj t m = getObj s m)
        ∧ (getCtx t i.cid).miller = { i.m with pc := (i.m.pc + 8) % 2 ^ 32 } ∧ OnlyIn [.sync, .sched, .hif, .cells] s t)
    ∧ (∀ (i : MIssue) (n : Nat) (ans : Word), millerAt s site lf 0x37 = some i → mfind i.c.syncs (mLocal i.w) = some (.obj n) →
      (getObj s n).typ = .work → i.rb ≠ 0 → (getObj s n).value.toNat + i.rb.toNat < 2 ^ 32 →
      ∃ t, exec (.millerSyncTake site lf ans) s = .next t
        ∧ getObj t n = { getObj s n with value := (getObj s n).value + i.rb } ∧ (∀ m : Nat, m ≠ n → getObj t m = getObj s m)
        ∧ (getCtx t i.cid).miller = { i.m.set (mRd i.w) (getObj s n).value with pc := (i.m.pc + 8) % 2 ^ 32 }
        ∧ OnlyIn [.sync, .sched, .hif, .bus] s t)
    ∧ (∀ (cid loc cond : Nat) (v : Word) (c : Ctx), runningAt s site lf = some (cid, c) →
      (c.miller.wait = some (.sync loc cond v true) → c.miller.held = false → ∃ t, exec (.waitSatisfied site lf 0) s = .next t
        ∧ getCtx t cid = { c with lastMove := nowNs s, miller := { c.miller with wait := none, pc := (c.miller.pc + 8) % 2 ^ 32 } }
        ∧ CtxOnly cid s t ∧ OnlyIn [.sched] s t)
      ∧ (∀ (e : EngNo) (r : Rec), e ≠ 0 → (c.eng e).wait = some (.sync loc cond v true) → (c.eng e).held = false →
        ((ctxModule s c).table e)[(c.eng e).next]? = some r → ∃ t, exec (.waitSatisfied site lf e) s = .next t
        ∧ getCtx t cid = { c.setEng e ({ c.eng e with wait := none }.past r (c.eng e).next) with lastMove := nowNs s }
        ∧ CtxOnly cid s t ∧ OnlyIn [.sched] s t))

/-- A context switch runs the chosen RESIDENT leaf and moves no data of any context; quanta request it, swaps reserve and freeze (spec/03_mill_core.md R79, spec/03_mill_core.md R80, spec/03_mill_core.md R82, spec/11_partitions_and_scheduling.md R315).
Where the spec is open it shows the model's choice: logs 41, 143. -/
def Obligations.SwitchesMoveNoData : Prop :=
  (∀ (s : State) (site : Site) (lf : LeafNo), rowRuns s site = true → mayStart s site lf = true → (getMill s site).split = false →
    ((getLeaf s site (1 - (lf : Nat))).st ≠ .running ∨ ∃ k, (getLeaf s site (1 - (lf : Nat))).ctx = some k ∧ (getCtx s k).freezing = true ∧
      (getCtx s k).freezeWhy = 1 ∧ (getCtx s k).holds = true) →
    ∃ t, exec (.contextSwitch site lf false) s = .next t
      ∧ (getLeaf t site lf).st = .running ∧ (getLeaf t site lf).runFrom = nowNs s ∧ (getLeaf t site (1 - (lf : Nat))).st ≠ .running
      ∧ (getMill t site).runLeaf = lf ∧ (getMill t site).swTo = none ∧ (getMill t site).split = false
      ∧ bitAt (getW t (reg .mill site 0x20)).toNat 3 = true
      ∧ (∀ k : Nat, (getCtx t k).dmem = (getCtx s k).dmem ∧ (getCtx t k).mdm = (getCtx s k).mdm ∧ (getCtx t k).queues = (getCtx s k).queues
          ∧ (getCtx t k).tiles = (getCtx s k).tiles ∧ (getCtx t k).miller.s = (getCtx s k).miller.s
          ∧ (getCtx t k).miller.lc = (getCtx s k).miller.lc ∧ (getCtx t k).miller.ofs = (getCtx s k).miller.ofs
          ∧ (getCtx t k).miller.pc = (getCtx s k).miller.pc ∧ (getCtx t k).hbIn = (getCtx s k).hbIn ∧ (getCtx t k).hbOut = (getCtx s k).hbOut)
      ∧ OnlyIn [.mills, .sched, .bus, .gov] s t)
  ∧ (∀ (s : State) (site : Site) (lf : LeafNo) (cid : Nat) (c : Ctx), runningAt s site lf = some (cid, c) → c.freezing = false → c.killed = false →
    (getLaunch s c.launch).grid = 0 → (getW s (reg .sch (1 + c.part) 0x100)).toNat * 1000 ≤ nowNs s - c.placedAt →
    chooseFor s site lf true = none →
    ((getMill s site).split = true ∨ mayStart s site (1 - (lf : Nat)) = false → ∃ t, exec (.quantumExpiry site lf) s = .next t
      ∧ getCtx t cid = { c with placedAt := nowNs s } ∧ CtxOnly cid s t ∧ OnlyIn [.sched] s t)
    ∧ (∀ m lf' : Nat, (getMill s site).split = false → mayStart s site (1 - (lf : Nat)) = true → c.place = .leaf m lf' →
      ∃ t, exec (.quantumExpiry site lf) s = .next t
        ∧ (getMill t site).swTo = some (1 - (lf : Nat)) ∧ (getCtx t cid).freezing = true ∧ (getCtx t cid).freezeWhy = max 1 c.freezeWhy
        ∧ (getCtx t cid).freezeFrom = nowNs s ∧ CtxOnly cid s t ∧ OnlyIn [.sched, .mills] s t))
  ∧ (∀ (s u : State) (site : Site) (lf cid : Nat), (∀ l < 2, (getLeaf s site l).st ≠ .empty) →
    (∀ l < 2, (getLeaf s site l).st = .running ∨ (getLeaf s site l).st = .resident →
      ∃ k, (getLeaf s site l).ctx = some k ∧ ctxBlocked s (getCtx s k) = true) →
    blockedPick s site = some lf → (getLeaf s site lf).ctx = some cid → evict s cid = some u →
    ∃ t, exec (.blockedSwap site) s = .next t ∧ t.sched = u.sched ∧ (getLeaf t site lf).want = chooseFor s site lf true
      ∧ (getLeaf t site lf).st = (getLeaf s site lf).st ∧ OnlyIn [.sched, .mills, .gov] s t)
  ∧ (∀ (s t : State) (site : Site) (l : Nat), t = decideLeaf (decideLeaf s site 0 none) site 1 none → l < 2 →
    (getLeaf s site l).st = .empty → (getLeaf t site l).st ≠ .empty →
    (∀ l < 2, (getLeaf s site l).st = .running ∨ (getLeaf s site l).st = .resident →
      ∃ k, (getLeaf s site l).ctx = some k ∧ ctxBlocked s (getCtx s k) = true) →
    exec (.blockedSwap site) s = .next (settle t))

/-- A held context becomes FROZEN with its grid launch; a save moves its live set to the save area and empties its leaf; a late freeze faults (spec/06_motik_programs.md R188, spec/09_grid_and_granary.md R259, spec/11_partitions_and_scheduling.md R308, spec/11_partitions_and_scheduling.md R309, spec/11_partitions_and_scheduling.md R319, spec/11_partitions_and_scheduling.md R328).
Where the spec is open it shows the model's choice: logs 25, 39, 43, 46. -/
def Obligations.FrozenContextsAreSavedAndLeafTaken : Prop :=
  (∀ (s : State) (site : Site) (lf : LeafNo) (cid : Nat) (c : Ctx), ctxAt s site lf = some (cid, c) →
    (getLeaf s site lf).st ≠ .frozen → freezeReady s cid = true → (∀ k ∈ groupOf s cid, freezeReady s k = true) →
    ∃ t, exec (.freezeComplete site lf) s = .next t
      ∧ (∀ k ∈ groupOf s cid, ∀ m l : Nat, (getCtx s k).place = .leaf m l → (getLeaf t m l).st = .frozen)
      ∧ (∀ k : Nat, (getCtx t k).place = (getCtx s k).place ∧ (getCtx t k).dmem = (getCtx s k).dmem ∧ (getCtx t k).tiles = (getCtx s k).tiles)
      ∧ OnlyIn [.mills, .sched, .bus, .gov] s t)
  ∧ (∀ (s u : State) (site : Site) (lf : LeafNo) (cid : Nat) (c : Ctx), ctxAt s site lf = some (cid, c) →
    (getLeaf s site lf).st = .frozen → c.freezeWhy = 2 ∨ c.freezeWhy = 3 → groupOf s cid = [cid] → freezeReady s cid = true →
    c.place = .leaf site lf → saveCtx s cid = some u →
    (getCtx u cid).place = .saved ∧ (getCtx u cid).dmem = (liveOnly (ctxModule s c) c).dmem ∧ (getCtx u cid).tiles = (liveOnly (ctxModule s c) c).tiles
    ∧ (getCtx u cid).miller = c.miller ∧ (getLeaf u site lf).st = .empty
    ∧ exec (.saveDone site lf) s =
        .next (settle (kickPart (decideLeaf (settlePart u c.part) site lf (getLeaf s site lf).want) c.part)))
  ∧ (∀ (s : State) (site : Site) (lf : LeafNo) (cid : Nat) (c : Ctx), ctxAt s site lf = some (cid, c) → (getLeaf s site lf).st = .running →
    c.freezing = true → 1 < c.freezeWhy → c.holds = false → (∀ n, siteMill s site = some n → isLent s n = false) →
    (getW s (reg .sch (1 + c.part) 0x104)).toNat * 1000 < nowNs s - c.freezeFrom →
    ∃ e i : Nat, exec (.freezeTimeout site lf) s = .next (settle (ctxFault s cid 0x21 e i)))
  ∧ (∀ (s : State) (site : Site) (lf : LeafNo) (cid : Nat) (c : Ctx), runningAt s site lf = some (cid, c) → ctxStalled s c = true →
    (getW s (reg .syn 2 (0x100 + 4 * c.part))).toNat * 1000 < nowNs s - stalledFrom s c →
    ∃ (t u : State) (e i : Nat), exec (.stallWatchdog site lf) s = .next t ∧ u = ctxFault s cid 0x20 e i
      ∧ (∀ k : Nat, getCtx t k = getCtx u k) ∧ getW t (reg .syn 0 0x110) = satAdd32 (getW u (reg .syn 0 0x110)) 1
      ∧ bitAt (getW t (reg .syn 0 0x20)).toNat 1 = true ∧ OnlyIn [.bus] u t)

/-- A context fault stops the context, makes its leaf FAULTED with code, engine and step, and records it in the partition page (spec/03_mill_core.md R81, spec/11_partitions_and_scheduling.md R320, spec/11_partitions_and_scheduling.md R333).
Where the spec is open it shows the model's choice: logs 21, 46. -/
def Obligations.FaultedContextsStopAndAreRecorded : Prop :=
  ∀ (s : State) (cid code eng step : Nat),
    (mfind s.sched.ctxs cid = none ∨ (getCtx s cid).killed = true → ctxFault s cid code eng step = s)
    ∧ (∀ c : Ctx, mfind s.sched.ctxs cid = some c → c.killed = false → ∀ t : State, t = ctxFault s cid code eng step →
      (getCtx t cid).killed = true ∧ (getCtx t cid).freezing = false
      ∧ (∀ e : Nat, ((getCtx t cid).eng e).op = none ∧ ((getCtx t cid).eng e).wait = none) ∧ (getCtx t cid).miller.wait = none
      ∧ (∀ k : Nat, k ≠ cid → getCtx t k = getCtx s k)
      ∧ (∀ site lf : Nat, c.place = .leaf site lf → lf < 2 →
          (getLeaf t site lf).st = .faulted ∧ (getLeaf t site lf).faultCode = code ∧ (getLeaf t site lf).faultEng = eng
          ∧ (getLeaf t site lf).faultStep = step % 2 ^ 16)
      ∧ mfind t.sched.drains cid = some ⟨c.launch, c.inst, c.part, c.slice, code, eng, step % 2 ^ 16, nowNs s⟩
      ∧ (c.part < 32 → getW t (reg .sch (1 + c.part) 0x1B8) = BitVec.ofNat 32 (code + eng * 2 ^ 8 + c.slice * 2 ^ 16)
          ∧ bitAt (getW t (reg .sch (1 + c.part) 0x20)).toNat 1 = true
          ∧ ((∀ site lf : Nat, c.place = .leaf site lf → site < 256) →
              getW t (reg .sch (1 + c.part) 0x1BC) = satAdd32 (getW s (reg .sch (1 + c.part) 0x1BC)) 1)))

/-- A context that ends, or whose teardown drain ends, exists no more and its leaf is EMPTY before the scheduler decides for it (spec/03_mill_core.md R78, spec/06_motik_programs.md R179, spec/06_motik_programs.md R186, spec/11_partitions_and_scheduling.md R320). -/
def Obligations.EndedContextsReleaseWhatTheyHold : Prop :=
  (∀ (s : State) (site : Site) (lf : LeafNo) (cid : Nat) (c : Ctx), runningAt s site lf = some (cid, c) → c.ended = true →
    ∃ u, exec (.contextEnd site lf) s = .next (settle (lendAll (decideLeaf u site lf none)))
      ∧ mfind u.sched.ctxs cid = none ∧ (getLeaf u site lf).st = .empty ∧ (getLeaf u site lf).ctx = none
      ∧ (getLeaf u site lf).imem = (getLeaf s site lf).imem)
  ∧ (∀ (s : State) (cid : Nat) (d : Drain) (site lf : Nat), mfind s.sched.drains cid = some d → lf < 2 →
    (getCtx s cid).place = .leaf site lf → (getLeaf s site lf).ctx = some cid →
    ∃ u, exec (.teardownDrainDone cid) s = .next (settle (lendAll (decideLeaf u site lf none)))
      ∧ mfind u.sched.ctxs cid = none ∧ mfind u.sched.drains cid = none ∧ (getLeaf u site lf).st = .empty)
  ∧ (∀ (s : State) (site : Site) (lf : LeafNo) (line : Fin 512) (data : Line), rowRuns s site = true →
    ((getLeaf s site lf).st = .loading → ∃ t, exec (.imemWrite site lf line data) s = .next t
      ∧ mget 0 (getLeaf t site lf).imem line = data
      ∧ (∀ k : Nat, k ≠ line → mget 0 (getLeaf t site lf).imem k = mget 0 (getLeaf s site lf).imem k)
      ∧ (getLeaf t site lf).st = .loading ∧ OnlyIn [.mills, .gov] s t)
    ∧ ((getLeaf s site lf).st ≠ .loading → ∃ t, exec (.imemWrite site lf line data) s = .next t
      ∧ getW t (reg .mill site 0x164) = satAdd32 (getW s (reg .mill site 0x164)) 1
      ∧ getF t (reg .mill site 0x160) 0 1 = lf ∧ getF t (reg .mill site 0x160) 1 3 = (getLeaf s site lf).st.code
      ∧ getF t (reg .mill site 0x160) 16 9 = line ∧ getF t (reg .mill site 0x160) 31 1 = 1
      ∧ OnlyIn [.bus] s t
      ∧ WordsOnly [reg .mill site 0x160, reg .mill site 0x164, reg .mill site 0x18, reg .mill site 0x20] s t))

/-- The five slice commands change their slice, freeze or tear down its contexts, and report in SLICE_RESULT; a bad slice number reports 1 (spec/11_partitions_and_scheduling.md R305, spec/11_partitions_and_scheduling.md R306, spec/11_partitions_and_scheduling.md R321, spec/11_partitions_and_scheduling.md R333).
Where the spec is open it shows the model's choice: logs 41, 42. -/
def Obligations.SliceCommandsActAndReport : Prop :=
  (∀ (s : State) (p : Fin 32) (n : BitVec 13), pageReady s .sch (1 + p) = true → (getPart s p).st ≠ .free → (getPart s p).sliceCmd = none →
    sliceInRange (getPart s p).desc n.toNat = false →
    ∀ c ∈ ([.sliceCreate p n, .sliceTeardown p n, .setShare p n, .slicePause p n, .sliceResume p n] : List Instr),
    ∃ t, exec c s = .next t ∧ getW t (reg .sch (1 + p) 0x190) = 1 ∧ bitAt (getW t (reg .sch (1 + p) 0x20)).toNat 3 = true
      ∧ (∀ k : Nat, getSlice t k = getSlice s k) ∧ OnlyIn [.bus, .sched] s t)
  ∧ (∀ (s : State) (p : Fin 32) (n : BitVec 13), pageReady s .sch (1 + p) = true → (getPart s p).st = .active → (getPart s p).sliceCmd = none →
    sliceInRange (getPart s p).desc n.toNat = true →
    ((getSlice s n.toNat).st = .none → pasidBound s (getF s (reg .sch (1 + p) 0x184) 0 20) = false → getF s (reg .sch (1 + p) 0x188) 0 16 ≠ 0 →
      ∃ t, exec (.sliceCreate p n) s = .next t
        ∧ getSlice t n.toNat = ⟨.active, p, getF s (reg .sch (1 + p) 0x184) 0 20, getF s (reg .sch (1 + p) 0x188) 0 16,
            getW s (reg .sch (1 + p) 0x18C), leastVt s p, 0, 0⟩
        ∧ getW t (reg .sch (1 + p) 0x190) = 0 ∧ bitAt (getW t (reg .sch (1 + p) 0x20)).toNat 3 = true
        ∧ (∀ k : Nat, k ≠ n.toNat → getSlice t k = getSlice s k) ∧ OnlyIn [.bus, .sched] s t
        ∧ WordsOnly [reg .sch (1 + p) 0x190, reg .sch (1 + p) 0x20] s t)
    ∧ ((getSlice s n.toNat).st = .active ∨ (getSlice s n.toNat).st = .paused → getF s (reg .sch (1 + p) 0x188) 0 16 ≠ 0 →
      ∃ t, exec (.setShare p n) s = .next t ∧ getSlice t n.toNat = { getSlice s n.toNat with share := getF s (reg .sch (1 + p) 0x188) 0 16 }
        ∧ getW t (reg .sch (1 + p) 0x190) = 0 ∧ bitAt (getW t (reg .sch (1 + p) 0x20)).toNat 3 = true
        ∧ (∀ k : Nat, k ≠ n.toNat → getSlice t k = getSlice s k) ∧ OnlyIn [.bus, .sched] s t
        ∧ WordsOnly [reg .sch (1 + p) 0x190, reg .sch (1 + p) 0x20] s t)
    ∧ ((getSlice s n.toNat).st = .active →
      ∃ u, exec (.slicePause p n) s = .next (settle (pauseDone u p)) ∧ getSlice u n.toNat = { getSlice s n.toNat with st := .paused }
        ∧ (getPart u p).sliceCmd = some (4, n.toNat)
        ∧ (∀ (k : Nat) (c : Ctx) (m l : Nat), mfind s.sched.ctxs k = some c → c.slice = n.toNat → c.killed = false → c.place = .leaf m l →
            (getCtx u k).freezing = true ∧ 3 ≤ (getCtx u k).freezeWhy)
        ∧ (∀ k : Nat, k ≠ n.toNat → getSlice u k = getSlice s k) ∧ OnlyIn [.sched] s u)
    ∧ ((getSlice s n.toNat).st = .paused →
      ∃ u, exec (.sliceResume p n) s = .next (settle (kickPart u p)) ∧ getSlice u n.toNat = { getSlice s n.toNat with st := .active }
        ∧ (∀ (k : Nat) (c : Ctx) (m l : Nat), mfind s.sched.ctxs k = some c → c.slice = n.toNat → c.killed = false → c.place = .leaf m l →
            (getCtx u k).freezing = false ∧ ((getLeaf s m l).st = .frozen → (getLeaf u m l).st = .resident))
        ∧ getW u (reg .sch (1 + p) 0x190) = 0 ∧ bitAt (getW u (reg .sch (1 + p) 0x20)).toNat 3 = true
        ∧ OnlyIn [.bus, .sched, .mills] s u)
    ∧ ((getSlice s n.toNat).st = .active ∨ (getSlice s n.toNat).st = .paused →
      ∃ u, exec (.sliceTeardown p n) s = .next (settle (partFrozen u p)) ∧ (getSlice u n.toNat).st = .teardown
        ∧ (getPart u p).sliceCmd = some (2, n.toNat)
        ∧ (∀ (k : Nat) (c : Ctx), mfind s.sched.ctxs k = some c → c.slice = n.toNat → (getCtx u k).killed = true)))
  ∧ (∀ (s : State) (n : BitVec 13), (getSlice s n.toNat).st = .teardown → sliceBusy s n.toNat = false →
    ∃ t, exec (.sliceTeardownDone n) s = .next t ∧ getSlice t n.toNat = Slice.blank ∧ getRing t n.toNat = Ring.off
      ∧ (∀ k : Nat, k ≠ n.toNat → getSlice t k = getSlice s k ∧ getRing t k = getRing s k)
      ∧ ((getPart s (getSlice s n.toNat).part).sliceCmd = some (2, n.toNat) →
          (getPart t (getSlice s n.toNat).part).sliceCmd = none ∧ getW t (reg .sch (1 + (getSlice s n.toNat).part) 0x190) = 0)
      ∧ OnlyIn [.bus, .sched, .hif] s t)

/-- A LEND bit offers a mill, a loan gives it to the next taker, clearing the bit freezes what runs there, and the end of the reclaim returns it (spec/11_partitions_and_scheduling.md R310, spec/11_partitions_and_scheduling.md R312, spec/11_partitions_and_scheduling.md R313, spec/11_partitions_and_scheduling.md R332, spec/11_partitions_and_scheduling.md R333).
Where the spec is open it shows the model's choice: log 7. -/
def Obligations.LoansMoveMillsAndReclaimsBringThemBack : Prop :=
  (∀ (s : State) (p : Fin 32) (n : Fin 240), pageReady s .sch (1 + p) = true → (getPart s p).st ≠ .free → (getPart s p).desc.radio = true →
    (bitAt (getPart s p).mills n = false → exec (.lend p n) s = .next (settle s))
    ∧ (bitAt (getPart s p).mills n = true →
      ∃ u, lendBit u p n = true ∧ OnlyIn [.bus] s u ∧ WordsOnly [reg .sch (1 + p) (0x140 + 4 * (n / 32))] s u
        ∧ exec (.lend p n) s = .next (settle (lendMill u p n))
        ∧ (∀ b site : Nat, lendable u p n = true → millSite s n = some site →
            ((List.range 32).map (fun i => (s.sched.lastLoan + 1 + i) % 32)).find? (loanTaker u) = some b →
            ∃ v, lendMill u p n = decideLeaf (decideLeaf v site 0 none) site 1 none
              ∧ v.sched = { s.sched with lent := mput s.sched.lent n b, lastLoan := b } ∧ OnlyIn [.sched] u v))
    ∧ (bitAt (getPart s p).mills n = true → ∀ b site : Nat, mfind s.sched.lent n = some b → mfind s.sched.reclaims n = none →
      millSite s n = some site → ∃ t, exec (.reclaim p n) s = .next t
        ∧ lendBit t p n = false ∧ mfind t.sched.reclaims n = some (nowNs s) ∧ t.sched.lent = s.sched.lent
        ∧ (∀ lf k m l : Nat, lf < 2 → (getLeaf s site lf).ctx = some k → (getCtx s k).killed = false → (getCtx s k).place = .leaf m l →
            (getCtx t k).freezing = true ∧ 4 ≤ (getCtx t k).freezeWhy)
        ∧ (∀ k : Nat, (∀ lf < 2, (getLeaf s site lf).ctx ≠ some k) → getCtx t k = getCtx s k)
        ∧ OnlyIn [.bus, .sched] s t ∧ WordsOnly [reg .sch (1 + p) (0x140 + 4 * (n / 32))] s t))
  ∧ (∀ (s u : State) (n : Fin 240) (asked b site r : Nat), mfind s.sched.reclaims n = some asked → mfind s.sched.lent n = some b →
    millSite s n = some site → saveLeaves site [0, 1] s = some u → (mkeys (fun _ p => bitAt p.mills n) u.sched.parts).head? = some r →
    ∃ v, exec (.reclaimDone n) s = .next (settle (kickPart (settlePart v b) b))
      ∧ v.sched = { u.sched with lent := mdel u.sched.lent n, reclaims := mdel u.sched.reclaims n }
      ∧ getD64 v (reg .sch 0 0x138) = getD64 u (reg .sch 0 0x138) + 1 ∧ bitAt (getW v (reg .sch (1 + r) 0x20)).toNat 2 = true
      ∧ OnlyIn [.sched, .bus] u v)

/-- A load is refused with its report, or reserves leaves and objects; its completion makes every context of the launch RESIDENT at once (spec/06_motik_programs.md R171, spec/06_motik_programs.md R179, spec/06_motik_programs.md R180, spec/08_ubvovar_loader.md R242, spec/08_ubvovar_loader.md R244, spec/08_ubvovar_loader.md R250, spec/13_cxl_host_and_fabric.md R369).
Where the spec is open it shows the model's choice: logs 45, 134, 135, 137. -/
def Obligations.LoadsPlaceTheirContextsTogether : Prop :=
  (∀ (s u : State) (n : Nat) (l : Load) (mod arg : XferEnv) (rep : List (Option AtsAns)) (bytes : List Byte) (args : List DWord),
    mfind s.sched.loads n = some l → s.sched.workshop = true → loadFirst s n l = true → l.plan = none →
    loadInputs s l mod arg = (some (some (bytes, args)), u) →
    (∀ f : Fail, loadVerdict u l bytes args = some f →
      f.code ≠ 0x70 ∨ bitAt (moduleOf bytes).flags 0 = false ∨ lentOut u l.part = [] →
      exec (.loadComplete n mod arg rep) s = .next (settle
        (loadEnd u n l bytes (u.sched.cache.contains (ofLE (Config.sha3 bytes))) (some f) LoadSizes.zero rep)))
    ∧ (∀ places : List (Nat × Nat), loadVerdict u l bytes args = none →
      placesFor ⟨u, l, sectsOf bytes, moduleOf bytes, bytes, args⟩ = some places →
      ∃ (t : State) (p : LoadPlan), exec (.loadComplete n mod arg rep) s = .next t
        ∧ mfind t.sched.loads n = some { l with plan := some p } ∧ p.modl = moduleOf bytes ∧ p.args = args ∧ p.places = places
        ∧ (∀ x ∈ places, x.2 < 2 → (getLeaf t x.1 x.2).st = .loading)))
  ∧ (∀ (s : State) (n : Nat) (l : Load) (p : LoadPlan) (mod arg : XferEnv) (rep : List (Option AtsAns)),
    mfind s.sched.loads n = some l → s.sched.workshop = true → loadFirst s n l = true → l.plan = some p →
    (∀ x ∈ p.places, (getLeaf s x.1 x.2).st = .loading ∧ rowRuns s x.1 = true ∧ x.2 < 2) → p.places.Nodup →
    ∃ u, exec (.loadComplete n mod arg rep) s = .next (settle (loadEnd u n l p.bytes p.cached none p.sizes rep))
      ∧ (getLaunch u (keyAfter s.sched.launches)).modl = p.modl ∧ (getLaunch u (keyAfter s.sched.launches)).left = p.places.length
      ∧ (∀ (i : Nat) (x : Nat × Nat), p.places[i]? = some x →
          (getLeaf u x.1 x.2).st = .resident ∧ (getLeaf u x.1 x.2).ctx = some (keyAfter s.sched.ctxs + i)
          ∧ (getCtx u (keyAfter s.sched.ctxs + i)).place = .leaf x.1 x.2 ∧ (getCtx u (keyAfter s.sched.ctxs + i)).inst = i
          ∧ (getCtx u (keyAfter s.sched.ctxs + i)).started = false ∧ (getCtx u (keyAfter s.sched.ctxs + i)).engs = []
          ∧ (getCtx u (keyAfter s.sched.ctxs + i)).miller = { Miller.zero with pc := p.modl.entry })
      ∧ OnlyIn [.mills, .sched] s u)

/-- The manager's requests to create, resize, tear down, freeze and resume a partition take effect and leave their result for the mailbox (spec/11_partitions_and_scheduling.md R298, spec/11_partitions_and_scheduling.md R299, spec/11_partitions_and_scheduling.md R300, spec/11_partitions_and_scheduling.md R301, spec/11_partitions_and_scheduling.md R303, spec/11_partitions_and_scheduling.md R304, spec/11_partitions_and_scheduling.md R322, spec/11_partitions_and_scheduling.md R327, spec/13_cxl_host_and_fabric.md R373).
Where the spec is open it shows the model's choice: logs 40, 50, 51, 52, 92. -/
def Obligations.PartitionRequestsChangeTheirPartition : Prop :=
  ∀ (s : State) (l : List (BitVec 8)) (p : Nat), pageReady s .mgt 0 = true → s.sched.mbx = none →
  (s.sched.workshop = true →
    (p = leAt l 1 1 → createCode s l ≠ 0 → ∃ t, exec (.partCreate l) s = .next t
        ∧ t.sched = { s.sched with mbx := some ⟨1, p, some (createCode s l)⟩ } ∧ OnlyIn [.sched] s t)
    ∧ (p = leAt l 1 1 → createCode s l = 0 → ∃ u, exec (.partCreate l) s = .next (settle u)
        ∧ u.sched.mbx = some ⟨1, p, some 0⟩ ∧ (getPart u p).st = .creating ∧ (getPart u p).desc = descOf l
        ∧ (getPart u p).mills = (descOf l).mills ∧ getW u (reg .sch (1 + p) 0x100) = BitVec.ofNat 32 (descOf l).quantum
        ∧ (∀ b ∈ setBitsOf 256 (descOf l).blocks, mget 63 u.sync.owner b = p)
        ∧ (∀ k ∈ setBitsOf 64 (descOf l).keySlots, slotOwner u k = p ∧ (slotKey u k).isSome = true)
        ∧ (∀ q : Nat, q ≠ p → getPart u q = getPart s q))
    ∧ (p = leAt l 0 1 → p < 32 → devState s = 2 → mfind s.rep.partConf p = none →
      (resizeCode s l p = 0 → ∃ u, exec (.partResize l) s = .next (settle u) ∧ u.sched.mbx = some ⟨2, p, some 0⟩
          ∧ getPart u p = { getPart s p with resize := some ⟨resizeAdd l, resizeRem l, resizeAt s p⟩ }
          ∧ (∀ n ∈ setBitsOf 240 (resizeAdd l), (getRow u (n / 15)).opp = 0))
      ∧ (teardownCode s p = 0 → ∃ u, exec (.partTeardown l) s = .next (settle u) ∧ u.sched.mbx = some ⟨3, p, none⟩
          ∧ (getPart u p).st = .teardown ∧ (getPart u p).resize = none ∧ (∀ n ∈ partSlices s p, (getSlice u n).st = .teardown))
      ∧ ((getPart s p).st = .active → (getPart s p).resize = none → partHasCells s p = false →
          ∃ u, exec (.freeze l) s = .next (settle u) ∧ u.sched.mbx = some ⟨4, p, some 0⟩
          ∧ ((getPart u p).st = .freezing ∨ (getPart u p).st = .frozen)
          ∧ (∀ (k : Nat) (c : Ctx) (m f : Nat), mfind s.sched.ctxs k = some c → c.part = p → c.killed = false → c.place = .leaf m f →
              (getCtx u k).freezing = true ∧ 5 ≤ (getCtx u k).freezeWhy))
      ∧ ((getPart s p).st = .frozen ∨ (getPart s p).st = .restoring →
          ∃ u v, exec (.partResume l) s = .next (settle { v with sched := { v.sched with mbx := some ⟨7, p, some 0⟩ } })
          ∧ v = kickPart u p ∧ getPart u p = { getPart s p with st := .active }
          ∧ (∀ (k : Nat) (c : Ctx) (m f : Nat), mfind s.sched.ctxs k = some c → c.part = p → c.killed = false → c.place = .leaf m f →
              (getSlice s c.slice).st = .active → (getCtx u k).freezing = false)
          ∧ OnlyIn [.sched, .mills] s u)))
  ∧ (s.sched.workshop = false → ∀ (c : Instr) (op : Nat),
      (c, op) ∈ ([(.partCreate l, 1), (.partResize l, 2), (.partTeardown l, 3), (.freeze l, 4), (.exportImage l, 5), (.importImage l none, 6),
        (.partResume l, 7), (.mbxLaunch l, 8)] : List (Instr × Nat)) →
      ∃ t m, exec c s = .next t ∧ t.sched = { s.sched with mbx := some ⟨op, m, none⟩ } ∧ OnlyIn [.sched] s t)

/-- Export hands out the image of a frozen partition, import restores one, a mailbox launch becomes a load, and MAILBOX_DONE reports (spec/11_partitions_and_scheduling.md R301, spec/11_partitions_and_scheduling.md R327, spec/11_partitions_and_scheduling.md R329, spec/11_partitions_and_scheduling.md R330, spec/13_cxl_host_and_fabric.md R373).
Where the spec is open it shows the model's choice: logs 40, 89, 90. -/
def Obligations.ImagesAndLaunchesGoThroughTheMailbox : Prop :=
  ∀ (s : State) (l : List (BitVec 8)) (p : Nat), s.sched.workshop = true →
  (pageReady s .mgt 0 = true → s.sched.mbx = none →
    (p = leAt l 0 1 → p < 32 → devState s = 2 → mfind s.rep.partConf p = none →
      (leAt l 1 1 ≤ 1 → (getPart s p).st = .frozen → s.sec.km.isSome = true → (Config.freeValue s.freshNo).toNat ≤ leAt l 16 8 →
        ∃ (t : State) (img : Image), exec (.exportImage l) s = .next t ∧ t.sched = { s.sched with mbx := some ⟨5, p, some 0⟩ }
          ∧ t.sec = { s.sec with exports := s.sec.exports ++ [(leAt l 8 8, img)] }
          ∧ img.desc = (getPart s p).desc ∧ img.full = decide (leAt l 1 1 = 1)
          ∧ img.slices = s.sched.slices.filter (fun e => e.2.part = p && e.2.st ≠ .none)
          ∧ img.objs = s.sync.objs.filter (fun e => objOwner s e.1 = p)
          ∧ img.launches = s.sched.launches.filter (fun e => e.2.part = p) ∧ some img.km = s.sec.km
          ∧ mkeys (fun _ _ => true) img.ctxs = mkeys (fun _ c => c.part = p && !c.killed) s.sched.ctxs
          ∧ OnlyIn [.sched, .sec, .fresh] s t)
      ∧ (∀ (img : Image) (u : State), importCode s l (some img) p = 0 → importAll s p (importPasids l img.slices.length) img = some u →
        ∃ t, exec (.importImage l (some img)) s = .next t ∧ t.sched = { u.sched with mbx := some ⟨6, p, some 0⟩ }
          ∧ (getPart t p).st = .restoring ∧ (∀ q : Nat, q ≠ p → getPart t q = getPart s q)
          ∧ (∀ (i : Nat) (e : Nat × Slice), img.slices[i]? = some e → (img.slices.map (fun x => x.1)).Nodup →
              getSlice t e.1 = { e.2 with part := p, pasid := leAt l (64 + 4 * i) 4 })
          ∧ OnlyIn [] u { t with sched := u.sched }))
    ∧ (∃ t, exec (.mbxLaunch l) s = .next t ∧ t.sched.mbx = some ⟨8, (getSlice s (leAt l 0 2)).part, none⟩
        ∧ (∃ d : Load, t.sched.loads = mput s.sched.loads (keyAfter s.sched.loads) d ∧ d.mailbox = true ∧ d.slice = leAt l 0 2
            ∧ d.part = (getSlice s (leAt l 0 2)).part ∧ d.plan = none)
        ∧ OnlyIn [.sched] s t))
  ∧ (∀ op r : Nat, s.sched.mbx = some ⟨op, p, some r⟩ → ∃ t, exec .mailboxDone s = .next t ∧ t.sched.mbx = none
      ∧ getW t (reg .mgt 0 0x10C) = BitVec.ofNat 32 r ∧ bitAt (getW t (reg .mgt 0 0x20)).toNat 1 = true
      ∧ (op ≤ 7 → bitAt (getW t (reg .sch 0 0x20)).toNat 1 = true)
      ∧ (op = 1 → r = 0 → (getPart s p).st = .creating → getPart t p = { getPart s p with st := .active })
      ∧ (∀ q : Nat, q ≠ p → getPart t q = getPart s q) ∧ OnlyIn [.bus, .sched] s t
      ∧ WordsOnly [reg .mgt 0 0x10C, reg .mgt 0 0x20, reg .sch 0 0x20] s t)

/-- A resize takes effect at its slot boundary; the end of a teardown frees the partition and everything it holds (spec/10_sync_objects.md R291, spec/11_partitions_and_scheduling.md R304, spec/11_partitions_and_scheduling.md R322).
Where the spec is open it shows the model's choice: logs 91, 93. -/
def Obligations.ResizesAndTeardownsFinish : Prop :=
  (∀ (s : State) (p : Fin 32) (z : Resize), (getPart s p).resize = some z → reached (nowNs s) z.at_ = true →
    (∀ n ∈ setBitsOf 240 z.rem, isLent s n = false) →
    ∃ u, exec (.resizeApply p) s = .next (settle (kickPart u p))
      ∧ getPart u p = { getPart s p with mills := millsAfter (getPart s p) z.add z.rem, resize := none })
  ∧ (∀ (s : State) (p : Fin 32), (getPart s p).st = .teardown → s.sched.workshop = true → teardownOver s p = true →
    ∃ t, exec (.partitionTeardownDone p) s = .next t ∧ getPart t p = Part.free ∧ (∀ q : Nat, q ≠ p → getPart t q = getPart s q)
      ∧ (∀ e ∈ t.sync.owner, e.2 ≠ p) ∧ (∀ e ∈ t.grn.dedic, e.2 ≠ p) ∧ (∀ e ∈ t.grn.ways, e.2 ≠ p)
      ∧ (∀ k : Nat, slotOwner t k ≠ p) ∧ mkeys (fun _ c => c.part = (p : Nat)) t.cells = []
      ∧ ((s.sched.mbx.map (fun c => (c.op, c.part))) = some (3, (p : Nat)) → (t.sched.mbx.map (fun c => c.res)) = some (some 0)))

/-- The host writes, and peers signal, take and read sync objects through an open aperture; polls of REMOTE waits go out as reads (spec/10_sync_objects.md R281, spec/10_sync_objects.md R283, spec/10_sync_objects.md R288, spec/10_sync_objects.md R289, spec/10_sync_objects.md R290, spec/10_sync_objects.md R292, spec/10_sync_objects.md R296, spec/10_sync_objects.md R297, spec/13_cxl_host_and_fabric.md R379, spec/13_cxl_host_and_fabric.md R382).
Where the spec is open it shows the model's choice: logs 26, 34. -/
def Obligations.ObjectsAreReachedFromOutside : Prop :=
  ∀ (s : State),
  (∀ (v : Word) (n : Nat), pageReady s .syn 0 = true → n = getF s (reg .syn 0 0x100) 0 16 →
    ((getObj s n).typ ≠ .none → (getObj s n).typ ≠ .timed → ∃ t, exec (.objValueWrite v) s = .next t
      ∧ getObj t n = { getObj s n with value := v } ∧ (∀ k : Nat, k ≠ n → getObj t k = getObj s k) ∧ OnlyIn [.sync, .sched, .hif] s t)
    ∧ ((getObj s n).typ = .none ∨ (getObj s n).typ = .timed → ∃ t, exec (.objValueWrite v) s = .next t
      ∧ getW t (reg .syn 0 0x18) = getW s (reg .syn 0 0x18) ||| 1 ∧ OnlyIn [.bus] s t))
  ∧ (∀ (i : Fin 4) (m : BitVec 16) (v : Word),
    (syncOpen s i = true → remoteOk s m.toNat = true →
      (∀ (c : Instr) (set : Bool) (o : SyncObj), (c, set) ∈ ([(.inboundAddSignal i m v, false), (.inboundSetSignal i m v, true)] : List (Instr × Bool)) →
        sigObj (getObj s m.toNat) set v = .done o → ∃ t, exec c s = .next t ∧ getObj t m.toNat = o
          ∧ (∀ k : Nat, k ≠ m.toNat → getObj t k = getObj s k) ∧ t.hif.answers = s.hif.answers ++ [some []] ∧ OnlyIn [.sync, .sched, .hif] s t)
      ∧ (∀ (old : Word) (o : SyncObj), takeObj (getObj s m.toNat) v = .got old o → ∃ t, exec (.inboundTake i m v) s = .next t
          ∧ getObj t m.toNat = o ∧ (∀ k : Nat, k ≠ m.toNat → getObj t k = getObj s k)
          ∧ t.hif.answers = s.hif.answers ++ [some (toLE 4 old.toNat)]
          ∧ getD64 t (reg .syn 0 0x118) = getD64 s (reg .syn 0 0x118) + 1 ∧ OnlyIn [.sync, .sched, .hif, .bus] s t))
    ∧ (syncOpen s i = true → ∃ t, exec (.inboundValueRead i m) s = .next t
        ∧ t.hif.answers = s.hif.answers ++ [some (toLE 4 (getObj s m.toNat).value.toNat)] ∧ OnlyIn [.hif] s t)
    ∧ (syncOpen s i = false →
        ∀ c ∈ ([.inboundAddSignal i m v, .inboundSetSignal i m v, .inboundTake i m v, .inboundValueRead i m] : List Instr),
        ∃ t, exec c s = .next t ∧ t.hif.answers = s.hif.answers ++ [none]
          ∧ getW t (reg .hif 7 0x180) = satAdd32 (getW s (reg .hif 7 0x180)) 1 ∧ OnlyIn [.hif, .bus] s t ∧ WordsOnly [reg .hif 7 0x180] s t)
    ∧ (syncOpen s i = true → remoteOk s m.toNat = false →
        ∀ c ∈ ([.inboundAddSignal i m v, .inboundSetSignal i m v, .inboundTake i m v] : List Instr),
        ∃ t, exec c s = .next t ∧ t.sync = s.sync ∧ t.hif.answers = s.hif.answers ++ [if c = .inboundTake i m v then some (toLE 4 0xFFFFFFFF) else some []]
          ∧ getW t (reg .syn 0 0x114) = satAdd32 (getW s (reg .syn 0 0x114)) 1 ∧ OnlyIn [.hif, .bus] s t))
  ∧ (∀ (u : State) (site : Site) (lf : LeafNo) (e : EngNo) (v : Word) (cid loc cond w n d a : Nat) (cmp : Word) (sat : Bool) (x : SyncDecl),
    (getLeaf s site lf).ctx = some cid → (getLeaf s site lf).st = .running ∨ (getLeaf s site lf).st = .resident → (getCtx s cid).killed = false →
    heldWait (getCtx s cid) e = some (.sync loc cond cmp sat) → mfind (getCtx s cid).syncs loc = some (.remote w n) →
    fabCheck s (getCtx s cid).part (remoteAddr s (getCtx s cid).part w n 0) 4 false = (.pass d a, u) →
    (ctxModule u (getCtx s cid)).syncs.find? (fun y => y.loc = loc) = some x →
    ∃ t, exec (.remotePoll site lf e v) s = .next t
      ∧ heldWait (getCtx t cid) e = some (.sync loc cond cmp (sat || waitCond ⟨ObjType.ofCode x.typ, v, 0, 0⟩ cond cmp))
      ∧ t.hif.fab = u.hif.fab ++ [⟨.read, d, BitVec.ofNat 64 a, []⟩] ∧ CtxOnly cid u t ∧ OnlyIn [.sched, .hif] u t)

/-- A peer's reads, writes and atomics reach exported granules as accesses of their owner; mesh links repeat, or fail and need a reset (spec/09_grid_and_granary.md R277, spec/12_memory_and_ownership.md R344, spec/12_memory_and_ownership.md R356, spec/13_cxl_host_and_fabric.md R360, spec/13_cxl_host_and_fabric.md R382, spec/13_cxl_host_and_fabric.md R383).
Where the spec is open it shows the model's choice: log 83. -/
def Obligations.InboundAccessesReachExportedMemory : Prop :=
  (∀ (s v : State) (i : Fin 4) (off : BitVec 37) (upset : List (Nat × Nat)), v = upsetLines s upset →
    (∀ (n : Fin 4097) (data : List (BitVec 8)) (a p : Nat) (u w : State) (l : List (BitVec 8)),
      (inAddr v i off.toNat n = some a → inCheck false (piecesOf 16384 a n) v = (some p, u) → readPassed u p a n true none = (some l, w) →
        ∃ t, exec (.inboundRead i off n upset) s = .next t ∧ t.hif = { w.hif with answers := w.hif.answers ++ [some l] } ∧ OnlyIn [.hif] w t)
      ∧ (inAddr v i off.toNat data.length = some a → inCheck true (piecesOf 16384 a data.length) v = (some p, u) →
        writePassed u p a data true none = (.ok, w) →
        ∃ t, exec (.inboundWrite i off data upset) s = .next t ∧ t.hif = { w.hif with answers := w.hif.answers ++ [some []] } ∧ OnlyIn [.hif] w t))
    ∧ (∀ (op : AtomOp) (wide : Bool) (x y : DWord) (a p k : Nat) (u w z : State) (l : List (BitVec 8)), k = (if wide then 8 else 4) →
      inAddr v i (off.toNat / k * k) k = some a → inCheck true (piecesOf 16384 a k) v = (some p, u) → readPassed u p a k true none = (some l, w) →
      writePassed w p a (toLE k (atomNew op (8 * k) (ofLE l) x.toNat y.toNat)) true none = (.ok, z) →
      ∃ t, exec (.inboundAtomic i off op wide x y upset) s = .next t ∧ t.hif = { z.hif with answers := z.hif.answers ++ [some l] } ∧ OnlyIn [.hif] z t)
    ∧ (∀ (n : Fin 4097) (u : State), inAddr v i off.toNat n = none ∧ u = v
        ∨ (∃ a : Nat, inAddr v i off.toNat n = some a ∧ inCheck false (piecesOf 16384 a n) v = (none, u)) →
      ∃ t, exec (.inboundRead i off n upset) s = .next t ∧ t.hif.answers = u.hif.answers ++ [none]
        ∧ getW t (reg .hif 7 0x180) = satAdd32 (getW u (reg .hif 7 0x180)) 1 ∧ OnlyIn [.hif, .bus] u t)
    ∧ (∀ (data : List (BitVec 8)) (u : State), inAddr v i off.toNat data.length = none ∧ u = v
        ∨ (∃ a : Nat, inAddr v i off.toNat data.length = some a ∧ inCheck true (piecesOf 16384 a data.length) v = (none, u)) →
      ∃ t, exec (.inboundWrite i off data upset) s = .next t ∧ t.hif.answers = u.hif.answers ++ [none]
        ∧ getW t (reg .hif 7 0x180) = satAdd32 (getW u (reg .hif 7 0x180)) 1 ∧ OnlyIn [.hif, .bus] u t))
  ∧ (∀ (s : State) (q : Fin 4),
    (∃ t, exec (.linkCrcError q) s = .next t ∧ getW t (reg .noc q 0x120) = satAdd32 (getW s (reg .noc q 0x120)) 1
      ∧ getW t (reg .noc q 0x18) = getW s (reg .noc q 0x18) ||| 0x100 ∧ OnlyIn [.bus] s t)
    ∧ (∀ ctxs : List Nat, ∃ t, exec (.linkDown q ctxs) s = .next t ∧ bitAt (getW t (reg .noc q 0x18)).toNat 9 = true
        ∧ devState t = 3 ∧ (∀ (k : Nat) (c : Ctx), mfind s.sched.ctxs k = some c → (getCtx t k).killed = true)))

/-- SET, SET_ZERO and BUMP check their arguments, mark their granules in transfer, and at their end write the new entries in both copies (spec/12_memory_and_ownership.md R345, spec/12_memory_and_ownership.md R346, spec/12_memory_and_ownership.md R350, spec/12_memory_and_ownership.md R351, spec/12_memory_and_ownership.md R352, spec/12_memory_and_ownership.md R353, spec/23_repair_and_errors.md R557, spec/24_security.md R576).
Where the spec is open it shows the model's choice: logs 53, 54. -/
def Obligations.OwnershipCommandsCheckThenRewriteEntries : Prop :=
  (∀ (s : State) (sig : Bool) (first count : Nat) (w : Word), pageReady s .own 0 = true → s.mem.cmd = none →
    first = getF s (reg .own 0 0x104) 0 24 → count = getF s (reg .own 0 0x108) 0 17 → w = getW s (reg .own 0 0x10C) →
    ∀ (c : Instr) (op : Nat), (c, op) ∈ ([(.ownSet sig, 1), (.ownSetZero sig, 2), (.ownBump sig, 3)] : List (Instr × Nat)) →
    (∀ (old : List Word) (u : State), 1 ≤ count → count ≤ 65536 → first + count ≤ 16777216 →
      (op ≠ 3 → badEntry w = false ∧ ∀ g ∈ granules first count, keyRefused s op w g = false) →
      (∀ g ∈ granules first count, ownFixed g = false) → readEntries (granules first count) s = (some old, u) →
      ∃ t, exec c s = .next t
        ∧ t.mem.cmd = some ⟨op, first, count, w, if sig then some (getF s (reg .own 0 0x110) 0 16) else none, old⟩
        ∧ (∀ g ∈ granules first count, ¬ (op = 3 ∧ mget false u.mem.fenced g = true) → entState (ownA t g) = 3 ∧ entState (ownB t g) = 3)
        ∧ (∀ g, g ∉ granules first count → ownA t g = ownA u g ∧ ownB t g = ownB u g) ∧ OnlyIn [.mem] u t)
    ∧ (∀ code : Nat,
        (count = 0 ∨ 65536 < count ∨ 16777216 < first + count) ∧ code = 4
        ∨ 1 ≤ count ∧ count ≤ 65536 ∧ first + count ≤ 16777216 ∧
          (op ≠ 3 ∧ badEntry w = true ∧ code = 1
          ∨ op ≠ 3 ∧ badEntry w = false ∧ (∃ g ∈ granules first count, keyRefused s op w g = true) ∧ code = 2
          ∨ (op ≠ 3 → badEntry w = false ∧ ∀ g ∈ granules first count, keyRefused s op w g = false)
            ∧ (∃ g ∈ granules first count, ownFixed g = true) ∧ code = 3) →
      ∃ t, exec c s = .next t ∧ getW t (reg .own 0 0x114) = BitVec.ofNat 32 code ∧ getW t (reg .own 0 0x118) = 0
        ∧ bitAt (getW t (reg .own 0 0x20)).toNat 1 = true ∧ OnlyIn [.bus] s t
        ∧ WordsOnly [reg .own 0 0x114, reg .own 0 0x118, reg .own 0 0x20] s t))
  ∧ (∀ (s : State) (c : OwnCmd), s.mem.cmd = some c → c.old.length = c.count → c.count < 2 ^ 32 →
    ∃ t, exec .ownCommandDone s = .next t ∧ t.mem.cmd = none
      ∧ (∀ i : Nat, i < c.count → ¬ (c.op = 3 ∧ mget false s.mem.fenced (c.first + i) = true) →
          ownA t (c.first + i) = newEntry c.op (c.old.getD i 0) c.entry ∧ ownB t (c.first + i) = newEntry c.op (c.old.getD i 0) c.entry
          ∧ mget false t.mem.fenced (c.first + i) = false)
      ∧ (∀ g, g ∉ granules c.first c.count → ownA t g = ownA s g ∧ ownB t g = ownB s g)
      ∧ (c.op = 2 → ∀ i j : Nat, i < c.count → c.first + i < 8781824 → j < 16384 → mget 0 t.mem.cells ((c.first + i) * 16384 + j) = 0)
      ∧ (c.op ≠ 2 → (∀ e ∈ s.grn.lines, e.2.lost = false) → t.mem.cells = s.mem.cells)
      ∧ getW t (reg .own 0 0x114) = 0 ∧ getW t (reg .own 0 0x118) = BitVec.ofNat 32 c.count
      ∧ bitAt (getW t (reg .own 0 0x20)).toNat 1 = true
      ∧ (c.sig = none → OnlyIn [.mem, .grn, .bus, .fresh] s t)
      ∧ (∀ (n : Nat) (o : SyncObj), c.sig = some n → sigObj (getObj s n) false 1 = .done o → getObj t n = o))

/-- Host reads answer a line they reach and all ones otherwise; host writes change their line alone; memory events count, scrubbing finds errors (spec/12_memory_and_ownership.md R338, spec/12_memory_and_ownership.md R340, spec/12_memory_and_ownership.md R341, spec/12_memory_and_ownership.md R349, spec/12_memory_and_ownership.md R354, spec/12_memory_and_ownership.md R357, spec/13_cxl_host_and_fabric.md R378, spec/23_repair_and_errors.md R558, spec/23_repair_and_errors.md R559).
Where the spec is open it shows the model's choice: logs 10, 103, 120, 121. -/
def Obligations.HostAccessesAndMemoryEventsKeepToTheirLines : Prop :=
  (∀ (s v : State) (ln : BitVec 33) (upset : BitVec 544), v = (if upset.toNat = 0 then s else errsAdd s ln.toNat upset.toNat) →
    (∀ u w : State, hostReaches v ln.toNat = (true, u) → dramLine u ln.toNat 63 = (.ok, w) →
      (∃ t, exec (.hostMemRead ln upset) s = .next t
        ∧ t.hif = { w.hif with answers := w.hif.answers ++ [some (linePlain w ln.toNat (lineTerms w ln.toNat).2.1)] } ∧ OnlyIn [.hif] w t)
      ∧ (∀ (mask : BitVec 64) (data : Line), mask.toNat ≠ 2 ^ 64 - 1 → ∃ t, exec (.hostMemWrite ln mask data upset) s = .next t
        ∧ lineCells t ln.toNat = maskBytes mask.toNat (linePlain w ln.toNat (lineTerms u ln.toNat).2.1) (lineBytes data)
        ∧ (∀ a : Nat, a / 64 ≠ ln.toNat → mget 0 t.mem.cells a = mget 0 w.mem.cells a) ∧ OnlyIn [.mem] w t))
    ∧ (∀ (u : State) (data : Line), hostReaches v ln.toNat = (true, u) → ∃ t, exec (.hostMemWrite ln (BitVec.allOnes 64) data upset) s = .next t
        ∧ lineCells t ln.toNat = lineBytes data ∧ (∀ a : Nat, a / 64 ≠ ln.toNat → mget 0 t.mem.cells a = mget 0 u.mem.cells a) ∧ OnlyIn [.mem] u t)
    ∧ (∀ (u : State) (mask : BitVec 64) (data : Line), hostReaches v ln.toNat = (false, u) →
      (∃ t, exec (.hostMemRead ln upset) s = .next t ∧ t.hif.answers = u.hif.answers ++ [some (List.replicate 64 0xFF)]
        ∧ getW t (reg .own 3 0x100) = satAdd32 (getW u (reg .own 3 0x100)) 1 ∧ OnlyIn [.hif, .bus] u t)
      ∧ (∃ t, exec (.hostMemWrite ln mask data upset) s = .next t ∧ t.mem = u.mem
        ∧ getW t (reg .own 3 0x100) = satAdd32 (getW u (reg .own 3 0x100)) 1 ∧ OnlyIn [.bus] u t))
    ∧ (∀ u w : State, hostReaches v ln.toNat = (true, u) → dramLine u ln.toNat 63 = (.bad, w) → ∃ t, exec (.hostMemRead ln upset) s = .next t
        ∧ t.hif.answers = w.hif.answers ++ [some (List.replicate 64 0xFF)] ∧ t.hif.ras = some (ln.toNat * 64)
        ∧ bitAt (getW t (reg .hif 0 0x20)).toNat 1 = true ∧ OnlyIn [.hif, .bus] w t))
  ∧ (∀ (s : State),
    (∀ d : Fin 24, ∃ t, exec (.gddr7Retry d) s = .next t ∧ getW t (reg .mem (1 + d) 0x108) = satAdd32 (getW s (reg .mem (1 + d) 0x108)) 1
      ∧ OnlyIn [.bus] s t ∧ WordsOnly [reg .mem (1 + d) 0x108] s t)
    ∧ (∀ (p : Fin 32) (n : Fin 97), isRadio s p = true → ∃ t, exec (.floorWindow p n) s = .next t
      ∧ getW t (reg .mem (25 + p / 8) (0x110 + 0x20 * (p % 8))) = satAdd32 (getW s (reg .mem (25 + p / 8) (0x110 + 0x20 * (p % 8)))) n
      ∧ OnlyIn [.bus] s t ∧ WordsOnly [reg .mem (25 + p / 8) (0x110 + 0x20 * (p % 8))] s t)
    ∧ (pageReady s .mem 0 = true → ∀ v : Word, v.toNat % 4 ≠ 3 →
      ((∀ e ∈ s.sched.parts, e.2.st = .free) → ∃ t, exec (.eccModeWrite v) s = .next t ∧ getF t (reg .mem 0 0x104) 0 2 = v.toNat % 4
        ∧ OnlyIn [.bus] s t ∧ WordsOnly [reg .mem 0 0x104] s t)
      ∧ ((∃ e ∈ s.sched.parts, e.2.st ≠ .free) → ∃ t, exec (.eccModeWrite v) s = .next t
        ∧ getW t (reg .mem 0 0x18) = getW s (reg .mem 0 0x18) ||| 0x800 ∧ getW t (reg .mem 0 0x104) = getW s (reg .mem 0 0x104) ∧ OnlyIn [.bus] s t))
    ∧ (getF s (reg .mem 0 0x108) 0 8 ≠ 0 → deviceUp s = true →
      (∀ (ln : BitVec 33) (pat : BitVec 544), mget 0 s.mem.errs ln.toNat = pat.toNat → ln.toNat = lastLine → ∃ t, exec (.scrubRead (.line ln pat)) s = .next t
        ∧ mget 0 t.mem.errs ln.toNat = 0 ∧ getW t (reg .mem 0 0x10C) = satAdd32 (getW s (reg .mem 0 0x10C)) 1
        ∧ OnlyIn [.mem, .bus] s t ∧ WordsOnly [reg .mem 0 0x10C] s t)
      ∧ (∀ (g : BitVec 24) (d : Word), ownFixed g.toNat = false → mget false s.mem.fenced g.toNat = false → ownA s g.toNat ≠ ownB s g.toNat ^^^ d →
        ∃ t, exec (.scrubRead (.own g d 0)) s = .next t ∧ mget false t.mem.fenced g.toNat = true ∧ bitAt (getW t (reg .rep 0 0x20)).toNat 4 = true
          ∧ ownA t g.toNat = ownA s g.toNat ∧ ownB t g.toNat = ownB s g.toNat ^^^ d)
      ∧ (∀ (p : Fin 32) (a b : BitVec 240), a ≠ b → (getPart s p).st ≠ .free → ∃ t, exec (.scrubRead (.part p a b)) s = .next t
          ∧ mfind t.rep.partConf p = some (a.toNat, b.toNat) ∧ bitAt (getW t (reg .rep 0 0x20)).toNat 4 = true
          ∧ (∀ (k : Nat) (c : Ctx), mfind s.sched.ctxs k = some c → c.part = p → (getCtx t k).killed = true))
      ∧ (∀ (i : Fin 4096) (b : DtEntry), (i : Nat) < s.rep.dtB.length → s.rep.dtB[(i : Nat)]? ≠ some b → dtConflict s i = false →
        ∃ t, exec (.scrubRead (.dutchman i b)) s = .next t ∧ t.rep.dtB = s.rep.dtB.set i b ∧ t.rep.dtA = s.rep.dtA
          ∧ bitAt (getW t (reg .rep 0 0x20)).toNat 4 = true)))

/-- Rings start empty, doorbells move their indices, entries are fetched whole, completions are written, held or dropped, and observed in order (spec/13_cxl_host_and_fabric.md R363, spec/13_cxl_host_and_fabric.md R364, spec/13_cxl_host_and_fabric.md R365, spec/13_cxl_host_and_fabric.md R366, spec/13_cxl_host_and_fabric.md R370, spec/13_cxl_host_and_fabric.md R371, spec/13_cxl_host_and_fabric.md R372, spec/13_cxl_host_and_fabric.md R376).
Where the spec is open it shows the model's choice: logs 19, 20, 47, 48, 49. -/
def Obligations.RingsFetchEntriesAndPostCompletions : Prop :=
  (∀ (s : State) (n : BitVec 13) (v : Word) (r : Ring), r = getRing s n.toNat →
    (pageReady s .hif 1 = true → ringSel s = n.toNat →
      ((getSlice s n.toNat).st = .active → r.enabled = false → ∃ t, exec .ringEnable s = .next t
        ∧ getRing t n.toNat = { Ring.off with enabled := true, awaiting := r.awaiting }
        ∧ (∀ k : Nat, k ≠ n.toNat → getRing t k = getRing s k) ∧ OnlyIn [.hif] s t)
      ∧ ((getSlice s n.toNat).st ≠ .active → ∃ t, exec .ringEnable s = .next t ∧ getW t (reg .hif 1 0x18) = getW s (reg .hif 1 0x18) ||| 0x200
        ∧ OnlyIn [.bus] s t)
      ∧ (r.enabled = true → ∃ t, exec .ringDisable s = .next t
        ∧ getRing t n.toNat = { r with enabled := false, held := [], entry := none }
        ∧ getW t (ringReg n.toNat 0x128) = satAdd32 (getW s (ringReg n.toNat 0x128)) r.held.length
        ∧ (∀ k : Nat, k ≠ n.toNat → getRing t k = getRing s k) ∧ OnlyIn [.hif, .bus] s t ∧ WordsOnly [ringReg n.toNat 0x128] s t))
    ∧ (r.enabled = true →
      (v.toNat % 2 ^ 16 < sqSize s n.toNat → ∃ t, exec (.sqTail n v) s = .next t
        ∧ getRing t n.toNat = { r with sqTail := v.toNat % 2 ^ 16 } ∧ (∀ k : Nat, k ≠ n.toNat → getRing t k = getRing s k) ∧ OnlyIn [.hif] s t)
      ∧ (sqSize s n.toNat ≤ v.toNat % 2 ^ 16 → ∃ t, exec (.sqTail n v) s = .next t ∧ getRing t n.toNat = { r with sqErr := true } ∧ OnlyIn [.hif] s t)
      ∧ (r.held = [] → (v.toNat % 2 ^ 16 % cqSize s n.toNat + cqSize s n.toNat - r.cqHead) % cqSize s n.toNat
            ≤ (r.cqWrite + cqSize s n.toNat - r.cqHead) % cqSize s n.toNat →
          ∃ t, exec (.cqHead n v) s = .next t ∧ getRing t n.toNat = { r with cqHead := v.toNat % 2 ^ 16 % cqSize s n.toNat } ∧ OnlyIn [.hif] s t))
    ∧ (mayFetch s n.toNat = true → ∀ (env : XferEnv) (u : State),
      (∀ l : List (BitVec 8), hostRead s (getSlice s n.toNat).pasid ((getD64 s (ringReg n.toNat 0x108)).toNat + 64 * r.sqHead) 64 env.ats env.data = (.ok l, u) →
        (entBad (bytesLine l) = false → ∃ t, exec (.entryFetch n env) s = .next t
          ∧ getRing t n.toNat = { r with sqHead := (r.sqHead + 1) % sqSize s n.toNat, entry := some (bytesLine l) } ∧ OnlyIn [.hif] u t)
        ∧ (entBad (bytesLine l) = true → ∃ w, exec (.entryFetch n env) s = .next (settle (completeEntry w n.toNat (entF (bytesLine l) 8 8) 3 0))
          ∧ getRing w n.toNat = { r with sqHead := (r.sqHead + 1) % sqSize s n.toNat } ∧ OnlyIn [.hif] u w))
      ∧ (hostRead s (getSlice s n.toNat).pasid ((getD64 s (ringReg n.toNat 0x108)).toNat + 64 * r.sqHead) 64 env.ats env.data = (.refused, u) →
        ∃ t, exec (.entryFetch n env) s = .next t ∧ getRing t n.toNat = { r with xlateErr := true } ∧ OnlyIn [.hif] u t))
    ∧ (∀ w : Watch, s.hif.watches.find? (fun w => w.slice = n.toNat && w.sat) = some w →
      exec (.watchSatisfied n) s = .next (settle (completeEntry { s with hif := { s.hif with watches := s.hif.watches.erase w } } n.toNat w.tag 0 0)))
    ∧ (∀ h : HeldCpl, r.held.find? (fun e => e.kind = 2 && e.since + 1000000 ≤ nowNs s) = some h → ∃ t, exec (.heldFaultDrop n) s = .next t
      ∧ getRing t n.toNat = { r with held := r.held.erase h } ∧ getW t (ringReg n.toNat 0x128) = satAdd32 (getW s (ringReg n.toNat 0x128)) 1
      ∧ OnlyIn [.hif, .bus] s t)
    ∧ (∀ (w : HostWr) (rest : List HostWr) (ats : List (Option AtsAns)) (u : State), r.awaiting = w :: rest → s.hif.linkUp = true →
      hostWriteLines (getSlice s n.toNat).pasid (piecesOf 64 w.addr w.data.length) ats s = (true, u) →
      ∃ t, exec (.globalObservationResponse n ats) s = .next t ∧ getRing t n.toNat = { getRing u n.toNat with awaiting := rest }
        ∧ t.hif.hostW = u.hif.hostW ++ [w] ∧ OnlyIn [.hif, .bus] u t ∧ WordsOnly [] u t))
  ∧ (∀ (s : State) (sl : Nat) (e : HeldCpl) (r : Ring), r = getRing s sl →
    (r.enabled = true → cqFull s sl = false → r.held = [] → ∃ w : HostWr, getRing (complete s sl e) sl =
        { r with cqWrite := (r.cqWrite + 1) % cqSize s sl, phase := (if (r.cqWrite + 1) % cqSize s sl = 0 then !r.phase else r.phase), awaiting := r.awaiting ++ [w] }
      ∧ w.data = cplBytes e r.phase ∧ w.addr = (getD64 s (ringReg sl 0x110)).toNat + 32 * r.cqWrite ∧ w.pasid = some (getSlice s sl).pasid)
    ∧ (r.enabled = true → cqFull s sl = true ∨ r.held ≠ [] → r.held.length < 256 →
      getRing (complete s sl e) sl = { r with held := r.held ++ [{ e with since := nowNs s }] })
    ∧ (r.enabled = false → getW (complete s sl e) (ringReg sl 0x128) = satAdd32 (getW s (ringReg sl 0x128)) 1 ∧ getRing (complete s sl e) sl = r))

/-- KICK signals an object of the slice's partition, LAUNCH requests a load, LEASE sets the lease of the partition, and a lapsed lease faults (spec/08_ubvovar_loader.md R242, spec/13_cxl_host_and_fabric.md R368, spec/13_cxl_host_and_fabric.md R369, spec/13_cxl_host_and_fabric.md R380, spec/13_cxl_host_and_fabric.md R381).
Where the spec is open it shows the model's choice: log 47. -/
def Obligations.SubmissionEntriesActForTheirSlice : Prop :=
  ∀ (s : State) (n : BitVec 13) (e : Line) (p : Nat), (getRing s n.toNat).entry = some e → p = (getSlice s n.toNat).part →
  (entB e 0 = 2 →
    (∀ o : SyncObj, objOwner s (entF e 16 2) = p → sigObj (getObj s (entF e 16 2)) (decide (entB e 18 = 1)) (BitVec.ofNat 32 (entF e 20 4)) = .done o →
      (entB e 1 ≠ 1 → ∃ u, exec (.kick n) s = .next (settle (completeEntry u n.toNat (entF e 8 8) 0 0)) ∧ getObj u (entF e 16 2) = o
        ∧ (∀ k : Nat, k ≠ entF e 16 2 → getObj u k = getObj s k) ∧ OnlyIn [.hif, .sync, .sched] s u)
      ∧ (entB e 1 = 1 → objOwner s (entF e 24 2) = p → ∃ t, exec (.kick n) s = .next t ∧ getObj t (entF e 16 2) = o
        ∧ t.hif.watches.getLast? = some ⟨n.toNat, entF e 24 2, BitVec.ofNat 32 (entF e 28 4), entF e 8 8,
            waitCond (getObj t (entF e 24 2)) 0 (BitVec.ofNat 32 (entF e 28 4))⟩
        ∧ (getRing t n.toNat).entry = none ∧ OnlyIn [.hif, .sync, .sched] s t))
    ∧ (objOwner s (entF e 16 2) ≠ p ∨ entB e 1 = 1 ∧ objOwner s (entF e 24 2) ≠ p →
      ∃ u, exec (.kick n) s = .next (settle (completeEntry u n.toNat (entF e 8 8) 4 0)) ∧ OnlyIn [.hif] s u))
  ∧ (entB e 0 = 1 → ∃ t, exec (.launch n) s = .next t
    ∧ t.sched = { s.sched with loads := mput s.sched.loads (keyAfter s.sched.loads) ⟨p, n.toNat, false, entF e 8 8, entB e 1, entF e 16 8,
        entF e 24 4, entF e 32 8, entF e 40 2, entF e 28 4, entB e 42, entF e 48 8, none⟩ }
    ∧ (getRing t n.toNat).entry = none ∧ OnlyIn [.hif, .sched] s t)
  ∧ (entB e 0 = 3 →
    (getF s (ringReg n.toNat 0x11C) 17 1 = 1 → entF e 16 8 ≤ 10000000000 →
      ∃ u, exec (.lease n) s = .next (settle (completeEntry u n.toNat (entF e 8 8) 0 0))
        ∧ getD64 u (reg .hif 6 (0x100 + 8 * p)) = BitVec.ofNat 64 (nowNs s + entF e 16 8)
        ∧ (entF e 16 8 ≠ 0 → mget false u.hif.lapsed p = false) ∧ OnlyIn [.hif, .bus] s u)
    ∧ (getF s (ringReg n.toNat 0x11C) 17 1 = 0 → ∃ u, exec (.lease n) s = .next (settle (completeEntry u n.toNat (entF e 8 8) 5 0)) ∧ OnlyIn [.hif] s u))
  ∧ (∀ v : Word, pageReady s .hif 6 = true → ∃ t, exec (.leaseRevoke v) s = .next t
    ∧ (∀ q : Nat, q < 32 → getD64 t (reg .hif 6 (0x100 + 8 * q)) = if bitAt v.toNat q then 0 else getD64 s (reg .hif 6 (0x100 + 8 * q)))
    ∧ OnlyIn [.bus] s t)
  ∧ (∀ (q : Fin 32) (waiting : List Nat), leaseValid s q = false → mget false s.hif.lapsed q = false → ∃ t, exec (.leaseLapse q waiting) s = .next t
    ∧ mget false t.hif.lapsed q = true
    ∧ (∀ (k : Nat) (c : Ctx), k ∈ waiting → mfind s.sched.ctxs k = some c → c.part = (q : Nat) → (getCtx t k).killed = true)
    ∧ (∀ (k : Nat), ¬ (k ∈ waiting ∧ (getCtx s k).part = (q : Nat)) → getCtx t k = getCtx s k))

/-- Timeouts stop the ring or fault the context that waited; invalidations remove translations; snoops read or drop held lines; the link follows (spec/01_architecture.md R18, spec/13_cxl_host_and_fabric.md R361, spec/13_cxl_host_and_fabric.md R362, spec/13_cxl_host_and_fabric.md R365, spec/13_cxl_host_and_fabric.md R374, spec/13_cxl_host_and_fabric.md R375, spec/13_cxl_host_and_fabric.md R376).
Where the spec is open it shows the model's choice: logs 18, 48. -/
def Obligations.LinkTranslationsAndSnoopsFollowTheHost : Prop :=
  ∀ s : State,
    (∀ n : BitVec 13, mayFetch { s with hif := { s.hif with linkUp := true } } n.toNat = true → ∃ t, exec (.completionTimeout (.fetch n)) s = .next t
      ∧ getRing t n.toNat = { getRing s n.toNat with xlateErr := true } ∧ t.hif.timedOut = s.hif.timedOut + 1 ∧ OnlyIn [.hif] s t)
    ∧ (∀ n : BitVec 13, (getRing s n.toNat).awaiting ≠ [] → ∃ t, exec (.completionTimeout (.write n)) s = .next t
      ∧ getRing t n.toNat = { getRing s n.toNat with awaiting := [], xlateErr := true } ∧ t.hif.timedOut = s.hif.timedOut + 1 ∧ OnlyIn [.hif] s t)
    ∧ (∀ (site : Site) (lf : LeafNo) (e : EngNo) (cid : Nat) (c : Ctx) (x : Eng) (o : HoistOp), hoistAt s site lf e = some (cid, c, x, o) →
      o.offSp = 5 ∨ o.offSp = 6 → o.done < o.total → ∃ (i st : Nat), exec (.completionTimeout (.xfer site lf e)) s =
        .next (settle (ctxFault { s with hif := { s.hif with timedOut := s.hif.timedOut + 1 } } cid cfHostTimeout i st)))
    ∧ (s.hif.timedOut ≠ 0 → ∃ t, exec .lateCompletion s = .next t ∧ t.hif = { s.hif with timedOut := s.hif.timedOut - 1 }
      ∧ getW t (reg .hif 0 0x104) = satAdd32 (getW s (reg .hif 0 0x104)) 1 ∧ getW t (reg .hif 0 0x18) = getW s (reg .hif 0 0x18) ||| 0x100
      ∧ OnlyIn [.hif, .bus] s t)
    ∧ (∀ (pasid : BitVec 20) (va : DWord) (k : Fin 64), ∃ t, exec (.atsInvalidation pasid va k) s = .next t
      ∧ (∀ e : TlbEnt, e ∈ t.hif.tlb ↔ e ∈ s.hif.tlb ∧ ¬ (e.pasid = pasid.toNat ∧ e.va < va.toNat / 2 ^ (k : Nat) * 2 ^ (k : Nat) + 2 ^ (k : Nat)
          ∧ va.toNat / 2 ^ (k : Nat) * 2 ^ (k : Nat) < e.va + 2 ^ e.log))
      ∧ t.hif.inval = s.hif.inval ++ [(pasid.toNat, va.toNat, (k : Nat))] ∧ t.hif.hlc = s.hif.hlc ∧ t.hif.rings = s.hif.rings ∧ OnlyIn [.hif] s t)
    ∧ (∀ (a : Nat × Nat × Nat) (r : List (Nat × Nat × Nat)), s.hif.inval = a :: r → ∃ t, exec .invalidationComplete s = .next t
      ∧ t.hif = { s.hif with inval := r } ∧ getD64 t (reg .hif 0 0x110) = getD64 s (reg .hif 0 0x110) + 1 ∧ OnlyIn [.hif, .bus] s t)
    ∧ (∀ ln : BitVec 58,
      (∀ c ∈ ([.snpData ln, .snpCur ln] : List Instr), ∃ t, exec c s = .next t
        ∧ t.hif = { s.hif with answers := s.hif.answers ++ [(mfind s.hif.hlc ln.toNat).map (fun l => lineBytes l.data)] } ∧ OnlyIn [.hif] s t)
      ∧ (∃ t, exec (.snpInv ln) s = .next t ∧ mfind t.hif.hlc ln.toNat = none
        ∧ (∀ k : Nat, k ≠ ln.toNat → mfind t.hif.hlc k = mfind s.hif.hlc k) ∧ OnlyIn [.hif] s t))
    ∧ (∃ t, exec .cxlLinkDown s = .next t ∧ t.hif = { s.hif with linkUp := false } ∧ OnlyIn [.hif] s t)
    ∧ (∃ t, exec .cxlLinkUp s = .next t ∧ t.hif = { s.hif with linkUp := true } ∧ OnlyIn [.hif] s t)
    ∧ (∃ t, exec .workshopStopsResponding s = .next t ∧ t.sched = { s.sched with workshop := false } ∧ OnlyIn [.sched] s t)

/-- A configuration that passes binds the cell and its objects, slots are reported once done, and a removal frees the cell after its last slot (spec/14_radio_pipeline.md R387, spec/14_radio_pipeline.md R388, spec/14_radio_pipeline.md R389, spec/14_radio_pipeline.md R390, spec/14_radio_pipeline.md R391, spec/14_radio_pipeline.md R405, spec/14_radio_pipeline.md R406).
Where the spec is open it shows the model's choice: logs 56, 57, 58, 67. -/
def Obligations.CellsAreConfiguredReportedAndRemoved : Prop :=
  (∀ (s u : State) (sl : BitVec 13) (e : Line) (env : XferEnv) (l : List (BitVec 8)) (n : Nat), (getRing s sl.toNat).entry = some e → entB e 0 = 4 → entB e 16 = 1 →
    n = entF e 18 2 → n < 512 → entF e 20 4 = 128 → entF e 32 8 = 0 → hostRead s (slPasid s sl.toNat) (entF e 24 8) 128 env.ats env.data = (.ok l, u) →
    (∀ cid : Nat, cfgVerdict u sl.toNat n l = (0, 0) → servingCtx u sl.toNat (cfgOf l) = some cid →
      ∃ v, exec (.configureCell sl env) s = .next (settle (completeEntry v sl.toNat (entF e 8 8) 0 0))
        ∧ cellBound v n = true ∧ (getCell v n).ctx = some cid ∧ (getCell v n).cfg = cfgOf l ∧ (getCell v n).slots = [] ∧ (getCell v n).stop = none
        ∧ (getCell v n).part = (getSlice u sl.toNat).part ∧ (getCell v n).slice = sl.toNat ∧ (getCell v n).raised = 0
        ∧ (∀ k : Nat, k ≠ n → getCell v k = getCell u k) ∧ (getRing v sl.toNat).entry = none
        ∧ (∀ o ∈ (cfgOf l).flags, getObj v o = ⟨.flag, 0, 0, 0⟩) ∧ (∀ o ∈ (cfgOf l).barriers, o ∉ (cfgOf l).flags → getObj v o = ⟨.barrier, 0, 1, 0⟩))
    ∧ ((cfgVerdict u sl.toNat n l).1 ≠ 0 → ∃ v, exec (.configureCell sl env) s =
        .next (settle (completeEntry v sl.toNat (entF e 8 8) (cfgVerdict u sl.toNat n l).1 (cfgVerdict u sl.toNat n l).2)) ∧ OnlyIn [.hif] u v))
  ∧ (∀ (s : State) (sl : BitVec 13) (e : Line) (n : Nat), (getRing s sl.toNat).entry = some e → entB e 0 = 4 → entB e 16 = 2 →
    n = entF e 18 2 → n < 512 → cellBound s n = true → (getCell s n).slice = sl.toNat →
    (∀ k : Nat, reached (nowNs s) (entF e 32 8) = false → stopSlot (getCell s n) (entF e 32 8) = some k →
      ∃ v, exec (.removeCell sl) s = .next (settle (completeEntry v sl.toNat (entF e 8 8) 0 0))
        ∧ getCell v n = { getCell s n with stop := some k, slots := (getCell s n).slots.filter (fun x => x.1 < k) }
        ∧ (∀ j : Nat, j ≠ n → getCell v j = getCell s j) ∧ OnlyIn [.cells, .hif, .bus] s v)
    ∧ (reached (nowNs s) (entF e 32 8) = true → (getCell s n).ctx = none →
      ∃ v, exec (.removeCell sl) s = .next (settle (completeEntry v sl.toNat (entF e 8 8) 0 0))
        ∧ cellBound v n = false ∧ (∀ o ∈ (getCell s n).cfg.barriers ++ (getCell s n).cfg.flags, getObj v o = SyncObj.blank)))
  ∧ (∀ (s : State) (n : Fin 512) (k : Nat), (getCell s n).stop = some k → reached (nowNs s) ((getCell s n).slotAt k) = true →
    (∀ e ∈ (getCell s n).slots, e.1 < k → slotComplete (getCell s n) e.2 = true) →
    ∃ t, exec (.cellRemoveApply n) s = .next t ∧ cellBound t n = false ∧ (∀ j : Nat, j ≠ n → getCell t j = getCell s j)
      ∧ (∀ o ∈ (getCell s n).cfg.barriers ++ (getCell s n).cfg.flags, getObj t o = SyncObj.blank) ∧ (∀ e ∈ t.net.flows, e.2.cell ≠ n))
  ∧ (∀ (s : State) (n : Fin 512) (k : Word) (tag addr : Nat), cellBound s n = true → (getCell s n).ctx.isSome = true →
    ((getCell s n).slot k.toNat).staged = true → ((getCell s n).slot k.toNat).aux = some (tag, addr) →
    ((getCell s n).slot k.toNat).phases = cellPhases s (getCell s n) → ((getCell s n).slot k.toNat).left = 2 ^ 14 - 1 →
    ((getCell s n).slot k.toNat).flags = 2 ^ 14 - 1 →
    ∃ (v : State) (w : HostWr), exec (.slotStatusWrite n k) s = .next (settle (completeEntry v (getCell s n).slice tag 0 0))
      ∧ (getRing v (getCell s n).slice).awaiting = (getRing s (getCell s n).slice).awaiting ++ [w] ∧ w.addr = addr
      ∧ w.data = statusBytes n (getCell s n) k.toNat ((getCell s n).slot k.toNat) false ((getCell s n).slot k.toNat).doneNs
      ∧ (getCell v n).slot k.toNat = { (getCell s n).slot k.toNat with aux := none } ∧ (getCell v n).reported = (getCell s n).reported + 1
      ∧ OnlyIn [.cells, .hif, .bus] s v)

/-- A valid list is staged for its slot and raises the list object in slot order; a slot without a list at its deadline is staged as missing (spec/14_radio_pipeline.md R392, spec/14_radio_pipeline.md R393, spec/14_radio_pipeline.md R394, spec/14_radio_pipeline.md R395, spec/14_radio_pipeline.md R396).
Where the spec is open it shows the model's choice: logs 55, 56, 58, 65, 66, 69. -/
def Obligations.SlotListsAreStagedForTheirSlot : Prop :=
  (∀ (s u : State) (sl : BitVec 13) (e : Line) (env : XferEnv) (tbs : List XferEnv) (l : List (BitVec 8)) (n : Nat),
    (getRing s sl.toNat).entry = some e → entB e 0 = 4 → entB e 16 = 0 → n = entF e 18 2 → n < 512 → 64 ≤ entF e 20 4 → entF e 20 4 ≤ 64 + 32 * 1024 →
    entF e 20 4 % 32 = 0 → cellBound s n = true → (getCell s n).slice = sl.toNat → (getCell s n).ctx ≠ none →
    hostRead s (slPasid s sl.toNat) (entF e 24 8) (entF e 20 4) env.ats env.data = (.ok l, u) →
    (∀ (k : Nat) (v : State) (blocks : List (Nat × List (BitVec 8))), headOk n (getCell s n).cfg l.length (l.take 64) = true →
      (∀ r ∈ chunksOf 32 1024 (l.drop 64), recOk (getCell s n).cfg (leAt l 24 4) r = true) → (getCell s n).slotOf (leAt l 16 8) = some k →
      (∀ z, (getCell s n).stop = some z → k < z) → (k : Int) ≤ slotsSince s (getCell s n) + 4 → ((getCell s n).slot k).staged = false →
      reached (listDeadline s (getCell s n) k) (nowNs s) = true →
      readTbs (slPasid u sl.toNat) (leAt l 32 8) ((chunksOf 32 1024 (l.drop 64)).map recOf) tbs u = (some (some blocks), v) →
      ∃ t, exec (.slotWorkList sl env tbs) s = .next t
        ∧ ((getCell t n).slot k).staged = true ∧ ((getCell t n).slot k).recs = (chunksOf 32 1024 (l.drop 64)).map recOf
        ∧ ((getCell t n).slot k).sfn = leAt l 8 2 ∧ ((getCell t n).slot k).slotNo = leAt l 10 1
        ∧ ((getCell t n).slot k).aux = some (entF e 8 8, entF e 32 8) ∧ (getRing t sl.toNat).entry = none
        ∧ (∀ o : SyncObj, (getCell s n).raised = k → ((getCell s n).slot (k + 1)).staged = false →
            sigObj (getObj s (getCell s n).cfg.listObj) false 1 = .done o →
            getObj t (getCell s n).cfg.listObj = o ∧ (getCell t n).raised = k + 1))
    ∧ (headOk n (getCell s n).cfg l.length (l.take 64) = false → ∃ v, exec (.slotWorkList sl env tbs) s =
        .next (settle (completeEntry v sl.toNat (entF e 8 8) 3 0)) ∧ OnlyIn [.hif] u v))
  ∧ (∀ (s : State) (n : Fin 512) (k : Word), cellBound s n = true → (∀ z, (getCell s n).stop = some z → k.toNat < z) →
    ((getCell s n).slot k.toNat).staged = false → reached (nowNs s) (listDeadline s (getCell s n) k.toNat) = true →
    ∃ t, exec (.listDeadline n k) s = .next t ∧ ((getCell t n).slot k.toNat).staged = true ∧ ((getCell t n).slot k.toNat).missing = true
      ∧ ((getCell t n).slot k.toNat).aux = ((getCell s n).slot k.toNat).aux)

/-- Downlink symbols latch once, C-plane messages go once their window opens, uplink windows close with their flag, messages count up per stream (spec/14_radio_pipeline.md R397, spec/14_radio_pipeline.md R398, spec/16_fronthaul_ports.md R433, spec/16_fronthaul_ports.md R438, spec/16_fronthaul_ports.md R440, spec/16_fronthaul_ports.md R445, spec/16_fronthaul_ports.md R447).
Where the spec is open it shows the model's choice: logs 59, 62, 71, 72. -/
def Obligations.SluiceMovesSymbolsInTheirWindows : Prop :=
  (∀ (s : State) (n : Fin 512) (k : Word) (sym : Fin 14) (upset : List (Nat × Nat)) (x : CellSlot), x = (getCell s n).slot k.toNat →
    cellBound s n = true → x.staged = true → bitAt x.latched sym = false → reached (nowNs s) (latchTime s (getCell s n) k.toNat sym) = true →
    ∃ t, exec (.dlLatch n k sym upset) s = .next t
      ∧ ((getCell t n).slot k.toNat).latched = x.latched ||| 2 ^ (sym : Nat)
      ∧ ((getCell t n).slot k.toNat).ready = (if dlReady s (getCell s n) (14 * k.toNat + sym) then x.ready ||| 2 ^ (sym : Nat) else x.ready)
      ∧ ((getCell t n).slot k.toNat).left = (if dlSections x sym = [] then x.left ||| 2 ^ (sym : Nat) else x.left)
      ∧ ((getCell t n).slot k.toNat).dlFill = (if dlReady s (getCell s n) (14 * k.toNat + sym) = false ∧ dlSections x sym ≠ [] then x.dlFill + 1 else x.dlFill))
  ∧ (∀ (s : State) (n : Fin 512) (k : Word) (i : Fin 1024) (x : CellSlot) (r : SlotRec), x = (getCell s n).slot k.toNat → cellBound s n = true →
    x.staged = true → x.recs[(i : Nat)]? = some r → bitAt x.cplane i = false →
    (∃ dl ∈ recDirs r, reached (nowNs s) (cWindow s (getCell s n) (flowDesc s (getCell s n).cfg.flow) k.toNat r.symStart dl).1 = true) →
    ∃ u, exec (.cplaneRelease n k i) s = .next (settle ((recDirs r).foldl (fun s' dl => cSend s' (getCell s n) k.toNat i r dl) u))
      ∧ ((getCell u n).slot k.toNat) = { x with cplane := x.cplane ||| 2 ^ (i : Nat) } ∧ OnlyIn [.cells] s u)
  ∧ (∀ (s : State) (n : Fin 512) (k : Word) (sym : Fin 14) (x : CellSlot), x = (getCell s n).slot k.toNat → cellBound s n = true → x.staged = true →
    bitAt x.flags sym = false → reached (nowNs s) (symTime s (getCell s n) k.toNat sym + (flowDesc s (getCell s n).cfg.flow).ta4Max) = true →
    ∃ t, exec (.ulWindowClose n k sym) s = .next t ∧ ((getCell t n).slot k.toNat).flags = x.flags ||| 2 ^ (sym : Nat)
      ∧ x.erased ≤ ((getCell t n).slot k.toNat).erased
      ∧ ((getCell s n).ctx = none → ((getCell t n).slot k.toNat).erased = x.erased)
      ∧ (∀ o : SyncObj, o = getObj s ((getCell s n).cfg.flagObj + sym) → o.typ = .flag → getObj t ((getCell s n).cfg.flagObj + sym) =
          { o with value := (o.value ||| BitVec.ofNat 32 (2 ^ (k.toNat % 32))) &&& ~~~ BitVec.ofNat 32 (2 ^ ((k.toNat + 16) % 32)) }))
  ∧ (∀ (s : State) (f typ ax p : Nat) (dl : Bool) (body : List (BitVec 8)) (win : Nat × Nat) (sym : Option (Nat × Nat × Nat)) (x : Flow),
    mfind s.net.flows f = some x → (flowDesc s f).ports = [p] → (flowDesc s f).frer = false →
    (∃ y, mfind (sendMsg s f typ dl ax body win sym).net.flows f = some y ∧ y.cell = x.cell
      ∧ mget 0 y.txSeq (2 * ax + b2n dl) = (mget 0 x.txSeq (2 * ax + b2n dl) + 1) % 256
      ∧ (∀ j : Nat, j ≠ 2 * ax + b2n dl → mget 0 y.txSeq j = mget 0 x.txSeq j))
    ∧ (∃ q, getQueue (sendMsg s f typ dl ax body win sym) q = { getQueue s q with frames := (getQueue s q).frames ++
          [⟨flowFrame s (flowDesc s f) p none (ecpriBytes typ ((flowDesc s f).eaxc + ax) (mget 0 x.txSeq (2 * ax + b2n dl)) body), some win, nowNs s, sym, none⟩] }
        ∧ ∀ j : Nat, j ≠ q → getQueue (sendMsg s f typ dl ax body win sym) j = getQueue s j))

/-- A configuration write takes the link down and retrains, conflicts are refused, links and lane signals follow, ESMC frames pass whole (spec/16_fronthaul_ports.md R427, spec/16_fronthaul_ports.md R428, spec/16_fronthaul_ports.md R429, spec/16_fronthaul_ports.md R430, spec/16_fronthaul_ports.md R431, spec/16_fronthaul_ports.md R432, spec/16_fronthaul_ports.md R449, spec/16_fronthaul_ports.md R450).
Where the spec is open it shows the model's choice: logs 82, 97, 99. -/
def Obligations.PortsTakeTheirModeLanesAndLinks : Prop :=
  ∀ (s : State) (p : Fin 16),
    (∀ m : Fin 4,
      (modeConflict s p m = false → ∃ t, exec (.modeWrite p m) s = .next t ∧ portMode t p = m
        ∧ (getPort t p).up = false ∧ (getPort t p).training = decide ((m : Nat) ≠ 0) ∧ (∀ q : Nat, q ≠ p → getPort t q = getPort s q)
        ∧ OnlyIn [.net, .bus, .gov] s t)
      ∧ (modeConflict s p m = true → ∃ t, exec (.modeWrite p m) s = .next t
        ∧ getW t (reg .eth p 0x18) = getW s (reg .eth p 0x18) ||| 0x100 ∧ getW t (reg .eth p 0x10) = getW s (reg .eth p 0x10) ∧ OnlyIn [.bus] s t))
    ∧ (∀ v : Word, pageReady s .eth p = true →
      ((∀ l ∈ lanesOf v.toNat, l < 18) → (lanesOf v.toNat).eraseDups = lanesOf v.toNat →
        (∀ l ∈ lanesOf v.toNat, ∀ q : Nat, q < 16 → q ≠ p → l ∉ lanesOf (getW s (reg .eth q 0x100)).toNat) →
        ∃ t, exec (.laneMapWrite p v) s = .next t ∧ getW t (reg .eth p 0x100) = v &&& 0x1F1F1F1F
          ∧ (portMode s p ≠ 0 → (getPort t p).up = false ∧ (getPort t p).training = true) ∧ OnlyIn [.net, .bus, .gov] s t)
      ∧ ((∃ l ∈ lanesOf v.toNat, 18 ≤ l) → ∃ t, exec (.laneMapWrite p v) s = .next t
          ∧ getW t (reg .eth p 0x18) = getW s (reg .eth p 0x18) ||| 1 ∧ getW t (reg .eth p 0x100) = getW s (reg .eth p 0x100) ∧ OnlyIn [.bus] s t))
    ∧ (portMode s p ≠ 0 → portConsumed s p = false → ∃ t, exec (.linkUp p) s = .next t
        ∧ (getPort t p).up = true ∧ (getPort t p).training = false
        ∧ ((getPort s p).up = false → bitAt (getW t (reg .eth p 0x20)).toNat 1 = true) ∧ OnlyIn [.net, .bus] s t
        ∧ WordsOnly [reg .eth p 0x20] s t)
    ∧ ((getPort s p).up = true → ∃ t, exec (.portDown p) s = .next t ∧ (getPort t p).up = false
        ∧ getW t (reg .eth p 0x138) = satAdd32 (getW s (reg .eth p 0x138)) 1 ∧ bitAt (getW t (reg .eth p 0x20)).toNat 1 = true
        ∧ OnlyIn [.net, .bus] s t ∧ WordsOnly [reg .eth p 0x20, reg .eth p 0x138] s t)
    ∧ (∀ l : Fin 18, (∃ t, exec (.lossOfSignal l) s = .next t ∧ mget false t.net.signal l = false
          ∧ (∀ k : Nat, k ≠ l → mget false t.net.signal k = mget false s.net.signal k) ∧ OnlyIn [.net] s t)
        ∧ (∃ t, exec (.signalReturn l) s = .next t ∧ mget false t.net.signal l = true
          ∧ (∀ k : Nat, k ≠ l → mget false t.net.signal k = mget false s.net.signal k) ∧ OnlyIn [.net] s t))
    ∧ (∀ b : Bool, pageReady s .eth 0 = true →
      ((∀ q : Nat, q < 16 → portMode s q = 0) → ∃ t, exec (.synceTxSrcWrite b) s = .next t
        ∧ getF t (reg .eth 0 0x308) 0 1 = b2n b ∧ OnlyIn [.bus] s t ∧ WordsOnly [reg .eth 0 0x308] s t)
      ∧ ((∃ q : Nat, q < 16 ∧ portMode s q ≠ 0) → ∃ t, exec (.synceTxSrcWrite b) s = .next t
        ∧ getW t (reg .eth 0 0x18) = getW s (reg .eth 0 0x18) ||| 0x400 ∧ getW t (reg .eth 0 0x308) = getW s (reg .eth 0 0x308) ∧ OnlyIn [.bus] s t))
    ∧ (pageReady s .eth p = true →
      (∀ n : BitVec 8, 1 ≤ n.toNat → n.toNat ≤ 128 → ∃ (t : State) (f : Frame), exec (.esmcTxLen p n) s = .next t
        ∧ getQueue t (96 * p + 65) = { getQueue s (96 * p + 65) with frames := (getQueue s (96 * p + 65)).frames ++ [f] }
        ∧ f.bytes = padFrame (((List.range 32).flatMap (fun i => toLE 4 (getW s (reg .eth p (0x280 + 4 * i))).toNat)).take n.toNat)
        ∧ f.window = none ∧ OnlyIn [.net] s t)
      ∧ (∃ t, exec (.esmcRxPop p) s = .next t ∧ (getPort t p).esmc = (getPort s p).esmc.drop 1
        ∧ (∀ q : Nat, q ≠ p → getPort t q = getPort s q) ∧ OnlyIn [.net] s t))

/-- A free transmitter takes a timing frame with credit first, then the fronthaul frame released first, then the tenant classes (spec/14_radio_pipeline.md R406, spec/15_bolters.md R412, spec/16_fronthaul_ports.md R429, spec/17_weir_traffic.md R452, spec/17_weir_traffic.md R454, spec/17_weir_traffic.md R455, spec/17_weir_traffic.md R458, spec/17_weir_traffic.md R466).
Where the spec is open it shows the model's choice: log 75. -/
def Obligations.PortsSendInTheEgressOrder : Prop :=
  (∀ (s u : State) (p : Fin 16), portMode s p ≠ 0 → (getPort s p).up = true → (getPort s p).sending = none →
    u = ((tenantQueues p).filter (queueOn s)).foldl (fun s q => refill (fetchQueue 4096 q s) q) s →
    (∀ (q : Nat) (f : Frame) (r : List Frame), (getQueue u q).frames = f :: r → pickPtp u p = some q ∨ pickPtp u p = none ∧ pickFront u p = some q →
      ∃ (t : State) (g : Frame), exec (.txStart p) s = .next t ∧ (getPort t p).sending = some (q, g)
        ∧ g.window = f.window ∧ g.symbol = f.symbol ∧ g.tenant = f.tenant ∧ g.bytes = (ptpLeaves u p f.bytes).1
        ∧ getQueue t q = { getQueue u q with frames := r } ∧ (∀ j : Nat, j ≠ q → getQueue t j = getQueue u j) ∧ OnlyIn [.net, .bus, .ftl] u t)
    ∧ (pickPtp u p = none → pickFront u p = none → exec (.txStart p) s = .next (settle (startTenant p [3, 4, 5, 6, 7] u))))
  ∧ (∀ (s : State) (p : Fin 16) (q : Nat) (f : Frame), (getPort s p).sending = some (q, f) → ∃ t, exec (.frameSent p) s = .next t
    ∧ (getPort t p).sending = none ∧ t.net.sent = s.net.sent ++ [((p : Nat), f.bytes)]
    ∧ getD64 t (reg .eth p 0x118) = getD64 s (reg .eth p 0x118) + 1 ∧ getD64 t (qReg q 0x138) = getD64 s (qReg q 0x138) + 1
    ∧ getD64 t (qReg q 0x140) = getD64 s (qReg q 0x140) + BitVec.ofNat 64 f.len)
  ∧ (∀ (s : State) (q : BitVec 12) (f : Frame) (r : List Frame) (w : Nat × Nat), (getQueue s q.toNat).frames = f :: r → f.window = some w →
    reached w.2 (nowNs s) = false → ∃ t, exec (.lateDrop q) s = .next t ∧ getQueue t q.toNat = { getQueue s q.toNat with frames := r }
    ∧ ((getPort s (queuePort q.toNat)).up = true → getW t (qReg q.toNat 0x148) = satAdd32 (getW s (qReg q.toNat 0x148)) 1
        ∧ bitAt (getW t (reg .weir 0 0x20)).toNat 1 = true)
    ∧ ((getPort s (queuePort q.toNat)).up = false → getW t (reg .eth (queuePort q.toNat) 0x134) = satAdd32 (getW s (reg .eth (queuePort q.toNat) 0x134)) 1)
    ∧ OnlyIn [.net, .bus, .cells] s t)
  ∧ (∀ (s : State) (v : Word) (q : Nat), pageReady s .weir 1 = true → q = getF s (reg .weir 1 0x100) 0 12 →
    (bitAt v.toNat 0 = false → ∃ t, exec (.queueEnable v) s = .next t ∧ queueOn t q = false ∧ OnlyIn [.bus] s t ∧ WordsOnly [qReg q 0x104] s t)
    ∧ (∀ (p obj : Nat), bitAt v.toNat 0 = true → queueOn s q = false → queuePart s q = some p → obj = (getW s (qReg q 0x11C)).toNat →
      (counterOf s p (obj % 2 ^ 16) = true → counterOf s p (obj / 2 ^ 16) = true →
        granulesAdmit s p (getD64 s (qReg q 0x110)).toNat (16 * 2 ^ getF s (qReg q 0x118) 0 4) false = true →
        ∃ t, exec (.queueEnable v) s = .next t ∧ getF t (qReg q 0x104) 0 1 = 1 ∧ getF t (qReg q 0x104) 1 1 = b2n (bitAt v.toNat 1)
          ∧ (getQueue t q).next = (getObj s (obj / 2 ^ 16)).value.toNat ∧ (getQueue t q).stopped = false ∧ (getQueue t q).deficit = 0
          ∧ (getQueue t q).credit = (getW s (qReg q 0x130)).toNat % 2 ^ 24 * 8000 ∧ (getQueue t q).frames = (getQueue s q).frames
          ∧ OnlyIn [.net, .bus] s t)
      ∧ (counterOf s p (obj % 2 ^ 16) = false ∨ counterOf s p (obj / 2 ^ 16) = false →
        ∃ t, exec (.queueEnable v) s = .next t ∧ getW t (reg .weir 1 0x18) = getW s (reg .weir 1 0x18) ||| 0x100 ∧ OnlyIn [.bus] s t)))
  ∧ (∀ s : State, ∃ t, exec .depthSample s = .next t ∧ OnlyIn [.bus] s t
    ∧ ∀ e ∈ s.net.queues, getW t (qReg e.1 0x154) = BitVec.ofNat 32 (min 0xFFFFFF (((getQueue s e.1).frames.map Frame.len).foldl (· + ·) 0)))

/-- A received frame is counted, then goes to the fantail, the ESMC FIFO, the sluice, a steering ring, or nowhere (spec/16_fronthaul_ports.md R426, spec/16_fronthaul_ports.md R432, spec/16_fronthaul_ports.md R433, spec/16_fronthaul_ports.md R439, spec/17_weir_traffic.md R462, spec/17_weir_traffic.md R463, spec/17_weir_traffic.md R464, spec/18_fantail_time.md R482).
Where the spec is open it shows the model's choice: logs 62, 70, 71, 73, 76, 140. -/
def Obligations.ReceivedFramesReachTheirDestination : Prop :=
  (∀ (s u : State) (p : Fin 16) (l : List (BitVec 8)), (getPort s p).up = true → u = bump64 s (reg .eth p 0x110) 1 →
    (∃ t, exec (.frameReceive p l false) s = .next t ∧ getD64 t (reg .eth p 0x110) = getD64 s (reg .eth p 0x110) + 1
      ∧ getW t (reg .eth p 0x12C) = satAdd32 (getW s (reg .eth p 0x12C)) 1 ∧ OnlyIn [.bus] s t)
    ∧ ((parseEth l).etype = 0x88F7 → ∃ (t : State) (k : Nat), exec (.frameReceive p l true) s = .next t
      ∧ t.ftl = { s.ftl with ptpRx := s.ftl.ptpRx ++ [((p : Nat), k, l)] } ∧ OnlyIn [.ftl, .bus] s t)
    ∧ ((parseEth l).etype = 0x8809 → leAt (parseEth l).body 0 1 = 0x0A → (getPort s p).esmc.length < 8 → l.length ≤ 128 →
      ∃ t, exec (.frameReceive p l true) s = .next t ∧ getPort t p = { getPort s p with esmc := (getPort s p).esmc ++ [l] }
        ∧ bitAt (getW t (reg .eth p 0x20)).toNat 2 = true ∧ OnlyIn [.net, .bus] s t)
    ∧ ((parseEth l).etype ≠ 0x88F7 → (parseEth l).etype ≠ 0x8809 →
      (∀ (f ax : Nat) (m : List (BitVec 8)) (v : State), flowMatch u p (parseEth l) = some (f, m, ax, true) → frerPass u f (parseEth l) = (true, v) →
        exec (.frameReceive p l true) s = .next (settle (sluiceIn v p f ax m)))
      ∧ (∀ e : Nat, flowMatch u p (parseEth l) = none → steerMatch u (parseEth l) = some e →
        exec (.frameReceive p l true) s = .next (settle (steerFrame u e p (parseEth l) l)))
      ∧ (flowMatch u p (parseEth l) = none → steerMatch u (parseEth l) = none → ∃ t, exec (.frameReceive p l true) s = .next t
        ∧ getW t (reg .eth p 0x130) = satAdd32 (getW s (reg .eth p 0x130)) 1 ∧ OnlyIn [.bus] s t)))
  ∧ (∀ (s u v w : State) (e port a : Nat) (x : RxEth) (l bs cs : List (BitVec 8)) (o : SyncObj), getF s (stReg e 0x110) 24 1 ≠ 1 → 1 ≤ steerRoom s e →
    a = (getD64 s (stReg e 0x118)).toNat + (getSteer s e).written % 2 ^ getF s (stReg e 0x110) 16 4 * 16384 →
    u = setSteer s e (getSteer s e) → devWrite u (getF s (stReg e 0x110) 8 5) a (toLE 2 l.length ++ toLE 1 0 ++ toLE 1 port ++ toLE 4 0 ++ toLE 8 (nowNs s)) true none = (.ok bs, v) →
    devWrite v (getF s (stReg e 0x110) 8 5) (a + 64) l true none = (.ok cs, w) →
    sigObj (getObj w (getF w (stReg e 0x120) 0 16)) false 1 = .done o →
    (getSteer (steerFrame s e port x l) e).written = ((getSteer s e).written + 1) % 2 ^ 32 ∧ getObj (steerFrame s e port x l) (getF w (stReg e 0x120) 0 16) = o
      ∧ (∀ k : Nat, k ≠ getF w (stReg e 0x120) 0 16 → getObj (steerFrame s e port x l) k = getObj w k))
  ∧ (∀ (s : State) (v : Word) (e p obj : Nat), pageReady s .weir 2 = true → e = getF s (reg .weir 2 0x100) 0 8 → steerOn s e = false →
    4 ≤ bitsAt v.toNat 16 4 → bitsAt v.toNat 16 4 ≤ 12 → bitAt v.toNat 0 = true → p = bitsAt v.toNat 8 5 → obj = (getW s (stReg e 0x120)).toNat →
    ((getPart s p).st ≠ .free → counterOf s p (obj % 2 ^ 16) = true → counterOf s p (obj / 2 ^ 16) = true → policeOk s e v = true →
      granulesAdmit s p (getD64 s (stReg e 0x118)).toNat (16384 * 2 ^ bitsAt v.toNat 16 4) true = true →
      ∃ t, exec (.steerEnable v) s = .next t ∧ steerOn t e = true ∧ getW t (stReg e 0x110) = v &&& 0x070F1F00 ||| 1
        ∧ getSteer t e = ⟨(getObj s (obj % 2 ^ 16)).value.toNat, (getW s (stReg e 0x12C)).toNat % 2 ^ 24 * 65536,
            (getW s (stReg e 0x130)).toNat % 2 ^ 24 * 65536, nowNs s⟩
        ∧ (∀ k : Nat, k ≠ e → getSteer t k = getSteer s k) ∧ OnlyIn [.net, .bus] s t)
    ∧ ((getPart s p).st = .free → ∃ t, exec (.steerEnable v) s = .next t ∧ steerOn t e = false
        ∧ getW t (reg .weir 2 0x18) = getW s (reg .weir 2 0x18) ||| 0x100 ∧ OnlyIn [.bus] s t))

/-- Rings enable with their objects, descriptors are fetched in order, free bolters take units by share, finished descriptors complete in order (spec/15_bolters.md R411, spec/15_bolters.md R412, spec/15_bolters.md R413, spec/15_bolters.md R414, spec/15_bolters.md R415, spec/15_bolters.md R416, spec/15_bolters.md R422, spec/15_bolters.md R424, spec/23_repair_and_errors.md R554).
Where the spec is open it shows the model's choice: logs 74, 84, 86, 88. -/
def Obligations.BoltersTakeUnitsInOrderAndFinishDescriptors : Prop :=
  (∀ (s : State) (i : Fin 8) (r : Fin 2), pageReady s .bol i = true →
    (∀ p : Nat, ringOn s i r = false → setPartOf s i = some p → isRadio s p = true → counterOf s p (ringTail s i r) = true → counterOf s p (ringDone s i r) = true →
      granulesAdmit s p (ringBase s i r) (64 * ringSize s i r) true = true → ∃ t, exec (.bolterRingEnable i r) s = .next t
        ∧ ringOn t i r = true ∧ (getSet t i).next r = (getObj s (ringDone s i r)).value.toNat ∧ bitAt (getSet t i).stop r = false
        ∧ (getSet t i).descs = (getSet s i).descs ∧ OnlyIn [.bol, .bus, .gov] s t ∧ WordsOnly [reg .bol i 0x224] s t)
    ∧ (ringOn s i r = false → setPartOf s i = none → ∃ t, exec (.bolterRingEnable i r) s = .next t
        ∧ getW t (reg .bol 0 0x18) = getW s (reg .bol 0 0x18) ||| 0x100 ∧ ringOn t i r = false ∧ OnlyIn [.bus] s t)
    ∧ (∃ t, exec (.bolterRingDisable i r) s = .next t ∧ ringOn t i r = false
        ∧ (getSet t i).descs = (getSet s i).descs.filter (fun d => d.ring ≠ (r : Nat)) ∧ (∀ u ∈ t.bol.units, u.2.set ≠ i ∨ u.2.ring ≠ r)
        ∧ (∀ k : Nat, k ≠ i → getSet t k = getSet s k) ∧ (∀ k : Nat, getCtx t k = { getCtx s k with lastMove := (getCtx t k).lastMove })
        ∧ OnlyIn [.bol, .bus, .gov, .sched] s t ∧ WordsOnly [reg .bol i 0x224] s t))
  ∧ (∀ (s v : State) (i : Fin 8) (r : Fin 2) (upset : List (Nat × Nat)) (p j : Nat) (res : DevRes), setPartOf s i = some p → ringOn s i r = true →
    bitAt (getSet s i).stop r = false → j = (getSet s i).next r →
    (((getObj s (ringTail s i r)).value - (getObj s (ringDone s i r)).value).toInt ≤ (ringSize s i r : Int) →
      0 < ((getObj s (ringTail s i r)).value - BitVec.ofNat 32 j).toInt → inFlight s p < 64 →
      devRead (upsetLines s upset) p (ringBase s i r + 64 * (j % ringSize s i r)) 64 true none = (res, v) →
      ∃ t, exec (.descriptorFetch i r upset) s = .next t ∧ (getSet t i).descs = (getSet v i).descs ++ [newDesc r j v.bol.fetched res]
        ∧ (getSet t i).next r = (j + 1) % 2 ^ 32 ∧ t.bol.fetched = v.bol.fetched + 1 ∧ t.bol.units = v.bol.units ∧ OnlyIn [.bol] v t)
    ∧ ((ringSize s i r : Int) < ((getObj s (ringTail s i r)).value - (getObj s (ringDone s i r)).value).toInt →
      ∃ t, exec (.descriptorFetch i r upset) s = .next t ∧ bitAt (getSet t i).stop r = true ∧ getF t (reg .bol i 0x22C) 0 1 = 1
        ∧ (getSet t i).descs = (getSet s i).descs ∧ OnlyIn [.bol, .bus] s t ∧ WordsOnly [reg .bol i 0x22C] s t))
  ∧ (∀ (s : State) (b : Fin 20) (p i cb : Nat) (d : BolDesc) (rest : List Nat), bolterRole s b = 0 → bolterFenced s b = false → mfind s.bol.units b = none →
    bolterPick s = some p → partWork s p = some (i, d) → d.todo = cb :: rest → ∃ t, exec (.unitStart b) s = .next t
      ∧ mfind t.bol.units b = some ⟨i, d.ring, d.idx, cb, nowNs s⟩ ∧ (∀ k : Nat, k ≠ b → mfind t.bol.units k = mfind s.bol.units k)
      ∧ (getSet t i).descs = (getSet s i).descs.map (fun e => if e.ord = d.ord then { d with todo := rest } else e)
      ∧ (∀ k : Nat, k ≠ i → getSet t k = getSet s k) ∧ OnlyIn [.bol] s t)
  ∧ (∀ (s v : State) (b : Fin 20) (upset : List (Nat × Nat)) (u : BolUnit) (d : BolDesc) (p : Nat) (res : UnitRes), mfind s.bol.units b = some u →
    (getSet s u.set).descs.find? (fun d => d.ring = u.ring ∧ d.idx = u.idx) = some d → setPartOf s u.set = some p →
    runUnit (upsetLines { s with bol := { s.bol with units := mdel s.bol.units b } } upset) p d.bytes u.cb = (res, v) →
    ∃ w, exec (.unitDone b upset) s = .next (settle (unitNote w p u.set d u.cb res))
      ∧ getD64 w (reg .bol b 0x100) = getD64 v (reg .bol b 0x100) + 1 ∧ OnlyIn [.bus] v w
      ∧ WordsOnly [reg .bol b 0x100, reg .bol b 0x104, reg .bol b 0x108, reg .bol b 0x10C, reg .bol b 0x110, reg .bol b 0x114] v w)
  ∧ (∀ (s v : State) (i : Fin 8) (r : Fin 2) (d : BolDesc) (p : Nat), (getSet s i).descs.find? (fun d => d.ring = (r : Nat)) = some d → setPartOf s i = some p →
    d.todo = [] → d.undone = 0 → v = (devWrite s p (ringBase s i r + 64 * (d.idx % ringSize s i r) + 56)
      (toLE 1 d.result ++ toLE 1 d.iter ++ toLE 2 d.fails ++ toLE 4 d.idx) true none).2 →
    ∃ t, exec (.descriptorComplete i r) s = .next t ∧ (getSet t i).descs = (getSet v i).descs.filter (fun e => e.ord ≠ d.ord)
      ∧ getD64 t (reg .bol i 0x230) = getD64 v (reg .bol i 0x230) + 1
      ∧ (∀ o : SyncObj, sigObj (getObj v (ringDone v i r)) false 1 = .done o → getObj t (ringDone v i r) = o
          ∧ (∀ k : Nat, k ≠ ringDone v i r → getObj t k = getObj v k)))
  ∧ (∀ (s : State) (b : Fin 20), bolterRole s b ≠ 2 → s.rep.dt.length < 4096 → ∃ (t : State) (e : DtEntry), exec (.bolterParity b) s = .next t
    ∧ t.rep.dt = s.rep.dt ++ [e] ∧ e.kind = 6 ∧ e.loc = b ∧ mfind t.bol.units b = none
    ∧ (bolterRole s b = 0 → ∀ sp : Nat, (List.range 20).find? (fun i => bolterRole s i = 1 && !bolterFenced s i) = some sp →
        e.spare = sp ∧ bitAt (getW t (reg .bol 0 0x20)).toNat 1 = true)
    ∧ (bolterRole s b = 1 → e.spare = noSpare))

/-- A step moves OFFSET and nothing else while no cell is bound; reads of TIME_NOW and TIME_SEC answer fantail time and take their snapshots (spec/02_register_pages.md R35, spec/18_fantail_time.md R472, spec/18_fantail_time.md R474, spec/18_fantail_time.md R488).
Where the spec is open it shows the model's choice: logs 77, 79. -/
def Obligations.StepsMoveTimeAndReadsTakeSnapshots : Prop :=
  (∀ (s : State), pageReady s .ftl 0 = true →
    (∀ v : DWord, s.cells = [] → ∃ t, exec (.stepNs v) s = .next t
      ∧ (t.ftl.offset : Int) = ((s.ftl.offset : Int) + v.toInt * 2 ^ 32) % 2 ^ 96
      ∧ t.ftl.count = s.ftl.count ∧ t.ftl.rate = s.ftl.rate ∧ OnlyIn [.ftl] s t)
    ∧ (∀ v : Word, s.cells = [] → compatOn s = true → ∃ t, exec (.compatAdj v) s = .next t
      ∧ (t.ftl.offset : Int) = ((s.ftl.offset : Int) + v.toInt * 2 ^ 32) % 2 ^ 96
      ∧ t.ftl.count = s.ftl.count ∧ t.ftl.rate = s.ftl.rate ∧ OnlyIn [.ftl] s t)
    ∧ (∀ v : DWord, s.cells ≠ [] → ∃ t, exec (.stepNs v) s = .next t
      ∧ getW t (reg .ftl 0 0x18) = getW s (reg .ftl 0 0x18) ||| 0x100
      ∧ OnlyIn [.bus] s t ∧ WordsOnly [reg .ftl 0 0x18, reg .ftl 0 0x20] s t)
    ∧ (∀ v : Word, s.cells ≠ [] → compatOn s = true → ∃ t, exec (.compatAdj v) s = .next t
      ∧ getW t (reg .ftl 0 0x18) = getW s (reg .ftl 0 0x18) ||| 0x100
      ∧ OnlyIn [.bus] s t ∧ WordsOnly [reg .ftl 0 0x18, reg .ftl 0 0x20] s t))
  ∧ (∀ (s : State),
    (pageReady s .ftl 0 = true → ∀ wide : Bool,
      (∃ t, exec (.timeNowRead wide) s = .next t
        ∧ t.bus.reply.toNat = (if wide then nowNs s else nowNs s % 2 ^ 32)
        ∧ (wide = false → mfind t.bus.latch (reg .ftl 0 0x100) = some (BitVec.ofNat 32 (nowNs s / 2 ^ 32)))
        ∧ t.ftl = { s.ftl with snapFrac := BitVec.ofNat 32 (ftlT s % 2 ^ 32), snapCount := s.ftl.count }
        ∧ (∀ a, getW t a = getW s a) ∧ OnlyIn [.bus, .ftl] s t)
      ∧ (∃ t, exec (.timeSecRead wide) s = .next t
        ∧ t.bus.reply.toNat = (if wide then nowNs s / 10 ^ 9 else nowNs s / 10 ^ 9 % 2 ^ 32)
        ∧ (wide = false → mfind t.bus.latch (reg .ftl 0 0x140) = some (BitVec.ofNat 32 (nowNs s / 10 ^ 9 / 2 ^ 32)))
        ∧ t.ftl = { s.ftl with snapNsec := BitVec.ofNat 32 (nowNs s % 10 ^ 9) }
        ∧ (∀ a, getW t a = getW s a) ∧ OnlyIn [.bus, .ftl] s t))
    ∧ (pageReady s .ftl 5 = true → ∃ t, exec .todRxPop s = .next t
        ∧ t.bus = { s.bus with reply := (s.ftl.todRx.headD 0).setWidth 64 }
        ∧ t.ftl = { s.ftl with todRx := s.ftl.todRx.tail } ∧ OnlyIn [.bus, .ftl] s t)
    ∧ (pageReady s .ftl 6 = true → ∃ t, exec .tsPop s = .next t
        ∧ t.ftl = { s.ftl with stamps := s.ftl.stamps.tail } ∧ OnlyIn [.ftl] s t)
    ∧ (∀ b : BitVec 8, ∃ t, exec (.todRxByte b) s = .next t
        ∧ (s.ftl.todRx.length < 64 → t.ftl = { s.ftl with todRx := s.ftl.todRx ++ [b] }) ∧ OnlyIn [.ftl] s t))

/-- Rates change without a jump of fantail time: compatibility clock, servo updates, holdover, switch, end of a slew, loss of reference (spec/18_fantail_time.md R471, spec/18_fantail_time.md R474, spec/18_fantail_time.md R477, spec/18_fantail_time.md R478, spec/18_fantail_time.md R479, spec/18_fantail_time.md R480).
Where the spec is open it shows the model's choice: logs 78, 79, 80. -/
def Obligations.FantailTimeNeverJumpsUnderTheServos : Prop :=
  ∀ (s : State),
    (hasCap s 0x20 = true → compatOn s = false → servoOn s 0 = false → servoOn s 1 = false →
      ∃ t, exec (.compatEnWrite true) s = .next t ∧ compatOn t = true
        ∧ t.ftl.rate = (getD64 s (reg .ftl 0 0x130)) <<< 16 ∧ ftlT t = ftlT s ∧ t.ftl.count = s.ftl.count)
    ∧ (∀ on : Bool, hasCap s 0x20 = true → compatOn s = !on → (servoOn s 0 || servoOn s 1) = true →
      ∃ t, exec (.compatEnWrite on) s = .next t ∧ getW t (reg .ftl 0 0x18) = getW s (reg .ftl 0 0x18) ||| 0x200
        ∧ OnlyIn [.bus] s t ∧ WordsOnly [reg .ftl 0 0x18, reg .ftl 0 0x20] s t)
    ∧ (∀ (d : Fin 2) (inp : ServoIn) (o : Int), servoOn s d = true → servoInput s d inp = some o → (getServo s d).st ≠ 0 →
      ∃ t, exec (.servoUpdate d inp) s = .next t
        ∧ (getServo t d).integ = (servoLaw s d o).1
        ∧ (getServo t d).rate = rateOfPpb (servoLaw s d o).2
        ∧ getW t (reg .ftl (1 + d) 0x11C) = BitVec.ofInt 32 (servoLaw s d o).2
        ∧ (servoSel s = d → compatOn s = false → s.ftl.slewing = false → t.ftl.rate = rateOfPpb (servoLaw s d o).2)
        ∧ ftlT t = ftlT s ∧ t.ftl.count = s.ftl.count ∧ OnlyIn [.bus, .ftl] s t)
    ∧ (∀ d : Fin 2, servoOn s d = true → (getServo s d).st = 1 ∨ (getServo s d).st = 2 → getF s (reg .ftl 0 0x10) 2 1 = 0 →
      ∃ t, exec (.servoHoldover d) s = .next t
        ∧ (getServo t d).st = 3 ∧ (getServo t d).rate = rateOfPpb (meanInt (getServo s d).hist)
        ∧ ftlT t = ftlT s ∧ t.ftl.count = s.ftl.count ∧ OnlyIn [.bus, .ftl] s t)
    ∧ (∀ d : Fin 2, servoSel s ≠ d → compatOn s = false →
      ∃ t, exec (.servoSwitch d) s = .next t ∧ servoSel t = d ∧ bitAt (getW t (reg .ftl 0 0x20)).toNat 2 = true
        ∧ (t.ftl.slewing = true ↔ virtNow s d ≠ 0) ∧ ftlT t = ftlT s ∧ t.ftl.count = s.ftl.count ∧ OnlyIn [.bus, .ftl] s t)
    ∧ (s.ftl.slewing = true → virtNow s (servoSel s) = 0 → compatOn s = false →
      ∃ t, exec .slewDone s = .next t ∧ t.ftl.slewing = false ∧ t.ftl.rate = (getServo s (servoSel s)).rate
        ∧ ftlT t = ftlT s ∧ t.ftl.count = s.ftl.count ∧ OnlyIn [.ftl] s t)
    ∧ ((getServo s (servoSel s)).st = 3 → getF s (reg .ftl 0 0x12C) 0 16 * 1000000 < nowNs s - (getServo s (servoSel s)).since →
      ∃ t, exec .refLost s = .next t ∧ t.ftl = { s.ftl with refLost := true }
        ∧ (s.ftl.refLost = false → bitAt (getW t (reg .ftl 0 0x20)).toNat 1 = true)
        ∧ OnlyIn [.bus, .ftl] s t ∧ WordsOnly [reg .ftl 0 0x20] s t)

/-- A ticker fires once per reached target and counts; captures record the time; slot boundaries follow the numerology (spec/18_fantail_time.md R483, spec/18_fantail_time.md R484, spec/18_fantail_time.md R485, spec/18_fantail_time.md R486).
Where the spec is open it shows the model's choice: logs 77, 81. -/
def Obligations.TickersAndCapturesGiveEvents : Prop :=
  ∀ (s : State),
    (∀ (v : Word) (k : Nat), pageReady s .ftl 4 = true → bitAt v.toNat 0 = true → bitAt v.toNat 1 = false →
      k = getF s (reg .ftl 4 0x100) 0 4 → getF s (tickReg k 0x104) 0 1 = 0 →
      ((getW s (tickReg k 0x118)).toNat < (getD64 s (tickReg k 0x110)).toNat →
        ∃ t, exec (.tickerEnable v) s = .next t ∧ mfind t.ftl.tickers k = some (getD64 s (tickReg k 0x108)).toNat
          ∧ getF t (tickReg k 0x104) 0 1 = 1 ∧ OnlyIn [.bus, .ftl] s t ∧ WordsOnly [tickReg k 0x104] s t)
      ∧ ((getD64 s (tickReg k 0x110)).toNat ≤ (getW s (tickReg k 0x118)).toNat →
        ∃ t, exec (.tickerEnable v) s = .next t ∧ getF t (tickReg k 0x104) 0 1 = 0
          ∧ bitAt (getW t (reg .ftl 5 0x18)).toNat 8 = true ∧ OnlyIn [.bus] s t))
    ∧ (∀ (k : Fin 16) (target : Nat), mfind s.ftl.tickers k = some target → reached (nowNs s) target = true →
      ∃ t, exec (.tickerEvent k) s = .next t
        ∧ getD64 t (tickReg k 0x120) = getD64 s (tickReg k 0x120) + 1
        ∧ (getF s (tickReg k 0x104) 1 1 = 0 → mfind t.ftl.tickers k = none)
        ∧ (getF s (tickReg k 0x104) 1 1 = 1 → mfind t.ftl.tickers k =
            some ((target + ((nowNs s + 2 ^ 64 - target) % 2 ^ 64 / max 1 (getD64 s (tickReg k 0x110)).toNat + 1)
              * (getD64 s (tickReg k 0x110)).toNat) % 2 ^ 64))
        ∧ ftlT t = ftlT s)
    ∧ (∀ (n : Fin 4) (e : Nat), mfind s.ftl.pulses n = some e → reached (nowNs s) e = true →
      ∃ t, exec (.ppsPulseEnd n) s = .next t ∧ mfind t.ftl.pulses n = none
        ∧ (∀ m : Nat, m ≠ n → mfind t.ftl.pulses m = mfind s.ftl.pulses m) ∧ OnlyIn [.ftl] s t)
    ∧ (∀ n : Fin 2, ∃ t, exec (.ppsInEdge n) s = .next t
        ∧ getD64 t (reg .ftl 5 (0x120 + 16 * n)) = BitVec.ofNat 64 (nowNs s)
        ∧ (mget false s.ftl.unread n = true → getF t (reg .ftl 5 (0x120 + 16 * n + 8)) 31 1 = 1)
        ∧ mget false t.ftl.unread n = true ∧ ftlT t = ftlT s)
    ∧ (∀ p : Fin 32, isRadio s p = true → reached (nowNs s) (getPart s p).slots = true →
      ∃ t, exec (.slotBoundary p) s = .next t ∧ (getPart t p).slots = nextBoundary s p (nowNs s) ∧ ftlT t = ftlT s)

/-- Cap, windows, operating points, soft start, dips, ramps and heat move their part of B; at 115 degrees every row goes OFF (spec/19_governor.md R489, spec/19_governor.md R490, spec/19_governor.md R491, spec/19_governor.md R492, spec/19_governor.md R494, spec/19_governor.md R495, spec/19_governor.md R496, spec/19_governor.md R497, spec/19_governor.md R498, spec/19_governor.md R499, spec/19_governor.md R501).
Where the spec is open it shows the model's choice: logs 127, 128, 129, 130, 133. -/
def Obligations.TheGovernorHoldsTheCapAndTheHeat : Prop :=
  (∀ (s : State) (v : Word), pageReady s .gov 0 = true →
    (150 ≤ v.toNat % 1024 → v.toNat % 1024 ≤ 550 → ∃ t, exec (.capWrite v) s = .next t ∧ capW t = v.toNat % 1024
      ∧ capEff t = max (capFloor s) (min (v.toNat % 1024) s.card.boardMax)
      ∧ getF t (reg .gov 0 0x14) 1 1 = b2n (decide (v.toNat % 1024 < capFloor s) || decide (s.card.boardMax < v.toNat % 1024)) ∧ OnlyIn [.bus, .gov] s t)
    ∧ (v.toNat % 1024 < 150 ∨ 550 < v.toNat % 1024 → ∃ t, exec (.capWrite v) s = .next t ∧ capW t = capW s
      ∧ getW t (reg .gov 0 0x18) = getW s (reg .gov 0 0x18) ||| 1 ∧ OnlyIn [.bus] s t))
  ∧ (∀ (s : State) (p pc : BitVec 20), ∃ t, exec (.powerWindow p pc) s = .next t
    ∧ t.gov.bCap = updateBcap s.gov.bCap p.toNat pc.toNat (capEff s * 1000) (hystMw s) ∧ t.gov.powers = (p.toNat :: s.gov.powers).take 1000
    ∧ t.gov.bTherm = s.gov.bTherm ∧ t.gov.bDip = s.gov.bDip ∧ OnlyIn [.bus, .gov] s t)
  ∧ (∀ (s : State) (a dwell floor : Nat), dwell = getF s (reg .gov 0 0x120) 0 16 * 1000 → floor = getF s (reg .gov 0 0x120) 16 3 →
    getF s (reg .gov 0 0x120) 31 1 = 1 → s.gov.bDip = 0 →
    (s.gov.highFrom = some a → a + dwell ≤ nowNs s → ∃ t, exec .dvfsStep s = .next t ∧ t.gov.highFrom = some (nowNs s)
      ∧ (∀ r ∈ dvfsRows s, (getRow t r).opp = if (getRow s r).opp < floor then (getRow s r).opp + 1 else (getRow s r).opp) ∧ OnlyIn [.bus, .gov] s t)
    ∧ (s.gov.highFrom = none → s.gov.lowFrom = some a → a + dwell ≤ nowNs s → ∃ t, exec .dvfsStep s = .next t ∧ t.gov.lowFrom = some (nowNs s)
      ∧ (∀ r ∈ dvfsRows s, (getRow t r).opp = (getRow s r).opp - 1) ∧ OnlyIn [.bus, .gov] s t))
  ∧ (∀ (s : State) (site : Site) (k : Fin 4) (e : Nat × Nat), s.gov.softHeld.find? (fun e => e.1 = (site : Nat) * 4 + k) = some e → e.2 ≤ nowNs s →
    ∃ t, exec (.softStartRelease site k) s = .next t ∧ t.gov.softHeld = s.gov.softHeld.erase e ∧ t.gov.starts = s.gov.starts ++ [nowNs s] ∧ OnlyIn [.gov] s t)
  ∧ (∀ (s : State) (r : Fin 16) (mv : BitVec 16),
    ((getRow s r).st ≠ .off → (getRow s r).dip = none → ∃ t, exec (.dipStart r) s = .next t ∧ t.gov.bDip = 63 ∧ t.gov.dipHold = none ∧ t.gov.rampAt = none
      ∧ (getRow t r).dip = some (nowNs s) ∧ bitAt (getW t (reg .gov 1 0x20)).toNat 1 = true ∧ OnlyIn [.bus, .gov] s t)
    ∧ (∀ a : Nat, (getRow s r).dip = some a → ∃ t, exec (.dipEnd r mv) s = .next t ∧ (getRow t r).dip = none
      ∧ getW t (reg .gov 1 0x110) = BitVec.ofNat 32 (mv.toNat + r * 2 ^ 16) ∧ getW t (reg .gov 1 0x114) = BitVec.ofNat 32 (min (nowNs s - a) 0xFFFFFFFF)
      ∧ getW t (reg .gov 1 0x10C) = satAdd32 (getW s (reg .gov 1 0x10C)) 1 ∧ t.gov.bDip = s.gov.bDip
      ∧ ((∀ e ∈ s.gov.rows, e.1 ≠ (r : Nat) → e.2.dip = none) → mrising none s.gov.rows = true → t.gov.dipHold = some (nowNs s)) ∧ OnlyIn [.bus, .gov] s t))
  ∧ (∀ (s : State) (a : Nat),
    (s.gov.dipHold = some a → a + getF s (reg .gov 1 0x104) 0 14 * 1000 ≤ nowNs s → ∃ t, exec .dipHoldExpiry s = .next t
      ∧ t.gov.dipHold = none ∧ t.gov.rampAt = some (nowNs s) ∧ t.gov.bDip = s.gov.bDip ∧ OnlyIn [.gov] s t)
    ∧ (s.gov.rampAt = some a → a + getF s (reg .gov 1 0x108) 0 14 ≤ nowNs s → ∃ t, exec .rampStep s = .next t ∧ t.gov.bDip = s.gov.bDip - 1
      ∧ t.gov.rampAt = (if s.gov.bDip ≤ 1 then none else some (a + getF s (reg .gov 1 0x108) 0 14)) ∧ OnlyIn [.bus, .gov] s t))
  ∧ (∀ (s : State) (l : List (BitVec 16)), l.length = 64 → ∃ t, exec (.thermalSample l) s = .next t
    ∧ (∀ i : Nat, i < 64 → mget 0 t.gov.temps i = (l.getD i 0).toInt)
    ∧ t.gov.bTherm = (if (getF s (reg .gov 2 0x100) 0 7 * 4 : Nat) ≤ (hottest t.gov.temps).2 then min 63 (s.gov.bTherm + 4)
        else if (hottest t.gov.temps).2 < (getF s (reg .gov 2 0x100) 0 7 * 4 : Nat) - (12 : Int) then s.gov.bTherm - 1 else s.gov.bTherm)
    ∧ OnlyIn [.bus, .gov] s t)
  ∧ (∀ (s : State) (i : Fin 64) (x : BitVec 16), 460 ≤ x.toInt → tripped s = false → ∃ t, exec (.thermalTrip i x) s = .next t
    ∧ devState t = 6 ∧ tripped t = true ∧ (∀ r : Nat, r < 16 → (getRow t r).st = .off) ∧ (∀ p : Nat, p < 16 → (getPort t p).up = false)
    ∧ t.bol.sets = [] ∧ t.bol.units = [] ∧ t.boot.running = [])
  ∧ (∀ (s : State) (v : Word), pageReady s .gov 3 = true → v.toNat % 2 = 1 → ∃ t, exec (.evPop v) s = .next t
    ∧ t.gov.evs = s.gov.evs.drop 1 ∧ OnlyIn [.gov] s t)

/-- Rows park, go OFF, wake and run as their conditions ask; a row that goes OFF loses its memories; lost clocks fault their domains (spec/14_radio_pipeline.md R403, spec/14_radio_pipeline.md R404, spec/16_fronthaul_ports.md R431, spec/17_weir_traffic.md R452, spec/18_fantail_time.md R475, spec/18_fantail_time.md R487, spec/20_clocks_power_states_reset.md R503, spec/20_clocks_power_states_reset.md R504, spec/20_clocks_power_states_reset.md R505, spec/20_clocks_power_states_reset.md R506, spec/20_clocks_power_states_reset.md R507, spec/20_clocks_power_states_reset.md R517).
Where the spec is open it shows the model's choice: logs 94, 131, 132, 133. -/
def Obligations.RowsAndClocksMoveThroughTheirStates : Prop :=
  (∀ (s : State) (r : Fin 16),
    ((getRow s r).st = .running → mayPark s r = true → ∃ t, exec (.rowPark r) s = .next t ∧ (getRow t r).st = .parked ∧ (getRow t r).since = nowNs s
      ∧ (∀ k : Nat, radioRow s k = false → k ≠ r → getRow t k = getRow s k) ∧ OnlyIn [] s t)
    ∧ ((getRow s r).st = .parked → getF s (reg .gov (5 + r) 0x180) 0 1 = 1 → (∀ l ∈ rowLeaves s r, l.st = .empty) →
      mget 0 s.gov.fullAt r + getF s (reg .gov (5 + r) 0x184) 16 16 * 1000000 ≤ nowNs s → radioRow s r = false → rowSpares s r = false →
      ∃ t, exec (.rowOff r) s = .next t ∧ (getRow t r).st = .off ∧ (∀ x : Nat, x < 16 → getMill t (16 * r + x) = (getMill s (16 * r + x)).off)
        ∧ (∀ n : Nat, n / 16 ≠ r → getMill t n = getMill s n) ∧ OnlyIn [.mills, .sched] s t)
    ∧ (deviceUp s = true → (getRow s r).st = .off ∨ (getRow s r).st = .parked → ∃ t, exec (.rowWake r) s = .next t
      ∧ (getRow t r).st = .starting ∧ (getRow t r).fromOff = decide ((getRow s r).st = .off) ∧ OnlyIn [] s t)
    ∧ (devState s ≠ 6 → (getRow s r).st = .parked →
      (∃ (k : Nat) (c : Ctx) (site lf x : Nat), (k, c) ∈ s.sched.ctxs ∧ c.place = .leaf site lf ∧ site / 16 = r ∧ isRadio s c.part = true
        ∧ x ∈ triggersOf s k ∧ reached (nowNs s + 6000) x = true) →
      ∃ t, exec (.rowWakeTimer r) s = .next t ∧ (getRow t r).st = .starting ∧ (getRow t r).fromOff = false ∧ OnlyIn [] s t)
    ∧ ((getRow s r).st = .starting → ∃ t, exec (.rowRunning r) s = .next t ∧ (getRow t r).st = .running ∧ (getRow t r).fromOff = false
      ∧ getW t (reg .gov (5 + r) 0x18C) = satAdd32 (getW s (reg .gov (5 + r) 0x18C)) 1
      ∧ OnlyIn [.bus] s t ∧ WordsOnly [reg .gov (5 + r) 0x18C, reg .gov (5 + r) 0x190] s t))
  ∧ (∀ s : State,
    (∃ t, exec (.clockLoss .ao) s = .next t ∧ (getDom t 0).fault = true ∧ (devState s = 2 → devState t = 3))
    ∧ (∃ t, exec (.clockLoss .cxl) s = .next t ∧ (getDom t 44).fault = true ∧ (getDom t 45).fault = true ∧ t.hif.linkUp = false ∧ (devState s = 2 → devState t = 3))
    ∧ (∃ t, exec (.clockLoss .eth0) s = .next t ∧ (∀ d : Nat, 33 ≤ d → d ≤ 36 → (getDom t d).fault = true) ∧ (∀ p : Nat, p < 16 → (getPort t p).up = false)
        ∧ OnlyIn [.rep, .bus, .gov, .net] s t)
    ∧ (∃ t, exec (.clockLoss .eth1) s = .next t ∧ (getDom t 37).fault = true ∧ (∀ p : Nat, 8 ≤ p → p < 16 → (getPort t p).up = false)
        ∧ OnlyIn [.rep, .bus, .gov, .net] s t)
    ∧ (∃ t, exec (.clockLoss .synce) s = .next t ∧ (getF s (reg .eth 0 0x308) 0 1 = 1 → ∀ d : Nat, 38 ≤ d → d ≤ 43 → (getDom t d).fault = true)
        ∧ OnlyIn [.rep, .bus, .gov, .net] s t))
  ∧ (∀ (s : State) (p : Fin 16) (event : Bool) (l : List (BitVec 8)), s.sched.workshop = true →
    (∃ d < 2, servoOn s d = true ∧ getF s (reg .ftl (1 + d) 0x108) p 1 = 1) → ∃ (t : State) (f : Frame) (q : Nat), exec (.ptpMessageSend p event l) s = .next t
      ∧ q = 96 * p + (if event then 64 else 65) ∧ getQueue t q = { getQueue s q with frames := (getQueue s q).frames ++ [f] }
      ∧ f.bytes = padFrame l ∧ f.window = none ∧ (∀ k : Nat, k ≠ q → getQueue t k = getQueue s k) ∧ OnlyIn [.net] s t)

/-- A step that completes is done and starts what it allows; one that fails is recorded in RET and retried, replaced, skipped or halts the start (spec/20_clocks_power_states_reset.md R514, spec/21_start_sequence.md R518, spec/21_start_sequence.md R520, spec/21_start_sequence.md R522, spec/21_start_sequence.md R523, spec/21_start_sequence.md R526, spec/24_security.md R568, spec/24_security.md R584).
Where the spec is open it shows the model's choice: logs 104, 105, 106, 107, 108, 113. -/
def Obligations.StartStepsFollowTheirPolicies : Prop :=
  (∀ (s u : State) (i : Fin 41) (d : StepData) (r : BootRun), stepRun s i = some r → mayComplete s i = true → dataFits i d = true →
    stepEffect (endRun s i) r d = some u → ∃ t, exec (.stepComplete i d) s = .next t ∧ stepDone t i = true
      ∧ t.sched = u.sched ∧ t.card = u.card ∧ t.sec = u.sec
      ∧ ((i : Nat) = 40 → devState t = 2) ∧ (∀ k ∈ t.boot.running, k ∈ u.boot.running ∨ k.since = nowNs s ∧ k.tries = 0))
  ∧ (∀ (s : State) (i : Fin 41) (marks : List DtEntry) (r : BootRun) (c : Instr) (kind : Nat), stepRun s i = some r → s.boot.halted = false →
    c = .stepError i marks ∧ kind = 1 ∨ c = .stepLimit i marks ∧ kind = 2 ∧ atLimit s r = true →
    ∃ t, exec c s = .next t
      ∧ bitsAt (getD64 t (reg .mgt 1 0x118)).toNat 32 8 = i ∧ bitsAt (getD64 t (reg .mgt 1 0x118)).toNat 40 2 = r.alt % 4
      ∧ bitsAt (getD64 t (reg .mgt 1 0x118)).toNat 44 2 = kind ∧ bitAt (getW t (reg .mgt 1 0x20)).toNat 1 = true
      ∧ (∀ n : Nat, stepPolicy i = .retry n → r.tries < n → ∃ k ∈ t.boot.running, k.step = i ∧ k.alt = r.alt ∧ k.tries = r.tries + 1)
      ∧ (∀ n : Nat, stepPolicy i = .retry n → n ≤ r.tries → t.boot.halted = true ∧ devState t = 5)
      ∧ (∀ n : Nat, stepPolicy i = .alternate n → r.alt < n → ∃ k ∈ t.boot.running, k.step = i ∧ k.alt = r.alt + 1 ∧ k.tries = 0)
      ∧ (∀ n : Nat, stepPolicy i = .alternate n → n ≤ r.alt → t.boot.halted = true ∧ devState t = 5)
      ∧ (stepPolicy i = .skip → stepDone t i = true ∧ bitAt (getD64 t (reg .mgt 1 0x110)).toNat i = true ∧ getF t (reg .mgt 1 0x14) 0 1 = 1)
      ∧ (stepPolicy i = .halt → t.boot.halted = true ∧ devState t = 5))
  ∧ (∀ (s : State) (v : Word), pageReady s .mgt 1 = true →
    (v.toNat % 2 ^ 16 = 0x3C5A → bitAt v.toNat 31 = true → ∃ t, exec (.memoClr v) s = .next t
      ∧ t.boot = { s.boot with memoClr := true, hdrMemo := [] } ∧ OnlyIn [.boot] s t)
    ∧ (v.toNat % 2 ^ 16 ≠ 0x3C5A → ∃ t, exec (.memoClr v) s = .next t ∧ t.boot = s.boot ∧ getW t (reg .mgt 1 0x18) = getW s (reg .mgt 1 0x18) ||| 1
      ∧ OnlyIn [.bus] s t))
  ∧ (∀ (s : State) (v : Word),
    (devState s = 1 ∨ devState s = 4 → ∃ t, exec (.svnCommit v) s = .next t ∧ getW t (reg .sec 0 0x18) = getW s (reg .sec 0 0x18) ||| 0x100 ∧ OnlyIn [.bus] s t)
    ∧ (devState s ≠ 1 → devState s ≠ 4 → pageReady s .sec 0 = true → v.toNat % 2 ^ 16 = 0x5A3C → bitAt v.toNat 31 = true →
      ∃ (t : State) (f : FloorRec), exec (.svnCommit v) s = .next t ∧ t.sec = { s.sec with floorA := some f, floorB := some f }
        ∧ f.img = max (getW s (reg .sec 0 0x108)).toNat (getW s (reg .sec 0 0x100)).toNat
        ∧ f.cfg = max (getW s (reg .sec 0 0x10C)).toNat (getW s (reg .sec 0 0x104)).toNat
        ∧ (∀ g, heldFloor s = some g → f.no = g.no + 1)
        ∧ (getW t (reg .sec 0 0x108)).toNat = f.img ∧ (getW t (reg .sec 0 0x10C)).toNat = f.cfg
        ∧ bitAt (getW t (reg .sec 0 0x20)).toNat 1 = true ∧ OnlyIn [.sec, .bus] s t))

/-- A reset level sets its cause, restarts the block, keeps memory cells, flash and fantail time as it must; power-on waits for PWRGD and the rails (spec/20_clocks_power_states_reset.md R510, spec/20_clocks_power_states_reset.md R511, spec/20_clocks_power_states_reset.md R512, spec/20_clocks_power_states_reset.md R513, spec/20_clocks_power_states_reset.md R514, spec/20_clocks_power_states_reset.md R516, spec/21_start_sequence.md R527, spec/25_package_signals_ratings.md R591, spec/25_package_signals_ratings.md R595).
Where the spec is open it shows the model's choice: logs 111, 112, 113. -/
def Obligations.ResetsRestartTheBlockAndKeepWhatTheyMust : Prop :=
  (∀ (s : State) (r : Fin 16) (v : Word), s.boot.aoOn = true →
    (devState s ≠ 1 → devState s ≠ 4 → devState s ≠ 6 → ∀ (c : Instr) (cause : Nat) (hold : Bool),
      c = .rstCtrlGo v ∧ v.toNat % 2 ^ 16 = 0xA5C3 ∧ bitAt v.toNat 31 = true ∧ cause = 4 ∧ hold = false
      ∨ c = .perstNAssert ∧ cause = 2 ∧ hold = false ∨ c = .cxlReset ∧ cause = 3 ∧ hold = false
      ∨ c = .rowUndervolt r ∧ (getRow s r).st ≠ .off ∧ cause = 5 + r * 2 ^ 8 ∧ hold = false ∨ c = .d3hotEntry ∧ cause = 6 ∧ hold = true →
      ∃ t, exec c s = .next t ∧ getW t (reg .gov 4 0x188) = BitVec.ofNat 32 cause ∧ getW t (reg .gov 4 0x18C) = satAdd32 (getW s (reg .gov 4 0x18C)) 1
        ∧ devState t = 4 ∧ t.boot.d3 = hold ∧ (∀ k : Nat, k < 16 → (getRow t k).st = .off)
        ∧ t.sched = State.reset.sched ∧ t.sync = State.reset.sync ∧ t.cells = [] ∧ t.mem.cells = s.mem.cells ∧ t.boot.log = s.boot.log
        ∧ t.sec.floorA = s.sec.floorA ∧ t.ftl.count = s.ftl.count ∧ t.rep.recs = s.rep.recs ∧ t.pending = s.pending)
    ∧ (devState s = 1 ∨ devState s = 4 → ∀ c : Instr,
      c = .rstCtrlGo v ∧ v.toNat % 2 ^ 16 = 0xA5C3 ∨ c = .cxlReset ∨ c = .rowUndervolt r ∨ c = .d3hotEntry → exec c s = .next (settle s))
    ∧ (s.boot.d3 = true → devState s = 4 → ∃ t, exec .d0Return s = .next t ∧ devState t = 1 ∧ t.boot.d3 = false))
  ∧ (∀ s : State,
    (∃ t, exec .perstNDeassert s = .next t ∧ t.boot = { s.boot with perst := true, perstAt := nowNs s } ∧ OnlyIn [.boot] s t)
    ∧ (∃ t, exec .aoPowerOn s = .next t ∧ t.boot.pwrgd = false ∧ t.boot.railBad = false ∧ t.boot.aoOn = true ∧ getD64 t (reg .mgt 1 0x118) = 0
        ∧ t.mem.cells = s.mem.cells ∧ t.boot.log = s.boot.log ∧ t.sec.floorA = s.sec.floorA ∧ t.sched = State.reset.sched ∧ t.ftl.count = 0)
    ∧ (s.boot.aoOn = true → ∃ t, exec .pwrgdFall s = .next t ∧ t.boot.pwrgd = false ∧ getD64 t (reg .mgt 1 0x118) = getD64 s (reg .mgt 1 0x118)
        ∧ t.mem.cells = s.mem.cells ∧ t.sched = State.reset.sched)
    ∧ (s.boot.aoOn = true → s.boot.pwrgd = false → s.boot.railBad = false → ∃ t, exec .pwrgdRise s = .next t ∧ t.boot.pwrgd = true ∧ devState t = 1
        ∧ getW t (reg .gov 4 0x188) = (if s.boot.aoFresh then 0 else 1))
    ∧ (s.boot.aoOn = true → ∀ c ∈ [Rail.iod, Rail.srd, Rail.puf], ∃ t, exec (.railFault c) s = .next t ∧ t.boot.railBad = true
        ∧ getD64 t (reg .mgt 1 0x118) = getD64 s (reg .mgt 1 0x118) ∧ t.mem.cells = s.mem.cells ∧ t.sched = State.reset.sched)
    ∧ (∃ t, exec (.railFault .ao) s = .next t ∧ t.boot.aoOn = false ∧ t.boot.pwrgd = false ∧ t.mem.cells = s.mem.cells)
    ∧ (∀ c ∈ [Rail.millA, Rail.millB], exec (.railFault c) s = .next (settle s))
    ∧ (deviceUp s = true → ∀ g, ∃ t, exec (.railFault (.ddr g)) s = .next t ∧ devState t = 3 ∧ getF t (reg .mem 0 0x14) 1 1 = 1)
    ∧ (s.boot.railBad = true → s.boot.pwrgd = true → ∃ t, exec .railRecovery s = .next t ∧ t.boot.railBad = false ∧ devState t = 1)
    ∧ (fromStep3 s = true → ∀ off : BitVec 8, ∃ t, exec (.i3cBRead off) s = .next t
        ∧ t.boot = { s.boot with i3c := s.boot.i3c ++ [toLE 4 (i3cWord s off.toNat)] } ∧ OnlyIn [.boot] s t)
    ∧ (s.boot.halted = true → stepDone s 38 = false → ∃ t, exec .i3cAHaltRead s = .next t
        ∧ t.boot = { s.boot with i3c := s.boot.i3c ++ [toLE 8 (getD64 s (reg .mgt 1 0x118)).toNat ++ toLE 8 (getW s (reg .mgt 1 0x100)).toNat] }
        ∧ OnlyIn [.boot] s t))

/-- A sparing freezes and moves a site to site 15, other repair commands act or are refused, digest records are published, compared and delivered (spec/22_determinism.md R536, spec/22_determinism.md R537, spec/22_determinism.md R538, spec/22_determinism.md R540, spec/23_repair_and_errors.md R548, spec/23_repair_and_errors.md R549, spec/23_repair_and_errors.md R550, spec/23_repair_and_errors.md R551, spec/23_repair_and_errors.md R553, spec/23_repair_and_errors.md R559, spec/23_repair_and_errors.md R560, spec/23_repair_and_errors.md R563).
Where the spec is open it shows the model's choice: logs 114, 115, 116, 117, 118, 119. -/
def Obligations.SparingMovesASiteAndDigestsAreDelivered : Prop :=
  (∀ (s : State) (site : Nat), pageReady s .rep 0 = true →
    site = (getW s (reg .rep 0 0x104)).toNat % 16 * 16 + bitsAt (getW s (reg .rep 0 0x104)).toNat 8 4 →
    (spareCode s site = 0 → ∃ (t : State) (x : Sparing), exec .spareSite s = .next t ∧ t.rep.sparing = some x ∧ x.site = site ∧ x.byCmd = true ∧ x.since = nowNs s
        ∧ getF t (reg .rep 0 0x10C) 31 1 = 1 ∧ (getMill t site).swTo = none)
    ∧ (∀ code : Nat, code ≠ 0 → spareCode s site = code → ∃ t, exec .spareSite s = .next t ∧ getF t (reg .rep 0 0x10C) 0 3 = code
        ∧ OnlyIn [.bus] s t ∧ WordsOnly [reg .rep 0 0x10C] s t))
  ∧ (∀ (s : State) (x : Sparing) (lost : List LeafNo), s.rep.sparing = some x →
    (spareStill s x = true → exec (.spareCopyDone lost false) s = .next (settle (spareRemap s x (lost.eraseDups.map (fun l => l.val))))
      ∧ exec (.spareCopyDone lost true) s = .next (settle (spareAbandon s x)))
    ∧ exec .spareSiteTimeout s = .next (settle (spareRemap s x [0, 1]))
    ∧ (∀ d : Nat, d = x.site / 16 * 16 + 15 → x.site ≠ d → x.byCmd = true → s.rep.dt.length < 4096 →
        (∀ e ∈ s.sched.ctxs, e.2.freezeWhy ≠ 6) →
        ∃ t, spareRemap s x [] = (match siteUser t d with | some p => kickPart t p | none => t)
          ∧ getMill t d = getMill s x.site ∧ getMill t x.site = Mill.zero ∧ t.rep.sparing = none
          ∧ t.rep.dt = s.rep.dt ++ [⟨1, 2, x.site / 16 + 256 * (x.site % 16), 15, startNo s⟩] ∧ getF t (reg .rep 0 0x10C) 0 3 = 0
          ∧ bitAt (getW t (reg .rep 0 0x20)).toNat 3 = true))
  ∧ (∀ (s : State) (a b : Nat), pageReady s .rep 0 = true → a = (getW s (reg .rep 0 0x104)).toNat → b = (getW s (reg .rep 0 0x108)).toNat →
    ((∀ x, s.rep.sparing = some x → x.byCmd = false) →
      (a < 18 → b = 16 ∨ b = 17 → s.rep.dt.length < 4096 → ∃ t, exec .repMark s = .next t ∧ t.rep.dt = s.rep.dt ++ [⟨5, 2, a, b, startNo s⟩]
        ∧ getF t (reg .rep 0 0x10C) 0 3 = 0 ∧ getF t (reg .rep 0 0x10C) 31 1 = 0)
      ∧ (∀ e : DtEntry, b ≤ 1 → (if b = 0 then s.rep.dtA[a]? else s.rep.dtB[a]?) = some e → dtConflict s a = true → ∃ t, exec .tablePick s = .next t
        ∧ t.rep.dt = s.rep.dt.set a e ∧ t.rep.dtA = s.rep.dtA.set a e ∧ t.rep.dtB = s.rep.dtB.set a e ∧ getF t (reg .rep 0 0x10C) 0 3 = 0 ∧ OnlyIn [.rep, .bus] s t))
    ∧ (∀ x, s.rep.sparing = some x → x.byCmd = true → ∀ c ∈ ([.repMark, .tablePick] : List Instr), ∃ t, exec c s = .next t
        ∧ getF t (reg .rep 0 0x10C) 0 3 = 1 ∧ OnlyIn [.bus] s t ∧ WordsOnly [reg .rep 0 0x10C] s t))
  ∧ (∀ (s : State) (slack : List (BitVec 8)), deviceUp s = true → slack.length = 256 →
    (∀ i : Nat, i < 256 → getF s (reg .rep 3 0x10C) 0 8 ≤ (slack.getD i 0).toNat ∨ mget false s.rep.below i = true) →
    ∃ t, exec (.ageMonitor slack []) s = .next t ∧ (∀ i : Nat, i < 256 → mget 0 t.rep.slack i = (slack.getD i 0).toNat) ∧ OnlyIn [.rep] s t)
  ∧ (∀ (s : State) (v : BitVec 8), deviceUp s = true → v.toNat < getF s (reg .rep 3 0x10C) 0 8 → mget false s.rep.below 0 = false →
    getF s (repReg 0x110) 0 1 = 0 → s.rep.recs.length < 1024 → ∃ t, exec (.ageMonitor [v] []) s = .next t
      ∧ t.rep.recs = s.rep.recs ++ [⟨nowNs s, s.rep.nextSeq % 2 ^ 32, Block.mill.code, 0, 8, 0, 62, 0, v.toNat⟩]
      ∧ getF t (repReg 0x120) 0 1 = 1 ∧ bitAt (getW t (reg .rep 0 0x20)).toNat 2 = true ∧ mget false t.rep.below 0 = true ∧ OnlyIn [.rep, .bus] s t)
  ∧ (∀ (s : State) (v : Word), pageReady s .rep 1 = true → v.toNat % 2 = 1 → ∃ t, exec (.recPop v) s = .next t
    ∧ t.rep = { s.rep with recs := s.rep.recs.drop 1 } ∧ OnlyIn [.rep] s t)
  ∧ (∀ (s : State) (v : Word) (sl obj : Nat), pageReady s .hif 1 = true → sl = getF s (reg .hif 1 0x100) 0 13 → getF s (ringReg sl 0x138) 0 1 = 0 →
    4 ≤ bitsAt v.toNat 4 4 → bitsAt v.toNat 4 4 ≤ 12 → bitAt v.toNat 0 = true → obj = (getW s (ringReg sl 0x13C)).toNat → (getSlice s sl).st ≠ .none →
    counterOf s (getSlice s sl).part (obj % 2 ^ 16) = true → counterOf s (getSlice s sl).part (obj / 2 ^ 16) = true →
    granulesAdmit s (getSlice s sl).part (getD64 s (ringReg sl 0x130)).toNat (32 * 2 ^ bitsAt v.toNat 4 4) true = true →
    granulesAdmit s (getSlice s sl).part (getD64 s (ringReg sl 0x140)).toNat 4096 true = true →
    ∃ t, exec (.digEnable v) s = .next t ∧ getF t (ringReg sl 0x138) 0 1 = 1 ∧ getF t (ringReg sl 0x138) 4 4 = bitsAt v.toNat 4 4
      ∧ mget 0 t.hif.digNext sl = (getObj s (obj % 2 ^ 16)).value.toNat ∧ OnlyIn [.hif, .bus] s t)
  ∧ (∀ (s u v : State) (n : BitVec 13) (upset : List (Nat × Nat)) (r : DigRec) (k : Nat), s.hif.digQ.find? (fun r => r.slice = n.toNat) = some r →
    u = upsetLines { s with hif := { s.hif with digQ := s.hif.digQ.erase r } } upset → getF u (ringReg n.toNat 0x138) 0 1 = 1 → digPublish u r = (some k, v) →
    (getF v (ringReg n.toNat 0x138) 1 1 = 0 → exec (.digestPublish n upset) s = .next (settle (digDeliver v r k 0)))
    ∧ (getF v (ringReg n.toNat 0x138) 1 1 = 1 → bitAt (getW v (reg .hif 0 0x100)).toNat r.part = true →
      exec (.digestPublish n upset) s = .next (settle (digCompare v r k))))
  ∧ (∀ (s : State) (n : BitVec 13) (i : Fin 64) (c : DigCmp), (digPending s n.toNat)[(i : Nat)]? = some c →
    (c.retryAt = none → exec (.compareReadReturn n i none) s = .next (settle (digEnd s c 4))
      ∧ (∀ (l : List (BitVec 8)) (cmp : Nat), digJudge c.rcd c.emit l = some cmp → exec (.compareReadReturn n i (some l)) s = .next (settle (digEnd s c cmp)))
      ∧ (∀ l : List (BitVec 8), digJudge c.rcd c.emit l = none → nowNs s < digUntil s c →
          exec (.compareReadReturn n i (some l)) s = .next (settle (digPut s c { c with retryAt := some (nowNs s + 1000) }))))
    ∧ (∀ a : Nat, c.retryAt = some a → a ≤ nowNs s → nowNs s < digUntil s c → ∀ v : State, digRead s c = (true, v) →
        exec (.compareRetry n i) s = .next (settle (digPut v c { c with retryAt := none })))
    ∧ (c.retryAt ≠ none → digUntil s c ≤ nowNs s → exec (.digWaitExpiry n i) s = .next (settle (digEnd s c 3))))

/-- Slots erase only when free, the gate opens only to a valid token, migration keys follow their exchange, SPDM answers follow their order (spec/24_security.md R572, spec/24_security.md R573, spec/24_security.md R574, spec/24_security.md R576, spec/24_security.md R577, spec/24_security.md R578, spec/24_security.md R580, spec/24_security.md R581, spec/24_security.md R582, spec/24_security.md R585).
Where the spec is open it shows the model's choice: logs 28, 109, 122, 123, 124, 126. -/
def Obligations.SecurityCommandsAndSessionsKeepTheirOrder : Prop :=
  (∀ (s : State), devState s ≠ 1 → devState s ≠ 4 →
    (∀ (v : Word) (k : Nat), pageReady s .sec 1 = true → k = bitsAt v.toNat 8 6 → tspLocked s = false → k ≠ 63 → slotOwner s k = 63 →
      ∃ t, exec (.keyErase v) s = .next t ∧ mget KeySlot.empty t.mem.slots k = KeySlot.empty
        ∧ (∀ j : Nat, j ≠ k → mget KeySlot.empty t.mem.slots j = mget KeySlot.empty s.mem.slots j) ∧ getF t (reg .sec 1 0x104) 0 3 = 0 ∧ OnlyIn [.mem, .bus] s t)
    ∧ (∀ tok : List (BitVec 8), pageReady s .sec 2 = true → livingParts s = [] → tspLocked s = false → tokenOk s tok = true →
      ∃ t, exec (.openGate tok) s = .next t ∧ gateOpen t = true ∧ (∀ j : Nat, j < 63 → mget KeySlot.empty t.mem.slots j = KeySlot.empty)
        ∧ getF t (reg .sec 2 0x114) 0 3 = 0 ∧ OnlyIn [.mem, .bus, .fresh] s t)
    ∧ (∀ tok : List (BitVec 8), pageReady s .sec 2 = true → livingParts s = [] → tspLocked s = false → tokenOk s tok = false →
      ∃ t, exec (.openGate tok) s = .next t ∧ gateOpen t = gateOpen s ∧ getF t (reg .sec 2 0x114) 0 3 = 2 ∧ OnlyIn [.bus, .fresh] s t)
    ∧ (pageReady s .sec 2 = true → exec .closeGate s = .next (settle (trigger s 4 0 false)))
    ∧ (pageReady s .sec 3 = true →
      (∃ t, exec .migrOffer s = .next t ∧ t.sec.km = none ∧ t.sec.kem.isSome = true ∧ t.hif.hostW.length = s.hif.hostW.length + 1
        ∧ getF t (reg .sec 3 0x10C) 0 3 = 0 ∧ OnlyIn [.sec, .hif, .bus, .fresh] s t)
      ∧ (∀ (blob chain pk : List (BitVec 8)), Config.chainKey chain = some pk → Config.verify pk (sliceB blob 0 1608) (sliceB blob 1608 4627) = true →
        leAt blob 1600 8 = (getD64 s (reg .root 0 0x108)).toNat → ∃ t, exec (.migrAccept blob chain) s = .next t ∧ t.sec.km.isSome = true
          ∧ getF t (reg .sec 3 0x10C) 0 3 = 0 ∧ getF t (reg .sec 3 0x110) 0 1 = 1 ∧ OnlyIn [.sec, .hif, .bus, .fresh] s t)
      ∧ (∀ (ct src dk nonce : List (BitVec 8)), s.sec.kem = some (dk, nonce) → ∃ t, exec (.migrComplete ct src) s = .next t
          ∧ t.sec = { s.sec with km := some (migrKey (Config.kemDecaps dk ct) nonce src s.sec.idDigest), kem := none } ∧ getF t (reg .sec 3 0x10C) 0 3 = 0)
      ∧ (∀ (p : Fin 32) (km : List (BitVec 8)), s.sec.km = some km →
        ((getPart s p).st = .frozen → ∃ (t : State) (w : HostWr), exec (.exportKeys p) s = .next t ∧ t.hif.hostW = s.hif.hostW ++ [w]
          ∧ w.data = Config.gcmSeal km (wrapSlots s (getPart s p).desc.keySlots) ∧ t.mem = s.mem ∧ getF t (reg .sec 3 0x10C) 0 3 = 0)
        ∧ (∀ blob l : List (BitVec 8), (getPart s p).st = .free → Config.gcmOpen km blob = some l →
          (∀ e ∈ unwrapSlots l, e.1 ≠ 63 ∧ slotKey s e.1 = none) → ∃ t, exec (.importKeys p blob) s = .next t
            ∧ (∀ e ∈ unwrapSlots l, (slotKey t e.1).isSome = true ∧ (mget KeySlot.empty t.mem.slots e.1).bound = some (p : Nat)
                ∧ slotOwner t e.1 = slotOwner s e.1) ∧ getF t (reg .sec 3 0x10C) 0 3 = 0))
      ∧ (∃ t, exec .migrClear s = .next t ∧ t.sec = { s.sec with km := none } ∧ getF t (reg .sec 3 0x110) 0 1 = 0 ∧ OnlyIn [.sec, .bus] s t)))
  ∧ (∀ (s : State) (v : Word) (l m : List (BitVec 8)) (p : Fin 32), devState s = 1 ∨ devState s = 4 →
    ∀ c ∈ ([.keyErase v, .openGate l, .closeGate, .migrOffer, .migrAccept l m, .migrComplete l m, .exportKeys p, .importKeys p l, .migrClear] : List Instr),
    ∃ t, exec c s = .next t ∧ getW t (reg .sec 0 0x18) = getW s (reg .sec 0 0x18) ||| 0x100 ∧ OnlyIn [.bus] s t)
  ∧ (∀ (s : State) (x : Transport), spdmUp s x = true →
    (∃ t, exec (.getVersion x) s = .next t ∧ t.sec.rsp = s.sec.rsp ++ [(x, .version)] ∧ mget 0 t.sec.conns (Transport.code x) = 1 ∧ OnlyIn [.sec] s t)
    ∧ (1 ≤ mget 0 s.sec.conns (Transport.code x) → ∃ t, exec (.getCapabilities x) s = .next t ∧ t.sec.rsp = s.sec.rsp ++ [(x, .capabilities)]
        ∧ mget 0 t.sec.conns (Transport.code x) = 2 ∧ OnlyIn [.sec] s t)
    ∧ (2 ≤ mget 0 s.sec.conns (Transport.code x) → ∃ t, exec (.negotiateAlgorithms x) s = .next t ∧ t.sec.rsp = s.sec.rsp ++ [(x, .algorithms)]
        ∧ mget 0 t.sec.conns (Transport.code x) = 3 ∧ OnlyIn [.sec] s t)
    ∧ (mget 0 s.sec.conns (Transport.code x) < 3 → ∃ t, exec (.getDigests x) s = .next t ∧ t.sec = { s.sec with rsp := s.sec.rsp ++ [(x, .error 4)] } ∧ OnlyIn [.sec] s t)
    ∧ (3 ≤ mget 0 s.sec.conns (Transport.code x) →
      (∃ t, exec (.getDigests x) s = .next t ∧ t.sec = { s.sec with rsp := s.sec.rsp ++ [(x, .digests (Config.sha3 (Config.certChain s.sec.idDigest)))] } ∧ OnlyIn [.sec] s t)
      ∧ (∀ off len : BitVec 16, off.toNat < (Config.certChain s.sec.idDigest).length → ∃ (t : State) (k : Nat), exec (.getCertificate x 0 off len) s = .next t
          ∧ t.sec.rsp = s.sec.rsp ++ [(x, .certificate (((Config.certChain s.sec.idDigest).drop off.toNat).take len.toNat) k)] ∧ OnlyIn [.sec] s t)
      ∧ (∀ nonce : List (BitVec 8), ∃ (t : State) (g : List (BitVec 8)), exec (.challenge x 0 nonce) s = .next t ∧ t.sec.rsp = s.sec.rsp ++ [(x, .challengeAuth g)]
          ∧ g = Config.sign s.sec.idDigest s.freshNo (Config.certChain s.sec.idDigest ++ nonce) ∧ OnlyIn [.sec, .fresh] s t)
      ∧ (∀ nonce : List (BitVec 8), ∃ (t : State) (b : List (Nat × List (BitVec 8))) (g : List (BitVec 8)), exec (.getMeasurements x 7 nonce) s = .next t
          ∧ t.sec.rsp = s.sec.rsp ++ [(x, .measurements b g)] ∧ (7, measGate s) ∈ b ∧ OnlyIn [.sec, .fresh] s t)
      ∧ (∀ ek : List (BitVec 8), s.sec.sessions.length < 4 → ∃ (t : State) (ct g : List (BitVec 8)), exec (.keyExchange x ek) s = .next t
          ∧ t.sec.rsp = s.sec.rsp ++ [(x, .keyExchange s.sec.nextSess ct g)] ∧ mfind t.sec.sessions s.sec.nextSess = some ⟨x, false, 0⟩ ∧ OnlyIn [.sec, .fresh] s t)
      ∧ (∀ (n : Nat) (q : Session), mfind s.sec.sessions n = some q → q.transport = x →
        (q.ready = false → ∃ t, exec (.finish x n) s = .next t ∧ mfind t.sec.sessions n = some { q with ready := true } ∧ t.sec.rsp = s.sec.rsp ++ [(x, .finish n)] ∧ OnlyIn [.sec] s t)
        ∧ (q.ready = true →
          (∃ t, exec (.keyUpdate x n) s = .next t ∧ mfind t.sec.sessions n = some { q with keyGen := q.keyGen + 1 } ∧ t.sec.rsp = s.sec.rsp ++ [(x, .keyUpdate n)] ∧ OnlyIn [.sec] s t)
          ∧ (∃ t, exec (.heartbeat x n) s = .next t ∧ t.sec = { s.sec with rsp := s.sec.rsp ++ [(x, .heartbeat n)] } ∧ OnlyIn [.sec] s t)
          ∧ (∃ t, exec (.endSession x n) s = .next t ∧ mfind t.sec.sessions n = none ∧ t.sec.rsp = s.sec.rsp ++ [(x, .endSession n)] ∧ OnlyIn [.sec] s t)
          ∧ (∀ (k : Fin 9) (key : List (BitVec 8)), hasCap s 0x60 = true → ∃ t, exec (.ideKm x n k key) s = .next t ∧ mfind t.sec.ide k = some key
              ∧ t.sec.rsp = s.sec.rsp ++ [(x, .vendor n true)] ∧ OnlyIn [.sec] s t)
          ∧ (hasCap s 0x61 = true →
            (∀ (k : Fin 64) (p : Fin 32) (key : BitVec 512), k ≠ 63 → slotOwner s k = 63 → (getPart s p).st = .free → ∃ t, exec (.setTargetKey x n k p key) s = .next t
              ∧ (slotKey t k).isSome = true ∧ (mget KeySlot.empty t.mem.slots k).bound = some (p : Nat) ∧ (mget KeySlot.empty t.mem.slots k).tsp = true
              ∧ t.sec.rsp = s.sec.rsp ++ [(x, .vendor n true)] ∧ OnlyIn [.sec, .mem] s t)
            ∧ (∃ t, exec (.lockTargetConfiguration x n) s = .next t ∧ tspLocked t = true ∧ t.sec.rsp = s.sec.rsp ++ [(x, .vendor n true)] ∧ OnlyIn [.sec, .bus] s t)
            ∧ (∃ t, exec (.getTargetCapabilities x n) s = .next t ∧ t.sec.rsp = s.sec.rsp ++ [(x, .tspCapabilities n)] ∧ OnlyIn [.sec] s t)
            ∧ (∃ (t : State) (b : List (Nat × Nat)), exec (.getTargetConfigurationReport x n) s = .next t
                ∧ t.sec.rsp = s.sec.rsp ++ [(x, .tspReport n (tspLocked s) b (lockedSettings s))] ∧ OnlyIn [.sec] s t))))))
  ∧ (∀ (s : State) (k : Fin 9), (mfind s.sec.ide k).isSome = true →
    (k = 0 → ∃ t, exec (.ideFail k) s = .next t ∧ t.hif = { s.hif with linkUp := false } ∧ OnlyIn [.hif] s t)
    ∧ (k ≠ 0 → ∃ t, exec (.ideFail k) s = .next t ∧ getW t (reg .sec 3 0x11C) = satAdd32 (getW s (reg .sec 3 0x11C)) 1
        ∧ OnlyIn [.bus] s t ∧ WordsOnly [reg .sec 3 0x11C] s t))

/-- A step runs the command at the front of the queue on the state with the queue's rest; on an empty queue the fantail ticks (spec/95_what_each_step_holds.md, spec/INDEX.md).
Where the spec is open it shows the model's choice: logs 2, 3. -/
def Obligations.AStepRunsTheCommandAtTheFront : Prop :=
  (∀ (c : Instr) (s : State) (rest : List Instr), step { s with pending := c :: rest } = exec c { s with pending := rest })
  ∧ (∀ s : State, s.pending = [] → ∃ t, step s = .next t ∧ t.pending = []
      ∧ (devState s ≠ 1 → devState s ≠ 4 ∨ s.boot.d3 = true → ∀ a : Nat, a ≠ reg .mgt 1 0x100 → getW t a = getW s a)
      ∧ (devState s = 4 → s.boot.d3 = false → devState t = 1)
      ∧ t.ftl.count = (if (getDom s 1).st = 3 then s.ftl.count + 1 else s.ftl.count))

/-- After every step each clock domain is in the state its condition asks, and while the device is up no row of a radio mill is OFF or below OPP0 (spec/14_radio_pipeline.md R403, spec/19_governor.md R494, spec/20_clocks_power_states_reset.md R502, spec/20_clocks_power_states_reset.md R503, spec/20_clocks_power_states_reset.md R508, spec/20_clocks_power_states_reset.md R509).
Where the spec is open it shows the model's choice: log 2. -/
def Obligations.EveryStepLeavesDomainsAndRowsAsTheirConditionsAsk : Prop :=
  ∀ s s' : State, step s = .next s' → Settled s'

/-- The reset state meets the invariants of the block, and its registers hold the values that the spec gives (spec/02_register_pages.md R40, spec/02_register_pages.md R42, spec/11_partitions_and_scheduling.md R332, spec/18_fantail_time.md R488, spec/20_clocks_power_states_reset.md R502, spec/20_clocks_power_states_reset.md R509).
Where the spec is open it shows the model's choice: logs 4, 6, 7, 10, 27. -/
def Obligations.ResetLeavesTheGivenValues : Prop :=
  State.reset.pending = [] ∧ Settled State.reset ∧ WordsCanonical State.reset ∧ Memory.wf State.reset.mem.cells = true
  ∧ (∀ a : Nat, getW State.reset a = resetKey a)
  ∧ (∀ e ∈ ([(reg .ftl 0 0x128, 10000), (reg .ftl 0 0x12C, 1000), (reg .ftl 1 0x100, 24), (reg .ftl 1 0x10C, 0x04004000), (reg .ftl 2 0x110, 100000),
        (reg .ftl 1 0x114, 100), (reg .syn 2 0x100, 100000), (reg .sch 1 0x104, 10000), (reg .rep 1 0x20, 0), (reg .hif 0 0x2C, 0)] : List (Nat × Word)),
      getW State.reset e.1 = e.2)
  ∧ State.reset.ftl.refLost = true ∧ State.reset.sched = Sched.zero ∧ (∀ p : Nat, (getPart State.reset p).st = .free) ∧ deviceUp State.reset = false
end

