-- ==== Sys2Proof/Laws/Bits.lean ====
section
/-! SUPPORT. Reading a bit field after it, or another, was replaced. -/
namespace Sys2Proof.Machine

theorem bitsAt_lt (n lo len : Nat) : bitsAt n lo len < 2 ^ len := Nat.mod_lt _ (by positivity)

/-- A number in three parts: below the field, the field, above it. -/
theorem bits_split (n lo len : Nat) :
    n = n % 2 ^ lo + bitsAt n lo len * 2 ^ lo + n / 2 ^ (lo + len) * 2 ^ (lo + len) := by
  unfold bitsAt
  have a := Nat.div_add_mod n (2 ^ lo)
  have b := Nat.div_add_mod (n / 2 ^ lo) (2 ^ len)
  rw [Nat.div_div_eq_div_mul, ← pow_add] at b
  rw [pow_add] at b ⊢
  generalize n / (2 ^ lo * 2 ^ len) = c at *
  rw [← b] at a
  nlinarith [a]

theorem putBits_eq (n lo len v : Nat) :
    putBits n lo len v = n % 2 ^ lo + v % 2 ^ len * 2 ^ lo + n / 2 ^ (lo + len) * 2 ^ (lo + len) := by
  have h := bits_split n lo len
  unfold putBits
  omega

/-- The field that was replaced. -/
theorem bitsAt_putBits_same (n lo len v : Nat) : bitsAt (putBits n lo len v) lo len = v % 2 ^ len := by
  rw [putBits_eq]
  unfold bitsAt
  have hp : 0 < 2 ^ lo := by positivity
  have h1 : n % 2 ^ lo < 2 ^ lo := Nat.mod_lt _ hp
  rw [show n % 2 ^ lo + v % 2 ^ len * 2 ^ lo + n / 2 ^ (lo + len) * 2 ^ (lo + len)
      = n % 2 ^ lo + 2 ^ lo * (v % 2 ^ len + n / 2 ^ (lo + len) * 2 ^ len) by rw [pow_add]; ring]
  rw [Nat.add_mul_div_left _ _ hp, Nat.div_eq_of_lt h1, Nat.zero_add, Nat.add_mul_mod_self_right, Nat.mod_mod]

/-- A field above the one that was replaced. -/
theorem bitsAt_putBits_above (n lo len v l m : Nat) (h : lo + len ≤ l) : bitsAt (putBits n lo len v) l m = bitsAt n l m := by
  unfold bitsAt
  have key : putBits n lo len v / 2 ^ (lo + len) = n / 2 ^ (lo + len) := by
    rw [putBits_eq]
    have hp : 0 < 2 ^ (lo + len) := by positivity
    have h1 : n % 2 ^ lo + v % 2 ^ len * 2 ^ lo < 2 ^ (lo + len) := by
      have a : n % 2 ^ lo < 2 ^ lo := Nat.mod_lt _ (by positivity)
      have b : v % 2 ^ len + 1 ≤ 2 ^ len := Nat.mod_lt _ (by positivity)
      rw [pow_add]
      nlinarith [Nat.mul_le_mul_left (2 ^ lo) b]
    rw [Nat.add_mul_div_right _ _ hp, Nat.div_eq_of_lt h1, Nat.zero_add]
  obtain ⟨k, rfl⟩ := Nat.exists_eq_add_of_le h
  rw [pow_add _ (lo + len) k, ← Nat.div_div_eq_div_mul, ← Nat.div_div_eq_div_mul, key]

/-- A field below the one that was replaced. -/
theorem bitsAt_putBits_below (n lo len v l m : Nat) (h : l + m ≤ lo) : bitsAt (putBits n lo len v) l m = bitsAt n l m := by
  rw [putBits_eq]
  unfold bitsAt
  obtain ⟨k, rfl⟩ := Nat.exists_eq_add_of_le h
  have hl : 0 < 2 ^ l := by positivity
  have e : n % 2 ^ (l + m + k) + v % 2 ^ len * 2 ^ (l + m + k) + n / 2 ^ (l + m + k + len) * 2 ^ (l + m + k + len)
      = n % 2 ^ (l + m + k) + 2 ^ l * (2 ^ m * (2 ^ k * (v % 2 ^ len + n / 2 ^ (l + m + k + len) * 2 ^ len))) := by
    simp only [pow_add]; ring
  rw [e, Nat.add_mul_div_left _ _ hl, Nat.add_mul_mod_self_left]
  rw [pow_add (2 : Nat) (l + m) k, pow_add (2 : Nat) l m, Nat.mod_mul_right_div_self_aux n l m k]
where
  Nat.mod_mul_right_div_self_aux (n l m k : Nat) : n % (2 ^ l * 2 ^ m * 2 ^ k) / 2 ^ l % 2 ^ m = n / 2 ^ l % 2 ^ m := by
    rw [Nat.mul_assoc, Nat.mod_mul_right_div_self, Nat.mod_mul_right_mod]

theorem bitsAt_zero_of_lt {n lo len : Nat} (h : n < 2 ^ lo) : bitsAt n lo len = 0 := by
  simp [bitsAt, Nat.div_eq_of_lt h]

theorem putBits_lt {n lo len v w : Nat} (hn : n < 2 ^ w) (h : lo + len ≤ w) : putBits n lo len v < 2 ^ w := by
  rw [putBits_eq]
  obtain ⟨k, rfl⟩ := Nat.exists_eq_add_of_le h
  have a : n % 2 ^ lo < 2 ^ lo := Nat.mod_lt _ (by positivity)
  have b : v % 2 ^ len + 1 ≤ 2 ^ len := Nat.mod_lt _ (by positivity)
  have c : n / 2 ^ (lo + len) + 1 ≤ 2 ^ k := by
    have h : n / 2 ^ (lo + len) < 2 ^ k := Nat.div_lt_of_lt_mul (by rw [← pow_add]; exact hn)
    omega
  rw [pow_add _ (lo + len) k]
  have d := Nat.mul_le_mul_left (2 ^ lo) b
  have e := Nat.mul_le_mul_left (2 ^ (lo + len)) c
  rw [show (2 : Nat) ^ (lo + len) = 2 ^ lo * 2 ^ len from pow_add ..] at *
  nlinarith

end Sys2Proof.Machine
end

