-- ==== Sys2Proof/Laws/Maps.lean ====
section
/-! SUPPORT. Reading a finite map after a write, and the canonical form that every write keeps. -/
namespace Sys2Proof.Machine

variable {α : Type}

@[simp] theorem mfind_nil (k : Nat) : mfind ([] : KMap α) k = none := rfl

@[simp] theorem mget_nil (d : α) (k : Nat) : mget d ([] : KMap α) k = d := rfl

theorem mfind_mput_same (m : KMap α) (k : Nat) (v : α) : mfind (mput m k v) k = some v := by
  induction m with
  | nil => simp [mput, mfind]
  | cons e r ih =>
    obtain ⟨k', v'⟩ := e
    simp only [mput]
    split
    · simp [mfind]
    · split
      · simp [mfind]
      · rename_i h2
        have : ¬ k' = k := fun h => h2 h.symm
        simp [mfind, this, ih]

theorem mfind_mput_other (m : KMap α) {j k : Nat} (v : α) (h : j ≠ k) : mfind (mput m k v) j = mfind m j := by
  induction m with
  | nil => simp [mput, mfind, Ne.symm h]
  | cons e r ih =>
    obtain ⟨k', v'⟩ := e
    simp only [mput]
    split
    · simp [mfind, Ne.symm h]
    · split
      · rename_i h2
        subst h2
        simp [mfind, Ne.symm h]
      · simp [mfind, ih]

theorem mfind_mdel_same (m : KMap α) (k : Nat) : mfind (mdel m k) k = none := by
  induction m with
  | nil => rfl
  | cons e r ih =>
    obtain ⟨k', v'⟩ := e
    by_cases h : k' = k
    · subst h; simpa [mdel, List.filter] using ih
    · simpa [mdel, List.filter, h, mfind] using ih

theorem mfind_mdel_other (m : KMap α) {j k : Nat} (h : j ≠ k) : mfind (mdel m k) j = mfind m j := by
  induction m with
  | nil => rfl
  | cons e r ih =>
    obtain ⟨k', v'⟩ := e
    by_cases hk : k' = k
    · subst hk; simpa [mdel, List.filter, mfind, Ne.symm h] using ih
    · by_cases hj : k' = j
      · simp [mdel, List.filter, mfind, hj, h]
      · simpa [mdel, List.filter, hk, mfind, hj] using ih

@[simp] theorem mget_mput_same (d : α) (m : KMap α) (k : Nat) (v : α) : mget d (mput m k v) k = v := by
  simp [mget, mfind_mput_same]

theorem mget_mput_other (d : α) (m : KMap α) {j k : Nat} (v : α) (h : j ≠ k) : mget d (mput m k v) j = mget d m j := by
  simp [mget, mfind_mput_other m v h]

@[simp] theorem mget_mdel_same (d : α) (m : KMap α) (k : Nat) : mget d (mdel m k) k = d := by
  simp [mget, mfind_mdel_same]

theorem mget_mdel_other (d : α) (m : KMap α) {j k : Nat} (h : j ≠ k) : mget d (mdel m k) j = mget d m j := by
  simp [mget, mfind_mdel_other m h]

/-- Reading a key after writing it. -/
@[simp] theorem mget_mset_same [DecidableEq α] (d : α) (m : KMap α) (k : Nat) (v : α) : mget d (mset d m k v) k = v := by
  unfold mset
  split
  · rename_i h; simp [h]
  · simp

/-- A write leaves every other key alone, whatever default either side has. -/
theorem mget_mset_other [DecidableEq α] (d e : α) (m : KMap α) {j k : Nat} (v : α) (h : j ≠ k) :
    mget e (mset d m k v) j = mget e m j := by
  unfold mset
  split
  · exact mget_mdel_other e m h
  · exact mget_mput_other e m v h

/-! ### The canonical form -/

theorem mrising_weaken {m : KMap α} {p q : Nat} (h : mrising (some q) m = true) (hpq : p ≤ q) :
    mrising (some p) m = true := by
  cases m with
  | nil => rfl
  | cons e r =>
    obtain ⟨k, v⟩ := e
    simp only [mrising, Bool.and_eq_true, decide_eq_true_eq] at h ⊢
    exact ⟨by omega, h.2⟩

theorem mrising_none_of_some {m : KMap α} {p : Nat} (h : mrising (some p) m = true) : mrising none m = true := by
  cases m with
  | nil => rfl
  | cons e r =>
    obtain ⟨k, v⟩ := e
    simp only [mrising, Bool.and_eq_true] at h ⊢
    exact h.2

theorem mrising_mput_some {m : KMap α} {p k : Nat} (v : α) (h : mrising (some p) m = true) (hk : p < k) :
    mrising (some p) (mput m k v) = true := by
  induction m generalizing p with
  | nil => simp [mput, mrising, hk]
  | cons e r ih =>
    obtain ⟨k', v'⟩ := e
    simp only [mrising, Bool.and_eq_true, decide_eq_true_eq] at h
    simp only [mput]
    split
    · simp only [mrising, Bool.and_eq_true, decide_eq_true_eq]; exact ⟨hk, by assumption, h.2⟩
    · split
      · rename_i h2; subst h2; simp only [mrising, Bool.and_eq_true, decide_eq_true_eq]; exact ⟨hk, h.2⟩
      · simp only [mrising, Bool.and_eq_true, decide_eq_true_eq]; exact ⟨h.1, ih h.2 (by omega)⟩

theorem mrising_mput {m : KMap α} {k : Nat} (v : α) (h : mrising none m = true) : mrising none (mput m k v) = true := by
  cases m with
  | nil => rfl
  | cons e r =>
    obtain ⟨k', v'⟩ := e
    simp only [mrising] at h
    simp only [mput]
    split
    · simp only [mrising, Bool.and_eq_true, decide_eq_true_eq]; exact ⟨by assumption, h⟩
    · split
      · rename_i h2; subst h2; exact h
      · simp only [mrising]; exact mrising_mput_some v h (by omega)

theorem mrising_filter_some {m : KMap α} {p : Nat} (f : Nat × α → Bool) (h : mrising (some p) m = true) :
    mrising (some p) (m.filter f) = true := by
  induction m generalizing p with
  | nil => rfl
  | cons e r ih =>
    obtain ⟨k, v⟩ := e
    simp only [mrising, Bool.and_eq_true, decide_eq_true_eq] at h
    by_cases hf : f (k, v) = true
    · simp only [List.filter, hf, mrising, Bool.and_eq_true, decide_eq_true_eq]; exact ⟨h.1, ih h.2⟩
    · simp only [List.filter, hf]; exact mrising_weaken (ih h.2) (by omega)

theorem mrising_filter {m : KMap α} (f : Nat × α → Bool) (h : mrising none m = true) :
    mrising none (m.filter f) = true := by
  induction m with
  | nil => rfl
  | cons e r ih =>
    obtain ⟨k, v⟩ := e
    simp only [mrising] at h
    by_cases hf : f (k, v) = true
    · simp only [List.filter, hf, mrising]; exact mrising_filter_some f h
    · simp only [List.filter, hf]; exact ih (mrising_none_of_some h)

theorem mem_mput {m : KMap α} {k : Nat} {v : α} {e : Nat × α} (h : e ∈ mput m k v) : e = (k, v) ∨ e ∈ m := by
  induction m with
  | nil => simpa [mput] using h
  | cons x r ih =>
    obtain ⟨k', v'⟩ := x
    simp only [mput] at h
    split at h
    · simpa using h
    · split at h
      · rcases List.mem_cons.mp h with h | h
        · exact .inl h
        · exact .inr (List.mem_cons_of_mem _ h)
      · rcases List.mem_cons.mp h with h | h
        · exact .inr (h ▸ List.mem_cons_self)
        · rcases ih h with h | h
          · exact .inl h
          · exact .inr (List.mem_cons_of_mem _ h)

/-- A write keeps the canonical form. -/
theorem mwf_mset [DecidableEq α] {d : Nat → α} {m : KMap α} (k : Nat) (v : α) (h : mwf d m = true) :
    mwf d (mset (d k) m k v) = true := by
  simp only [mwf, Bool.and_eq_true, List.all_eq_true] at h ⊢
  unfold mset
  split
  · exact ⟨mrising_filter _ h.1, fun e he => h.2 e (List.mem_of_mem_filter he)⟩
  · refine ⟨mrising_mput v h.1, fun e he => ?_⟩
    rcases mem_mput he with rfl | he
    · simpa using ‹¬ v = d k›
    · exact h.2 e he

end Sys2Proof.Machine
end

