-- ==== Sys2Proof/Laws/State.lean ====
section
/-! SUPPORT. What the updates of the state leave alone: one lemma for each component and each update. -/
namespace Sys2Proof.Machine

@[simp] theorem setW_pending (s : State) (a : Nat) (v : Word) : (setW s a v).pending = s.pending := rfl
@[simp] theorem setW_freshNo (s : State) (a : Nat) (v : Word) : (setW s a v).freshNo = s.freshNo := rfl
@[simp] theorem setW_mills (s : State) (a : Nat) (v : Word) : (setW s a v).mills = s.mills := rfl
@[simp] theorem setW_sync (s : State) (a : Nat) (v : Word) : (setW s a v).sync = s.sync := rfl
@[simp] theorem setW_sched (s : State) (a : Nat) (v : Word) : (setW s a v).sched = s.sched := rfl
@[simp] theorem setW_mem (s : State) (a : Nat) (v : Word) : (setW s a v).mem = s.mem := rfl
@[simp] theorem setW_grn (s : State) (a : Nat) (v : Word) : (setW s a v).grn = s.grn := rfl
@[simp] theorem setW_hif (s : State) (a : Nat) (v : Word) : (setW s a v).hif = s.hif := rfl
@[simp] theorem setW_ftl (s : State) (a : Nat) (v : Word) : (setW s a v).ftl = s.ftl := rfl
@[simp] theorem setW_cells (s : State) (a : Nat) (v : Word) : (setW s a v).cells = s.cells := rfl
@[simp] theorem setW_rep (s : State) (a : Nat) (v : Word) : (setW s a v).rep = s.rep := rfl
@[simp] theorem setW_gov (s : State) (a : Nat) (v : Word) : (setW s a v).gov = s.gov := rfl
@[simp] theorem setW_net (s : State) (a : Nat) (v : Word) : (setW s a v).net = s.net := rfl
@[simp] theorem setW_bol (s : State) (a : Nat) (v : Word) : (setW s a v).bol = s.bol := rfl
@[simp] theorem setW_card (s : State) (a : Nat) (v : Word) : (setW s a v).card = s.card := rfl
@[simp] theorem setW_boot (s : State) (a : Nat) (v : Word) : (setW s a v).boot = s.boot := rfl
@[simp] theorem setW_sec (s : State) (a : Nat) (v : Word) : (setW s a v).sec = s.sec := rfl

@[simp] theorem setD64_pending (s : State) (a : Nat) (v : DWord) : (setD64 s a v).pending = s.pending := rfl
@[simp] theorem setD64_freshNo (s : State) (a : Nat) (v : DWord) : (setD64 s a v).freshNo = s.freshNo := rfl
@[simp] theorem setD64_mills (s : State) (a : Nat) (v : DWord) : (setD64 s a v).mills = s.mills := rfl
@[simp] theorem setD64_sync (s : State) (a : Nat) (v : DWord) : (setD64 s a v).sync = s.sync := rfl
@[simp] theorem setD64_sched (s : State) (a : Nat) (v : DWord) : (setD64 s a v).sched = s.sched := rfl
@[simp] theorem setD64_mem (s : State) (a : Nat) (v : DWord) : (setD64 s a v).mem = s.mem := rfl
@[simp] theorem setD64_grn (s : State) (a : Nat) (v : DWord) : (setD64 s a v).grn = s.grn := rfl
@[simp] theorem setD64_hif (s : State) (a : Nat) (v : DWord) : (setD64 s a v).hif = s.hif := rfl
@[simp] theorem setD64_ftl (s : State) (a : Nat) (v : DWord) : (setD64 s a v).ftl = s.ftl := rfl
@[simp] theorem setD64_cells (s : State) (a : Nat) (v : DWord) : (setD64 s a v).cells = s.cells := rfl
@[simp] theorem setD64_rep (s : State) (a : Nat) (v : DWord) : (setD64 s a v).rep = s.rep := rfl
@[simp] theorem setD64_gov (s : State) (a : Nat) (v : DWord) : (setD64 s a v).gov = s.gov := rfl
@[simp] theorem setD64_net (s : State) (a : Nat) (v : DWord) : (setD64 s a v).net = s.net := rfl
@[simp] theorem setD64_bol (s : State) (a : Nat) (v : DWord) : (setD64 s a v).bol = s.bol := rfl
@[simp] theorem setD64_card (s : State) (a : Nat) (v : DWord) : (setD64 s a v).card = s.card := rfl
@[simp] theorem setD64_boot (s : State) (a : Nat) (v : DWord) : (setD64 s a v).boot = s.boot := rfl
@[simp] theorem setD64_sec (s : State) (a : Nat) (v : DWord) : (setD64 s a v).sec = s.sec := rfl

@[simp] theorem setF_pending (s : State) (a lo len v : Nat) : (setF s a lo len v).pending = s.pending := rfl
@[simp] theorem setF_freshNo (s : State) (a lo len v : Nat) : (setF s a lo len v).freshNo = s.freshNo := rfl
@[simp] theorem setF_mills (s : State) (a lo len v : Nat) : (setF s a lo len v).mills = s.mills := rfl
@[simp] theorem setF_sync (s : State) (a lo len v : Nat) : (setF s a lo len v).sync = s.sync := rfl
@[simp] theorem setF_sched (s : State) (a lo len v : Nat) : (setF s a lo len v).sched = s.sched := rfl
@[simp] theorem setF_mem (s : State) (a lo len v : Nat) : (setF s a lo len v).mem = s.mem := rfl
@[simp] theorem setF_grn (s : State) (a lo len v : Nat) : (setF s a lo len v).grn = s.grn := rfl
@[simp] theorem setF_hif (s : State) (a lo len v : Nat) : (setF s a lo len v).hif = s.hif := rfl
@[simp] theorem setF_ftl (s : State) (a lo len v : Nat) : (setF s a lo len v).ftl = s.ftl := rfl
@[simp] theorem setF_cells (s : State) (a lo len v : Nat) : (setF s a lo len v).cells = s.cells := rfl
@[simp] theorem setF_rep (s : State) (a lo len v : Nat) : (setF s a lo len v).rep = s.rep := rfl
@[simp] theorem setF_gov (s : State) (a lo len v : Nat) : (setF s a lo len v).gov = s.gov := rfl
@[simp] theorem setF_net (s : State) (a lo len v : Nat) : (setF s a lo len v).net = s.net := rfl
@[simp] theorem setF_bol (s : State) (a lo len v : Nat) : (setF s a lo len v).bol = s.bol := rfl
@[simp] theorem setF_card (s : State) (a lo len v : Nat) : (setF s a lo len v).card = s.card := rfl
@[simp] theorem setF_boot (s : State) (a lo len v : Nat) : (setF s a lo len v).boot = s.boot := rfl
@[simp] theorem setF_sec (s : State) (a lo len v : Nat) : (setF s a lo len v).sec = s.sec := rfl

@[simp] theorem bump32_pending (s : State) (a n : Nat) : (bump32 s a n).pending = s.pending := rfl
@[simp] theorem bump32_freshNo (s : State) (a n : Nat) : (bump32 s a n).freshNo = s.freshNo := rfl
@[simp] theorem bump32_mills (s : State) (a n : Nat) : (bump32 s a n).mills = s.mills := rfl
@[simp] theorem bump32_sync (s : State) (a n : Nat) : (bump32 s a n).sync = s.sync := rfl
@[simp] theorem bump32_sched (s : State) (a n : Nat) : (bump32 s a n).sched = s.sched := rfl
@[simp] theorem bump32_mem (s : State) (a n : Nat) : (bump32 s a n).mem = s.mem := rfl
@[simp] theorem bump32_grn (s : State) (a n : Nat) : (bump32 s a n).grn = s.grn := rfl
@[simp] theorem bump32_hif (s : State) (a n : Nat) : (bump32 s a n).hif = s.hif := rfl
@[simp] theorem bump32_ftl (s : State) (a n : Nat) : (bump32 s a n).ftl = s.ftl := rfl
@[simp] theorem bump32_cells (s : State) (a n : Nat) : (bump32 s a n).cells = s.cells := rfl
@[simp] theorem bump32_rep (s : State) (a n : Nat) : (bump32 s a n).rep = s.rep := rfl
@[simp] theorem bump32_gov (s : State) (a n : Nat) : (bump32 s a n).gov = s.gov := rfl
@[simp] theorem bump32_net (s : State) (a n : Nat) : (bump32 s a n).net = s.net := rfl
@[simp] theorem bump32_bol (s : State) (a n : Nat) : (bump32 s a n).bol = s.bol := rfl
@[simp] theorem bump32_card (s : State) (a n : Nat) : (bump32 s a n).card = s.card := rfl
@[simp] theorem bump32_boot (s : State) (a n : Nat) : (bump32 s a n).boot = s.boot := rfl
@[simp] theorem bump32_sec (s : State) (a n : Nat) : (bump32 s a n).sec = s.sec := rfl

@[simp] theorem bump64_pending (s : State) (a n : Nat) : (bump64 s a n).pending = s.pending := rfl
@[simp] theorem bump64_freshNo (s : State) (a n : Nat) : (bump64 s a n).freshNo = s.freshNo := rfl
@[simp] theorem bump64_mills (s : State) (a n : Nat) : (bump64 s a n).mills = s.mills := rfl
@[simp] theorem bump64_sync (s : State) (a n : Nat) : (bump64 s a n).sync = s.sync := rfl
@[simp] theorem bump64_sched (s : State) (a n : Nat) : (bump64 s a n).sched = s.sched := rfl
@[simp] theorem bump64_mem (s : State) (a n : Nat) : (bump64 s a n).mem = s.mem := rfl
@[simp] theorem bump64_grn (s : State) (a n : Nat) : (bump64 s a n).grn = s.grn := rfl
@[simp] theorem bump64_hif (s : State) (a n : Nat) : (bump64 s a n).hif = s.hif := rfl
@[simp] theorem bump64_ftl (s : State) (a n : Nat) : (bump64 s a n).ftl = s.ftl := rfl
@[simp] theorem bump64_cells (s : State) (a n : Nat) : (bump64 s a n).cells = s.cells := rfl
@[simp] theorem bump64_rep (s : State) (a n : Nat) : (bump64 s a n).rep = s.rep := rfl
@[simp] theorem bump64_gov (s : State) (a n : Nat) : (bump64 s a n).gov = s.gov := rfl
@[simp] theorem bump64_net (s : State) (a n : Nat) : (bump64 s a n).net = s.net := rfl
@[simp] theorem bump64_bol (s : State) (a n : Nat) : (bump64 s a n).bol = s.bol := rfl
@[simp] theorem bump64_card (s : State) (a n : Nat) : (bump64 s a n).card = s.card := rfl
@[simp] theorem bump64_boot (s : State) (a n : Nat) : (bump64 s a n).boot = s.boot := rfl
@[simp] theorem bump64_sec (s : State) (a n : Nat) : (bump64 s a n).sec = s.sec := rfl

@[simp] theorem setCtx_pending (s : State) (c : Nat) (x : Ctx) : (setCtx s c x).pending = s.pending := rfl
@[simp] theorem setCtx_freshNo (s : State) (c : Nat) (x : Ctx) : (setCtx s c x).freshNo = s.freshNo := rfl
@[simp] theorem setCtx_bus (s : State) (c : Nat) (x : Ctx) : (setCtx s c x).bus = s.bus := rfl
@[simp] theorem setCtx_mills (s : State) (c : Nat) (x : Ctx) : (setCtx s c x).mills = s.mills := rfl
@[simp] theorem setCtx_sync (s : State) (c : Nat) (x : Ctx) : (setCtx s c x).sync = s.sync := rfl
@[simp] theorem setCtx_mem (s : State) (c : Nat) (x : Ctx) : (setCtx s c x).mem = s.mem := rfl
@[simp] theorem setCtx_grn (s : State) (c : Nat) (x : Ctx) : (setCtx s c x).grn = s.grn := rfl
@[simp] theorem setCtx_hif (s : State) (c : Nat) (x : Ctx) : (setCtx s c x).hif = s.hif := rfl
@[simp] theorem setCtx_ftl (s : State) (c : Nat) (x : Ctx) : (setCtx s c x).ftl = s.ftl := rfl
@[simp] theorem setCtx_cells (s : State) (c : Nat) (x : Ctx) : (setCtx s c x).cells = s.cells := rfl
@[simp] theorem setCtx_rep (s : State) (c : Nat) (x : Ctx) : (setCtx s c x).rep = s.rep := rfl
@[simp] theorem setCtx_gov (s : State) (c : Nat) (x : Ctx) : (setCtx s c x).gov = s.gov := rfl
@[simp] theorem setCtx_net (s : State) (c : Nat) (x : Ctx) : (setCtx s c x).net = s.net := rfl
@[simp] theorem setCtx_bol (s : State) (c : Nat) (x : Ctx) : (setCtx s c x).bol = s.bol := rfl
@[simp] theorem setCtx_card (s : State) (c : Nat) (x : Ctx) : (setCtx s c x).card = s.card := rfl
@[simp] theorem setCtx_boot (s : State) (c : Nat) (x : Ctx) : (setCtx s c x).boot = s.boot := rfl
@[simp] theorem setCtx_sec (s : State) (c : Nat) (x : Ctx) : (setCtx s c x).sec = s.sec := rfl

@[simp] theorem delCtx_pending (s : State) (c : Nat) : (delCtx s c).pending = s.pending := rfl
@[simp] theorem delCtx_freshNo (s : State) (c : Nat) : (delCtx s c).freshNo = s.freshNo := rfl
@[simp] theorem delCtx_bus (s : State) (c : Nat) : (delCtx s c).bus = s.bus := rfl
@[simp] theorem delCtx_mills (s : State) (c : Nat) : (delCtx s c).mills = s.mills := rfl
@[simp] theorem delCtx_sync (s : State) (c : Nat) : (delCtx s c).sync = s.sync := rfl
@[simp] theorem delCtx_mem (s : State) (c : Nat) : (delCtx s c).mem = s.mem := rfl
@[simp] theorem delCtx_grn (s : State) (c : Nat) : (delCtx s c).grn = s.grn := rfl
@[simp] theorem delCtx_hif (s : State) (c : Nat) : (delCtx s c).hif = s.hif := rfl
@[simp] theorem delCtx_ftl (s : State) (c : Nat) : (delCtx s c).ftl = s.ftl := rfl
@[simp] theorem delCtx_cells (s : State) (c : Nat) : (delCtx s c).cells = s.cells := rfl
@[simp] theorem delCtx_rep (s : State) (c : Nat) : (delCtx s c).rep = s.rep := rfl
@[simp] theorem delCtx_gov (s : State) (c : Nat) : (delCtx s c).gov = s.gov := rfl
@[simp] theorem delCtx_net (s : State) (c : Nat) : (delCtx s c).net = s.net := rfl
@[simp] theorem delCtx_bol (s : State) (c : Nat) : (delCtx s c).bol = s.bol := rfl
@[simp] theorem delCtx_card (s : State) (c : Nat) : (delCtx s c).card = s.card := rfl
@[simp] theorem delCtx_boot (s : State) (c : Nat) : (delCtx s c).boot = s.boot := rfl
@[simp] theorem delCtx_sec (s : State) (c : Nat) : (delCtx s c).sec = s.sec := rfl

@[simp] theorem setLaunch_pending (s : State) (l : Nat) (x : Launch) : (setLaunch s l x).pending = s.pending := rfl
@[simp] theorem setLaunch_freshNo (s : State) (l : Nat) (x : Launch) : (setLaunch s l x).freshNo = s.freshNo := rfl
@[simp] theorem setLaunch_bus (s : State) (l : Nat) (x : Launch) : (setLaunch s l x).bus = s.bus := rfl
@[simp] theorem setLaunch_mills (s : State) (l : Nat) (x : Launch) : (setLaunch s l x).mills = s.mills := rfl
@[simp] theorem setLaunch_sync (s : State) (l : Nat) (x : Launch) : (setLaunch s l x).sync = s.sync := rfl
@[simp] theorem setLaunch_mem (s : State) (l : Nat) (x : Launch) : (setLaunch s l x).mem = s.mem := rfl
@[simp] theorem setLaunch_grn (s : State) (l : Nat) (x : Launch) : (setLaunch s l x).grn = s.grn := rfl
@[simp] theorem setLaunch_hif (s : State) (l : Nat) (x : Launch) : (setLaunch s l x).hif = s.hif := rfl
@[simp] theorem setLaunch_ftl (s : State) (l : Nat) (x : Launch) : (setLaunch s l x).ftl = s.ftl := rfl
@[simp] theorem setLaunch_cells (s : State) (l : Nat) (x : Launch) : (setLaunch s l x).cells = s.cells := rfl
@[simp] theorem setLaunch_rep (s : State) (l : Nat) (x : Launch) : (setLaunch s l x).rep = s.rep := rfl
@[simp] theorem setLaunch_gov (s : State) (l : Nat) (x : Launch) : (setLaunch s l x).gov = s.gov := rfl
@[simp] theorem setLaunch_net (s : State) (l : Nat) (x : Launch) : (setLaunch s l x).net = s.net := rfl
@[simp] theorem setLaunch_bol (s : State) (l : Nat) (x : Launch) : (setLaunch s l x).bol = s.bol := rfl
@[simp] theorem setLaunch_card (s : State) (l : Nat) (x : Launch) : (setLaunch s l x).card = s.card := rfl
@[simp] theorem setLaunch_boot (s : State) (l : Nat) (x : Launch) : (setLaunch s l x).boot = s.boot := rfl
@[simp] theorem setLaunch_sec (s : State) (l : Nat) (x : Launch) : (setLaunch s l x).sec = s.sec := rfl

@[simp] theorem delLaunch_pending (s : State) (l : Nat) : (delLaunch s l).pending = s.pending := rfl
@[simp] theorem delLaunch_freshNo (s : State) (l : Nat) : (delLaunch s l).freshNo = s.freshNo := rfl
@[simp] theorem delLaunch_bus (s : State) (l : Nat) : (delLaunch s l).bus = s.bus := rfl
@[simp] theorem delLaunch_mills (s : State) (l : Nat) : (delLaunch s l).mills = s.mills := rfl
@[simp] theorem delLaunch_sync (s : State) (l : Nat) : (delLaunch s l).sync = s.sync := rfl
@[simp] theorem delLaunch_mem (s : State) (l : Nat) : (delLaunch s l).mem = s.mem := rfl
@[simp] theorem delLaunch_grn (s : State) (l : Nat) : (delLaunch s l).grn = s.grn := rfl
@[simp] theorem delLaunch_hif (s : State) (l : Nat) : (delLaunch s l).hif = s.hif := rfl
@[simp] theorem delLaunch_ftl (s : State) (l : Nat) : (delLaunch s l).ftl = s.ftl := rfl
@[simp] theorem delLaunch_cells (s : State) (l : Nat) : (delLaunch s l).cells = s.cells := rfl
@[simp] theorem delLaunch_rep (s : State) (l : Nat) : (delLaunch s l).rep = s.rep := rfl
@[simp] theorem delLaunch_gov (s : State) (l : Nat) : (delLaunch s l).gov = s.gov := rfl
@[simp] theorem delLaunch_net (s : State) (l : Nat) : (delLaunch s l).net = s.net := rfl
@[simp] theorem delLaunch_bol (s : State) (l : Nat) : (delLaunch s l).bol = s.bol := rfl
@[simp] theorem delLaunch_card (s : State) (l : Nat) : (delLaunch s l).card = s.card := rfl
@[simp] theorem delLaunch_boot (s : State) (l : Nat) : (delLaunch s l).boot = s.boot := rfl
@[simp] theorem delLaunch_sec (s : State) (l : Nat) : (delLaunch s l).sec = s.sec := rfl

@[simp] theorem setSlice_pending (s : State) (n : Nat) (x : Slice) : (setSlice s n x).pending = s.pending := rfl
@[simp] theorem setSlice_freshNo (s : State) (n : Nat) (x : Slice) : (setSlice s n x).freshNo = s.freshNo := rfl
@[simp] theorem setSlice_bus (s : State) (n : Nat) (x : Slice) : (setSlice s n x).bus = s.bus := rfl
@[simp] theorem setSlice_mills (s : State) (n : Nat) (x : Slice) : (setSlice s n x).mills = s.mills := rfl
@[simp] theorem setSlice_sync (s : State) (n : Nat) (x : Slice) : (setSlice s n x).sync = s.sync := rfl
@[simp] theorem setSlice_mem (s : State) (n : Nat) (x : Slice) : (setSlice s n x).mem = s.mem := rfl
@[simp] theorem setSlice_grn (s : State) (n : Nat) (x : Slice) : (setSlice s n x).grn = s.grn := rfl
@[simp] theorem setSlice_hif (s : State) (n : Nat) (x : Slice) : (setSlice s n x).hif = s.hif := rfl
@[simp] theorem setSlice_ftl (s : State) (n : Nat) (x : Slice) : (setSlice s n x).ftl = s.ftl := rfl
@[simp] theorem setSlice_cells (s : State) (n : Nat) (x : Slice) : (setSlice s n x).cells = s.cells := rfl
@[simp] theorem setSlice_rep (s : State) (n : Nat) (x : Slice) : (setSlice s n x).rep = s.rep := rfl
@[simp] theorem setSlice_gov (s : State) (n : Nat) (x : Slice) : (setSlice s n x).gov = s.gov := rfl
@[simp] theorem setSlice_net (s : State) (n : Nat) (x : Slice) : (setSlice s n x).net = s.net := rfl
@[simp] theorem setSlice_bol (s : State) (n : Nat) (x : Slice) : (setSlice s n x).bol = s.bol := rfl
@[simp] theorem setSlice_card (s : State) (n : Nat) (x : Slice) : (setSlice s n x).card = s.card := rfl
@[simp] theorem setSlice_boot (s : State) (n : Nat) (x : Slice) : (setSlice s n x).boot = s.boot := rfl
@[simp] theorem setSlice_sec (s : State) (n : Nat) (x : Slice) : (setSlice s n x).sec = s.sec := rfl

@[simp] theorem setPart_pending (s : State) (p : Nat) (x : Part) : (setPart s p x).pending = s.pending := rfl
@[simp] theorem setPart_freshNo (s : State) (p : Nat) (x : Part) : (setPart s p x).freshNo = s.freshNo := rfl
@[simp] theorem setPart_bus (s : State) (p : Nat) (x : Part) : (setPart s p x).bus = s.bus := rfl
@[simp] theorem setPart_mills (s : State) (p : Nat) (x : Part) : (setPart s p x).mills = s.mills := rfl
@[simp] theorem setPart_sync (s : State) (p : Nat) (x : Part) : (setPart s p x).sync = s.sync := rfl
@[simp] theorem setPart_mem (s : State) (p : Nat) (x : Part) : (setPart s p x).mem = s.mem := rfl
@[simp] theorem setPart_grn (s : State) (p : Nat) (x : Part) : (setPart s p x).grn = s.grn := rfl
@[simp] theorem setPart_hif (s : State) (p : Nat) (x : Part) : (setPart s p x).hif = s.hif := rfl
@[simp] theorem setPart_ftl (s : State) (p : Nat) (x : Part) : (setPart s p x).ftl = s.ftl := rfl
@[simp] theorem setPart_cells (s : State) (p : Nat) (x : Part) : (setPart s p x).cells = s.cells := rfl
@[simp] theorem setPart_rep (s : State) (p : Nat) (x : Part) : (setPart s p x).rep = s.rep := rfl
@[simp] theorem setPart_gov (s : State) (p : Nat) (x : Part) : (setPart s p x).gov = s.gov := rfl
@[simp] theorem setPart_net (s : State) (p : Nat) (x : Part) : (setPart s p x).net = s.net := rfl
@[simp] theorem setPart_bol (s : State) (p : Nat) (x : Part) : (setPart s p x).bol = s.bol := rfl
@[simp] theorem setPart_card (s : State) (p : Nat) (x : Part) : (setPart s p x).card = s.card := rfl
@[simp] theorem setPart_boot (s : State) (p : Nat) (x : Part) : (setPart s p x).boot = s.boot := rfl
@[simp] theorem setPart_sec (s : State) (p : Nat) (x : Part) : (setPart s p x).sec = s.sec := rfl

@[simp] theorem setMill_pending (s : State) (site : Nat) (m : Mill) : (setMill s site m).pending = s.pending := rfl
@[simp] theorem setMill_freshNo (s : State) (site : Nat) (m : Mill) : (setMill s site m).freshNo = s.freshNo := rfl
@[simp] theorem setMill_bus (s : State) (site : Nat) (m : Mill) : (setMill s site m).bus = s.bus := rfl
@[simp] theorem setMill_sync (s : State) (site : Nat) (m : Mill) : (setMill s site m).sync = s.sync := rfl
@[simp] theorem setMill_sched (s : State) (site : Nat) (m : Mill) : (setMill s site m).sched = s.sched := rfl
@[simp] theorem setMill_mem (s : State) (site : Nat) (m : Mill) : (setMill s site m).mem = s.mem := rfl
@[simp] theorem setMill_grn (s : State) (site : Nat) (m : Mill) : (setMill s site m).grn = s.grn := rfl
@[simp] theorem setMill_hif (s : State) (site : Nat) (m : Mill) : (setMill s site m).hif = s.hif := rfl
@[simp] theorem setMill_ftl (s : State) (site : Nat) (m : Mill) : (setMill s site m).ftl = s.ftl := rfl
@[simp] theorem setMill_cells (s : State) (site : Nat) (m : Mill) : (setMill s site m).cells = s.cells := rfl
@[simp] theorem setMill_rep (s : State) (site : Nat) (m : Mill) : (setMill s site m).rep = s.rep := rfl
@[simp] theorem setMill_gov (s : State) (site : Nat) (m : Mill) : (setMill s site m).gov = s.gov := rfl
@[simp] theorem setMill_net (s : State) (site : Nat) (m : Mill) : (setMill s site m).net = s.net := rfl
@[simp] theorem setMill_bol (s : State) (site : Nat) (m : Mill) : (setMill s site m).bol = s.bol := rfl
@[simp] theorem setMill_card (s : State) (site : Nat) (m : Mill) : (setMill s site m).card = s.card := rfl
@[simp] theorem setMill_boot (s : State) (site : Nat) (m : Mill) : (setMill s site m).boot = s.boot := rfl
@[simp] theorem setMill_sec (s : State) (site : Nat) (m : Mill) : (setMill s site m).sec = s.sec := rfl

@[simp] theorem setStone_pending (s : State) (site k : Nat) (x : Stone) : (setStone s site k x).pending = s.pending := rfl
@[simp] theorem setStone_freshNo (s : State) (site k : Nat) (x : Stone) : (setStone s site k x).freshNo = s.freshNo := rfl
@[simp] theorem setStone_bus (s : State) (site k : Nat) (x : Stone) : (setStone s site k x).bus = s.bus := rfl
@[simp] theorem setStone_sync (s : State) (site k : Nat) (x : Stone) : (setStone s site k x).sync = s.sync := rfl
@[simp] theorem setStone_sched (s : State) (site k : Nat) (x : Stone) : (setStone s site k x).sched = s.sched := rfl
@[simp] theorem setStone_mem (s : State) (site k : Nat) (x : Stone) : (setStone s site k x).mem = s.mem := rfl
@[simp] theorem setStone_grn (s : State) (site k : Nat) (x : Stone) : (setStone s site k x).grn = s.grn := rfl
@[simp] theorem setStone_hif (s : State) (site k : Nat) (x : Stone) : (setStone s site k x).hif = s.hif := rfl
@[simp] theorem setStone_ftl (s : State) (site k : Nat) (x : Stone) : (setStone s site k x).ftl = s.ftl := rfl
@[simp] theorem setStone_cells (s : State) (site k : Nat) (x : Stone) : (setStone s site k x).cells = s.cells := rfl
@[simp] theorem setStone_rep (s : State) (site k : Nat) (x : Stone) : (setStone s site k x).rep = s.rep := rfl
@[simp] theorem setStone_gov (s : State) (site k : Nat) (x : Stone) : (setStone s site k x).gov = s.gov := rfl
@[simp] theorem setStone_net (s : State) (site k : Nat) (x : Stone) : (setStone s site k x).net = s.net := rfl
@[simp] theorem setStone_bol (s : State) (site k : Nat) (x : Stone) : (setStone s site k x).bol = s.bol := rfl
@[simp] theorem setStone_card (s : State) (site k : Nat) (x : Stone) : (setStone s site k x).card = s.card := rfl
@[simp] theorem setStone_boot (s : State) (site k : Nat) (x : Stone) : (setStone s site k x).boot = s.boot := rfl
@[simp] theorem setStone_sec (s : State) (site k : Nat) (x : Stone) : (setStone s site k x).sec = s.sec := rfl

@[simp] theorem setLeaf_pending (s : State) (site lf : Nat) (x : Leaf) : (setLeaf s site lf x).pending = s.pending := rfl
@[simp] theorem setLeaf_freshNo (s : State) (site lf : Nat) (x : Leaf) : (setLeaf s site lf x).freshNo = s.freshNo := rfl
@[simp] theorem setLeaf_bus (s : State) (site lf : Nat) (x : Leaf) : (setLeaf s site lf x).bus = s.bus := rfl
@[simp] theorem setLeaf_sync (s : State) (site lf : Nat) (x : Leaf) : (setLeaf s site lf x).sync = s.sync := rfl
@[simp] theorem setLeaf_sched (s : State) (site lf : Nat) (x : Leaf) : (setLeaf s site lf x).sched = s.sched := rfl
@[simp] theorem setLeaf_mem (s : State) (site lf : Nat) (x : Leaf) : (setLeaf s site lf x).mem = s.mem := rfl
@[simp] theorem setLeaf_grn (s : State) (site lf : Nat) (x : Leaf) : (setLeaf s site lf x).grn = s.grn := rfl
@[simp] theorem setLeaf_hif (s : State) (site lf : Nat) (x : Leaf) : (setLeaf s site lf x).hif = s.hif := rfl
@[simp] theorem setLeaf_ftl (s : State) (site lf : Nat) (x : Leaf) : (setLeaf s site lf x).ftl = s.ftl := rfl
@[simp] theorem setLeaf_cells (s : State) (site lf : Nat) (x : Leaf) : (setLeaf s site lf x).cells = s.cells := rfl
@[simp] theorem setLeaf_rep (s : State) (site lf : Nat) (x : Leaf) : (setLeaf s site lf x).rep = s.rep := rfl
@[simp] theorem setLeaf_net (s : State) (site lf : Nat) (x : Leaf) : (setLeaf s site lf x).net = s.net := rfl
@[simp] theorem setLeaf_bol (s : State) (site lf : Nat) (x : Leaf) : (setLeaf s site lf x).bol = s.bol := rfl
@[simp] theorem setLeaf_card (s : State) (site lf : Nat) (x : Leaf) : (setLeaf s site lf x).card = s.card := rfl
@[simp] theorem setLeaf_boot (s : State) (site lf : Nat) (x : Leaf) : (setLeaf s site lf x).boot = s.boot := rfl
@[simp] theorem setLeaf_sec (s : State) (site lf : Nat) (x : Leaf) : (setLeaf s site lf x).sec = s.sec := rfl

@[simp] theorem setRow_pending (s : State) (r : Nat) (x : Row) : (setRow s r x).pending = s.pending := rfl
@[simp] theorem setRow_freshNo (s : State) (r : Nat) (x : Row) : (setRow s r x).freshNo = s.freshNo := rfl
@[simp] theorem setRow_bus (s : State) (r : Nat) (x : Row) : (setRow s r x).bus = s.bus := rfl
@[simp] theorem setRow_mills (s : State) (r : Nat) (x : Row) : (setRow s r x).mills = s.mills := rfl
@[simp] theorem setRow_sync (s : State) (r : Nat) (x : Row) : (setRow s r x).sync = s.sync := rfl
@[simp] theorem setRow_sched (s : State) (r : Nat) (x : Row) : (setRow s r x).sched = s.sched := rfl
@[simp] theorem setRow_mem (s : State) (r : Nat) (x : Row) : (setRow s r x).mem = s.mem := rfl
@[simp] theorem setRow_grn (s : State) (r : Nat) (x : Row) : (setRow s r x).grn = s.grn := rfl
@[simp] theorem setRow_hif (s : State) (r : Nat) (x : Row) : (setRow s r x).hif = s.hif := rfl
@[simp] theorem setRow_ftl (s : State) (r : Nat) (x : Row) : (setRow s r x).ftl = s.ftl := rfl
@[simp] theorem setRow_cells (s : State) (r : Nat) (x : Row) : (setRow s r x).cells = s.cells := rfl
@[simp] theorem setRow_rep (s : State) (r : Nat) (x : Row) : (setRow s r x).rep = s.rep := rfl
@[simp] theorem setRow_net (s : State) (r : Nat) (x : Row) : (setRow s r x).net = s.net := rfl
@[simp] theorem setRow_bol (s : State) (r : Nat) (x : Row) : (setRow s r x).bol = s.bol := rfl
@[simp] theorem setRow_card (s : State) (r : Nat) (x : Row) : (setRow s r x).card = s.card := rfl
@[simp] theorem setRow_boot (s : State) (r : Nat) (x : Row) : (setRow s r x).boot = s.boot := rfl
@[simp] theorem setRow_sec (s : State) (r : Nat) (x : Row) : (setRow s r x).sec = s.sec := rfl

@[simp] theorem msixSend_pending (s : State) (v : Nat) : (msixSend s v).pending = s.pending := rfl
@[simp] theorem msixSend_freshNo (s : State) (v : Nat) : (msixSend s v).freshNo = s.freshNo := rfl
@[simp] theorem msixSend_mills (s : State) (v : Nat) : (msixSend s v).mills = s.mills := rfl
@[simp] theorem msixSend_sync (s : State) (v : Nat) : (msixSend s v).sync = s.sync := rfl
@[simp] theorem msixSend_sched (s : State) (v : Nat) : (msixSend s v).sched = s.sched := rfl
@[simp] theorem msixSend_mem (s : State) (v : Nat) : (msixSend s v).mem = s.mem := rfl
@[simp] theorem msixSend_grn (s : State) (v : Nat) : (msixSend s v).grn = s.grn := rfl
@[simp] theorem msixSend_hif (s : State) (v : Nat) : (msixSend s v).hif = s.hif := rfl
@[simp] theorem msixSend_ftl (s : State) (v : Nat) : (msixSend s v).ftl = s.ftl := rfl
@[simp] theorem msixSend_cells (s : State) (v : Nat) : (msixSend s v).cells = s.cells := rfl
@[simp] theorem msixSend_rep (s : State) (v : Nat) : (msixSend s v).rep = s.rep := rfl
@[simp] theorem msixSend_gov (s : State) (v : Nat) : (msixSend s v).gov = s.gov := rfl
@[simp] theorem msixSend_net (s : State) (v : Nat) : (msixSend s v).net = s.net := rfl
@[simp] theorem msixSend_bol (s : State) (v : Nat) : (msixSend s v).bol = s.bol := rfl
@[simp] theorem msixSend_card (s : State) (v : Nat) : (msixSend s v).card = s.card := rfl
@[simp] theorem msixSend_boot (s : State) (v : Nat) : (msixSend s v).boot = s.boot := rfl
@[simp] theorem msixSend_sec (s : State) (v : Nat) : (msixSend s v).sec = s.sec := rfl

@[simp] theorem msixRequest_pending (s : State) (v : Nat) : (msixRequest s v).pending = s.pending := by
  unfold msixRequest; split <;> rfl
@[simp] theorem msixRequest_freshNo (s : State) (v : Nat) : (msixRequest s v).freshNo = s.freshNo := by
  unfold msixRequest; split <;> rfl
@[simp] theorem msixRequest_mills (s : State) (v : Nat) : (msixRequest s v).mills = s.mills := by
  unfold msixRequest; split <;> rfl
@[simp] theorem msixRequest_sync (s : State) (v : Nat) : (msixRequest s v).sync = s.sync := by
  unfold msixRequest; split <;> rfl
@[simp] theorem msixRequest_sched (s : State) (v : Nat) : (msixRequest s v).sched = s.sched := by
  unfold msixRequest; split <;> rfl
@[simp] theorem msixRequest_mem (s : State) (v : Nat) : (msixRequest s v).mem = s.mem := by
  unfold msixRequest; split <;> rfl
@[simp] theorem msixRequest_grn (s : State) (v : Nat) : (msixRequest s v).grn = s.grn := by
  unfold msixRequest; split <;> rfl
@[simp] theorem msixRequest_hif (s : State) (v : Nat) : (msixRequest s v).hif = s.hif := by
  unfold msixRequest; split <;> rfl
@[simp] theorem msixRequest_ftl (s : State) (v : Nat) : (msixRequest s v).ftl = s.ftl := by
  unfold msixRequest; split <;> rfl
@[simp] theorem msixRequest_cells (s : State) (v : Nat) : (msixRequest s v).cells = s.cells := by
  unfold msixRequest; split <;> rfl
@[simp] theorem msixRequest_rep (s : State) (v : Nat) : (msixRequest s v).rep = s.rep := by
  unfold msixRequest; split <;> rfl
@[simp] theorem msixRequest_gov (s : State) (v : Nat) : (msixRequest s v).gov = s.gov := by
  unfold msixRequest; split <;> rfl
@[simp] theorem msixRequest_net (s : State) (v : Nat) : (msixRequest s v).net = s.net := by
  unfold msixRequest; split <;> rfl
@[simp] theorem msixRequest_bol (s : State) (v : Nat) : (msixRequest s v).bol = s.bol := by
  unfold msixRequest; split <;> rfl
@[simp] theorem msixRequest_card (s : State) (v : Nat) : (msixRequest s v).card = s.card := by
  unfold msixRequest; split <;> rfl
@[simp] theorem msixRequest_boot (s : State) (v : Nat) : (msixRequest s v).boot = s.boot := by
  unfold msixRequest; split <;> rfl
@[simp] theorem msixRequest_sec (s : State) (v : Nat) : (msixRequest s v).sec = s.sec := by
  unfold msixRequest; split <;> rfl

@[simp] theorem pageRequest_pending (s : State) (b : Block) (i : Nat) : (pageRequest s b i).pending = s.pending := by
  unfold pageRequest; exact msixRequest_pending ..
@[simp] theorem pageRequest_freshNo (s : State) (b : Block) (i : Nat) : (pageRequest s b i).freshNo = s.freshNo := by
  unfold pageRequest; exact msixRequest_freshNo ..
@[simp] theorem pageRequest_mills (s : State) (b : Block) (i : Nat) : (pageRequest s b i).mills = s.mills := by
  unfold pageRequest; exact msixRequest_mills ..
@[simp] theorem pageRequest_sync (s : State) (b : Block) (i : Nat) : (pageRequest s b i).sync = s.sync := by
  unfold pageRequest; exact msixRequest_sync ..
@[simp] theorem pageRequest_sched (s : State) (b : Block) (i : Nat) : (pageRequest s b i).sched = s.sched := by
  unfold pageRequest; exact msixRequest_sched ..
@[simp] theorem pageRequest_mem (s : State) (b : Block) (i : Nat) : (pageRequest s b i).mem = s.mem := by
  unfold pageRequest; exact msixRequest_mem ..
@[simp] theorem pageRequest_grn (s : State) (b : Block) (i : Nat) : (pageRequest s b i).grn = s.grn := by
  unfold pageRequest; exact msixRequest_grn ..
@[simp] theorem pageRequest_hif (s : State) (b : Block) (i : Nat) : (pageRequest s b i).hif = s.hif := by
  unfold pageRequest; exact msixRequest_hif ..
@[simp] theorem pageRequest_ftl (s : State) (b : Block) (i : Nat) : (pageRequest s b i).ftl = s.ftl := by
  unfold pageRequest; exact msixRequest_ftl ..
@[simp] theorem pageRequest_cells (s : State) (b : Block) (i : Nat) : (pageRequest s b i).cells = s.cells := by
  unfold pageRequest; exact msixRequest_cells ..
@[simp] theorem pageRequest_rep (s : State) (b : Block) (i : Nat) : (pageRequest s b i).rep = s.rep := by
  unfold pageRequest; exact msixRequest_rep ..
@[simp] theorem pageRequest_gov (s : State) (b : Block) (i : Nat) : (pageRequest s b i).gov = s.gov := by
  unfold pageRequest; exact msixRequest_gov ..
@[simp] theorem pageRequest_net (s : State) (b : Block) (i : Nat) : (pageRequest s b i).net = s.net := by
  unfold pageRequest; exact msixRequest_net ..
@[simp] theorem pageRequest_bol (s : State) (b : Block) (i : Nat) : (pageRequest s b i).bol = s.bol := by
  unfold pageRequest; exact msixRequest_bol ..
@[simp] theorem pageRequest_card (s : State) (b : Block) (i : Nat) : (pageRequest s b i).card = s.card := by
  unfold pageRequest; exact msixRequest_card ..
@[simp] theorem pageRequest_boot (s : State) (b : Block) (i : Nat) : (pageRequest s b i).boot = s.boot := by
  unfold pageRequest; exact msixRequest_boot ..
@[simp] theorem pageRequest_sec (s : State) (b : Block) (i : Nat) : (pageRequest s b i).sec = s.sec := by
  unfold pageRequest; exact msixRequest_sec ..

@[simp] theorem orInt_pending (s : State) (b : Block) (i : Nat) (m : Word) : (orInt s b i m).pending = s.pending := by
  unfold orInt; dsimp only; split
  · rw [pageRequest_pending, setW_pending]
  · rw [setW_pending]
@[simp] theorem orInt_freshNo (s : State) (b : Block) (i : Nat) (m : Word) : (orInt s b i m).freshNo = s.freshNo := by
  unfold orInt; dsimp only; split
  · rw [pageRequest_freshNo, setW_freshNo]
  · rw [setW_freshNo]
@[simp] theorem orInt_mills (s : State) (b : Block) (i : Nat) (m : Word) : (orInt s b i m).mills = s.mills := by
  unfold orInt; dsimp only; split
  · rw [pageRequest_mills, setW_mills]
  · rw [setW_mills]
@[simp] theorem orInt_sync (s : State) (b : Block) (i : Nat) (m : Word) : (orInt s b i m).sync = s.sync := by
  unfold orInt; dsimp only; split
  · rw [pageRequest_sync, setW_sync]
  · rw [setW_sync]
@[simp] theorem orInt_sched (s : State) (b : Block) (i : Nat) (m : Word) : (orInt s b i m).sched = s.sched := by
  unfold orInt; dsimp only; split
  · rw [pageRequest_sched, setW_sched]
  · rw [setW_sched]
@[simp] theorem orInt_mem (s : State) (b : Block) (i : Nat) (m : Word) : (orInt s b i m).mem = s.mem := by
  unfold orInt; dsimp only; split
  · rw [pageRequest_mem, setW_mem]
  · rw [setW_mem]
@[simp] theorem orInt_grn (s : State) (b : Block) (i : Nat) (m : Word) : (orInt s b i m).grn = s.grn := by
  unfold orInt; dsimp only; split
  · rw [pageRequest_grn, setW_grn]
  · rw [setW_grn]
@[simp] theorem orInt_hif (s : State) (b : Block) (i : Nat) (m : Word) : (orInt s b i m).hif = s.hif := by
  unfold orInt; dsimp only; split
  · rw [pageRequest_hif, setW_hif]
  · rw [setW_hif]
@[simp] theorem orInt_ftl (s : State) (b : Block) (i : Nat) (m : Word) : (orInt s b i m).ftl = s.ftl := by
  unfold orInt; dsimp only; split
  · rw [pageRequest_ftl, setW_ftl]
  · rw [setW_ftl]
@[simp] theorem orInt_cells (s : State) (b : Block) (i : Nat) (m : Word) : (orInt s b i m).cells = s.cells := by
  unfold orInt; dsimp only; split
  · rw [pageRequest_cells, setW_cells]
  · rw [setW_cells]
@[simp] theorem orInt_rep (s : State) (b : Block) (i : Nat) (m : Word) : (orInt s b i m).rep = s.rep := by
  unfold orInt; dsimp only; split
  · rw [pageRequest_rep, setW_rep]
  · rw [setW_rep]
@[simp] theorem orInt_gov (s : State) (b : Block) (i : Nat) (m : Word) : (orInt s b i m).gov = s.gov := by
  unfold orInt; dsimp only; split
  · rw [pageRequest_gov, setW_gov]
  · rw [setW_gov]
@[simp] theorem orInt_net (s : State) (b : Block) (i : Nat) (m : Word) : (orInt s b i m).net = s.net := by
  unfold orInt; dsimp only; split
  · rw [pageRequest_net, setW_net]
  · rw [setW_net]
@[simp] theorem orInt_bol (s : State) (b : Block) (i : Nat) (m : Word) : (orInt s b i m).bol = s.bol := by
  unfold orInt; dsimp only; split
  · rw [pageRequest_bol, setW_bol]
  · rw [setW_bol]
@[simp] theorem orInt_card (s : State) (b : Block) (i : Nat) (m : Word) : (orInt s b i m).card = s.card := by
  unfold orInt; dsimp only; split
  · rw [pageRequest_card, setW_card]
  · rw [setW_card]
@[simp] theorem orInt_boot (s : State) (b : Block) (i : Nat) (m : Word) : (orInt s b i m).boot = s.boot := by
  unfold orInt; dsimp only; split
  · rw [pageRequest_boot, setW_boot]
  · rw [setW_boot]
@[simp] theorem orInt_sec (s : State) (b : Block) (i : Nat) (m : Word) : (orInt s b i m).sec = s.sec := by
  unfold orInt; dsimp only; split
  · rw [pageRequest_sec, setW_sec]
  · rw [setW_sec]

@[simp] theorem raiseInt_pending (s : State) (b : Block) (i bit : Nat) : (raiseInt s b i bit).pending = s.pending := by
  unfold raiseInt; exact orInt_pending ..
@[simp] theorem raiseInt_freshNo (s : State) (b : Block) (i bit : Nat) : (raiseInt s b i bit).freshNo = s.freshNo := by
  unfold raiseInt; exact orInt_freshNo ..
@[simp] theorem raiseInt_mills (s : State) (b : Block) (i bit : Nat) : (raiseInt s b i bit).mills = s.mills := by
  unfold raiseInt; exact orInt_mills ..
@[simp] theorem raiseInt_sync (s : State) (b : Block) (i bit : Nat) : (raiseInt s b i bit).sync = s.sync := by
  unfold raiseInt; exact orInt_sync ..
@[simp] theorem raiseInt_sched (s : State) (b : Block) (i bit : Nat) : (raiseInt s b i bit).sched = s.sched := by
  unfold raiseInt; exact orInt_sched ..
@[simp] theorem raiseInt_mem (s : State) (b : Block) (i bit : Nat) : (raiseInt s b i bit).mem = s.mem := by
  unfold raiseInt; exact orInt_mem ..
@[simp] theorem raiseInt_grn (s : State) (b : Block) (i bit : Nat) : (raiseInt s b i bit).grn = s.grn := by
  unfold raiseInt; exact orInt_grn ..
@[simp] theorem raiseInt_hif (s : State) (b : Block) (i bit : Nat) : (raiseInt s b i bit).hif = s.hif := by
  unfold raiseInt; exact orInt_hif ..
@[simp] theorem raiseInt_ftl (s : State) (b : Block) (i bit : Nat) : (raiseInt s b i bit).ftl = s.ftl := by
  unfold raiseInt; exact orInt_ftl ..
@[simp] theorem raiseInt_cells (s : State) (b : Block) (i bit : Nat) : (raiseInt s b i bit).cells = s.cells := by
  unfold raiseInt; exact orInt_cells ..
@[simp] theorem raiseInt_rep (s : State) (b : Block) (i bit : Nat) : (raiseInt s b i bit).rep = s.rep := by
  unfold raiseInt; exact orInt_rep ..
@[simp] theorem raiseInt_gov (s : State) (b : Block) (i bit : Nat) : (raiseInt s b i bit).gov = s.gov := by
  unfold raiseInt; exact orInt_gov ..
@[simp] theorem raiseInt_net (s : State) (b : Block) (i bit : Nat) : (raiseInt s b i bit).net = s.net := by
  unfold raiseInt; exact orInt_net ..
@[simp] theorem raiseInt_bol (s : State) (b : Block) (i bit : Nat) : (raiseInt s b i bit).bol = s.bol := by
  unfold raiseInt; exact orInt_bol ..
@[simp] theorem raiseInt_card (s : State) (b : Block) (i bit : Nat) : (raiseInt s b i bit).card = s.card := by
  unfold raiseInt; exact orInt_card ..
@[simp] theorem raiseInt_boot (s : State) (b : Block) (i bit : Nat) : (raiseInt s b i bit).boot = s.boot := by
  unfold raiseInt; exact orInt_boot ..
@[simp] theorem raiseInt_sec (s : State) (b : Block) (i bit : Nat) : (raiseInt s b i bit).sec = s.sec := by
  unfold raiseInt; exact orInt_sec ..

@[simp] theorem raiseErr_pending (s : State) (b : Block) (i bit : Nat) : (raiseErr s b i bit).pending = s.pending := by
  unfold raiseErr; dsimp only; split
  · rw [raiseInt_pending, setW_pending]
  · rw [setW_pending]
@[simp] theorem raiseErr_freshNo (s : State) (b : Block) (i bit : Nat) : (raiseErr s b i bit).freshNo = s.freshNo := by
  unfold raiseErr; dsimp only; split
  · rw [raiseInt_freshNo, setW_freshNo]
  · rw [setW_freshNo]
@[simp] theorem raiseErr_mills (s : State) (b : Block) (i bit : Nat) : (raiseErr s b i bit).mills = s.mills := by
  unfold raiseErr; dsimp only; split
  · rw [raiseInt_mills, setW_mills]
  · rw [setW_mills]
@[simp] theorem raiseErr_sync (s : State) (b : Block) (i bit : Nat) : (raiseErr s b i bit).sync = s.sync := by
  unfold raiseErr; dsimp only; split
  · rw [raiseInt_sync, setW_sync]
  · rw [setW_sync]
@[simp] theorem raiseErr_sched (s : State) (b : Block) (i bit : Nat) : (raiseErr s b i bit).sched = s.sched := by
  unfold raiseErr; dsimp only; split
  · rw [raiseInt_sched, setW_sched]
  · rw [setW_sched]
@[simp] theorem raiseErr_mem (s : State) (b : Block) (i bit : Nat) : (raiseErr s b i bit).mem = s.mem := by
  unfold raiseErr; dsimp only; split
  · rw [raiseInt_mem, setW_mem]
  · rw [setW_mem]
@[simp] theorem raiseErr_grn (s : State) (b : Block) (i bit : Nat) : (raiseErr s b i bit).grn = s.grn := by
  unfold raiseErr; dsimp only; split
  · rw [raiseInt_grn, setW_grn]
  · rw [setW_grn]
@[simp] theorem raiseErr_hif (s : State) (b : Block) (i bit : Nat) : (raiseErr s b i bit).hif = s.hif := by
  unfold raiseErr; dsimp only; split
  · rw [raiseInt_hif, setW_hif]
  · rw [setW_hif]
@[simp] theorem raiseErr_ftl (s : State) (b : Block) (i bit : Nat) : (raiseErr s b i bit).ftl = s.ftl := by
  unfold raiseErr; dsimp only; split
  · rw [raiseInt_ftl, setW_ftl]
  · rw [setW_ftl]
@[simp] theorem raiseErr_cells (s : State) (b : Block) (i bit : Nat) : (raiseErr s b i bit).cells = s.cells := by
  unfold raiseErr; dsimp only; split
  · rw [raiseInt_cells, setW_cells]
  · rw [setW_cells]
@[simp] theorem raiseErr_rep (s : State) (b : Block) (i bit : Nat) : (raiseErr s b i bit).rep = s.rep := by
  unfold raiseErr; dsimp only; split
  · rw [raiseInt_rep, setW_rep]
  · rw [setW_rep]
@[simp] theorem raiseErr_gov (s : State) (b : Block) (i bit : Nat) : (raiseErr s b i bit).gov = s.gov := by
  unfold raiseErr; dsimp only; split
  · rw [raiseInt_gov, setW_gov]
  · rw [setW_gov]
@[simp] theorem raiseErr_net (s : State) (b : Block) (i bit : Nat) : (raiseErr s b i bit).net = s.net := by
  unfold raiseErr; dsimp only; split
  · rw [raiseInt_net, setW_net]
  · rw [setW_net]
@[simp] theorem raiseErr_bol (s : State) (b : Block) (i bit : Nat) : (raiseErr s b i bit).bol = s.bol := by
  unfold raiseErr; dsimp only; split
  · rw [raiseInt_bol, setW_bol]
  · rw [setW_bol]
@[simp] theorem raiseErr_card (s : State) (b : Block) (i bit : Nat) : (raiseErr s b i bit).card = s.card := by
  unfold raiseErr; dsimp only; split
  · rw [raiseInt_card, setW_card]
  · rw [setW_card]
@[simp] theorem raiseErr_boot (s : State) (b : Block) (i bit : Nat) : (raiseErr s b i bit).boot = s.boot := by
  unfold raiseErr; dsimp only; split
  · rw [raiseInt_boot, setW_boot]
  · rw [setW_boot]
@[simp] theorem raiseErr_sec (s : State) (b : Block) (i bit : Nat) : (raiseErr s b i bit).sec = s.sec := by
  unfold raiseErr; dsimp only; split
  · rw [raiseInt_sec, setW_sec]
  · rw [setW_sec]

@[simp] theorem afterIntWrite_pending (s : State) (b : Block) (i : Nat) : (afterIntWrite s b i).pending = s.pending := by
  unfold afterIntWrite; split
  · rw [pageRequest_pending]
  · rfl
@[simp] theorem afterIntWrite_freshNo (s : State) (b : Block) (i : Nat) : (afterIntWrite s b i).freshNo = s.freshNo := by
  unfold afterIntWrite; split
  · rw [pageRequest_freshNo]
  · rfl
@[simp] theorem afterIntWrite_mills (s : State) (b : Block) (i : Nat) : (afterIntWrite s b i).mills = s.mills := by
  unfold afterIntWrite; split
  · rw [pageRequest_mills]
  · rfl
@[simp] theorem afterIntWrite_sync (s : State) (b : Block) (i : Nat) : (afterIntWrite s b i).sync = s.sync := by
  unfold afterIntWrite; split
  · rw [pageRequest_sync]
  · rfl
@[simp] theorem afterIntWrite_sched (s : State) (b : Block) (i : Nat) : (afterIntWrite s b i).sched = s.sched := by
  unfold afterIntWrite; split
  · rw [pageRequest_sched]
  · rfl
@[simp] theorem afterIntWrite_mem (s : State) (b : Block) (i : Nat) : (afterIntWrite s b i).mem = s.mem := by
  unfold afterIntWrite; split
  · rw [pageRequest_mem]
  · rfl
@[simp] theorem afterIntWrite_grn (s : State) (b : Block) (i : Nat) : (afterIntWrite s b i).grn = s.grn := by
  unfold afterIntWrite; split
  · rw [pageRequest_grn]
  · rfl
@[simp] theorem afterIntWrite_hif (s : State) (b : Block) (i : Nat) : (afterIntWrite s b i).hif = s.hif := by
  unfold afterIntWrite; split
  · rw [pageRequest_hif]
  · rfl
@[simp] theorem afterIntWrite_ftl (s : State) (b : Block) (i : Nat) : (afterIntWrite s b i).ftl = s.ftl := by
  unfold afterIntWrite; split
  · rw [pageRequest_ftl]
  · rfl
@[simp] theorem afterIntWrite_cells (s : State) (b : Block) (i : Nat) : (afterIntWrite s b i).cells = s.cells := by
  unfold afterIntWrite; split
  · rw [pageRequest_cells]
  · rfl
@[simp] theorem afterIntWrite_rep (s : State) (b : Block) (i : Nat) : (afterIntWrite s b i).rep = s.rep := by
  unfold afterIntWrite; split
  · rw [pageRequest_rep]
  · rfl
@[simp] theorem afterIntWrite_gov (s : State) (b : Block) (i : Nat) : (afterIntWrite s b i).gov = s.gov := by
  unfold afterIntWrite; split
  · rw [pageRequest_gov]
  · rfl
@[simp] theorem afterIntWrite_net (s : State) (b : Block) (i : Nat) : (afterIntWrite s b i).net = s.net := by
  unfold afterIntWrite; split
  · rw [pageRequest_net]
  · rfl
@[simp] theorem afterIntWrite_bol (s : State) (b : Block) (i : Nat) : (afterIntWrite s b i).bol = s.bol := by
  unfold afterIntWrite; split
  · rw [pageRequest_bol]
  · rfl
@[simp] theorem afterIntWrite_card (s : State) (b : Block) (i : Nat) : (afterIntWrite s b i).card = s.card := by
  unfold afterIntWrite; split
  · rw [pageRequest_card]
  · rfl
@[simp] theorem afterIntWrite_boot (s : State) (b : Block) (i : Nat) : (afterIntWrite s b i).boot = s.boot := by
  unfold afterIntWrite; split
  · rw [pageRequest_boot]
  · rfl
@[simp] theorem afterIntWrite_sec (s : State) (b : Block) (i : Nat) : (afterIntWrite s b i).sec = s.sec := by
  unfold afterIntWrite; split
  · rw [pageRequest_sec]
  · rfl

@[simp] theorem setDom_pending (s : State) (d st : Nat) : (setDom s d st).pending = s.pending := by
  unfold setDom; dsimp only; split <;> rfl
@[simp] theorem setDom_freshNo (s : State) (d st : Nat) : (setDom s d st).freshNo = s.freshNo := by
  unfold setDom; dsimp only; split <;> rfl
@[simp] theorem setDom_bus (s : State) (d st : Nat) : (setDom s d st).bus = s.bus := by
  unfold setDom; dsimp only; split <;> rfl
@[simp] theorem setDom_mills (s : State) (d st : Nat) : (setDom s d st).mills = s.mills := by
  unfold setDom; dsimp only; split <;> rfl
@[simp] theorem setDom_sync (s : State) (d st : Nat) : (setDom s d st).sync = s.sync := by
  unfold setDom; dsimp only; split <;> rfl
@[simp] theorem setDom_sched (s : State) (d st : Nat) : (setDom s d st).sched = s.sched := by
  unfold setDom; dsimp only; split <;> rfl
@[simp] theorem setDom_mem (s : State) (d st : Nat) : (setDom s d st).mem = s.mem := by
  unfold setDom; dsimp only; split <;> rfl
@[simp] theorem setDom_grn (s : State) (d st : Nat) : (setDom s d st).grn = s.grn := by
  unfold setDom; dsimp only; split <;> rfl
@[simp] theorem setDom_hif (s : State) (d st : Nat) : (setDom s d st).hif = s.hif := by
  unfold setDom; dsimp only; split <;> rfl
@[simp] theorem setDom_ftl (s : State) (d st : Nat) : (setDom s d st).ftl = s.ftl := by
  unfold setDom; dsimp only; split <;> rfl
@[simp] theorem setDom_cells (s : State) (d st : Nat) : (setDom s d st).cells = s.cells := by
  unfold setDom; dsimp only; split <;> rfl
@[simp] theorem setDom_rep (s : State) (d st : Nat) : (setDom s d st).rep = s.rep := by
  unfold setDom; dsimp only; split <;> rfl
@[simp] theorem setDom_net (s : State) (d st : Nat) : (setDom s d st).net = s.net := by
  unfold setDom; dsimp only; split <;> rfl
@[simp] theorem setDom_bol (s : State) (d st : Nat) : (setDom s d st).bol = s.bol := by
  unfold setDom; dsimp only; split <;> rfl
@[simp] theorem setDom_card (s : State) (d st : Nat) : (setDom s d st).card = s.card := by
  unfold setDom; dsimp only; split <;> rfl
@[simp] theorem setDom_boot (s : State) (d st : Nat) : (setDom s d st).boot = s.boot := by
  unfold setDom; dsimp only; split <;> rfl
@[simp] theorem setDom_sec (s : State) (d st : Nat) : (setDom s d st).sec = s.sec := by
  unfold setDom; dsimp only; split <;> rfl

@[simp] theorem wakeRow_pending (s : State) (r : Nat) : (wakeRow s r).pending = s.pending := by
  unfold wakeRow; dsimp only; split
  · rfl
  · split <;> rfl
@[simp] theorem wakeRow_freshNo (s : State) (r : Nat) : (wakeRow s r).freshNo = s.freshNo := by
  unfold wakeRow; dsimp only; split
  · rfl
  · split <;> rfl
@[simp] theorem wakeRow_bus (s : State) (r : Nat) : (wakeRow s r).bus = s.bus := by
  unfold wakeRow; dsimp only; split
  · rfl
  · split <;> rfl
@[simp] theorem wakeRow_mills (s : State) (r : Nat) : (wakeRow s r).mills = s.mills := by
  unfold wakeRow; dsimp only; split
  · rfl
  · split <;> rfl
@[simp] theorem wakeRow_sync (s : State) (r : Nat) : (wakeRow s r).sync = s.sync := by
  unfold wakeRow; dsimp only; split
  · rfl
  · split <;> rfl
@[simp] theorem wakeRow_sched (s : State) (r : Nat) : (wakeRow s r).sched = s.sched := by
  unfold wakeRow; dsimp only; split
  · rfl
  · split <;> rfl
@[simp] theorem wakeRow_mem (s : State) (r : Nat) : (wakeRow s r).mem = s.mem := by
  unfold wakeRow; dsimp only; split
  · rfl
  · split <;> rfl
@[simp] theorem wakeRow_grn (s : State) (r : Nat) : (wakeRow s r).grn = s.grn := by
  unfold wakeRow; dsimp only; split
  · rfl
  · split <;> rfl
@[simp] theorem wakeRow_hif (s : State) (r : Nat) : (wakeRow s r).hif = s.hif := by
  unfold wakeRow; dsimp only; split
  · rfl
  · split <;> rfl
@[simp] theorem wakeRow_ftl (s : State) (r : Nat) : (wakeRow s r).ftl = s.ftl := by
  unfold wakeRow; dsimp only; split
  · rfl
  · split <;> rfl
@[simp] theorem wakeRow_cells (s : State) (r : Nat) : (wakeRow s r).cells = s.cells := by
  unfold wakeRow; dsimp only; split
  · rfl
  · split <;> rfl
@[simp] theorem wakeRow_rep (s : State) (r : Nat) : (wakeRow s r).rep = s.rep := by
  unfold wakeRow; dsimp only; split
  · rfl
  · split <;> rfl
@[simp] theorem wakeRow_net (s : State) (r : Nat) : (wakeRow s r).net = s.net := by
  unfold wakeRow; dsimp only; split
  · rfl
  · split <;> rfl
@[simp] theorem wakeRow_bol (s : State) (r : Nat) : (wakeRow s r).bol = s.bol := by
  unfold wakeRow; dsimp only; split
  · rfl
  · split <;> rfl
@[simp] theorem wakeRow_card (s : State) (r : Nat) : (wakeRow s r).card = s.card := by
  unfold wakeRow; dsimp only; split
  · rfl
  · split <;> rfl
@[simp] theorem wakeRow_boot (s : State) (r : Nat) : (wakeRow s r).boot = s.boot := by
  unfold wakeRow; dsimp only; split
  · rfl
  · split <;> rfl
@[simp] theorem wakeRow_sec (s : State) (r : Nat) : (wakeRow s r).sec = s.sec := by
  unfold wakeRow; dsimp only; split
  · rfl
  · split <;> rfl

end Sys2Proof.Machine
end

