-- ==== Sys2Proof/Laws/Bus.lean ====
section
/-! SUPPORT. Register words after a write, and what raising an interrupt or an error flag does to them. -/
namespace Sys2Proof.Machine

@[simp] theorem getW_setW_same (s : State) (a : Nat) (v : Word) : getW (setW s a v) a = v := by
  simp [getW, setW]

theorem getW_setW_other (s : State) {a b : Nat} (v : Word) (h : b ≠ a) : getW (setW s a v) b = getW s b := by
  simp only [getW, setW]
  exact mget_mset_other _ _ _ v h

/-- Every word after one is written. -/
theorem getW_setW (s : State) (a b : Nat) (v : Word) : getW (setW s a v) b = if b = a then v else getW s b := by
  split
  · subst_vars; simp
  · exact getW_setW_other s v (by assumption)

/-- Words depend on the bus alone. -/
theorem getW_congr {s t : State} (h : t.bus = s.bus) (a : Nat) : getW t a = getW s a := by
  simp [getW, h]

/-- Two states with the same stored words read alike. -/
theorem getW_words {s t : State} (h : t.bus.words = s.bus.words) (a : Nat) : getW t a = getW s a := by
  simp [getW, h]

@[simp] theorem msixRequest_words (s : State) (v : Nat) : (msixRequest s v).bus.words = s.bus.words := by
  unfold msixRequest; split <;> rfl

@[simp] theorem getW_pageRequest (s : State) (b : Block) (i a : Nat) : getW (pageRequest s b i) a = getW s a :=
  getW_words (msixRequest_words _ _) a

/-- Setting bits of INT_STAT changes that one word. -/
theorem getW_orInt (s : State) (b : Block) (i : Nat) (m : Word) (a : Nat) :
    getW (orInt s b i m) a = if a = reg b i 0x20 then getW s a ||| m else getW s a := by
  unfold orInt
  dsimp only
  split
  · rw [getW_pageRequest, getW_setW]; split
    · subst_vars; rfl
    · rfl
  · rw [getW_setW]; split
    · subst_vars; rfl
    · rfl

/-- Raising an interrupt cause sets its bit of INT_STAT and no other word. -/
theorem getW_raiseInt (s : State) (b : Block) (i bit a : Nat) :
    getW (raiseInt s b i bit) a =
      if a = reg b i 0x20 then getW s a ||| BitVec.ofNat 32 (2 ^ bit) else getW s a :=
  getW_orInt s b i _ a

/-- Raising an error sets its bit of ERR_STAT; beside it only INT_STAT of the page may change. -/
theorem getW_raiseErr (s : State) (b : Block) (i bit a : Nat) (h : a ≠ reg b i 0x20) :
    getW (raiseErr s b i bit) a =
      if a = reg b i 0x18 then getW s a ||| BitVec.ofNat 32 (2 ^ bit) else getW s a := by
  unfold raiseErr
  dsimp only
  split
  · rw [getW_raiseInt, if_neg h, getW_setW]; split
    · subst_vars; rfl
    · rfl
  · rw [getW_setW]; split
    · subst_vars; rfl
    · rfl

/-! ### Fields and 64-bit registers -/

/-- A field after it is written. -/
theorem getF_setF_same (s : State) (a lo len v : Nat) (h : lo + len ≤ 32) : getF (setF s a lo len v) a lo len = v % 2 ^ len := by
  have hb := putBits_lt (v := v) (getW s a).isLt h
  simp only [getF, setF, getW_setW_same, BitVec.toNat_ofNat]
  rw [Nat.mod_eq_of_lt hb, bitsAt_putBits_same]

/-- A field of another word. -/
theorem getF_setW_other (s : State) {a b : Nat} (v : Word) (lo len : Nat) (h : b ≠ a) :
    getF (setW s a v) b lo len = getF s b lo len := by
  simp only [getF, getW_setW_other s v h]

theorem getW_setF_other (s : State) {a b : Nat} (lo len v : Nat) (h : b ≠ a) : getW (setF s a lo len v) b = getW s b :=
  getW_setW_other s _ h

theorem getF_setF_other (s : State) {a b : Nat} (lo len v l m : Nat) (h : b ≠ a) :
    getF (setF s a lo len v) b l m = getF s b l m := getF_setW_other s _ l m h

/-- Another field of the same word. -/
theorem getF_setF_field (s : State) (a lo len v l m : Nat) (h : lo + len ≤ 32) (hd : lo + len ≤ l ∨ l + m ≤ lo) :
    getF (setF s a lo len v) a l m = getF s a l m := by
  have hb := putBits_lt (v := v) (getW s a).isLt h
  simp only [getF, setF, getW_setW_same, BitVec.toNat_ofNat]
  rw [Nat.mod_eq_of_lt hb]
  rcases hd with hd | hd
  · exact bitsAt_putBits_above _ _ _ _ _ _ hd
  · exact bitsAt_putBits_below _ _ _ _ _ _ hd

/-- A 64-bit register after it is written. -/
theorem getD64_setD64_same (s : State) (a : Nat) (v : DWord) : getD64 (setD64 s a v) a = v := by
  simp only [getD64, setD64, getW_setW_same]
  rw [getW_setW_other _ _ (show a ≠ a + 4 by omega), getW_setW_same]
  apply BitVec.eq_of_getElem_eq
  intro i hi
  simp only [BitVec.getElem_append, BitVec.getElem_setWidth, BitVec.getLsbD_ushiftRight]
  split
  · simp [BitVec.getElem_eq_testBit_toNat, BitVec.getLsbD]
  · rw [BitVec.getElem_eq_testBit_toNat]; simp only [BitVec.getLsbD]; congr 1; omega

theorem getD64_setW_other (s : State) {a b : Nat} (v : Word) (h : b ≠ a) (k : b + 4 ≠ a) : getD64 (setW s a v) b = getD64 s b := by
  simp only [getD64, getW_setW_other s v h, getW_setW_other s v k]

theorem getW_setD64_other (s : State) {a b : Nat} (v : DWord) (h : b ≠ a) (k : b ≠ a + 4) : getW (setD64 s a v) b = getW s b := by
  simp only [setD64]
  rw [getW_setW_other _ _ k, getW_setW_other _ _ h]

theorem getD64_congr {s t : State} (h : t.bus = s.bus) (a : Nat) : getD64 t a = getD64 s a := by
  simp only [getD64, getW_congr h]

theorem getF_congr {s t : State} (h : t.bus = s.bus) (a lo len : Nat) : getF t a lo len = getF s a lo len := by
  simp only [getF, getW_congr h]

/-- Registers of one page at different offsets are different. -/
theorem reg_ne (b : Block) (i : Nat) {x y : Nat} (h : x ≠ y) : reg b i x ≠ reg b i y := by
  unfold reg; omega

/-- Every word keeps the canonical form when one is written. -/
theorem setW_words_wf (s : State) (a : Nat) (v : Word) (h : mwf resetKey s.bus.words = true) :
    mwf resetKey (setW s a v).bus.words = true :=
  mwf_mset a v h

end Sys2Proof.Machine
end

