-- ==== Sys2Proof/Laws/Settle.lean ====
section
/-! SUPPORT. What the end of a command does: it moves rows of radio partitions and clock domains, and nothing else. -/
namespace Sys2Proof.Machine

/-- A fold of updates that all leave a projection alone leaves it alone. -/
theorem foldl_keeps {α β γ : Type} (p : β → γ) (f : β → α → β) (l : List α) (s : β)
    (h : ∀ s a, p (f s a) = p s) : p (l.foldl f s) = p s := by
  induction l generalizing s with
  | nil => rfl
  | cons a r ih => rw [List.foldl_cons, ih, h]

theorem setRow_core (s : State) (r : Nat) (x : Row) : (setRow s r x).core = s.core := rfl

theorem setDom_core (s : State) (d st : Nat) : (setDom s d st).core = s.core := by
  unfold setDom; dsimp only; split <;> rfl

theorem wakeRow_core (s : State) (r : Nat) : (wakeRow s r).core = s.core := by
  unfold wakeRow; dsimp only; split
  · rfl
  · split <;> rfl

theorem radioRowsUp_core (s : State) : (radioRowsUp s).core = s.core := by
  refine foldl_keeps State.core _ _ s fun s r => ?_
  dsimp only
  split
  · rw [setRow_core]; split
    · exact wakeRow_core s r
    · rfl
  · rfl

theorem domsFollow_core (s : State) : (domsFollow s).core = s.core :=
  foldl_keeps State.core _ _ s fun s d => setDom_core s d _

/-- The end of a command changes rows and clock domains only. -/
theorem settle_core (s : State) : (settle s).core = s.core := by
  unfold settle
  rw [domsFollow_core]
  split
  · exact radioRowsUp_core s
  · rfl

/-! Equal cores have equal components. -/

theorem core_pending {s t : State} (h : t.core = s.core) : t.pending = s.pending := by
  have h := congrArg State.pending h; exact h
theorem core_freshNo {s t : State} (h : t.core = s.core) : t.freshNo = s.freshNo := by
  have h := congrArg State.freshNo h; exact h
theorem core_bus {s t : State} (h : t.core = s.core) : t.bus = s.bus := by
  have h := congrArg State.bus h; exact h
theorem core_mills {s t : State} (h : t.core = s.core) : t.mills = s.mills := by
  have h := congrArg State.mills h; exact h
theorem core_sync {s t : State} (h : t.core = s.core) : t.sync = s.sync := by
  have h := congrArg State.sync h; exact h
theorem core_sched {s t : State} (h : t.core = s.core) : t.sched = s.sched := by
  have h := congrArg State.sched h; exact h
theorem core_mem {s t : State} (h : t.core = s.core) : t.mem = s.mem := by
  have h := congrArg State.mem h; exact h
theorem core_grn {s t : State} (h : t.core = s.core) : t.grn = s.grn := by
  have h := congrArg State.grn h; exact h
theorem core_hif {s t : State} (h : t.core = s.core) : t.hif = s.hif := by
  have h := congrArg State.hif h; exact h
theorem core_ftl {s t : State} (h : t.core = s.core) : t.ftl = s.ftl := by
  have h := congrArg State.ftl h; exact h
theorem core_cells {s t : State} (h : t.core = s.core) : t.cells = s.cells := by
  have h := congrArg State.cells h; exact h
theorem core_rep {s t : State} (h : t.core = s.core) : t.rep = s.rep := by
  have h := congrArg State.rep h; exact h
theorem core_net {s t : State} (h : t.core = s.core) : t.net = s.net := by
  have h := congrArg State.net h; exact h
theorem core_bol {s t : State} (h : t.core = s.core) : t.bol = s.bol := by
  have h := congrArg State.bol h; exact h
theorem core_card {s t : State} (h : t.core = s.core) : t.card = s.card := by
  have h := congrArg State.card h; exact h
theorem core_boot {s t : State} (h : t.core = s.core) : t.boot = s.boot := by
  have h := congrArg State.boot h; exact h
theorem core_sec {s t : State} (h : t.core = s.core) : t.sec = s.sec := by
  have h := congrArg State.sec h; exact h
theorem core_gov_powers {s t : State} (h : t.core = s.core) : t.gov.powers = s.gov.powers :=
  by have h := congrArg (fun s : State => s.gov.powers) h; exact h
theorem core_gov_bCap {s t : State} (h : t.core = s.core) : t.gov.bCap = s.gov.bCap :=
  by have h := congrArg (fun s : State => s.gov.bCap) h; exact h
theorem core_gov_bTherm {s t : State} (h : t.core = s.core) : t.gov.bTherm = s.gov.bTherm :=
  by have h := congrArg (fun s : State => s.gov.bTherm) h; exact h
theorem core_gov_bDip {s t : State} (h : t.core = s.core) : t.gov.bDip = s.gov.bDip :=
  by have h := congrArg (fun s : State => s.gov.bDip) h; exact h
theorem core_gov_highFrom {s t : State} (h : t.core = s.core) : t.gov.highFrom = s.gov.highFrom :=
  by have h := congrArg (fun s : State => s.gov.highFrom) h; exact h
theorem core_gov_lowFrom {s t : State} (h : t.core = s.core) : t.gov.lowFrom = s.gov.lowFrom :=
  by have h := congrArg (fun s : State => s.gov.lowFrom) h; exact h
theorem core_gov_dipHold {s t : State} (h : t.core = s.core) : t.gov.dipHold = s.gov.dipHold :=
  by have h := congrArg (fun s : State => s.gov.dipHold) h; exact h
theorem core_gov_rampAt {s t : State} (h : t.core = s.core) : t.gov.rampAt = s.gov.rampAt :=
  by have h := congrArg (fun s : State => s.gov.rampAt) h; exact h
theorem core_gov_temps {s t : State} (h : t.core = s.core) : t.gov.temps = s.gov.temps :=
  by have h := congrArg (fun s : State => s.gov.temps) h; exact h
theorem core_gov_starts {s t : State} (h : t.core = s.core) : t.gov.starts = s.gov.starts :=
  by have h := congrArg (fun s : State => s.gov.starts) h; exact h
theorem core_gov_softHeld {s t : State} (h : t.core = s.core) : t.gov.softHeld = s.gov.softHeld :=
  by have h := congrArg (fun s : State => s.gov.softHeld) h; exact h
theorem core_gov_throttleFrom {s t : State} (h : t.core = s.core) : t.gov.throttleFrom = s.gov.throttleFrom :=
  by have h := congrArg (fun s : State => s.gov.throttleFrom) h; exact h
theorem core_gov_evs {s t : State} (h : t.core = s.core) : t.gov.evs = s.gov.evs :=
  by have h := congrArg (fun s : State => s.gov.evs) h; exact h
theorem core_gov_actAt {s t : State} (h : t.core = s.core) : t.gov.actAt = s.gov.actAt :=
  by have h := congrArg (fun s : State => s.gov.actAt) h; exact h
theorem core_gov_fullAt {s t : State} (h : t.core = s.core) : t.gov.fullAt = s.gov.fullAt :=
  by have h := congrArg (fun s : State => s.gov.fullAt) h; exact h

@[simp] theorem settle_pending (s : State) : (settle s).pending = s.pending := core_pending (settle_core s)
@[simp] theorem settle_freshNo (s : State) : (settle s).freshNo = s.freshNo := core_freshNo (settle_core s)
@[simp] theorem settle_bus (s : State) : (settle s).bus = s.bus := core_bus (settle_core s)
@[simp] theorem settle_mills (s : State) : (settle s).mills = s.mills := core_mills (settle_core s)
@[simp] theorem settle_sync (s : State) : (settle s).sync = s.sync := core_sync (settle_core s)
@[simp] theorem settle_sched (s : State) : (settle s).sched = s.sched := core_sched (settle_core s)
@[simp] theorem settle_mem (s : State) : (settle s).mem = s.mem := core_mem (settle_core s)
@[simp] theorem settle_grn (s : State) : (settle s).grn = s.grn := core_grn (settle_core s)
@[simp] theorem settle_hif (s : State) : (settle s).hif = s.hif := core_hif (settle_core s)
@[simp] theorem settle_ftl (s : State) : (settle s).ftl = s.ftl := core_ftl (settle_core s)
@[simp] theorem settle_cells (s : State) : (settle s).cells = s.cells := core_cells (settle_core s)
@[simp] theorem settle_rep (s : State) : (settle s).rep = s.rep := core_rep (settle_core s)
@[simp] theorem settle_net (s : State) : (settle s).net = s.net := core_net (settle_core s)
@[simp] theorem settle_bol (s : State) : (settle s).bol = s.bol := core_bol (settle_core s)
@[simp] theorem settle_card (s : State) : (settle s).card = s.card := core_card (settle_core s)
@[simp] theorem settle_boot (s : State) : (settle s).boot = s.boot := core_boot (settle_core s)
@[simp] theorem settle_sec (s : State) : (settle s).sec = s.sec := core_sec (settle_core s)
@[simp] theorem settle_gov_powers (s : State) : (settle s).gov.powers = s.gov.powers := core_gov_powers (settle_core s)
@[simp] theorem settle_gov_bCap (s : State) : (settle s).gov.bCap = s.gov.bCap := core_gov_bCap (settle_core s)
@[simp] theorem settle_gov_bTherm (s : State) : (settle s).gov.bTherm = s.gov.bTherm := core_gov_bTherm (settle_core s)
@[simp] theorem settle_gov_bDip (s : State) : (settle s).gov.bDip = s.gov.bDip := core_gov_bDip (settle_core s)
@[simp] theorem settle_gov_highFrom (s : State) : (settle s).gov.highFrom = s.gov.highFrom := core_gov_highFrom (settle_core s)
@[simp] theorem settle_gov_lowFrom (s : State) : (settle s).gov.lowFrom = s.gov.lowFrom := core_gov_lowFrom (settle_core s)
@[simp] theorem settle_gov_dipHold (s : State) : (settle s).gov.dipHold = s.gov.dipHold := core_gov_dipHold (settle_core s)
@[simp] theorem settle_gov_rampAt (s : State) : (settle s).gov.rampAt = s.gov.rampAt := core_gov_rampAt (settle_core s)
@[simp] theorem settle_gov_temps (s : State) : (settle s).gov.temps = s.gov.temps := core_gov_temps (settle_core s)
@[simp] theorem settle_gov_starts (s : State) : (settle s).gov.starts = s.gov.starts := core_gov_starts (settle_core s)
@[simp] theorem settle_gov_softHeld (s : State) : (settle s).gov.softHeld = s.gov.softHeld := core_gov_softHeld (settle_core s)
@[simp] theorem settle_gov_throttleFrom (s : State) : (settle s).gov.throttleFrom = s.gov.throttleFrom := core_gov_throttleFrom (settle_core s)
@[simp] theorem settle_gov_evs (s : State) : (settle s).gov.evs = s.gov.evs := core_gov_evs (settle_core s)
@[simp] theorem settle_gov_actAt (s : State) : (settle s).gov.actAt = s.gov.actAt := core_gov_actAt (settle_core s)
@[simp] theorem settle_gov_fullAt (s : State) : (settle s).gov.fullAt = s.gov.fullAt := core_gov_fullAt (settle_core s)

@[simp] theorem getW_settle (s : State) (a : Nat) : getW (settle s) a = getW s a := getW_congr (settle_bus s) a
@[simp] theorem getF_settle (s : State) (a lo len : Nat) : getF (settle s) a lo len = getF s a lo len := by
  simp only [getF, getW_settle]
@[simp] theorem getD64_settle (s : State) (a : Nat) : getD64 (settle s) a = getD64 s a := getD64_congr (settle_bus s) a
@[simp] theorem getCtx_settle (s : State) (c : Nat) : getCtx (settle s) c = getCtx s c := by
  simp only [getCtx, settle_sched]
@[simp] theorem getMill_settle (s : State) (c : Nat) : getMill (settle s) c = getMill s c := by
  simp only [getMill, settle_mills]
@[simp] theorem getLeaf_settle (s : State) (c l : Nat) : getLeaf (settle s) c l = getLeaf s c l := by
  simp only [getLeaf, getMill_settle]
@[simp] theorem getPart_settle (s : State) (c : Nat) : getPart (settle s) c = getPart s c := by
  simp only [getPart, settle_sched]
@[simp] theorem getSlice_settle (s : State) (c : Nat) : getSlice (settle s) c = getSlice s c := by
  simp only [getSlice, settle_sched]
@[simp] theorem ftlT_settle (s : State) : ftlT (settle s) = ftlT s := by simp only [ftlT, settle_ftl]
@[simp] theorem nowNs_settle (s : State) : nowNs (settle s) = nowNs s := by simp only [nowNs, ftlT_settle]
@[simp] theorem devState_settle (s : State) : devState (settle s) = devState s := by simp only [devState, getF_settle]

/-! ### Domains -/

theorem getDom_setDom_other (s : State) {d e : Nat} (x : Nat) (h : e ≠ d) : getDom (setDom s d x) e = getDom s e := by
  unfold setDom; dsimp only
  split
  · rfl
  · exact mget_mset_other _ _ _ _ h
theorem getDom_setDom_same (s : State) (d x : Nat) : (getDom (setDom s d x) d).st = x := by
  unfold setDom; dsimp only
  split
  · assumption
  · simp [getDom]
theorem domWant_core {s t : State} (h : t.core = s.core) (d : Nat) : domWant t d = domWant s d := by
  have hb := core_bus h; have hc := core_boot h
  calc domWant t d = domWant { s with bus := t.bus, boot := t.boot } d := rfl
    _ = domWant s d := by rw [hb, hc]

end Sys2Proof.Machine
end

