-- ==== Sys2Proof/Laws/Frame.lean ====
section
/-! SUPPORT. Frames: what the end of a command, a register write, an interrupt and an error leave alone, and how frames compose. -/
namespace Sys2Proof.Machine

theorem onlyIn_refl (l : List Comp) (s : State) : OnlyIn l s s := by
  refine ⟨rfl, fun c _ => ?_⟩
  cases c <;> rfl

theorem onlyIn_trans {l : List Comp} {s t u : State} (h : OnlyIn l s t) (k : OnlyIn l t u) : OnlyIn l s u := by
  refine ⟨k.1.trans h.1, fun c hc => ?_⟩
  have a := h.2 c hc
  have b := k.2 c hc
  cases c <;> exact Eq.trans b a

theorem onlyIn_mono {l m : List Comp} {s t : State} (h : OnlyIn l s t) (hs : l ⊆ m) : OnlyIn m s t :=
  ⟨h.1, fun c hc => h.2 c fun x => hc (hs x)⟩

/-- The end of a command stays within any frame. -/
theorem onlyIn_settle {l : List Comp} {s t : State} (h : OnlyIn l s t) : OnlyIn l s (settle t) := by
  refine onlyIn_trans h ⟨settle_pending t, fun c _ => ?_⟩
  cases c
  case gov =>
    have h := congrArg State.gov (settle_core t)
    exact h
  all_goals simp only [Comp.same, settle_freshNo, settle_bus, settle_mills, settle_sync, settle_sched, settle_mem, settle_grn,
    settle_hif, settle_ftl, settle_cells, settle_rep, settle_net, settle_bol, settle_card, settle_boot, settle_sec]

/-- An update of the bus alone. -/
theorem onlyIn_bus (s : State) (b : Bus) : OnlyIn [.bus] s { s with bus := b } := by
  refine ⟨rfl, fun c hc => ?_⟩
  cases c <;> first | rfl | exact absurd List.mem_cons_self hc

theorem onlyIn_setW (s : State) (a : Nat) (v : Word) : OnlyIn [.bus] s (setW s a v) := onlyIn_bus s _

theorem onlyIn_msixRequest (s : State) (v : Nat) : OnlyIn [.bus] s (msixRequest s v) := by
  unfold msixRequest; split <;> exact onlyIn_bus s _

theorem onlyIn_orInt (s : State) (b : Block) (i : Nat) (m : Word) : OnlyIn [.bus] s (orInt s b i m) := by
  unfold orInt; dsimp only; split
  · exact onlyIn_trans (onlyIn_setW ..) (onlyIn_msixRequest ..)
  · exact onlyIn_setW ..

theorem onlyIn_raiseInt (s : State) (b : Block) (i bit : Nat) : OnlyIn [.bus] s (raiseInt s b i bit) := onlyIn_orInt ..

theorem onlyIn_raiseErr (s : State) (b : Block) (i bit : Nat) : OnlyIn [.bus] s (raiseErr s b i bit) := by
  unfold raiseErr; dsimp only; split
  · exact onlyIn_trans (onlyIn_setW ..) (onlyIn_raiseInt ..)
  · exact onlyIn_setW ..

/-! ### Register words -/

theorem wordsOnly_refl (l : List Nat) (s : State) : WordsOnly l s s := ⟨fun _ _ => rfl, rfl, rfl, rfl, rfl⟩

theorem wordsOnly_trans {l : List Nat} {s t u : State} (h : WordsOnly l s t) (k : WordsOnly l t u) : WordsOnly l s u :=
  ⟨fun a ha => (k.1 a ha).trans (h.1 a ha), k.2.1.trans h.2.1, k.2.2.1.trans h.2.2.1, k.2.2.2.1.trans h.2.2.2.1,
    k.2.2.2.2.trans h.2.2.2.2⟩

theorem wordsOnly_mono {l m : List Nat} {s t : State} (h : WordsOnly l s t) (hs : l ⊆ m) : WordsOnly m s t :=
  ⟨fun a ha => h.1 a fun x => ha (hs x), h.2⟩

theorem wordsOnly_of_bus {l : List Nat} {s t : State} (h : t.bus = s.bus) : WordsOnly l s t :=
  ⟨fun a _ => getW_congr h a, by rw [h], by rw [h], by rw [h], by rw [h]⟩

theorem wordsOnly_settle {l : List Nat} {s t : State} (h : WordsOnly l s t) : WordsOnly l s (settle t) :=
  wordsOnly_trans h (wordsOnly_of_bus (settle_bus t))

theorem wordsOnly_setW (s : State) (a : Nat) (v : Word) : WordsOnly [a] s (setW s a v) :=
  ⟨fun _ hb => getW_setW_other s v fun e => hb (e ▸ List.mem_cons_self), rfl, rfl, rfl, rfl⟩

theorem wordsOnly_msixRequest (l : List Nat) (s : State) (v : Nat) : WordsOnly l s (msixRequest s v) := by
  refine ⟨fun a _ => getW_words (msixRequest_words s v) a, ?_, ?_, ?_, ?_⟩ <;> (unfold msixRequest; split <;> rfl)

theorem wordsOnly_orInt (s : State) (b : Block) (i : Nat) (m : Word) : WordsOnly [reg b i 0x20] s (orInt s b i m) := by
  unfold orInt; dsimp only; split
  · exact wordsOnly_trans (wordsOnly_setW ..) (wordsOnly_msixRequest ..)
  · exact wordsOnly_setW ..

theorem wordsOnly_raiseInt (s : State) (b : Block) (i bit : Nat) : WordsOnly [reg b i 0x20] s (raiseInt s b i bit) :=
  wordsOnly_orInt ..

theorem wordsOnly_raiseErr (s : State) (b : Block) (i bit : Nat) :
    WordsOnly [reg b i 0x18, reg b i 0x20] s (raiseErr s b i bit) := by
  unfold raiseErr; dsimp only; split
  · exact wordsOnly_trans (wordsOnly_mono (wordsOnly_setW ..) (by simp)) (wordsOnly_mono (wordsOnly_raiseInt ..) (by simp))
  · exact wordsOnly_mono (wordsOnly_setW ..) (by simp)

/-- A value taken modulo 2^w. -/
theorem wrapTo_cast (w : Nat) (i : Int) : ((wrapTo w i : Nat) : Int) = i % 2 ^ w := by
  unfold wrapTo
  exact Int.toNat_of_nonneg (Int.emod_nonneg _ (by positivity))

end Sys2Proof.Machine
end

