-- ==== Sys2Proof/Laws/Engines.lean ====
section
/-! SUPPORT. What storing a context, an engine or a sync object changes, and which record an engine issues. -/
namespace Sys2Proof.Machine

@[simp] theorem getCtx_setCtx_same (s : State) (c : Nat) (x : Ctx) : getCtx (setCtx s c x) c = x := by
  simp [getCtx, setCtx]

theorem getCtx_setCtx_other (s : State) {c k : Nat} (x : Ctx) (h : k ≠ c) : getCtx (setCtx s c x) k = getCtx s k := by
  simp only [getCtx, setCtx]; exact mget_mput_other _ _ _ h

theorem onlyIn_setCtx (s : State) (c : Nat) (x : Ctx) : OnlyIn [.sched] s (setCtx s c x) := by
  refine ⟨rfl, fun k hk => ?_⟩
  cases k <;> first | rfl | exact absurd List.mem_cons_self hk

theorem ctxOnly_refl (c : Nat) (s : State) : CtxOnly c s s := ⟨rfl, fun _ _ => rfl⟩

theorem ctxOnly_trans {c : Nat} {s t u : State} (h : CtxOnly c s t) (k : CtxOnly c t u) : CtxOnly c s u :=
  ⟨by rw [k.1, h.1], fun i hi => (k.2 i hi).trans (h.2 i hi)⟩

theorem ctxOnly_setCtx (s : State) (c : Nat) (x : Ctx) : CtxOnly c s (setCtx s c x) :=
  ⟨rfl, fun _ hk => mfind_mput_other _ _ hk⟩

theorem ctxOnly_of_sched {c : Nat} {s t : State} (h : t.sched = s.sched) : CtxOnly c s t := ⟨by rw [h], fun _ _ => by rw [h]⟩

theorem ctxOnly_settle {c : Nat} {s t : State} (h : CtxOnly c s t) : CtxOnly c s (settle t) :=
  ctxOnly_trans h (ctxOnly_of_sched (settle_sched t))

@[simp] theorem getCtx_putEng_same (s : State) (cid : Nat) (c : Ctx) (e : Nat) (x : Eng) :
    getCtx (putEng s cid c e x) cid = { c.setEng e x with lastMove := nowNs s } := by
  simp [putEng, Ctx.moved]

theorem getCtx_putEng_other (s : State) {cid k : Nat} (c : Ctx) (e : Nat) (x : Eng) (h : k ≠ cid) :
    getCtx (putEng s cid c e x) k = getCtx s k := getCtx_setCtx_other s _ h

theorem onlyIn_putEng (s : State) (cid : Nat) (c : Ctx) (e : Nat) (x : Eng) : OnlyIn [.sched] s (putEng s cid c e x) := onlyIn_setCtx ..

theorem ctxOnly_putEng (s : State) (cid : Nat) (c : Ctx) (e : Nat) (x : Eng) : CtxOnly cid s (putEng s cid c e x) := ctxOnly_setCtx ..

@[simp] theorem eng_setEng_same (c : Ctx) (e : Nat) (x : Eng) : (c.setEng e x).eng e = x := by simp [Ctx.eng, Ctx.setEng]

theorem eng_setEng_other (c : Ctx) {e k : Nat} (x : Eng) (h : k ≠ e) : (c.setEng e x).eng k = c.eng k := by
  simp only [Ctx.eng, Ctx.setEng]; exact mget_mset_other _ _ _ _ h

/-- The context that runs in a leaf is what its number names. -/
theorem runningAt_ctx {s : State} {site lf cid : Nat} {c : Ctx} (h : runningAt s site lf = some (cid, c)) :
    (getLeaf s site lf).st = .running ∧ (getLeaf s site lf).ctx = some cid ∧ c = getCtx s cid := by
  unfold runningAt at h
  dsimp only at h
  split at h
  · split at h
    · cases h; exact ⟨by assumption, by assumption, rfl⟩
    · cases h
  · cases h

/-- Everything that a record about to issue stands for. -/
theorem issueAt_spec {s : State} {site lf e : Nat} {ops : List Nat} {i : Issue} (h : issueAt s site lf e ops = some i) :
    runningAt s site lf = some (i.cid, i.c) ∧ i.c = getCtx s i.cid ∧ i.m = ctxModule s i.c ∧ i.e = e ∧ i.eng = i.c.eng e
      ∧ i.idx = i.eng.next ∧ (i.m.table e)[i.idx]? = some i.rcd ∧ recOp i.rcd ∈ ops ∧ e ≠ 0
      ∧ i.eng.op = none ∧ i.eng.wait = none ∧ i.eng.held = false ∧ i.eng.cur.isSome := by
  unfold issueAt at h
  split at h
  · cases h
  · rename_i cid c hr
    dsimp only at h
    split at h
    · rename_i hcur hop hw hh hrec
      split at h
      · rename_i hops
        cases h
        refine ⟨hr, (runningAt_ctx hr).2.2, rfl, rfl, rfl, rfl, hrec, hops.2, hops.1, hop, hw, hh, ?_⟩
        simp [hcur]
      · cases h
    · cases h

end Sys2Proof.Machine
end

