-- ==== Sys2Proof/Laws/Memory.lean ====
section
/-! SUPPORT. Device memory: writes keep the canonical form, a byte reads as it was last written, and a write leaves the other bytes alone.
`linePut` and `garble` are the only operations that write cells; a full reset keeps them. -/
namespace Sys2Proof.Machine

theorem foldl_keeps_wf {α : Type} (f : List (Nat × Byte) → α → List (Nat × Byte)) (hf : ∀ m x, Memory.wf m = true → Memory.wf (f m x) = true)
    (l : List α) : ∀ m, Memory.wf m = true → Memory.wf (l.foldl f m) = true := by
  induction l with
  | nil => exact fun _ h => h
  | cons x r ih => exact fun m h => ih _ (hf m x h)

/-- A write keeps the canonical form. -/
theorem cellsWrite_wf (m : List (Nat × Byte)) (a : Nat) (l : List Byte) (h : Memory.wf m = true) :
    Memory.wf (cellsWrite m a l) = true :=
  foldl_keeps_wf (fun m (p : Byte × Nat) => mset 0 m (a + p.2) p.1)
    (fun _ p (h : mwf (fun _ => (0 : Byte)) _ = true) => mwf_mset (a + p.2) p.1 h) _ _ h

theorem cellsWrite_aux (l : List Byte) : ∀ (m : List (Nat × Byte)) (a j k : Nat),
    mget 0 ((l.zipIdx j).foldl (fun m p => mset 0 m (a + p.2) p.1) m) k
      = if a + j ≤ k ∧ k < a + j + l.length then l.getD (k - (a + j)) 0 else mget 0 m k := by
  induction l with
  | nil =>
    intro m a j k
    rw [if_neg (by simp)]
    rfl
  | cons b r ih =>
    intro m a j k
    rw [List.zipIdx_cons, List.foldl_cons, ih]
    by_cases e : k = a + j
    · subst e
      rw [if_neg (by omega), if_pos (by simp)]
      simp
    · by_cases h : a + (j + 1) ≤ k ∧ k < a + (j + 1) + r.length
      · rw [if_pos h, if_pos (by simp; omega)]
        obtain ⟨n, hn⟩ : ∃ n, k - (a + j) = n + 1 := ⟨k - (a + j) - 1, by omega⟩
        rw [hn, show k - (a + (j + 1)) = n by omega]
        simp
      · rw [if_neg h, if_neg (by simp; omega), mget_mset_other _ _ _ _ e]

/-- A byte reads as it was last written. -/
theorem mget_cellsWrite (m : List (Nat × Byte)) (a : Nat) (l : List Byte) (k : Nat) :
    mget 0 (cellsWrite m a l) k = if a ≤ k ∧ k < a + l.length then l.getD (k - a) 0 else mget 0 m k := by
  rw [cellsWrite]
  exact (cellsWrite_aux l m a 0 k).trans (by rw [Nat.add_zero])

theorem linePut_wf (s : State) (ln key : Nat) (l : List Byte) (h : Memory.wf s.mem.cells = true) :
    Memory.wf (linePut s ln key l).mem.cells = true := cellsWrite_wf _ _ _ h

theorem garble_wf (s : State) (ln : Nat) (hit : Nat → Bool) (h : Memory.wf s.mem.cells = true) :
    Memory.wf (garble s ln hit).mem.cells = true := by
  unfold garble
  generalize ([0, 1, 2, 3] : List Nat) = l
  induction l generalizing s with
  | nil => exact h
  | cons b r ih =>
    apply ih
    dsimp only
    split
    · exact cellsWrite_wf _ _ _ h
    · exact h

/-- A line that is put reads back whole under its key. -/
theorem lineCells_linePut (s : State) (ln key : Nat) (l : List Byte) (h : l.length = 64) : lineCells (linePut s ln key l) ln = l := by
  have hs : sliceB l 0 64 = l := by simp [sliceB, h]
  apply List.ext_getElem
  · simp [lineCells, lineCells.readMap64, h]
  · intro i h1 h2
    simp only [lineCells, lineCells.readMap64, linePut, List.getElem_map, List.getElem_range, mget_cellsWrite, hs]
    rw [if_pos (by omega)]
    simp [h2]

/-- Every other byte is left alone. -/
theorem mget_linePut_other (s : State) (ln key : Nat) (l : List Byte) (k : Nat) (h : k < ln * 64 ∨ ln * 64 + 64 ≤ k) :
    mget 0 (linePut s ln key l).mem.cells k = mget 0 s.mem.cells k := by
  have hl : (sliceB l 0 64).length ≤ 64 := by simp [sliceB]
  simp only [linePut, mget_cellsWrite]
  rw [if_neg (by omega)]

theorem reset_memory_wf : Memory.wf State.reset.mem.cells = true := rfl

end Sys2Proof.Machine
end

