-- ==== Sys2Proof/Tests/Small.lean ====
section
/-! SUPPORT. Small states for the tests: one context in leaf 0 of site 0, a device that is up, and helpers to write records. -/
namespace Sys2Proof.Tests
open Sys2Proof Sys2Proof.Machine

/-- A step record of 32-bit words. -/
def rcd (ws : List Nat) : Rec := BitVec.ofNat 256 ((ws.zipIdx).foldl (fun a p => a + p.1 % 2 ^ 32 * 2 ^ (32 * p.2)) 0)

/-- A record that ends its segment. -/
def eos : Nat := 2 ^ 13

/-- An engine in segment 0 at record 0. -/
def engOn : Eng := { Eng.idle with cur := some 0 }

/-- A module whose engine `e` has the table `t`. -/
def modOf (e : Nat) (t : List Rec) : Module :=
  { Module.blank with
    tables := [(e, t)]
    bufs := [⟨1, 1, 5, 0, 0xFFFF, 0xFFFF, 0xFFFF, 6, 0xFF, 0, 8192, 0⟩]
    queues := [⟨0, 1, 2, 4⟩, ⟨1, 0, 2, 4⟩]
    digests := [⟨0, 1, 7, 8⟩] }

/-- A state whose leaf 0 of site 0 runs context 1 of module `m`. -/
def ctxSt (m : Module) (c : Ctx) : State :=
  { State.reset with
    mills := [(0, { Mill.zero with leaf0 := { Leaf.empty with st := .running, ctx := some 1, part := 1, slice := 5, bnd := ⟨0, 4, 0, 2, 0, 16, 0, 1, 15⟩ } })]
    sched := { Sched.zero with
      workshop := true
      ctxs := [(1, { c with launch := 1, place := .leaf 0 0, started := true, part := 1, slice := 5 })]
      launches := [(1, { Launch.blank with modl := m, part := 1, slice := 5 })]
      parts := [(1, { Part.free with st := .active, mills := 1, desc := { PartDesc.blank with sliceCount := 16, mills := 1, keySlots := 2 } })]
      slices := [(5, { Slice.blank with st := .active, part := 1, pasid := 3, share := 1 })] }
    sync := { Sync.zero with objs := [(0, ⟨.counter, 5, 0, 0⟩), (1, ⟨.work, 0xFFFFFFF0, 0, 0⟩), (2, ⟨.barrier, 1, 3, 2⟩), (3, ⟨.flag, 1, 0, 0⟩)],
                              owner := [(0, 1)] }
    mem := { Mem.zero with ownA := [(0, 0x241), (1, 0x241)], ownB := [(0, 0x241), (1, 0x241)], slots := [(2, ⟨some 9, 1, none, false⟩)] }
    gov := { Gov.zero with rows := [(0, { Row.blank with st := .running })] } }

/-- The state in which engine `e`, as `x`, is about to issue from table `t`. -/
def engSt (e : Nat) (x : Eng) (t : List Rec) : State :=
  ctxSt (modOf e t) { Ctx.blank with engs := [(e, x)], syncs := [(0, .obj 0), (1, .obj 1), (2, .obj 2), (3, .obj 3)] }

/-- The same with context 2 in leaf 1. -/
def twoSt (st0 st1 : LeafSt) (c1 c2 : Ctx) : State :=
  let s := ctxSt (modOf 1 []) c1
  let m := getMill s 0
  let s := setMill s 0 { m with leaf0 := { m.leaf0 with st := st0 }, leaf1 := { m.leaf0 with st := st1, ctx := some 2 } }
  setCtx s 2 { c2 with launch := 1, place := .leaf 0 1, started := true, part := 1, slice := 5 }

/-- A state at `n` ns of fantail time. -/
def atNs (n : Nat) (s : State) : State := { s with ftl := { s.ftl with count := BitVec.ofNat 64 (n * 5 / 4) } }

/-- Change the context of a test state. -/
def onCtx (s : State) (f : Ctx → Ctx) : State := setCtx s 1 (f (getCtx s 1))

/-- A device that is up, with its rows RUNNING. -/
def up : State :=
  { setW State.reset (reg .gov 4 0x180) 2 with
    boot := { Boot.zero with pwrgd := true, perst := true }
    sched := { Sched.zero with workshop := true }
    gov := { Gov.zero with rows := (List.range 16).map (fun r => (r, { Row.blank with st := .running })) } }

/-- The same with the compute partition, slice and context of `ctxSt`. -/
def upCtx (m : Module) (c : Ctx) : State :=
  { ctxSt m c with bus := up.bus, boot := up.boot, gov := up.gov }

end Sys2Proof.Tests
end

