-- ==== Sys2Proof/Tests/Slice0.lean ====
section
/-! SUPPORT. An ill-formed command for each check of `Instr.wf`, the figures that the spec's worked examples state, and single commands on
small states. -/
set_option Elab.async false

namespace Sys2Proof.Tests
open Sys2Proof Sys2Proof.Machine

/-! ### WellFormed -/

/-- A request one byte too short. -/
theorem test_wf_request :
    ([.partCreate, .partResize, .partTeardown, .freeze, .exportImage, .partResume, .mbxLaunch] : List (List (BitVec 8) → Instr)).all
      (fun c => !(c (List.replicate 255 0)).wf && (c (List.replicate 256 0)).wf) = true := by decide +kernel

theorem test_wf_import_image :
    (Instr.importImage (List.replicate 255 0) none).wf = false ∧ (Instr.importImage (List.replicate 256 0) none).wf = true := by decide +kernel

/-- An answer of ATS below 4 KiB, one that is not aligned; an upset beyond data memory, one wider than a stored line. -/
theorem test_wf_env :
    (Instr.entryFetch 0 ⟨[some ⟨11, 0, true, true⟩], [], [], none⟩).wf = false
    ∧ (Instr.entryFetch 0 ⟨[some ⟨12, 2048, true, true⟩], [], [], none⟩).wf = false
    ∧ (Instr.hoistTransfer 0 0 0 ⟨[], [], [(144955146240, 1)], none⟩).wf = false
    ∧ (Instr.slotWorkList 0 ⟨[], [], [], none⟩ [⟨[], [], [(0, 2 ^ 544)], none⟩]).wf = false
    ∧ (Instr.configureCell 0 ⟨[], [], [(0, 2 ^ 544)], none⟩).wf = false
    ∧ (Instr.entryFetch 0 ⟨[some ⟨12, 4096, true, true⟩, none], [], [(144955146239, 1)], none⟩).wf = true := by decide +kernel

theorem test_wf_upset :
    ([.dlLatch 0 0 0, .descriptorFetch 0 0, .unitDone 0, .digestPublish 0, .inboundRead 0 0 64] : List (List (Nat × Nat) → Instr)).all
      (fun c => !(c [(144955146240, 1)]).wf && (c [(0, 1)]).wf) = true := by decide +kernel

theorem test_wf_inbound_write :
    (Instr.inboundWrite 0 0 [] []).wf = false ∧ (Instr.inboundWrite 0 0 (List.replicate 4097 0) []).wf = false
    ∧ (Instr.inboundWrite 0 0 (List.replicate 4096 0) []).wf = true := by decide +kernel

theorem test_wf_load_complete :
    (Instr.loadComplete 0 ⟨[some ⟨11, 0, true, true⟩], [], [], none⟩ ⟨[], [], [], none⟩ []).wf = false
    ∧ (Instr.loadComplete 0 ⟨[], [], [], none⟩ ⟨[], [], [(0, 2 ^ 544)], none⟩ []).wf = false
    ∧ (Instr.loadComplete 0 ⟨[], [], [], none⟩ ⟨[], [], [], none⟩ [some ⟨64, 0, true, true⟩]).wf = false
    ∧ (Instr.globalObservationResponse 0 [some ⟨11, 0, true, true⟩]).wf = false := by decide +kernel

theorem test_wf_frame :
    (Instr.frameReceive 0 (List.replicate 13 0) true).wf = false ∧ (Instr.frameReceive 0 (List.replicate 14 0) true).wf = true
    ∧ (Instr.ptpMessageSend 0 true (List.replicate 9217 0)).wf = false := by decide +kernel

theorem test_wf_samples :
    (Instr.thermalSample (List.replicate 63 0)).wf = false ∧ (Instr.ageMonitor (List.replicate 255 0) []).wf = false
    ∧ (Instr.challenge .i3c 0 (List.replicate 31 0)).wf = false ∧ (Instr.getMeasurements .i3c 1 (List.replicate 33 0)).wf = false
    ∧ (Instr.thermalSample (List.replicate 64 0)).wf = true := by decide +kernel

/-! ### Figures of the spec's worked examples -/

/-- Chapter 04, anchoring under cancellation: the anchor 22, the words of both sums, and their stored forms. -/
theorem test_anchor_example :
    (let a := [0x4980, 0xC980, 0x3581].map (decodeElem 13)
     let b := [0x3F80, 0x3F80, 0x3F80].map (decodeElem 13)
     (censusByte a, censusByte b, tileAnchor [censusBound [censusByte a]] [censusBound [censusByte b]] 3)) = (147, 127, 22)
    ∧ accProds 22 0 (([0x4980, 0xC980, 0x3581].map (decodeElem 13)).map (fun x => prodOf x (decodeElem 13 0x3F80))) = 0x20
    ∧ accProds 22 0 (([0x4980, 0xC980, 0xB581].map (decodeElem 13)).map (fun x => prodOf x (decodeElem 13 0x3F80))) = 0x00FFFFFFFFFFFFDF
    ∧ storeFloat fp32 0x20 22 none = (0x35800000, false)
    ∧ storeFloat fp32 0x00FFFFFFFFFFFFDF 22 none = (0xB5840000, false) := by decide +kernel

/-- Chapter 04, saturation on store: 1.25 at anchor 1 in CFX24 at two exponents. -/
theorem test_store_example :
    storeFixed 24 0x0000500000000000 1 (-23) none = (0x7FFFFF, true) ∧ storeFixed 24 0x0000500000000000 1 (-22) none = (0x500000, false)
    ∧ storeFixed 24 0x00001C0000000000 1 (-23) none = (0x380000, false) := by decide +kernel

/-- Chapter 04, dithered requantisation: 37 and −37 to INT8 with oexp 3. -/
theorem test_dither_example :
    (List.range 8).map (fun t => (narrowFixed 8 37 0 3 (some (t * 2 ^ 29))).1) = [4, 4, 4, 5, 5, 5, 5, 5]
    ∧ (List.range 8).map (fun t => (narrowFixed 8 (-37) 0 3 (some (t * 2 ^ 29))).1) = [-5, -5, -5, -5, -5, -4, -4, -4]
    ∧ (narrowFixed 8 37 0 3 none).1 = 4 ∧ (narrowFixed 8 (-37) 0 3 none).1 = -5 := by decide +kernel

/-- Chapter 07, one 16QAM resource element: the four LLRs as INT8 with OEXP −7. -/
theorem test_demap_example :
    (demapElem (rcd [0, 0, 0, 0, 0, 0, 0, 0x200000 + 2 * 2 ^ 24]) (0x300000 + 0xB00000 * 2 ^ 24) 0x266666).map
      (fun v => (narrowFixed 8 v (-46) (-7) none).1) = [14, -24, 4, -5] := by decide +kernel

/-- R444 at μ = 1: symbol 13 starts 912,896 Tc after its slot, ⌊464,322.9⌋ ns; the example of chapter 16 rounds it to 464.323 µs. -/
theorem test_symbol_example :
    symOfs 1 13 = 464322 ∧ symOfs 1 0 = 0 ∧ symOfs 0 7 = 500000 := by decide +kernel

/-- Chapter 22, a shadow that runs ahead: emission 6 lies in slot 1 of its block. -/
theorem test_shadow_example :
    digSlot ⟨0, 0, 0, 0, 17, 3, 2⟩ 6 = (16 * 3 + 2) * 256 + 32 + 32 * 1 := by decide +kernel

/-- Chapter 12, decoding one address: 0x2_0000_0040 lies in device 23, and the line after the next in device 0. -/
theorem test_address_example :
    lineDevice 0x200000040 = 23 ∧ lineDevice 0x2000000C0 = 0 := by decide +kernel

/-- Chapter 16, one PRB at 9 bits: exponent 3, the four mantissas, and the parts that they decompress to. -/
theorem test_prb_example :
    (let v := [0x03E840, 0xFA2440, 0x0007FF, 0xFFF900].map (sext 24) ++ List.replicate 20 0
     ((prbOut 9 v).head?, ((prbIn 9 (prbOut 9 v)).1.take 4))) = (some 3, [256000, -385024, 0, -2048]) := by decide +kernel

/-- Chapter 15, one uplink transport block: its segmentation and the clocks of a code block with and without COMBINE. -/
def exDesc (combine : Nat) : List (BitVec 8) :=
  [2, BitVec.ofNat 8 (4 + 2 * combine), 1, 0, 8, 4, 8, 6] ++ toLE 4 50520 ++ toLE 4 73728 ++ toLE 48 0

theorem test_bolter_example :
    (dB (exDesc 1), dC (exDesc 1), dKp (exDesc 1), dZc (exDesc 1), dEr (exDesc 1) 0, dNcb (exDesc 1)) = (50544, 6, 8448, 384, 12288, 25344)
    ∧ unitClocks (exDesc 1) 0 8 = 4529 ∧ unitClocks (exDesc 0) 0 8 = 1265 := by decide +kernel

/-- Chapter 19, a cap excess: 430 W against 400 W with 200 W of compute gives B_cap 10, and 398.8 W leaves it. -/
theorem test_cap_example :
    updateBcap 0 430000 200000 400000 5000 = 10 ∧ updateBcap 10 398800 200000 400000 5000 = 10 := by decide +kernel

/-- Chapter 02, a cause arriving during the handler: causes 3 and 5 of GOV page 0 on vector 40, with its messages. -/
def intSt : State :=
  { setF (setW up (reg .gov 0 0x24) 0x28) (reg .gov 0 0x30) 0 11 40 with bus :=
      { (setF (setW up (reg .gov 0 0x24) 0x28) (reg .gov 0 0x30) 0 11 40).bus with msix := [(163, 0)] } }

def afterCmd (c : Instr) (s : State) (f : State → Bool) : Bool := match exec c s with | .next t => f t | _ => false

theorem test_int_example :
    (let s3 := raiseInt intSt .gov 0 3
     let s5 := raiseInt s3 .gov 0 5
     s3.bus.sent.map Msg.vec = [40] && s5.bus.sent.map Msg.vec = [40] && getW s5 (reg .gov 0 0x20) = 0x28
      && afterCmd (.registerWrite (.bar0 (BitVec.ofNat 26 (reg .gov 0 0x20))) .w32 8) s5 (fun t =>
          getW t (reg .gov 0 0x20) = 0x20 && t.bus.sent.map Msg.vec = [40, 40]
          && afterCmd (.registerWrite (.bar0 (BitVec.ofNat 26 (reg .gov 0 0x20))) .w32 0x20) t (fun u =>
              getW u (reg .gov 0 0x20) = 0 && u.bus.sent.map Msg.vec = [40, 40]))) = true := by decide +kernel

/-! ### Single commands -/

/-- R302: an undefined offset of a page reads 0, an unassigned one is recorded in ROOT (R33). -/
theorem test_unmapped_read :
    afterCmd (.rcRead (.bar0 0x3000000) .w32) up (fun t => t.bus.reply = 0 && getW t (reg .root 0 0x114) = 0x3000000 && getW t (reg .root 0 0x18) = 0x10)
      = true := by decide +kernel

/-- R283: a take may end at the last value; one that would pass it is out of range. -/
theorem test_take_range :
    (match takeObj ⟨.work, 0xFFFFFFF0, 0, 0⟩ 15 with | .got old o => old = 0xFFFFFFF0 && o.value = 0xFFFFFFFF | _ => false) = true
    ∧ takeObj ⟨.work, 0xFFFFFFFF, 0, 0⟩ 1 = .range := by decide +kernel

/-- R37: a write to a page that is not ready acts on nothing but PAGE's error bit. -/
theorem test_write_before_ready :
    afterCmd (.registerWrite (.bar0 (BitVec.ofNat 26 (reg .gov 1 0x100))) .w32 980) State.reset (fun t =>
      getW t (reg .gov 1 0x100) = getW State.reset (reg .gov 1 0x100) && getW t (reg .gov 1 0x18) = 8) = true := by decide +kernel

/-- R489: a cap beyond 550 W is an invalid write; one below FLOOR clamps. -/
theorem test_cap_write :
    afterCmd (.capWrite 551) up (fun t => capW t = capW up && getW t (reg .gov 0 0x18) = 1) = true
    ∧ afterCmd (.capWrite 200) up (fun t => capW t = 200 && capEff t = 200) = true := by decide +kernel

/-- R498: a sensor at 115 °C trips the card, one below does nothing. -/
theorem test_thermal_trip :
    afterCmd (.thermalTrip 63 460) up (fun t => devState t = 6 && (getRow t 15).st = .off) = true
    ∧ afterCmd (.thermalTrip 63 459) up (fun t => devState t = 2) = true := by decide +kernel

/-- R474: a step of −1 ns moves the time alone. -/
theorem test_step_ns :
    afterCmd (.stepNs (-1)) (atNs 1000 up) (fun t => nowNs t + 1 = nowNs (atNs 1000 up) && t.ftl.count = (atNs 1000 up).ftl.count) = true := by
  decide +kernel

/-- R511: PWRGD rising begins a cold reset with cause 0 after AO power-on. -/
theorem test_pwrgd_rise :
    afterCmd .pwrgdRise State.reset (fun t => devState t = 1 && getW t (reg .gov 4 0x188) = 0 && !t.boot.running.isEmpty) = true := by decide +kernel

/-- The queue is served first in, first out; an empty one lets time pass. -/
theorem test_queue_order :
    (match step { up with pending := [.capWrite 300, .capWrite 400] } with
     | .next t => capW t = 300 && t.pending = [.capWrite 400]
     | _ => false) = true
    ∧ (match step (setDom up 1 3) with | .next t => t.ftl.count = up.ftl.count + 1 | _ => false) = true := by decide +kernel

end Sys2Proof.Tests
end

