-- ==== Sys2Proof/Tests/W1.lean ====
section
/-! SUPPORT. For each statement with hypotheses about engines, states and operands that meet them. -/
set_option Elab.async false

namespace Sys2Proof.Tests
open Sys2Proof Sys2Proof.Machine

theorem test_witness_SequencersRunLoopsAndSegments :
    (runningAt (engSt 1 { Eng.idle with pend := [0] } [rcd [eos]]) 0 0).any (fun p =>
      (p.2.eng 1).cur = none && (p.2.eng 1).pend = [0] && (p.2.eng 1).held = false && p.2.miller.wait ≠ some (.seqFull 1)) = true
    ∧ (issueAt (engSt 1 engOn [rcd [1, 0, 3], rcd [2 + eos]]) 0 0 1 [1]).any (fun i => countOf i.c.miller (recW i.rcd 2) = some 3) = true
    ∧ (issueAt (engSt 1 engOn [rcd [1, 0, 0], rcd [2 + eos]]) 0 0 1 [1]).any (fun i => countOf i.c.miller (recW i.rcd 2) = some 0
        && matchEnd (i.m.table 1) (i.m.table 1).length (i.idx + 1) 0 = 1 && ((i.m.table 1)[1]?).isSome) = true
    ∧ (issueAt (onCtx (engSt 1 engOn [rcd [1, 0, 2 ^ 31 + 3], rcd [2 + eos]]) (fun c => { c with miller := { c.miller with lc := [(0, 4)] } }))
        0 0 1 [1]).any (fun i => countOf i.c.miller (recW i.rcd 2) = none) = true
    ∧ (issueAt (engSt 1 { engOn with loops := [⟨2, 0, 0⟩] } [rcd [2 + eos]]) 0 0 1 [2]).any (fun i =>
        i.eng.loops.getLast?.any (fun l => l.done + 1 < l.count)) = true
    ∧ (issueAt (engSt 1 { engOn with loops := [⟨2, 1, 0⟩] } [rcd [2 + eos]]) 0 0 1 [2]).any (fun i =>
        i.eng.loops.getLast?.any (fun l => l.count ≤ l.done + 1)) = true := by decide +kernel

theorem test_witness_CutAndWaitRecordsHoldUnderAFreeze :
    (issueAt (engSt 1 engOn [rcd [3 + 2 ^ 16 * 9]]) 0 0 1 [3]).any (fun i => i.c.freezing = false) = true
    ∧ (issueAt (onCtx (engSt 1 engOn [rcd [3 + 2 ^ 16 * 9]]) (fun c => { c with freezing := true })) 0 0 1 [3]).any (fun i => i.c.freezing) = true
    ∧ (issueAt (engSt 1 engOn [rcd [4, 0, 0, 5]]) 0 0 1 [4]).any (fun i => countOf i.c.miller (recW i.rcd 3) = some 5
        && mfind i.c.syncs (syncLocal i.rcd) = some (.obj 0) && i.c.freezing = false
        && waitCond (getObj (engSt 1 engOn []) 0) (syncMode i.rcd) 5) = true
    ∧ (issueAt (engSt 1 engOn [rcd [4, 0, 0, 6]]) 0 0 1 [4]).any (fun i => countOf i.c.miller (recW i.rcd 3) = some 6
        && mfind i.c.syncs (syncLocal i.rcd) = some (.obj 0) && i.c.freezing = false
        && !waitCond (getObj (engSt 1 engOn []) 0) (syncMode i.rcd) 6) = true
    ∧ (issueAt (onCtx (engSt 1 engOn [rcd [4, 0, 0, 6]]) (fun c => { c with freezing := true })) 0 0 1 [4]).any (fun i =>
        countOf i.c.miller (recW i.rcd 3) = some 6 && mfind i.c.syncs (syncLocal i.rcd) = some (.obj 0) && i.c.freezing) = true := by
  decide +kernel

theorem test_witness_EngineSignalsAndTakesActOnTheirObject :
    -- a counter, a flag, a barrier, a work object with its last value
    ([(0, 7), (3, 6), (2, 1), (1, 15)] : List (Nat × Nat)).all (fun p =>
      (issueAt (engSt 1 engOn [rcd [5, 0, p.1, p.2]]) 0 0 1 [5]).any (fun i => countOf i.c.miller (recW i.rcd 3) = some p.2
        && mfind i.c.syncs (syncLocal i.rcd) = some (.obj p.1)
        && (let o := getObj (engSt 1 engOn []) p.1
            o.typ = .counter || o.typ = .flag || (o.typ = .barrier && syncMode i.rcd ≠ 1 && o.param ≠ 0)
              || (o.typ = .work && syncMode i.rcd ≠ 1 && o.value.toNat + p.2 < 2 ^ 32)))) = true
    -- a take of the last value, and takes of 0 and beyond
    ∧ (issueAt (engSt 1 engOn [rcd [6, 2 ^ 16, 1, 15]]) 0 0 1 [6]).any (fun i => countOf i.c.miller (recW i.rcd 3) = some 15
        && mfind i.c.syncs (syncLocal i.rcd) = some (.obj 1) && (getObj (engSt 1 engOn []) 1).typ = .work
        && (getObj (engSt 1 engOn []) 1).value.toNat + 15 < 2 ^ 32
        && (i.c.queue (recF i.rcd 1 16 5)).ents.length < i.m.depth (recF i.rcd 1 16 5)) = true
    ∧ ([0, 16] : List Nat).all (fun v =>
      (issueAt (engSt 1 engOn [rcd [6, 2 ^ 16, 1, v]]) 0 0 1 [6]).any (fun i => countOf i.c.miller (recW i.rcd 3) = some v
        && mfind i.c.syncs (syncLocal i.rcd) = some (.obj 1)
        && (v = 0 || 2 ^ 32 ≤ (getObj (engSt 1 engOn []) 1).value.toNat + v))) = true := by
  decide +kernel

theorem test_witness_HoistRecordsIssueTheirPattern :
    ([0x040, 0x041, 0x042, 0x043] : List Nat).all (fun op =>
      (issueAt (engSt (if op < 0x042 then 1 else 2) engOn [rcd [op, 0, 0, 1, 64], rcd [eos, 0, 2, 3, 4]]) 0 0 (if op < 0x042 then 1 else 2) [op]).any
        (fun i => ((i.m.table i.e)[i.idx + 1]?).any (fun k => (countOf i.c.miller (recW k 2)).isSome && (countOf i.c.miller (recW k 3)).isSome
          && (countOf i.c.miller (recW k 4)).isSome && recF i.rcd 2 17 2 = 0))
      && (issueAt (onCtx (engSt (if op < 0x042 then 1 else 2) engOn [rcd [op, 0, 0, 1, 64], rcd [eos, 0, 2 ^ 31, 3, 4]])
          (fun c => { c with miller := { c.miller with lc := [(0, 1)] } })) 0 0 (if op < 0x042 then 1 else 2) [op]).any
        (fun i => ((i.m.table i.e)[i.idx + 1]?).any (fun k => countOf i.c.miller (recW k 2) = none))) = true := by decide +kernel

/-- A hoist step: `n` of 2 transfers of 64 bytes from device memory into data memory. -/
def hop (n : Nat) : HoistOp :=
  ⟨0, true, 0, 0, 0, 0, 64, [2, 1, 1], [64, 0, 0], none, 2, n, 0, 0, 0, 0, some 64, 0, 0, false, [], 0⟩

def hopSt (o : HoistOp) : State := engSt 1 { engOn with op := some (.hoist o) } []

def noEnv : XferEnv := ⟨[], [], [], none⟩

theorem test_witness_HoistTransfersMoveTheirRun :
    (hoistAt (hopSt (hop 0)) 0 0 1).any (fun p => p.2.2.2.inbound && p.2.2.2.onSp = 0 && p.2.2.2.mcast = 0 && p.2.2.2.buf = []
        && p.2.2.2.done < p.2.2.2.total && p.2.2.1.wait = none && noEnv.upset = [] && onChipOk (hopSt (hop 0)) p.2.1 p.2.2.2
        && (xferAddr (hopSt (hop 0)) p.2.1 p.2.2.2 0).any (fun a => match (offRead (hopSt (hop 0)) p.2.1 0 a 64 noEnv).1 with
            | .ok l => l.length = 64 | _ => false)) = true
    -- a run that lies outside the region, and a read that is refused
    ∧ (hoistAt (hopSt { hop 0 with onAddr := 16384 - 63 }) 0 0 1).any (fun p => !onChipOk (hopSt (hop 0)) p.2.1 p.2.2.2) = true
    ∧ (hoistAt (hopSt { hop 0 with base := 0x100000 }) 0 0 1).any (fun p => onChipOk (hopSt (hop 0)) p.2.1 p.2.2.2
        && (xferAddr (hopSt (hop 0)) p.2.1 p.2.2.2 0).any (fun a => match (offRead (hopSt (hop 0)) p.2.1 0 a 64 noEnv).1 with
            | .fault code => code ≠ 0x11 | _ => false)) = true
    -- a step whose last transfer is done, and a receiving member without room
    ∧ (hoistAt (hopSt (hop 2)) 0 0 1).any (fun p => p.2.2.2.total ≤ p.2.2.2.done && p.2.2.2.buf = [] && p.2.2.1.wait ≠ some .mcastRecv
        && p.2.2.2.mcast = 0) = true
    ∧ (hoistAt (hopSt { hop 0 with mcast := 2, e0 := 70000 }) 0 0 1).any (fun p => p.2.2.2.mcast = 2 && p.2.2.2.detached = false
        && p.2.2.2.done < p.2.2.2.total && p.2.2.1.wait ≠ some .mcastRecv && !hopperRoom (hopSt (hop 0)) 0 p.2.2.2.stone p.2.2.2.part p.2.2.2.e0) = true
    := by decide +kernel

theorem test_witness_StoneOperationsTakeTheirWholeGang :
    (issueAt (engSt 3 engOn [rcd [0x080 + eos, 0, 2 ^ 12, 1 + 2 ^ 16, 0]]) 0 0 3 [0x080]).any (fun i =>
      dimOf i.c.miller (recF i.rcd 3 0 16) = some 1 && dimOf i.c.miller (recF i.rcd 3 16 16) = some 1 && countOf i.c.miller (recW i.rcd 4) = some 0
        && mmaFault (engSt 3 engOn []) i.m i.c i.rcd 1 1 0 = none
        && gangFree (engSt 3 engOn []) 0 (gangStones (mGang i.rcd) (physEng i.m 0 3 - 3))
        && !gangFree (setStone (engSt 3 engOn []) 0 0 { Stone.idle with heldBy := some (1, 3) }) 0 (gangStones (mGang i.rcd) (physEng i.m 0 3 - 3))
        && (mmaFault (engSt 3 engOn []) i.m i.c i.rcd 1 1 8).isSome) = true
    ∧ (mmaAt (engSt 3 { engOn with op := some (.mma ⟨0, 3, rcd [0x080], 1, 1, 0, [0], false, [], []⟩), wait := some .gang } []) 0 0 3).any (fun p =>
        p.2.2.1.wait = some .gang && gangFree (engSt 3 engOn []) 0 p.2.2.2.stones) = true := by decide +kernel

/-- An operation of one int8 row and column over 16 K-values, fed from both hoppers. -/
def mmaOp : MmaOp := ⟨0, 3, rcd [0x080, 0, 2 ^ 12 + 2 ^ 27 + 2 ^ 28, 1 + 2 ^ 16, 16], 1, 1, 16, [0], true, [], []⟩

def mmaSt (n : Nat) (o : MmaOp) (w : Option Wait) : State :=
  setStone (engSt 3 { engOn with op := some (.mma o), wait := w } []) 0 0
    { Stone.idle with stat := List.replicate n 1, strm := List.replicate n 1, heldBy := some (0, 3) }

theorem test_witness_StonesLandTheirProductsAndFreeTheirGang :
    -- hoppers that hold too little, enough, and an operation that has all
    (mmaAt (mmaSt 5 mmaOp (some .hopper)) 0 0 3).any (fun p => p.2.2.2.held && p.2.2.1.wait = some .hopper && mFeedIn p.2.2.2.rcd
        && mFeedW p.2.2.2.rcd && (getStone (mmaSt 5 mmaOp none) 0 0).stat ≠ []
        && (mmaFed (modOf 3 []) p.2.1 { p.2.2.2 with stat := List.replicate 5 1, strm := List.replicate 5 1 }).isNone) = true
    ∧ (mmaAt (mmaSt 16 mmaOp (some .hopper)) 0 0 3).any (fun p =>
        (mmaFed (modOf 3 []) p.2.1 { p.2.2.2 with stat := List.replicate 16 1, strm := List.replicate 16 1 }).isSome) = true
    ∧ (mmaAt (mmaSt 0 { mmaOp with stat := List.replicate 16 1, strm := List.replicate 16 1 } none) 0 0 3).any (fun p =>
        p.2.2.2.held && p.2.2.1.wait = none && p.2.2.2.stones.all (fun k => !softHeld (mmaSt 0 mmaOp none) 0 k)
        && (mmaFed (modOf 3 []) p.2.1 p.2.2.2).isSome) = true := by decide +kernel

/-- A region of one element stored to buffer 1. -/
def storeRec (m n : Nat) : Rec := rcd [0x0C0 + eos, 0, 0, m + n * 2 ^ 16, 1, 0, 0, 0]

def storeSt (o : StoreOp) : State :=
  let s := engSt 7 { engOn with op := some (.store o) } []
  setMill s 0 { getMill s 0 with spout := [(0, 7)] }

theorem test_witness_SpoutStoresWriteRowsThenGranaryUpdates :
    (issueAt (engSt 7 engOn [storeRec 1 1]) 0 0 7 [0x0C0]).any (fun i => (regionOf i).any (fun g =>
        storeFault (engSt 7 engOn []) i g = none && !oToQueue i.rcd)) = true
    ∧ (issueAt (engSt 7 engOn [storeRec 0 0]) 0 0 7 [0x0C0]).any (fun i => (regionOf i).any (fun g =>
        storeFault (engSt 7 engOn []) i g = none && g.n = 0)) = true
    ∧ (issueAt (engSt 7 engOn [storeRec 97 1]) 0 0 7 [0x0C0]).any (fun i => (regionOf i).any (fun g =>
        (storeFault (engSt 7 engOn []) i g).isSome)) = true
    ∧ (storeAt (storeSt ⟨0, [(0, [1])], 0, [], []⟩) 0 0 7).any (fun p => p.2.2.2.ents = []
        && (getMill (storeSt ⟨0, [(0, [1])], 0, [], []⟩) 0).spout = [(0, physEng (modOf 7 []) 0 7)]) = true
    ∧ (storeAt (storeSt ⟨0, [], 0, [], [⟨64, .max, 1⟩]⟩) 0 0 7).any (fun p => p.2.2.2.rows = [] && p.2.2.2.atoms = [⟨64, .max, 1⟩]
        && (match (devAtomic (engSt 7 engOn []) p.2.1.part ⟨64, .max, 1⟩).1 with | .ok _ => true | _ => false)
        && (match (devAtomic (engSt 7 engOn []) p.2.1.part ⟨0x100000, .max, 1⟩).1 with | .denied => true | _ => false)) = true := by
  decide +kernel

theorem test_witness_SpoutHandsOverDigestsAndStatus :
    (issueAt (engSt 7 engOn [rcd [0x0C1 + eos]]) 0 0 7 [0x0C1]).any (fun i => (i.m.digests.find? (fun y => y.id = recF i.rcd 1 24 4)).isSome) = true
    ∧ (issueAt (engSt 7 engOn [rcd [0x0C2 + eos, 2 ^ 16]]) 0 0 7 [0x0C2]).any (fun i =>
        (i.c.queue (recF i.rcd 1 16 5)).ents.length < i.m.depth (recF i.rcd 1 16 5)) = true := by decide +kernel

end Sys2Proof.Tests
end

