-- ==== Sys2Proof/Tests/W2.lean ====
section
/-! SUPPORT. States and operands that meet the hypotheses of the statements about the flume and the miller. -/
set_option Elab.async false

namespace Sys2Proof.Tests
open Sys2Proof Sys2Proof.Machine

/-- A flume record of operation `k`: Q1.15 elements from buffer 1 to buffer 1, `n` of them. -/
def fRec (k n : Nat) : Rec := rcd [0x100 + k + eos, 0, 17 + 17 * 2 ^ 5 + 17 * 2 ^ 10, n, 1, 1, 1 + 64 * 2 ^ 10, 1]

theorem test_witness_FlumeRecordsIssueWithTheirQueueOperands :
    (List.range 15).all (fun k =>
      (issueAt (engSt 7 engOn [fRec k 0]) 0 0 7 [0x100 + k]).any (fun i => countOf i.c.miller (recW i.rcd 3) = some 0
        && flumeFault (engSt 7 engOn []) i 0 = none && recQA i.rcd = none && recQB i.rcd = none)) = true
    ∧ (issueAt (engSt 7 engOn [fRec 0 0xFFFFFF]) 0 0 7 [0x100]).any (fun i => countOf i.c.miller (recW i.rcd 3) = some 0xFFFFFF) = true
    ∧ (issueAt (engSt 7 engOn [fRec 12 2049]) 0 0 7 [0x10C]).any (fun i => (flumeFault (engSt 7 engOn []) i 2049).isSome) = true
    ∧ (issueAt (onCtx (engSt 7 engOn [fRec 0 (2 ^ 31)]) (fun c => { c with miller := { c.miller with lc := [(0, 1)] } })) 0 0 7 [0x100]).any
        (fun i => countOf i.c.miller (recW i.rcd 3) = none) = true := by decide +kernel

/-- A flume operation of two elements whose operands are there. -/
def fOpOf (k : Nat) (w1 : Nat) : FlumeOp :=
  { step := 0, rcd := rcd [0x100 + k + eos, w1, 17 + 17 * 2 ^ 5 + 17 * 2 ^ 10, 2, 1, 1, 1 + 64 * 2 ^ 10, 1], len := 2, needA := 0, needB := 0,
    gotA := [], gotB := [], out := none }

def fSt (o : FlumeOp) : State := engSt 7 { engOn with op := some (.flume o) } []

theorem test_witness_FlumeResultsAreWrittenWhole :
    ([(4, 0), (6, 0), (12, 0), (13, 0), (0, 0), (14, 0), (0, 2 ^ 23 + 2 ^ 16)] : List (Nat × Nat)).all (fun p =>
      (runningAt (fSt (fOpOf p.1 p.2)) 0 0).any (fun r => (r.2.eng 7).op = some (.flume (fOpOf p.1 p.2)) && (r.2.eng 7).wait = none)) = true
    ∧ recQO (fOpOf 0 0).rcd = none ∧ recQO (fOpOf 0 (2 ^ 23 + 2 ^ 16)).rcd = some 1
    ∧ (runningAt (fSt (fOpOf 0 (2 ^ 23 + 2 ^ 16))) 0 0).any (fun r =>
        (r.2.queue 1).ents.length + (bytesToEntries (flumeBytes r.2 (fOpOf 0 (2 ^ 23 + 2 ^ 16)))).length
          ≤ (ctxModule (fSt (fOpOf 0 0)) r.2).depth 1) = true
    ∧ isCplx (fFmtO (fOpOf 0 0).rcd) = false := by decide +kernel

theorem test_witness_AccumulationDoesNotDependOnOrder :
    ∃ ps qs : List Prod, ps.Perm qs ∧ ps ≠ qs ∧ ∀ p ∈ ps, p.sp < 4 :=
  ⟨[⟨1, 0, 0⟩, ⟨2, 0, 3⟩], [⟨2, 0, 3⟩, ⟨1, 0, 0⟩], List.Perm.swap _ _ _, by decide, by decide⟩

theorem test_witness_PackedElementsReadBackAndFixedOutputsRoundDown :
    (4 : Nat) ∈ [4, 6, 8, 16, 24, 32, 48, 64] ∧ (0 : Nat) < [7].length
    ∧ ([(-127, 7), (127, 7), (-128, 7), (128, 7)] : List (Int × Nat)).all (fun p =>
        p.1 * 2 ^ ((0 : Int) - (-7)).toNat ≤ p.1 * 128 && p.1 * 128 < (p.1 + 1) * 2 ^ ((0 : Int) - (-7)).toNat) = true := by decide

theorem test_witness_FlumeSumsAlignToTheHigherAnchor : ((-512 : Int) ≤ -512) ∧ (1023 : Nat) < 1024 ∧ (List.replicate 1024 5)[1023]? = some 5 := by
  refine ⟨by decide, by decide, ?_⟩
  rw [List.getElem?_replicate]; rfl

/-- A miller instruction. -/
def mIns (op rd ra rb fn imm : Nat) : DWord := BitVec.ofNat 64 (op + rd * 2 ^ 8 + ra * 2 ^ 13 + rb * 2 ^ 18 + fn * 2 ^ 23 + imm * 2 ^ 32)

/-- A state whose miller is about to issue an instruction, with registers 1 and 2 and queue entries in queue 0. -/
def milSt (w : DWord) (r1 r2 : Word) (q : List Line) : State :=
  ctxSt { modOf 1 [rcd [eos], rcd [eos]] with code := [w] }
    { Ctx.blank with
      miller := { Miller.zero with s := [(1, r1), (2, r2)] }
      queues := if q = [] then [] else [(0, ⟨q, 0⟩)]
      syncs := [(0, .obj 0), (1, .obj 1)] }

theorem test_witness_MillerAluInstructionsComputeAndStep :
    (List.range 14).all (fun k => (millerAt (milSt (mIns (k + 1) 3 1 2 0 0) 7 33 []) 0 0 (k + 1)).isSome) = true := by decide +kernel

theorem test_witness_MillerLoadsStoresAndRegisterWrites :
    ([(4, 0x10), (1, 0x12), (4, 0x11), (1, 0x13)] : List (Nat × Nat)).all (fun p =>
      (millerAt (milSt (mIns p.2 3 1 2 0 (1024 - p.1)) 0 5 []) 0 0 p.2).any (fun i => mAddr i % p.1 = 0 && mAddr i + p.1 ≤ mdmSize (milSt 0 0 0 []) i.c)
      && (millerAt (milSt (mIns p.2 3 1 2 0 1024) 0 5 []) 0 0 p.2).any (fun i => mdmSize (milSt 0 0 0 []) i.c < mAddr i + p.1)) = true
    ∧ ([0x14, 0x30, 0x31] : List Nat).all (fun op => (millerAt (milSt (mIns op 3 1 2 9 0) 7 5 []) 0 0 op).isSome) = true := by decide +kernel

theorem test_witness_MillerBranchesLoopsAndEnd :
    ([0x20, 0x22, 0x3F] : List Nat).all (fun op => (millerAt (milSt (mIns op 0 1 2 1 16) 7 5 []) 0 0 op).isSome) = true
    ∧ (millerAt (milSt (mIns 0x22 0 1 2 1 16) 1 5 []) 0 0 0x22).any (fun i => i.ra = 1) = true
    ∧ (millerAt (milSt (mIns 0x21 0 1 0 3 7) 7 0 []) 0 0 0x21).any (fun i => i.ra ≠ 0 && i.ra.toNat ≤ (mImm i.w).toNat) = true
    ∧ (millerAt (milSt (mIns 0x21 0 1 0 3 7) 0 0 []) 0 0 0x21).any (fun i => i.ra = 0) = true
    ∧ (millerAt (milSt (mIns 0x21 0 1 0 3 7) 8 0 []) 0 0 0x21).any (fun i => (mImm i.w).toNat < i.ra.toNat) = true := by decide +kernel

theorem test_witness_MillerRunsSegmentsAndMovesQueueEntries :
    -- the last segment, a full list of pending segments, a segment too many
    (millerAt (milSt (mIns 0x32 0 1 0 1 0) 1 0 []) 0 0 0x32).any (fun i => mFn i.w % 8 = 1 && (i.ra + mImm i.w).toNat = 1
        && 1 < segCount ((ctxModule (milSt 0 0 0 []) i.c).table 1) && (i.c.eng 1).pend.length < 4 && !i.c.freezing) = true
    ∧ (millerAt (onCtx (milSt (mIns 0x32 0 1 0 1 0) 1 0 []) (fun c => c.setEng 1 { Eng.idle with pend := [0, 0, 0, 0] })) 0 0 0x32).any
        (fun i => 4 ≤ (i.c.eng 1).pend.length) = true
    ∧ (millerAt (milSt (mIns 0x32 0 1 0 1 1) 1 0 []) 0 0 0x32).any (fun i =>
        segCount ((ctxModule (milSt 0 0 0 []) i.c).table 1) ≤ (i.ra + mImm i.w).toNat) = true
    -- queues with an entry, without one, with room, full
    ∧ (millerAt (milSt (mIns 0x33 0 1 0 0 960) 0 0 [5]) 0 0 0x33).any (fun i => mdmOk i (milSt 0 0 0 []) 64 && (i.c.queue 0).ents = [5]) = true
    ∧ (millerAt (milSt (mIns 0x33 0 1 0 0 960) 0 0 []) 0 0 0x33).any (fun i => mdmOk i (milSt 0 0 0 []) 64 && (i.c.queue 0).ents = []) = true
    ∧ (millerAt (milSt (mIns 0x34 0 1 0 0 960) 0 0 [1, 2, 3]) 0 0 0x34).any (fun i => mdmOk i (milSt 0 0 0 []) 64
        && (i.c.queue 0).ents.length < (ctxModule (milSt 0 0 0 []) i.c).depth 0) = true
    ∧ (millerAt (milSt (mIns 0x34 0 1 0 0 960) 0 0 [1, 2, 3, 4]) 0 0 0x34).any (fun i =>
        (ctxModule (milSt 0 0 0 []) i.c).depth 0 ≤ (i.c.queue 0).ents.length) = true
    ∧ (runningAt (onCtx (milSt 0 0 0 [5]) (fun c => { c with miller := { c.miller with wait := some (.pop 0) } })) 0 0).any (fun p =>
        p.2.miller.wait = some (.pop 0) && (p.2.queue 0).ents ≠ []) = true
    ∧ (runningAt (onCtx (milSt 0 0 0 [5]) (fun c => { c with miller := { c.miller with wait := some (.push 0) } })) 0 0).any (fun p =>
        p.2.miller.wait = some (.push 0) && (p.2.queue 0).ents.length < (ctxModule (milSt 0 0 0 []) p.2).depth 0) = true
    ∧ (runningAt (onCtx (milSt 0 0 0 [5]) (fun c => c.setEng 1 { engOn with
          op := some (.hoist ⟨0, true, 0, 1, 0, 0, 64, [1, 1, 1], [0, 0, 0], none, 1, 0, 0, 0, 0, 0, none, 0, 0, false, [7, 8, 9], 0⟩)
          wait := some (.push 0) })) 0 0).any (fun p => (p.2.eng 1).wait = some (.push 0)
        && (match (p.2.eng 1).op with | some (.hoist h) => (p.2.queue 0).ents.length + h.buf.length ≤ (ctxModule (milSt 0 0 0 []) p.2).depth 0
                                       | _ => false)) = true := by decide +kernel

theorem test_witness_MillerSyncInstructionsAndSatisfiedWaits :
    (millerAt (milSt (mIns 0x35 0 0 2 0 0) 0 5 []) 0 0 0x35).any (fun i => mfind i.c.syncs (mLocal i.w) = some (.obj 0)
        && waitCond (getObj (milSt 0 0 0 []) 0) (mFn i.w % 8) i.rb) = true
    ∧ (millerAt (milSt (mIns 0x35 0 0 2 0 0) 0 6 []) 0 0 0x35).any (fun i => !waitCond (getObj (milSt 0 0 0 []) 0) (mFn i.w % 8) i.rb) = true
    ∧ (millerAt (milSt (mIns 0x38 0 0 0 0 9) 0 0 []) 0 0 0x38).isSome = true
    ∧ (millerAt (milSt (mIns 0x36 0 0 2 0 0) 0 6 []) 0 0 0x36).any (fun i => mfind i.c.syncs (mLocal i.w) = some (.obj 0)
        && (getObj (milSt 0 0 0 []) 0).typ = .counter) = true
    ∧ (millerAt (milSt (mIns 0x37 3 0 2 0 1) 0 15 []) 0 0 0x37).any (fun i => mfind i.c.syncs (mLocal i.w) = some (.obj 1)
        && (getObj (milSt 0 0 0 []) 1).typ = .work && i.rb ≠ 0 && (getObj (milSt 0 0 0 []) 1).value.toNat + i.rb.toNat < 2 ^ 32) = true
    ∧ (runningAt (onCtx (milSt 0 0 0 []) (fun c => { c with miller := { c.miller with wait := some (.sync 0 0 5 true) } })) 0 0).any (fun p =>
        p.2.miller.wait = some (.sync 0 0 5 true) && !p.2.miller.held) = true
    ∧ (runningAt (onCtx (milSt 0 0 0 []) (fun c => c.setEng 1 { engOn with wait := some (.sync 0 0 5 true) })) 0 0).any (fun p =>
        (p.2.eng 1).wait = some (.sync 0 0 5 true) && !(p.2.eng 1).held
        && (((ctxModule (milSt 0 0 0 []) p.2).table 1)[(p.2.eng 1).next]?).isSome) = true := by decide +kernel

end Sys2Proof.Tests
end

