-- ==== Sys2Proof/Tests/W3.lean ====
section
/-! SUPPORT. States and operands that meet the hypotheses of the statements about contexts, slices, loans and partitions. -/
set_option Elab.async false

namespace Sys2Proof.Tests
open Sys2Proof Sys2Proof.Machine

def blank : Ctx := Ctx.blank

/-- A context whose miller waits on a counter that is too low: it is blocked. -/
def blockedC : Ctx := { blank with miller := { Miller.zero with wait := some (.sync 0 0 6 false) }, syncs := [(0, .obj 0)] }

/-- A context that holds under a freeze for reason `w`. -/
def heldC (w : Nat) : Ctx := { blank with freezing := true, freezeWhy := w, miller := { Miller.zero with held := true } }

/-- Context 1 is blocked in leaf 0, and context 3 is saved and runnable. -/
def swapSt : State :=
  let s := twoSt .running .resident blockedC blockedC
  { s with sched := { s.sched with
      ctxs := mput s.sched.ctxs 3 { blank with launch := 1, part := 1, slice := 5, place := .saved } } }

theorem test_witness_SwitchesMoveNoData :
    (let s := twoSt .resident .resident blank blank
     rowRuns s 0 && mayStart s 0 0 && !(getMill s 0).split && (getLeaf s 0 1).st ≠ .running) = true
    ∧ (let s := twoSt .resident .running blank (heldC 1)
       mayStart s 0 0 && (getLeaf s 0 1).ctx = some 2 && (getCtx s 2).freezing && (getCtx s 2).freezeWhy = 1 && (getCtx s 2).holds) = true
    ∧ (let s := twoSt .running .empty blank blank
       (runningAt s 0 0).any (fun p => !p.2.freezing && !p.2.killed && (getLaunch s p.2.launch).grid = 0
        && (getW s (reg .sch (1 + p.2.part) 0x100)).toNat * 1000 ≤ nowNs s - p.2.placedAt && chooseFor s 0 0 true = none && !mayStart s 0 1)) = true
    ∧ (let s := twoSt .running .resident blank blank
       (runningAt s 0 0).any (fun p => p.2.place = .leaf 0 0 && chooseFor s 0 0 true = none && mayStart s 0 1)) = true
    ∧ ([0, 1] : List Nat).all (fun l => (getLeaf swapSt 0 l).ctx.any (fun k => ctxBlocked swapSt (getCtx swapSt k))) = true
    ∧ blockedPick swapSt 0 = some 0 ∧ (getLeaf swapSt 0 0).ctx = some 1 ∧ (evict swapSt 1).isSome = true
    ∧ (let s := { swapSt with mills := [] }
       (getLeaf s 0 0).st = .empty && placedIn s (decideLeaf (decideLeaf s 0 0 none) 0 1 none) 0) = true := by decide +kernel

theorem test_witness_FrozenContextsAreSavedAndLeafTaken :
    (let s := twoSt .running .empty (heldC 2) blank
     (ctxAt s 0 0).any (fun p => p.1 = 1 && (getLeaf s 0 0).st ≠ .frozen && freezeReady s 1 && (groupOf s 1).all (freezeReady s))) = true
    ∧ (let s := onCtx (twoSt .frozen .empty (heldC 2) blank) (fun c => { c with saveUnits := List.range 64 })
       (ctxAt s 0 0).any (fun p => p.1 = 1 && (getLeaf s 0 0).st = .frozen && p.2.freezeWhy = 2 && groupOf s 1 = [1] && freezeReady s 1
        && p.2.place = .leaf 0 0) && (saveCtx s 1).isSome) = true
    ∧ (let s := atNs 10000002 (twoSt .running .empty { heldC 2 with miller := Miller.zero } blank)
       (ctxAt s 0 0).any (fun p => p.2.freezing && 1 < p.2.freezeWhy && !p.2.holds && (siteMill s 0).any (fun n => !isLent s n)
        && (getW s (reg .sch (1 + p.2.part) 0x104)).toNat * 1000 < nowNs s - p.2.freezeFrom)) = true
    ∧ (let s := atNs 100000002 (twoSt .running .empty blockedC blank)
       (runningAt s 0 0).any (fun p => ctxStalled s p.2
        && (getW s (reg .syn 2 (0x100 + 4 * p.2.part))).toNat * 1000 < nowNs s - stalledFrom s p.2)) = true := by decide +kernel

theorem test_witness_FaultedContextsStopAndAreRecorded :
    mfind (twoSt .running .empty blank blank).sched.ctxs 7 = none
    ∧ (mfind (twoSt .running .empty blank blank).sched.ctxs 1).any (fun c => !c.killed && c.place = .leaf 0 0 && c.part < 32) = true := by
  decide +kernel

theorem test_witness_EndedContextsReleaseWhatTheyHold :
    (let s := twoSt .running .empty { blank with miller := { Miller.zero with ended := true } } blank
     (runningAt s 0 0).any (fun p => p.2.ended)) = true
    ∧ (let s := twoSt .faulted .empty { blank with killed := true } blank
       let s := { s with sched := { s.sched with drains := [(1, ⟨1, 0, 1, 5, 3, 1, 0, 0⟩)] } }
       mfind s.sched.drains 1 = some ⟨1, 0, 1, 5, 3, 1, 0, 0⟩ ∧ (getCtx s 1).place = .leaf 0 0 ∧ (getLeaf s 0 0).ctx = some 1)
    ∧ (rowRuns (twoSt .loading .empty blank blank) 0 && (getLeaf (twoSt .loading .empty blank blank) 0 0).st = .loading) = true
    ∧ (rowRuns (twoSt .running .empty blank blank) 0 && (getLeaf (twoSt .running .empty blank blank) 0 0).st ≠ .loading) = true := by
  decide +kernel

/-- A device that is up with partition 1, its slices 5 (in state `st`) and 6 (not created), and context 1. -/
def slSt (st : SliceSt) : State :=
  let s := setF (setF (upCtx (modOf 1 []) blank) (reg .sch 2 0x184) 0 20 9) (reg .sch 2 0x188) 0 16 1
  setSlice s 5 { getSlice s 5 with st := st }

theorem test_witness_SliceCommandsActAndReport :
    (pageReady (slSt .active) .sch 2 && (getPart (slSt .active) 1).st = .active && (getPart (slSt .active) 1).sliceCmd.isNone
      && !sliceInRange (getPart (slSt .active) 1).desc 16 && sliceInRange (getPart (slSt .active) 1).desc 15) = true
    ∧ ((getSlice (slSt .active) 6).st = .none && !pasidBound (slSt .active) (getF (slSt .active) (reg .sch 2 0x184) 0 20)
      && getF (slSt .active) (reg .sch 2 0x188) 0 16 ≠ 0) = true
    ∧ ((getSlice (slSt .active) 5).st = .active && (getSlice (slSt .paused) 5).st = .paused
      && (mfind (slSt .active).sched.ctxs 1).any (fun c => c.slice = 5 && !c.killed && c.place = .leaf 0 0)) = true
    ∧ (let s := { slSt .teardown with sched := { (slSt .teardown).sched with ctxs := [] } }
       let s := setPart s 1 { getPart s 1 with sliceCmd := some (2, 5) }
       (getSlice s 5).st = .teardown && !sliceBusy s 5 && (getPart s (getSlice s 5).part).sliceCmd = some (2, 5)) = true := by decide +kernel

/-- Partition 2 is of the radio class and holds mill 1, which it offers; partition 1 takes loans. -/
def loanSt : State :=
  let s := upCtx { modOf 1 [] with flags := 2 } blank
  let s := setPart s 2 { Part.free with st := .active, mills := 2, desc := { PartDesc.blank with radio := true, mills := 2 } }
  let s := setF s (reg .sch 2 0x10) 1 1 1
  { s with sched := { s.sched with
      ctxs := mput s.sched.ctxs 3 { blank with launch := 1, part := 1, slice := 5, place := .saved } } }

/-- Mill 1 is lent to partition 1 and asked back. -/
def lentSt : State := { loanSt with sched := { loanSt.sched with lent := [(1, 1)] } }

theorem test_witness_LoansMoveMillsAndReclaimsBringThemBack :
    (pageReady loanSt .sch 3 && (getPart loanSt 2).st ≠ .free && (getPart loanSt 2).desc.radio && bitAt (getPart loanSt 2).mills 1
      && !bitAt (getPart loanSt 2).mills 2 && lendable (putLend loanSt 2 1 true) 2 1 && millSite loanSt 1 = some 1
      && (((List.range 32).map (fun i => (loanSt.sched.lastLoan + 1 + i) % 32)).find? (loanTaker (putLend loanSt 2 1 true))) = some 1) = true
    ∧ (mfind lentSt.sched.lent 1 = some 1 && (mfind lentSt.sched.reclaims 1).isNone && millSite lentSt 1 = some 1) = true
    ∧ (let s := { lentSt with sched := { lentSt.sched with reclaims := [(1, 0)] } }
       mfind s.sched.reclaims 1 = some 0 && mfind s.sched.lent 1 = some 1
        && (saveLeaves 1 [0, 1] s).any (fun u => (mkeys (fun _ p => bitAt p.mills 1) u.sched.parts).head? = some 2)) = true := by decide +kernel

def noEnv0 : XferEnv := ⟨[], [], [], none⟩

/-- A load asked for through the mailbox, of an empty module. -/
def mbxLoad (p : Option LoadPlan) : Load := { Load.blank with part := 1, slice := 5, mailbox := true, instances := 1, plan := p }

def planOf : LoadPlan := ⟨modOf 1 [], [], [], LoadSizes.zero, false, [(0, 1)], [], []⟩

def loadSt (p : Option LoadPlan) : State :=
  let s := twoSt .running .loading blank blank
  { s with sched := { s.sched with loads := [(0, mbxLoad p)], ctxs := mdel s.sched.ctxs 2 } }

/-- Of the verdict, only the refusal can be shown: acceptance also rests on the free analyses (log 12). -/
theorem test_witness_LoadsPlaceTheirContextsTogether :
    (let s := loadSt none
     mfind s.sched.loads 0 = some (mbxLoad none) && s.sched.workshop && loadFirst s 0 (mbxLoad none)
      && (loadInputs s (mbxLoad none) noEnv0 noEnv0).1 = some (some ([], []))
      && (loadVerdict (loadInputs s (mbxLoad none) noEnv0 noEnv0).2 (mbxLoad none) [] []).any (fun f => f.code ≠ 0x70)) = true
    ∧ (let s := loadSt (some planOf)
       mfind s.sched.loads 0 = some (mbxLoad (some planOf)) && s.sched.workshop && loadFirst s 0 (mbxLoad (some planOf))
        && (getLeaf s 0 1).st = .loading && rowRuns s 0) = true ∧ planOf.places.Nodup := by decide +kernel

/-- `n` bytes, 0 but for the listed ones. -/
def bytesAt (n : Nat) (l : List (Nat × Nat)) : List Byte := (List.range n).map (fun i => BitVec.ofNat 8 (((l.find? (fun e => e.1 = i)).map (·.2)).getD 0))

/-- A descriptor of compute partition 3. -/
def descReq : List Byte :=
  bytesAt 256 [(1, 3), (4, 50), (16, 100), (18, 1), (24, 1), (32, 4), (64, 1), (72, 1), (113, 0x80), (120, 1)]

/-- A device that is up, in which granule 2 is partition 3's under slot 0, and partition 1 runs context 1. -/
def mbxSt : State :=
  let s := upCtx (modOf 1 []) blank
  { s with mem := { s.mem with ownA := s.mem.ownA ++ [(2, 0x43)], ownB := s.mem.ownB ++ [(2, 0x43)] }, sec := { s.sec with km := some [1] } }

/-- The same with partition 1 in state `st`, of the radio class or not. -/
def mbxPart (st : PartSt) (radio : Bool) : State :=
  setPart mbxSt 1 { getPart mbxSt 1 with st := st, desc := { (getPart mbxSt 1).desc with radio := radio } }

def req1 : List Byte := bytesAt 256 [(0, 1), (16, 255), (17, 255), (18, 255), (19, 255), (20, 255), (21, 255), (22, 255), (23, 255)]

theorem test_witness_PartitionRequestsChangeTheirPartition :
    (pageReady mbxSt .mgt 0 && mbxSt.sched.mbx.isNone && mbxSt.sched.workshop && leAt descReq 1 1 = 3 && createCode mbxSt descReq = 0
      && createCode mbxSt req1 ≠ 0 && leAt req1 0 1 = 1 && devState mbxSt = 2 && (mfind mbxSt.rep.partConf 1).isNone) = true
    ∧ (resizeCode (mbxPart .active true) (bytesAt 256 [(0, 1)]) 1 = 0 && teardownCode mbxSt 1 = 0 && (getPart mbxSt 1).st = .active
      && (getPart mbxSt 1).resize.isNone && !partHasCells mbxSt 1 && (getPart (mbxPart .frozen false) 1).st = .frozen) = true
    ∧ (let s := { mbxSt with sched := { mbxSt.sched with workshop := false } }
       pageReady s .mgt 0 && s.sched.mbx.isNone && !s.sched.workshop) = true := by decide +kernel

/-- An image of partition 1 with one slice. -/
def img1 : Image := ⟨0, false, (getPart mbxSt 1).desc, [(7, { Slice.blank with st := .active })], [], [], [], [1]⟩

/-- Partition 1 without slices and contexts. -/
def emptySt : State := { mbxSt with sched := { mbxSt.sched with slices := [], ctxs := [] } }

theorem test_witness_ImagesAndLaunchesGoThroughTheMailbox :
    ((getPart (mbxPart .frozen false) 1).st = .frozen && leAt req1 1 1 ≤ 1 && (mbxPart .frozen false).sec.km.isSome) = true
    ∧ (∀ v : BitVec 64, v.toNat ≤ leAt req1 16 8)
    ∧ (importCode emptySt req1 (some img1) 1 = 0 && (importAll emptySt 1 (importPasids req1 img1.slices.length) img1).isSome
      && (img1.slices.map (fun x => x.1)).Nodup) = true
    ∧ ((7 : Nat) ≤ 7) := by
  refine ⟨by decide +kernel, fun v => ?_, by decide +kernel, by decide⟩
  have h : leAt req1 16 8 = 2 ^ 64 - 1 := by decide +kernel
  have := v.isLt
  omega

theorem test_witness_ResizesAndTeardownsFinish :
    (let s := setPart (mbxPart .active true) 1 { getPart (mbxPart .active true) 1 with resize := some ⟨2, 1, 0⟩ }
     (getPart s 1).resize = some ⟨2, 1, 0⟩ && reached (nowNs s) 0 && (setBitsOf 240 1).all (fun n => !isLent s n)) = true
    ∧ (let s := { mbxPart .teardown false with sched := { (mbxPart .teardown false).sched with slices := [], ctxs := [] } }
       (getPart s 1).st = .teardown && s.sched.workshop && teardownOver s 1) = true := by decide +kernel

end Sys2Proof.Tests
end

