-- ==== Sys2Proof/Tests/W4.lean ====
section
/-! SUPPORT. States and operands that meet the hypotheses of the statements about objects, memory and the host interface. -/
set_option Elab.async false

namespace Sys2Proof.Tests
open Sys2Proof Sys2Proof.Machine

/-- A device that is up with partition 1: granules 0 and 1 are exported and biased to the host, inbound window 0 opens memory and
window 1 the objects, and outbound window 0 of partition 1 covers one granule of the aperture. -/
def fabSt : State :=
  let s := upCtx (modOf 1 []) Ctx.blank
  let s := { s with mem := { s.mem with
    ownA := [(0, 0xC241), (1, 0xC241), (12582912, 0x8241)], ownB := [(0, 0xC241), (1, 0xC241), (12582912, 0x8241)] } }
  let s := setW (setW s (inReg 0 + 8) 0x80000002) (inReg 1 + 8) 0x81000020
  let s := setF s (reg .syn 3 0x100) 0 1 1
  let s := setW (setW s (winReg 1 0) 0x80000000) (winReg 1 0 + 4) 1
  { s with hif := { s.hif with linkUp := true } }

/-- Context 1 waits on object 4 behind window 0. -/
def pollSt : State :=
  { ctxSt { modOf 1 [] with syncs := [⟨0, 0, 2, 0, 0, 0⟩] }
      { Ctx.blank with miller := { Miller.zero with wait := some (.sync 0 0 6 false) }, syncs := [(0, .remote 0 4)] } with
    mem := fabSt.mem, bus := fabSt.bus }

theorem test_witness_ObjectsAreReachedFromOutside :
    (pageReady fabSt .syn 0 && getF fabSt (reg .syn 0 0x100) 0 16 = 0 && (getObj fabSt 0).typ = .counter) = true
    ∧ (let s := setF fabSt (reg .syn 0 0x100) 0 16 9
       pageReady s .syn 0 && getF s (reg .syn 0 0x100) 0 16 = 9 && (getObj s 9).typ = .none) = true
    ∧ (syncOpen fabSt 1 && !syncOpen fabSt 0 && remoteOk fabSt 255 && !remoteOk fabSt 256) = true
    ∧ (match sigObj (getObj fabSt 0) true 7 with | .done o => o.value = 7 | _ => false) = true
    ∧ (match takeObj (getObj fabSt 1) 15 with | .got old _ => old = 0xFFFFFFF0 | _ => false) = true
    ∧ ((getLeaf pollSt 0 0).ctx = some 1 && (getLeaf pollSt 0 0).st = .running && !(getCtx pollSt 1).killed
      && heldWait (getCtx pollSt 1) 0 = some (.sync 0 0 6 false) && mfind (getCtx pollSt 1).syncs 0 = some (.remote 0 4)
      && (match (fabCheck pollSt 1 (remoteAddr pollSt 1 0 4 0) 4 false).1 with | .pass _ _ => true | _ => false)
      && ((ctxModule pollSt (getCtx pollSt 1)).syncs.find? (fun y => y.loc = 0)).isSome) = true := by decide +kernel

theorem test_witness_InboundAccessesReachExportedMemory :
    -- the last 64 bytes of the window, and beyond it
    (inAddr fabSt 0 (32768 - 64) 64 = some (32768 - 64) && (inCheck false (piecesOf 16384 (32768 - 64) 64) fabSt).1 = some 1
      && (readPassed (inCheck false (piecesOf 16384 (32768 - 64) 64) fabSt).2 1 (32768 - 64) 64 true none).1.isSome) = true
    ∧ ((inCheck true (piecesOf 16384 0 64) fabSt).1 = some 1
      && (writePassed (inCheck true (piecesOf 16384 0 64) fabSt).2 1 0 (List.replicate 64 5) true none).1 = .ok) = true
    ∧ (inAddr fabSt 0 8 8 = some 8 && (inCheck true (piecesOf 16384 8 8) fabSt).1 = some 1
      && (readPassed (inCheck true (piecesOf 16384 8 8) fabSt).2 1 8 8 true none).1.isSome
      && (writePassed (readPassed (inCheck true (piecesOf 16384 8 8) fabSt).2 1 8 8 true none).2 1 8 (toLE 8 7) true none).1 = .ok) = true
    ∧ (inAddr fabSt 0 (32768 - 63) 64).isNone = true
    ∧ (let s := { fabSt with mem := { fabSt.mem with ownA := [(0, 0x241)], ownB := [(0, 0x241)] } }
       inAddr s 0 0 64 = some 0 && (inCheck false (piecesOf 16384 0 64) s).1.isNone && (inCheck true (piecesOf 16384 0 64) s).1.isNone) = true := by
  decide +kernel

/-- `fabSt` with an OWN command's operands: first granule, count, entry. -/
def ownSt (first count : Nat) (w : Word) : State :=
  setW (setW (setW fabSt (reg .own 0 0x104) (BitVec.ofNat 32 first)) (reg .own 0 0x108) (BitVec.ofNat 32 count)) (reg .own 0 0x10C) w

theorem test_witness_OwnershipCommandsCheckThenRewriteEntries :
    (let s := ownSt 0 2 0x241
     pageReady s .own 0 && s.mem.cmd.isNone && getF s (reg .own 0 0x104) 0 24 = 0 && getF s (reg .own 0 0x108) 0 17 = 2 && getW s (reg .own 0 0x10C) = 0x241
      && !badEntry 0x241 && (granules 0 2).all (fun g => !keyRefused s 1 0x241 g && !keyRefused s 2 0x241 g && !ownFixed g)
      && (readEntries (granules 0 2) s).1 = some [0xC241, 0xC241]) = true
    -- ranges that are empty or end beyond the table, a bad entry, a slot that the owner does not hold, fixed granules
    ∧ (getF (ownSt 0 0 0) (reg .own 0 0x108) 0 17 = 0 ∧ 16777216 < 16777215 + 2)
    ∧ (badEntry 0x1C1 = true ∧ badEntry 0x341 = false ∧ keyRefused fabSt 1 0x341 0 = true ∧ ownFixed 8781824 = true
      ∧ ownFixed 8781823 = false) := by decide +kernel

theorem test_witness_OwnershipCommandsEnd :
    (let c : OwnCmd := ⟨2, 0, 2, 0x241, some 0, [0x241, 0x241]⟩
     let s := { fabSt with mem := { fabSt.mem with cmd := some c } }
     s.mem.cmd = some c && c.old.length = c.count && c.count < 2 ^ 32 && s.grn.lines.all (fun e => !e.2.lost)
      && (match sigObj (getObj s 0) false 1 with | .done _ => true | _ => false)) = true := by decide +kernel

theorem test_witness_HostAccessesAndMemoryEventsKeepToTheirLines :
    ((hostReaches fabSt 0).1 && (dramLine (hostReaches fabSt 0).2 0 63).1 = .ok && !(hostReaches fabSt 512).1) = true
    ∧ (let s := errsAdd (setF fabSt (reg .mem 0 0x104) 0 2 2) 0 1
       (hostReaches s 0).1 && (dramLine (hostReaches s 0).2 0 63).1 = .bad) = true
    ∧ (let s := setPart fabSt 1 { getPart fabSt 1 with desc := { (getPart fabSt 1).desc with radio := true } }
       isRadio s 1) = true
    ∧ (pageReady up .mem 0 && up.sched.parts.all (fun e => e.2.st = .free) && pageReady fabSt .mem 0
      && fabSt.sched.parts.any (fun e => e.2.st ≠ .free)) = true
    ∧ (let s := setF fabSt (reg .mem 0 0x108) 0 8 24
       getF s (reg .mem 0 0x108) 0 8 ≠ 0 && deviceUp s && mget 0 s.mem.errs lastLine = 0 && lastLine < 2 ^ 33
        && !ownFixed 0 && !mget false s.mem.fenced 0 && ownA s 0 ≠ ownB s 0 ^^^ 1 && (getPart s 1).st ≠ .free) = true
    ∧ (let s := { fabSt with rep := { fabSt.rep with dtA := [⟨5, 2, 0, 16, 1⟩], dtB := [⟨5, 2, 0, 16, 1⟩], dt := [⟨5, 2, 0, 16, 1⟩] } }
       0 < s.rep.dtB.length && s.rep.dtB[0]? ≠ some ⟨5, 2, 0, 17, 1⟩ && !dtConflict s 0) = true := by decide +kernel

/-- `fabSt` with the ring of slice 5 as `r`. -/
def ringSt (r : Ring) : State := setRing (setF (setF fabSt (reg .hif 1 0x100) 0 13 5) (ringReg 5 0x118) 0 5 4) 5 r

def onRing : Ring := { Ring.off with enabled := true, sqTail := 1 }

/-- What the world answers a read of one host page. -/
def hostEnv (l : List Byte) : XferEnv := ⟨[some ⟨12, 0, true, true⟩], l, [], none⟩

/-- A submission entry of listed bytes. -/
def entOf (l : List (Nat × Nat)) : Line := BitVec.ofNat 512 (l.foldl (fun a p => a + p.2 * 2 ^ (8 * p.1)) 0)

theorem test_witness_RingsFetchEntriesAndPostCompletions :
    (pageReady (ringSt Ring.off) .hif 1 && ringSel (ringSt Ring.off) = 5 && (getSlice (ringSt Ring.off) 5).st = .active
      && !(getRing (ringSt Ring.off) 5).enabled && (getRing (ringSt onRing) 5).enabled) = true
    ∧ (let s := setSlice (ringSt Ring.off) 5 Slice.blank
       pageReady s .hif 1 && ringSel s = 5 && (getSlice s 5).st ≠ .active) = true
    -- the last index of the ring, one beyond it
    ∧ ((15 : Nat) % 2 ^ 16 < sqSize (ringSt onRing) 5 ∧ sqSize (ringSt onRing) 5 ≤ 16 % 2 ^ 16)
    ∧ (let s := ringSt { onRing with cqWrite := 1 }
       (getRing s 5).held = [] && (1 % 2 ^ 16 % cqSize s 5 + cqSize s 5 - (getRing s 5).cqHead) % cqSize s 5
        ≤ ((getRing s 5).cqWrite + cqSize s 5 - (getRing s 5).cqHead) % cqSize s 5) = true
    ∧ mayFetch (ringSt onRing) 5 = true
    ∧ ((hostRead (ringSt onRing) 3 0 64 (hostEnv (2 :: List.replicate 63 0)).ats (hostEnv (2 :: List.replicate 63 0)).data).1
          = .ok (2 :: List.replicate 63 0)
      ∧ entBad (bytesLine (2 :: List.replicate 63 0)) = false ∧ entBad (bytesLine (9 :: List.replicate 63 0)) = true
      ∧ (hostRead (ringSt onRing) 3 0 64 [none] []).1 = .refused)
    ∧ (let s := { ringSt onRing with hif := { (ringSt onRing).hif with watches := [⟨5, 0, 5, 9, true⟩] } }
       (s.hif.watches.find? (fun w => w.slice = 5 && w.sat)).isSome) = true
    ∧ (let s := atNs 1000002 (ringSt { onRing with held := [⟨1, 2, 0, 0, 0, 0, 0, 0⟩] })
       ((getRing s 5).held.find? (fun e => e.kind = 2 && e.since + 1000000 ≤ nowNs s)).isSome) = true
    ∧ (let s := ringSt { onRing with awaiting := [⟨some 3, 0, List.replicate 32 0⟩] }
       (getRing s 5).awaiting = [⟨some 3, 0, List.replicate 32 0⟩] && s.hif.linkUp && (hostWriteLines 3 (piecesOf 64 0 32) (hostEnv []).ats s).1) = true
    -- a completion ring with room, and a full one
    ∧ (let s := setF (ringSt onRing) (ringReg 5 0x118) 8 5 4
       (getRing s 5).enabled && !cqFull s 5 && (getRing s 5).held = []) = true
    ∧ (let s := setF (ringSt { onRing with cqWrite := 15 }) (ringReg 5 0x118) 8 5 4
       (getRing s 5).enabled && cqFull s 5 && (getRing s 5).held.length < 256) = true := by decide +kernel

/-- A KICK entry for object 0, with a watch when `w` is 1. -/
def kickEnt (w obj : Nat) : Line := entOf [(0, 2), (1, w), (16, obj), (20, 1)]

def entSt (e : Line) : State := ringSt { onRing with entry := some e }

theorem test_witness_SubmissionEntriesActForTheirSlice :
    ((getRing (entSt (kickEnt 0 0)) 5).entry = some (kickEnt 0 0) && (getSlice fabSt 5).part = 1 && entB (kickEnt 0 0) 0 = 2
      && objOwner fabSt (entF (kickEnt 0 0) 16 2) = 1 && entB (kickEnt 0 0) 1 ≠ 1
      && (match sigObj (getObj fabSt 0) false 1 with | .done _ => true | _ => false)) = true
    ∧ (entB (kickEnt 1 0) 1 = 1 ∧ objOwner fabSt (entF (kickEnt 1 0) 24 2) = 1)
    ∧ (entB (entOf [(0, 2), (17, 1)]) 0 = 2 ∧ objOwner fabSt (entF (entOf [(0, 2), (17, 1)]) 16 2) ≠ 1)
    ∧ entB (entOf [(0, 1)]) 0 = 1
    ∧ (let s := setF (entSt (entOf [(0, 3)])) (ringReg 5 0x11C) 17 1 1
       entB (entOf [(0, 3)]) 0 = 3 && getF s (ringReg 5 0x11C) 17 1 = 1 && entF (entOf [(0, 3)]) 16 8 ≤ 10000000000) = true
    ∧ getF (entSt (entOf [(0, 3)])) (ringReg 5 0x11C) 17 1 = 0
    ∧ pageReady fabSt .hif 6 = true
    ∧ (!leaseValid fabSt 1 && !mget false fabSt.hif.lapsed 1 && (mfind fabSt.sched.ctxs 1).any (fun c => c.part = 1)) = true := by decide +kernel

theorem test_witness_LinkTranslationsAndSnoopsFollowTheHost :
    mayFetch { ringSt onRing with hif := { (ringSt onRing).hif with linkUp := true } } 5 = true
    ∧ (getRing (ringSt { onRing with awaiting := [⟨some 3, 0, []⟩] }) 5).awaiting ≠ []
    ∧ (hoistAt (engSt 1 { engOn with op := some (.hoist ⟨0, true, 5, 0, 0, 0, 64, [1, 1, 1], [0, 0, 0], none, 1, 0, 0, 0, 0, 0, none, 0, 0, false, [], 0⟩) } [])
        0 0 1).any (fun p => p.2.2.2.offSp = 5 && p.2.2.2.done < p.2.2.2.total) = true
    ∧ ({ fabSt.hif with timedOut := 1 }.timedOut ≠ 0 ∧ { fabSt.hif with inval := [(3, 0, 12)] }.inval = [(3, 0, 12)]) := by decide +kernel

end Sys2Proof.Tests
end

