-- ==== Sys2Proof/Tests/W5.lean ====
section
/-! SUPPORT. States and operands that meet the hypotheses of the statements about cells, ports, the weir and the bolters. -/
set_option Elab.async false

namespace Sys2Proof.Tests
open Sys2Proof Sys2Proof.Machine

/-- What the world answers a read of one host page. -/
def pageEnv (l : List (BitVec 8)) : XferEnv := ⟨[some ⟨12, 0, true, true⟩], l, [], none⟩

/-- A configuration record: numerology 1, 20 PRB, one stream each way, tag 7, instance 0, start at 10 ms, staging area at 2 MiB, flow 3. -/
def cfgRec : List (BitVec 8) :=
  toLE 1 1 ++ toLE 1 1 ++ toLE 2 20 ++ toLE 1 1 ++ toLE 1 1 ++ toLE 1 1 ++ toLE 1 2 ++ toLE 8 7 ++ toLE 4 0 ++ toLE 4 0 ++ toLE 8 10000000
    ++ toLE 8 2097152 ++ toLE 2 40 ++ toLE 2 41 ++ toLE 2 42 ++ toLE 2 50 ++ toLE 2 3 ++ toLE 78 0

/-- A submission entry of TYPE SLOT_LIST: kind, cell, bytes, time. -/
def slotEnt (kind n bytes t : Nat) : Line :=
  BitVec.ofNat 512 (4 + 77 * 2 ^ 64 + kind * 2 ^ 128 + n * 2 ^ 144 + bytes * 2 ^ 160 + t * 2 ^ 256)

/-- A flow descriptor as words of SLU page 1: partition 1, port 0, widths 9, its times, a ring at 6 MiB. -/
def flowRegs (f : Nat) (s : State) : State :=
  ([(0, 0x00000001), (1, 0x09090000), (4, 60000), (5, 20000), (6, 100000), (7, 80000), (8, 100000), (9, 80000), (10, 10000), (11, 300000),
    (12, 6291456), (14, 28)] : List (Nat × Nat)).foldl
    (fun s p => setW s (winKey f (reg .slu 1 (0x180 + 4 * p.1))) (BitVec.ofNat 32 p.2)) s

/-- A radio partition 1 whose context 1 serves instance 0 of launch 1, with port 0 running. -/
def radSt : State :=
  let m : Module := { Module.blank with
    flags := 1
    timing := some ⟨1, 2, [⟨0, 0, 400000, 0, 0, 9⟩]⟩
    bufs := [⟨1, 1, 5, 0, 0xFFFF, 0xFFFF, 0xFFFF, 6, 0xFF, 0, 8192, 0⟩] }
  let s := upCtx m Ctx.blank
  let s := setLaunch s 1 { getLaunch s 1 with tag := 7, instances := 1 }
  let s := setPart s 1 { getPart s 1 with desc := { (getPart s 1).desc with radio := true, mu := 1, grn := 1, memFloor := 4 } }
  let s := { s with
    grn := { s.grn with dedic := [(0, 1)] }
    mem := { s.mem with ownA := (List.range 640).map (fun g => (g, 0x241)), ownB := (List.range 640).map (fun g => (g, 0x241)) } }
  let s := { s with hif := { s.hif with linkUp := true } }
  flowRegs 3 (setF s (reg .eth 0 0x10) 0 2 1)

def radRing (e : Line) (s : State) : State := setRing s 5 { Ring.off with enabled := true, entry := some e }

/-- `radSt` with cell 511 bound, as `f` of the cell that `cfgRec` configures. -/
def cellSt (f : Cell → Cell) : State :=
  let s := setCell radSt 511 (f { Cell.blank with part := 1, slice := 5, launch := 1, ctx := some 1, cfg := cfgOf cfgRec })
  let s := [40, 41, 42].foldl (fun s o => setObj s o ⟨.barrier, 0, 1, 0⟩) s
  let s := (List.range 14).foldl (fun s o => setObj s (50 + o) ⟨.flag, 0, 0, 0⟩) s
  { s with net := { s.net with flows := [(3, ⟨511, 0, none, [], [], 0, 0⟩)] } }

/-- A slot with everything done but its report. -/
def doneSlot : CellSlot :=
  { CellSlot.blank with staged := true, aux := some (77, 64), phases := 1, left := 2 ^ 14 - 1, flags := 2 ^ 14 - 1 }

theorem test_witness_CellsAreConfiguredReportedAndRemoved :
    (let s := radRing (slotEnt 1 511 128 0) radSt
     entB (slotEnt 1 511 128 0) 0 = 4 && entB (slotEnt 1 511 128 0) 16 = 1 && entF (slotEnt 1 511 128 0) 18 2 = 511
     && entF (slotEnt 1 511 128 0) 20 4 = 128 && entF (slotEnt 1 511 128 0) 32 8 = 0
     && (match hostRead s (slPasid s 5) (entF (slotEnt 1 511 128 0) 24 8) 128 (pageEnv cfgRec).ats (pageEnv cfgRec).data with
      | (.ok l, u) => l = cfgRec && cfgVerdict u 5 511 l = (0, 0) && servingCtx u 5 (cfgOf l) = some 1
      | _ => false)) = true
    -- the same record with START_NS closer than the lead
    ∧ (let s := radRing (slotEnt 1 511 128 0) (atNs 9000000 radSt)
       (match hostRead s (slPasid s 5) 0 128 (pageEnv cfgRec).ats (pageEnv cfgRec).data with
        | (.ok l, u) => (cfgVerdict u 5 511 l).1 ≠ 0 | _ => false)) = true
    ∧ (let e := slotEnt 2 511 0 20000000
       let s := radRing e (cellSt id)
       entB e 16 = 2 && entF e 18 2 = 511 && cellBound s 511 && (getCell s 511).slice = 5 && !reached (nowNs s) (entF e 32 8)
        && stopSlot (getCell s 511) (entF e 32 8) = some 20) = true
    ∧ (let s := radRing (slotEnt 2 511 0 0) (cellSt (fun c => { c with ctx := none }))
       reached (nowNs s) (entF (slotEnt 2 511 0 0) 32 8) && (getCell s 511).ctx = none && cellBound s 511) = true
    ∧ (let s := atNs 20000000 (cellSt (fun c => { c with stop := some 20, slots := [(19, { doneSlot with aux := none }), (20, CellSlot.blank)] }))
       (getCell s 511).stop = some 20 && reached (nowNs s) ((getCell s 511).slotAt 20)
        && (getCell s 511).slots.all (fun e => decide (20 ≤ e.1) || slotComplete (getCell s 511) e.2)) = true
    ∧ (let s := cellSt (fun c => { c with slots := [(4294967295, doneSlot)] })
       let x := (getCell s 511).slot 4294967295
       cellBound s 511 && (getCell s 511).ctx.isSome && x.staged && x.aux = some (77, 64) && x.phases = cellPhases s (getCell s 511)
        && x.left = 2 ^ 14 - 1 && x.flags = 2 ^ 14 - 1) = true := by decide +kernel

/-- A downlink record on the last symbol of all 20 PRB with a transport block of 64 bits, and the list that holds it for the slot at `t`. -/
def dlRec : List (BitVec 8) :=
  toLE 1 5 ++ toLE 1 0 ++ toLE 2 17 ++ toLE 2 0 ++ toLE 2 20 ++ toLE 1 13 ++ toLE 1 1 ++ toLE 1 1 ++ toLE 1 2 ++ toLE 4 64 ++ toLE 1 31 ++ toLE 1 3
    ++ toLE 1 2 ++ toLE 1 0 ++ toLE 2 0 ++ toLE 2 0 ++ toLE 4 0 ++ toLE 2 1023 ++ toLE 2 0

def slotLst (t : Nat) : List (BitVec 8) :=
  toLE 4 0x314C5753 ++ toLE 2 511 ++ toLE 1 1 ++ toLE 1 0 ++ toLE 2 1023 ++ toLE 1 19 ++ toLE 1 0 ++ toLE 2 1 ++ toLE 2 0 ++ toLE 8 t
    ++ toLE 4 8 ++ toLE 4 0 ++ toLE 8 256 ++ toLE 8 512 ++ toLE 16 0 ++ dlRec

/-- `cellSt` at 9 ms with the KIND 0 entry of 96 bytes; cell 511 has raised slot 0. -/
def listSt : State := radRing (slotEnt 0 511 96 0) (atNs 9000000 (cellSt (fun c => { c with raised := 1 })))

def listEnv : XferEnv := pageEnv (slotLst 10500000 ++ List.replicate 32 0)
def tbEnv : XferEnv := pageEnv (List.replicate 64 0xA5)

theorem test_witness_SlotListsAreStagedForTheirSlot :
    (let e := slotEnt 0 511 96 0
     entB e 0 = 4 && entB e 16 = 0 && entF e 20 4 = 96 && entF e 20 4 % 32 = 0 && cellBound listSt 511 && (getCell listSt 511).slice = 5
     && (getCell listSt 511).ctx ≠ none) = true
    ∧ (match hostRead listSt (slPasid listSt 5) 0 96 listEnv.ats listEnv.data with
       | (.ok l, u) =>
         let c := getCell listSt 511
         l = slotLst 10500000 && headOk 511 c.cfg l.length (l.take 64) && (chunksOf 32 1024 (l.drop 64)).all (recOk c.cfg (leAt l 24 4))
          && c.slotOf (leAt l 16 8) = some 1 && c.stop = none && decide (1 ≤ slotsSince listSt c + 4) && !(c.slot 1).staged
          && reached (listDeadline listSt c 1) (nowNs listSt)
          && (match readTbs (slPasid u 5) (leAt l 32 8) ((chunksOf 32 1024 (l.drop 64)).map recOf) [tbEnv] u with
              | (some (some b), _) => b.length = 1 | _ => false)
          && c.raised = 1 && !(c.slot 2).staged && (match sigObj (getObj listSt c.cfg.listObj) false 1 with | .done _ => true | _ => false)
       | _ => false) = true
    -- a list of other length than its header says
    ∧ headOk 511 (cfgOf cfgRec) 64 ((slotLst 10500000).take 64) = false
    -- the deadline of slot 1 is 10 ms
    ∧ (let s := atNs 10000000 (cellSt id)
       cellBound s 511 && (getCell s 511).stop = none && !((getCell s 511).slot 1).staged
        && reached (nowNs s) (listDeadline s (getCell s 511) 1)) = true := by decide +kernel

/-- Cell 511 with slot 1 staged at 11 ms: one uplink record, one downlink record. -/
def slotSt : State :=
  atNs 11000000 (cellSt (fun c => { c with slots := [(1, { CellSlot.blank with staged := true, recs := [recOf dlRec, { recOf dlRec with kind := 1 }] })] }))

theorem test_witness_SluiceMovesSymbolsInTheirWindows :
    (let x := (getCell slotSt 511).slot 1
     cellBound slotSt 511 && x.staged && !bitAt x.latched 13 && !bitAt x.latched 0 && reached (nowNs slotSt) (latchTime slotSt (getCell slotSt 511) 1 13)
      && dlSections x 13 ≠ [] && dlSections x 12 = []) = true
    ∧ (let x := (getCell slotSt 511).slot 1
       x.recs[1]?.isSome && !bitAt x.cplane 1
        && (recDirs { recOf dlRec with kind := 1 }).any (fun dl =>
            reached (nowNs slotSt) (cWindow slotSt (getCell slotSt 511) (flowDesc slotSt 3) 1 13 dl).1)) = true
    ∧ (let s := atNs 12000000 slotSt
       let x := (getCell s 511).slot 1
       !bitAt x.flags 13 && reached (nowNs s) (symTime s (getCell s 511) 1 13 + (flowDesc s 3).ta4Max)
        && (getObj s ((getCell s 511).cfg.flagObj + 13)).typ = .flag) = true
    ∧ (let s := cellSt (fun c => { c with ctx := none })
       (getCell s 511).ctx = none) = true
    ∧ ((mfind slotSt.net.flows 3).isSome && (flowDesc slotSt 3).ports = [0] && !(flowDesc slotSt 3).frer) = true := by decide +kernel

/-- Port 15 runs at 200 Gb/s and its link is up. -/
def portSt : State :=
  let s := setF radSt (reg .eth 15 0x10) 0 2 1
  let s := setF s (reg .eth 0 0x10) 0 2 0
  { s with net := { s.net with ports := [(15, { Port.off with up := true })] } }

theorem test_witness_PortsTakeTheirModeLanesAndLinks :
    (!modeConflict portSt 12 0 && modeConflict portSt 12 3 && modeConflict portSt 14 2 && modeConflict portSt 15 2 && !modeConflict portSt 0 3) = true
    ∧ (pageReady portSt .eth 15 && (lanesOf 0x1F1F1F11).all (fun l => l < 18) && (lanesOf 0x1F1F1F11).eraseDups = lanesOf 0x1F1F1F11
      && (List.range 16).all (fun q => q = 15 || (lanesOf 0x1F1F1F11).all (fun l => !(lanesOf (getW portSt (reg .eth q 0x100)).toNat).contains l))
      && portMode portSt 15 ≠ 0 && (lanesOf 0x1F1F1F12).any (fun l => decide (18 ≤ l))) = true
    ∧ (portMode portSt 15 ≠ 0 && !portConsumed portSt 15 && (getPort portSt 15).up
      && !(getPort radSt 0).up && portMode radSt 0 ≠ 0 && !portConsumed radSt 0) = true
    ∧ (pageReady up .eth 0 && (List.range 16).all (fun q => portMode up q = 0)
      && pageReady portSt .eth 0 && (List.range 16).any (fun q => portMode portSt q ≠ 0)) = true := by decide +kernel

/-- A frame of 60 bytes in a queue. -/
def fr (b : BitVec 8) : Frame := ⟨List.replicate 60 b, none, 0, none, none⟩

/-- `portSt` with frames in queue `q`. -/
def qSt (q : Nat) (l : List Frame) : State := setQueue portSt q { TxQueue.empty with frames := l }

/-- Tenant queue 1536 belongs to partition 1; its objects are counters 4 and 5. -/
def tqSt : State :=
  let s := setPart portSt 1 { getPart portSt 1 with desc := { (getPart portSt 1).desc with weirBase := 1536, weirCount := 1 } }
  let s := setObj (setObj s 4 ⟨.counter, 0, 0, 0⟩) 5 ⟨.counter, 0, 0, 0⟩
  let s := setF s (reg .weir 1 0x100) 0 12 1536
  setW s (qReg 1536 0x11C) 0x00050004

theorem test_witness_PortsSendInTheEgressOrder :
    -- a timing frame with credit
    (let s := atNs 1000 (qSt (96 * 15 + 65) [fr 1])
     let u := ((tenantQueues 15).filter (queueOn s)).foldl (fun s q => refill (fetchQueue 4096 q s) q) s
     portMode s 15 ≠ 0 && (getPort s 15).up && (getPort s 15).sending = none && (getQueue u (96 * 15 + 65)).frames = [fr 1]
      && pickPtp u 15 = some (96 * 15 + 65)) = true
    -- a fronthaul frame at its release time
    ∧ (let s := atNs 1000 (qSt (96 * 15) [{ fr 2 with window := some (1000, 2000) }])
       pickPtp s 15 = none && pickFront s 15 = some (96 * 15)) = true
    -- neither: the frame is not released yet
    ∧ (let s := atNs 999 (qSt (96 * 15) [{ fr 2 with window := some (1000, 2000) }])
       pickPtp s 15 = none && pickFront s 15 = none) = true
    ∧ (let s := setPort portSt 15 { getPort portSt 15 with sending := some (96 * 15, fr 3) }
       (getPort s 15).sending = some (96 * 15, fr 3)) = true
    -- past the close time, with the link up and down
    ∧ (let s := atNs 2002 (qSt (96 * 15) [{ fr 2 with window := some (1000, 2000) }])
       !reached 2000 (nowNs s) && (getPort s (queuePort (96 * 15))).up && (getPort (setPort s 15 Port.off) (queuePort (96 * 15))).up = false) = true
    ∧ (pageReady tqSt .weir 1 && getF tqSt (reg .weir 1 0x100) 0 12 = 1536 && !queueOn tqSt 1536 && queuePart tqSt 1536 = some 1
      && counterOf tqSt 1 4 && counterOf tqSt 1 5 && granulesAdmit tqSt 1 (getD64 tqSt (qReg 1536 0x110)).toNat 16 false
      && !counterOf tqSt 1 6) = true := by decide +kernel

/-- An Ethernet frame: destination 1, source 2, an EtherType, a body. -/
def ethF (typ : Nat) (body : List (BitVec 8)) : List (BitVec 8) := toBE 6 1 ++ toBE 6 2 ++ toBE 2 typ ++ body

/-- Flow 3 on port 15, with its radio unit at address 2; steering entry 255 of partition 1 takes address 1. -/
def rxSt : State :=
  let s := setW (setW (cellSt id) (winKey 3 (reg .slu 1 0x180)) 0x000F0001) (winKey 3 (reg .slu 1 0x188)) 0
  let s := setW s (winKey 3 (reg .slu 1 0x18C)) 0x00000200
  let s := { s with net := { s.net with ports := portSt.net.ports } }
  let s := setF s (reg .weir 2 0x100) 0 8 255
  let s := setD64 s (stReg 255 0x108) 1
  let s := setObj (setObj s 4 ⟨.counter, 0, 0, 0⟩) 5 ⟨.counter, 0, 0, 0⟩
  let s := setW s (stReg 255 0x120) 0x00050004
  setD64 s (stReg 255 0x118) 6291456

/-- An eCPRI message of the flow's first eAxC. -/
def iqMsg : List (BitVec 8) := [0x10, 0, 0, 20, 0, 0, 9, 0x80] ++ List.replicate 38 0

theorem test_witness_ReceivedFramesReachTheirDestination :
    ((getPort rxSt 15).up && (parseEth (ethF 0x88F7 (List.replicate 46 0))).etype = 0x88F7) = true
    ∧ ((parseEth (ethF 0x8809 (0x0A :: List.replicate 113 0))).etype = 0x8809 ∧ leAt (parseEth (ethF 0x8809 (0x0A :: List.replicate 113 0))).body 0 1 = 0x0A
      ∧ (ethF 0x8809 (0x0A :: List.replicate 113 0)).length = 128 ∧ (getPort rxSt 15).esmc.length < 8)
    ∧ (let u := bump64 rxSt (reg .eth 15 0x110) 1
       let x := parseEth (ethF 0xAEFE iqMsg)
       (match flowMatch u 15 x with | some (f, _, _, true) => f = 3 && (frerPass u 3 x).1 | _ => false)) = true
    ∧ (let s := setW rxSt (stReg 255 0x110) 0x00040101
       let x := parseEth (ethF 0x0800 (List.replicate 46 0))
       (flowMatch s 15 x).isNone && steerMatch s x = some 255
       && (flowMatch rxSt 15 x).isNone && (steerMatch rxSt x).isNone) = true
    ∧ (let s := setW rxSt (stReg 255 0x110) 0x00040101
       let a := (getD64 s (stReg 255 0x118)).toNat + (getSteer s 255).written % 2 ^ getF s (stReg 255 0x110) 16 4 * 16384
       getF s (stReg 255 0x110) 24 1 ≠ 1 && decide (1 ≤ steerRoom s 255)
        && (match devWrite (setSteer s 255 (getSteer s 255)) (getF s (stReg 255 0x110) 8 5) a
              (toLE 2 60 ++ toLE 1 0 ++ toLE 1 15 ++ toLE 4 0 ++ toLE 8 (nowNs s)) true none with
            | (.ok _, v) => (match devWrite v 1 (a + 64) (List.replicate 60 7) true none with
              | (.ok _, w) => (match sigObj (getObj w (getF w (stReg 255 0x120) 0 16)) false 1 with | .done _ => true | _ => false)
              | _ => false)
            | _ => false)) = true
    ∧ (pageReady rxSt .weir 2 && getF rxSt (reg .weir 2 0x100) 0 8 = 255 && !steerOn rxSt 255 && bitsAt 0x00040101 16 4 = 4 && bitAt 0x00040101 0
      && bitsAt 0x00040101 8 5 = 1 && (getPart rxSt 1).st ≠ .free && counterOf rxSt 1 4 && counterOf rxSt 1 5 && policeOk rxSt 255 0x00040101
      && granulesAdmit rxSt 1 (getD64 rxSt (stReg 255 0x118)).toNat (16384 * 2 ^ 4) true
      && (getPart rxSt 2).st = .free && bitsAt 0x00040201 8 5 = 2) = true := by decide +kernel

/-- Ring set 7 is bound to partition 1; ring 1 has the objects 4 and 5 and sixteen entries at 6 MiB. -/
def bolSt : State :=
  let s := setObj (setObj radSt 4 ⟨.counter, 1, 0, 0⟩) 5 ⟨.counter, 0, 0, 0⟩
  let s := setW s (reg .bol 7 0x200) 0x80000001
  let s := setW (setW s (reg .bol 7 0x21C) 0x00050004) (reg .bol 7 0x220) 0x00050004
  let s := setF s (reg .bol 7 0x218) 8 4 4
  let s := setD64 s (reg .bol 7 0x210) 6291456
  s

/-- A descriptor of ring 1 in flight with units to run. -/
def dsc (todo : List Nat) (undone : Nat) : BolDesc := ⟨1, 0, List.replicate 64 0, todo, undone, 0, 0, 0, [], 0⟩

/-- `bolSt` with ring 1 enabled and that descriptor. -/
def bolOn (l : List BolDesc) : State := setSet (setF bolSt (reg .bol 7 0x224) 1 1 1) 7 { BolSet.empty with descs := l }

theorem test_witness_BoltersTakeUnitsInOrderAndFinishDescriptors :
    (pageReady bolSt .bol 7 && !ringOn bolSt 7 1 && setPartOf bolSt 7 = some 1 && isRadio bolSt 1 && counterOf bolSt 1 (ringTail bolSt 7 1)
      && counterOf bolSt 1 (ringDone bolSt 7 1) && granulesAdmit bolSt 1 (ringBase bolSt 7 1) (64 * ringSize bolSt 7 1) true
      && setPartOf radSt 7 = none && !ringOn radSt 7 1 && pageReady radSt .bol 7) = true
    ∧ (let s := bolOn []
       setPartOf s 7 = some 1 && ringOn s 7 1 && !bitAt (getSet s 7).stop 1
        && decide (((getObj s (ringTail s 7 1)).value - (getObj s (ringDone s 7 1)).value).toInt ≤ (ringSize s 7 1 : Int))
        && decide (0 < ((getObj s (ringTail s 7 1)).value - BitVec.ofNat 32 ((getSet s 7).next 1)).toInt) && decide (inFlight s 1 < 64)) = true
    -- one descriptor more than the ring holds
    ∧ (let s := setObj (bolOn []) 4 ⟨.counter, 17, 0, 0⟩
       decide ((ringSize s 7 1 : Int) < ((getObj s (ringTail s 7 1)).value - (getObj s (ringDone s 7 1)).value).toInt)) = true
    ∧ (let s := bolOn [dsc [0, 1] 2]
       bolterRole s 0 = 0 && !bolterFenced s 0 && (mfind s.bol.units 0).isNone && bolterPick s = some 1 && partWork s 1 = some (7, dsc [0, 1] 2)) = true
    ∧ (let s := bolOn [dsc [] 1]
       let s := { s with bol := { s.bol with units := [(0, ⟨7, 1, 0, 0, 0⟩)] } }
       mfind s.bol.units 0 = some ⟨7, 1, 0, 0, 0⟩ && (getSet s 7).descs.find? (fun d => d.ring = 1 ∧ d.idx = 0) = some (dsc [] 1) && setPartOf s 7 = some 1) = true
    ∧ (let s := bolOn [dsc [] 0]
       (getSet s 7).descs.find? (fun d => d.ring = 1) = some (dsc [] 0) && (dsc [] 0).todo = [] && (dsc [] 0).undone = 0
        && (match sigObj (getObj s (ringDone s 7 1)) false 1 with | .done _ => true | _ => false)) = true
    ∧ (bolterRole bolSt 0 = 0 && bolterRole bolSt 18 = 1 && decide (bolSt.rep.dt.length < 4096)
      && ((List.range 20).find? (fun i => bolterRole bolSt i = 1 && !bolterFenced bolSt i)).isSome) = true := by decide +kernel

end Sys2Proof.Tests
end

