-- ==== Sys2Proof/Tests/W6.lean ====
section
/-! SUPPORT. States and operands that meet the hypotheses of the statements about the register bus, the fantail and the governor. -/
set_option Elab.async false

namespace Sys2Proof.Tests
open Sys2Proof Sys2Proof.Machine

theorem test_witness_UnassignedOffsetsReadZeroAndAreRecorded :
    (pageAt 0x3FFFFFF = none ∧ inMsix 0x3FFFFFF = false ∧ pageAt 0x908100 = none ∧ inMsix 0x908100 = false)
    ∧ 0x908100 % 4 = 0 := by decide +kernel

theorem test_witness_InterruptAndLockRegistersOfEveryPage :
    (pageAt (reg .gov 20 0x28) = some (.gov, 20) ∧ reg .gov 20 0x28 % 0x1000 = 0x28 ∧ reg .gov 20 0x28 < 2 ^ 26)
    ∧ (let s := setW up (reg .gov 20 0x24) 0x80000000
       (getW s (reg .gov 20 0x20) ||| 0x80000000) &&& getW s (reg .gov 20 0x24) ≠ 0)
    ∧ (reg .mill 255 0x2C % 0x1000 = 0x2C ∧ pageAt (reg .mill 255 0x2C) = some (.mill, 255) ∧ reg .mill 255 0x2C < 2 ^ 26)
    ∧ (reg .root 0 0x20 % 0x1000 = 0x20 ∧ pageAt (reg .root 0 0x20) = some (.root, 0))
    ∧ (reg .root 0 0x24 % 0x1000 = 0x24 ∧ pageAt (reg .root 0 0x24) = some (.root, 0)) := by decide +kernel

/-- A register that `WritesFollowTheAccessCodesOfTheFields` speaks about: with a field of code `k`, and a value that this field takes
or, with `ok` false, does not take. -/
def fldHit (b : Block) (i off v : Nat) (k : Acc) (ok : Bool) : Bool :=
  match regOf (reg b i off) with
  | some h => h.blk = b && h.page = i && !h.row.wide && h.row.sel.isNone && pageReady up b i
      && h.row.flds.any (fun f => f.acc = k && (k ≠ .rw || f.takes (bitsAt v f.lo f.len) = ok))
  | none => false

theorem test_witness_WritesFollowTheAccessCodesOfTheFields :
    (fldHit .gov 1 0x100 980 .rw true && fldHit .gov 1 0x100 981 .rw false && fldHit .gov 1 0x10C 0 .rc true && fldHit .gov 5 0x188 0 .ro true
      && fldHit .syn 2 0x100 0 .rw false && fldHit .ftl 3 0x100 0 .rw true && fldHit .gov 20 0x184 0 .rw false) = true
    ∧ (pageAt (reg .gov 1 0x100) = some (.gov, 1) ∧ pageReady State.reset .gov 1 = false)
    ∧ (pageAt (reg .gov 20 0x180) = some (.gov, 20) ∧ pageReady up .gov 20 = true) := by decide +kernel

theorem test_witness_RcCountersClearAndWideHalvesLatchAndHold :
    (([(.sec, 1, 0x108), (.gov, 1, 0x10C), (.gov, 3, 0x11C), (.gov, 5, 0x18C), (.ftl, 6, 0x118), (.eth, 3, 0x134),
      (.hif, 0, 0x104), (.hif, 6, 0x208), (.hif, 7, 0x180), (.mem, 1, 0x108), (.own, 3, 0x100), (.syn, 0, 0x114),
      (.bol, 2, 0x238), (.grn, 9, 0x138), (.noc, 1, 0x120), (.mill, 17, 0x164), (.rep, 1, 0x12C)] : List (Block × Nat × Nat)).all
      (fun e => pageReady up e.1 e.2.1)) = true
    ∧ ((match wideAt (reg .ftl 0 0x100) with | some h => answers up h.blk h.page (reg .ftl 0 0x100) | none => false)
      && decide (reg .ftl 0 0x100 % 8 = 0)) = true
    ∧ (let s := { up with bus := { up.bus with latch := [(reg .ftl 0 0x100, (7 : Word))], hold := [(reg .ftl 0 0x108, (9 : Word))] } }
       mfind s.bus.latch (reg .ftl 0 0x100) = some (7 : Word) ∧ mfind up.bus.latch (reg .ftl 0 0x100) = none
        ∧ mfind s.bus.hold (reg .ftl 0 0x108) = some (9 : Word) ∧ mfind up.bus.hold (reg .ftl 0 0x108) = none) := by decide +kernel

theorem test_witness_PendBlockShowsEveryBlockWithAnOutput :
    pageReady up .root 0 = true := by decide +kernel

/-- `up` with the compatibility clock. -/
def compatSt : State := setF up (reg .ftl 0 0x10) 0 1 1

theorem test_witness_StepsMoveTimeAndReadsTakeSnapshots :
    (pageReady up .ftl 0 && up.cells = [] && compatOn compatSt && compatSt.cells = [] && pageReady compatSt .ftl 0) = true
    ∧ (cellSt id).cells ≠ []
    ∧ (let s := setF (cellSt id) (reg .ftl 0 0x10) 0 1 1
       compatOn s && pageReady s .ftl 0 && s.cells ≠ []) = true
    ∧ (pageReady up .ftl 5 && pageReady up .ftl 6 && decide (up.ftl.todRx.length < 64)) = true := by decide +kernel

/-- `up` with servo `d` on, in state `st` since 0. -/
def servoSt (d st : Nat) : State :=
  let s := setF up (reg .ftl (1 + d) 0x10) 0 1 1
  setServo s d { getServo s d with st := st, since := 0 }

theorem test_witness_FantailTimeNeverJumpsUnderTheServos :
    (hasCap up 0x20 && !compatOn up && !servoOn up 0 && !servoOn up 1 && compatOn compatSt && hasCap (servoSt 1 1) 0x20
      && servoOn (servoSt 1 1) 1 && !compatOn (servoSt 1 1)) = true
    ∧ (let s := setF (servoSt 1 1) (reg .ftl 0 0x10) 0 1 1
       compatOn s && servoOn s 1) = true
    ∧ (let s := servoSt 0 1
       servoOn s 0 && (servoInput s 0 (.ptp 0 0 0 0 0)).isSome && (getServo s 0).st ≠ 0 && servoSel s = 0 && !s.ftl.slewing) = true
    ∧ (let s := servoSt 1 2
       servoOn s 1 && (getServo s 1).st = 2 && getF s (reg .ftl 0 0x10) 2 1 = 0) = true
    ∧ (servoSel up ≠ 1 ∧ compatOn up = false)
    ∧ (let s := { up with ftl := { up.ftl with slewing := true } }
       s.ftl.slewing && virtNow s (servoSel s) = 0 && !compatOn s) = true
    ∧ (let s := atNs 1000000002 (servoSt 0 3)
       (getServo s (servoSel s)).st = 3 && decide (getF s (reg .ftl 0 0x12C) 0 16 * 1000000 < nowNs s - (getServo s (servoSel s)).since)
        && ({ s with ftl := { s.ftl with refLost := false } }).ftl.refLost = false) = true := by decide +kernel

/-- Ticker 15 with a period and a width. -/
def tickSt (period width : Nat) : State :=
  let s := setF up (reg .ftl 4 0x100) 0 4 15
  setW (setD64 s (tickReg 15 0x110) (BitVec.ofNat 64 period)) (tickReg 15 0x118) (BitVec.ofNat 32 width)

theorem test_witness_TickersAndCapturesGiveEvents :
    (pageReady (tickSt 8 7) .ftl 4 && getF (tickSt 8 7) (reg .ftl 4 0x100) 0 4 = 15 && getF (tickSt 8 7) (tickReg 15 0x104) 0 1 = 0
      && decide ((getW (tickSt 8 7) (tickReg 15 0x118)).toNat < (getD64 (tickSt 8 7) (tickReg 15 0x110)).toNat)
      && decide ((getD64 (tickSt 8 8) (tickReg 15 0x110)).toNat ≤ (getW (tickSt 8 8) (tickReg 15 0x118)).toNat)) = true
    ∧ (let s := atNs 1004 { tickSt 8 7 with ftl := { (tickSt 8 7).ftl with tickers := [(15, 1000)], pulses := [(3, 1000)] } }
       mfind s.ftl.tickers 15 = some 1000 && reached (nowNs s) 1000 && getF s (tickReg 15 0x104) 1 1 = 0
        && getF (setF s (tickReg 15 0x104) 1 1 1) (tickReg 15 0x104) 1 1 = 1 && mfind s.ftl.pulses 3 = some 1000) = true
    ∧ mget false { up.ftl with unread := [(1, true)] }.unread 1 = true
    ∧ (let s := atNs 500004 (setPart radSt 1 { getPart radSt 1 with slots := 500000 })
       isRadio s 1 && reached (nowNs s) (getPart s 1).slots) = true := by decide +kernel

/-- `up` with governor state `f`, at `n` ns. -/
def govSt (n : Nat) (f : Gov → Gov) : State := atNs n { up with gov := f up.gov }

/-- `govSt` with row 15 as `x`. -/
def rowSt (n : Nat) (x : Row) : State := govSt n (fun g => { g with rows := mput g.rows 15 x })

theorem test_witness_TheGovernorHoldsTheCapAndTheHeat :
    (pageReady up .gov 0 = true ∧ 150 ≤ (550 : Nat) % 1024 ∧ (550 : Nat) % 1024 ≤ 550 ∧ (149 : Nat) % 1024 < 150 ∧ 550 < (551 : Nat) % 1024)
    ∧ (let s := setF (govSt 70000000 (fun g => { g with highFrom := some 1 })) (reg .gov 0 0x120) 31 1 1
       getF s (reg .gov 0 0x120) 31 1 = 1 && s.gov.bDip = 0 && s.gov.highFrom = some 1
        && decide (1 + getF s (reg .gov 0 0x120) 0 16 * 1000 ≤ nowNs s)) = true
    ∧ (let s := setF (govSt 70000000 (fun g => { g with lowFrom := some 1 })) (reg .gov 0 0x120) 31 1 1
       s.gov.highFrom = none && s.gov.lowFrom = some 1 && s.gov.bDip = 0 && decide (1 + getF s (reg .gov 0 0x120) 0 16 * 1000 ≤ nowNs s)) = true
    ∧ (let s := govSt 2004 (fun g => { g with softHeld := [(1023, 2000)] })
       s.gov.softHeld.find? (fun e => e.1 = 255 * 4 + 3) = some (1023, 2000) && decide (2000 ≤ nowNs s)) = true
    ∧ ((getRow up 15).st ≠ .off && (getRow up 15).dip = none && (getRow (rowSt 1000 { Row.blank with st := .running, dip := some 5 }) 15).dip = some 5
      && (rowSt 1000 { Row.blank with st := .running, dip := some 5 }).gov.rows.all (fun e => e.1 = 15 || e.2.dip = none)
      && mrising none (rowSt 1000 { Row.blank with st := .running, dip := some 5 }).gov.rows) = true
    ∧ (let s := govSt 20000000 (fun g => { g with dipHold := some 1, bDip := 63 })
       s.gov.dipHold = some 1 && decide (1 + getF s (reg .gov 1 0x104) 0 14 * 1000 ≤ nowNs s)) = true
    ∧ (let s := govSt 20000000 (fun g => { g with rampAt := some 1, bDip := 1 })
       s.gov.rampAt = some 1 && decide (1 + getF s (reg .gov 1 0x108) 0 14 ≤ nowNs s)) = true
    ∧ ((List.replicate 64 (460 : BitVec 16)).length = 64 ∧ 460 ≤ (460 : BitVec 16).toInt ∧ tripped up = false)
    ∧ (pageReady up .gov 3 = true ∧ (1 : Nat) % 2 = 1) := by decide +kernel

theorem test_witness_RowsAndClocksMoveThroughTheirStates :
    (let s := setF (rowSt 70000000 { Row.blank with st := .running }) (reg .gov 20 0x180) 1 1 1
     (getRow s 15).st = .running && mayPark s 15) = true
    ∧ (let s := setF (rowSt 70000000000 { Row.blank with st := .parked }) (reg .gov 20 0x180) 0 1 1
       (getRow s 15).st = .parked && getF s (reg .gov (5 + 15) 0x180) 0 1 = 1 && (rowLeaves s 15).all (fun l => l.st = .empty)
        && decide (mget 0 s.gov.fullAt 15 + getF s (reg .gov (5 + 15) 0x184) 16 16 * 1000000 ≤ nowNs s) && !radioRow s 15 && !rowSpares s 15) = true
    ∧ (deviceUp (rowSt 0 Row.blank) && (getRow (rowSt 0 Row.blank) 15).st = .off
      && (getRow (rowSt 0 { Row.blank with st := .parked }) 15).st = .parked) = true
    ∧ (let s := atNs 494004 { radSt with gov := { radSt.gov with rows := mput radSt.gov.rows 0 { Row.blank with st := .parked } } }
       devState s ≠ 6 && (getRow s 0).st = .parked && (getCtx s 1).place = .leaf 0 0 && isRadio s (getCtx s 1).part
        && (triggersOf s 1).any (fun x => reached (nowNs s + 6000) x)) = true
    ∧ (getRow (rowSt 0 { Row.blank with st := .starting, fromOff := true }) 15).st = .starting
    ∧ (devState up = 2 ∧ getF (setF up (reg .eth 0 0x308) 0 1 1) (reg .eth 0 0x308) 0 1 = 1)
    ∧ (let s := setF (servoSt 1 1) (reg .ftl 2 0x108) 15 1 1
       s.sched.workshop && servoOn s 1 && getF s (reg .ftl (1 + 1) 0x108) 15 1 = 1) = true := by decide +kernel

end Sys2Proof.Tests
end

