-- ==== Sys2Proof/Tests/W7.lean ====
section
/-! SUPPORT. States and operands that meet the hypotheses of the statements about the start sequence, resets, repair, digests and
security, and of the general ones. -/
set_option Elab.async false

namespace Sys2Proof.Tests
open Sys2Proof Sys2Proof.Machine

/-- A start in which a run of step `i` has gone on since 0. -/
def bootSt (i alt tries : Nat) : State :=
  let s := setDevState State.reset 1
  { s with boot := { s.boot with pwrgd := true, perst := true, running := [⟨i, alt, tries, 0⟩] } }

theorem test_witness_StartStepsFollowTheirPolicies :
    ([4, 5, 8, 9, 38, 40].all (fun i => (stepRun (bootSt i 0 0) i).isSome && mayComplete (bootSt i 0 0) i && dataFits i .plain
      && (stepEffect (endRun (bootSt i 0 0) i) ⟨i, 0, 0, 0⟩ .plain).isSome)) = true
    ∧ ((stepRun (bootSt 7 1 0) 7).isSome && dataFits 7 (.image 1 2 3 []) && (stepEffect (endRun (bootSt 7 1 0) 7) ⟨7, 1, 0, 0⟩ (.image 1 2 3 [])).isSome) = true
    -- an error and a limit of a step of each policy, before and at its last try
    ∧ (!(bootSt 38 0 3).boot.halted && stepPolicy 38 = .retry 3 && stepPolicy 16 = .alternate 2 && stepPolicy 34 = .skip && stepPolicy 4 = .halt) = true
    ∧ (atLimit (atNs 250000004 (bootSt 16 2 0)) ⟨16, 2, 0, 0⟩ = true)
    ∧ (pageReady up .mgt 1 = true ∧ (0x80003C5A : Nat) % 2 ^ 16 = 0x3C5A ∧ bitAt 0x80003C5A 31 = true ∧ (0x3C5B : Nat) % 2 ^ 16 ≠ 0x3C5A)
    ∧ (devState (bootSt 4 0 0) = 1 ∧ devState up ≠ 1 ∧ devState up ≠ 4 ∧ pageReady up .sec 0 = true ∧ (0x80005A3C : Nat) % 2 ^ 16 = 0x5A3C)
    ∧ heldFloor { up with sec := { up.sec with floorA := some ⟨1, 1, 1⟩ } } = some ⟨1, 1, 1⟩ := by decide +kernel

theorem test_witness_ResetsRestartTheBlockAndKeepWhatTheyMust :
    (up.boot.aoOn = true ∧ devState up ≠ 1 ∧ devState up ≠ 4 ∧ devState up ≠ 6 ∧ (0x8000A5C3 : Nat) % 2 ^ 16 = 0xA5C3 ∧ bitAt 0x8000A5C3 31 = true
      ∧ (getRow up 15).st ≠ .off)
    ∧ (devState (bootSt 4 0 0) = 1 ∧ (bootSt 4 0 0).boot.aoOn = true)
    ∧ { (bootSt 4 0 0).boot with d3 := true }.d3 = true
    ∧ (State.reset.boot.aoOn = true ∧ State.reset.boot.pwrgd = false ∧ State.reset.boot.railBad = false)
    ∧ deviceUp up = true
    ∧ ({ up.boot with railBad := true }.railBad = true ∧ up.boot.pwrgd = true)
    ∧ (fromStep3 (setF up (reg .mgt 1 0x108) 2 1 1) = true ∧ stepDone (bootSt 4 0 0) 38 = false) := by decide +kernel

/-- `radSt` with REP_ARG0 and REP_ARG1. -/
def repSt (a b : Nat) : State :=
  setW (setW (setW radSt (reg .rep 0 0x104) (BitVec.ofNat 32 a)) (reg .rep 0 0x108) (BitVec.ofNat 32 b)) (reg .rep 3 0x10C) 50

/-- A sparing of site 0 that its command began. -/
def spareSt : State :=
  let s := repSt 0 0
  let s := setMill s 0 { getMill s 0 with leaf0 := { (getMill s 0).leaf0 with st := .frozen } }
  { s with rep := { s.rep with sparing := some ⟨0, 0, true, 2, 0⟩ } }

/-- A digest record of slice 5. -/
def dgr : DigRec := ⟨1, 5, 0x1234, 7, 8, 0, 15⟩

/-- `fabSt` with counters 4 and 5, and the digest ring of slice 5 enabled with `ctrl`; its primary lies behind window 0. -/
def digSt (ctrl : Nat) : State :=
  let s := setObj (setObj fabSt 4 ⟨.counter, 0, 0, 0⟩) 5 ⟨.counter, 0, 0, 0⟩
  let s := setF s (reg .hif 1 0x100) 0 13 5
  let s := setW (setW s (ringReg 5 0x138) (BitVec.ofNat 32 ctrl)) (ringReg 5 0x13C) 0x00050004
  let s := setD64 (setD64 s (ringReg 5 0x140) 16384) (ringReg 5 0x148) (BitVec.ofNat 64 (remoteAddr s 1 0 0 0 / 16384 * 16384))
  let s := setF (setF s (ringReg 5 0x150) 0 20 10) (reg .hif 0 0x100) 0 32 2
  { s with hif := { s.hif with digQ := [dgr] } }

/-- The same with a pending comparison of emission 1. -/
def cmpSt (n : Nat) (retry : Option Nat) : State :=
  let s := digSt 0x43
  atNs n { s with hif := { s.hif with digCmps := [⟨dgr, 1, 0, retry⟩] } }

theorem test_witness_SparingMovesASiteAndDigestsAreDelivered :
    -- the last row's first site; a spare has no spare of its own
    (pageReady (repSt 15 0) .rep 0 && (getW (repSt 15 0) (reg .rep 0 0x104)).toNat % 16 * 16 + bitsAt (getW (repSt 15 0) (reg .rep 0 0x104)).toNat 8 4 = 240
      && spareCode (repSt 15 0) 240 = 0 && spareCode (repSt 0 0) 15 = 3 && spareCode spareSt 240 = 1) = true
    ∧ (spareSt.rep.sparing = some ⟨0, 0, true, 2, 0⟩ ∧ spareStill spareSt ⟨0, 0, true, 2, 0⟩ = true)
    ∧ ((0 : Nat) ≠ 0 / 16 * 16 + 15 ∧ spareSt.rep.dt.length < 4096 ∧ spareSt.sched.ctxs.all (fun e => e.2.freezeWhy ≠ 6) = true)
    ∧ (repSt 17 17).rep.sparing = none
    ∧ (let s := { repSt 0 1 with rep := { (repSt 0 1).rep with dtA := [⟨5, 2, 0, 16, 1⟩], dtB := [⟨5, 2, 0, 17, 1⟩], dt := [⟨5, 2, 0, 16, 1⟩] } }
       s.rep.dtB[0]? = some ⟨5, 2, 0, 17, 1⟩ ∧ dtConflict s 0 = true)
    ∧ (deviceUp (repSt 0 0) = true ∧ getF (repSt 0 0) (reg .rep 3 0x10C) 0 8 = 50 ∧ (List.replicate 256 (50 : BitVec 8)).length = 256
      ∧ mget false (repSt 0 0).rep.below 0 = false ∧ getF (repSt 0 0) (repReg 0x110) 0 1 = 0 ∧ (repSt 0 0).rep.recs.length < 1024)
    ∧ pageReady (repSt 0 0) .rep 1 = true
    ∧ (let s := digSt 0
       pageReady s .hif 1 && getF s (reg .hif 1 0x100) 0 13 = 5 && getF s (ringReg 5 0x138) 0 1 = 0 && bitsAt 0x41 4 4 = 4 && bitAt 0x41 0
        && (getSlice s 5).st ≠ .none && counterOf s 1 4 && counterOf s 1 5
        && granulesAdmit s 1 (getD64 s (ringReg 5 0x130)).toNat (32 * 2 ^ 4) true && granulesAdmit s 1 (getD64 s (ringReg 5 0x140)).toNat 4096 true) = true
    ∧ (let s := digSt 0x43
       let u := { s with hif := { s.hif with digQ := [] } }
       s.hif.digQ.find? (fun r => r.slice = 5) = some dgr && getF u (ringReg 5 0x138) 0 1 = 1 && (digPublish u dgr).1.isSome
        && getF (digPublish u dgr).2 (ringReg 5 0x138) 1 1 = 1 && bitAt (getW (digPublish u dgr).2 (reg .hif 0 0x100)).toNat 1
        && getF (digPublish (digSt 0x41) dgr).2 (ringReg 5 0x138) 1 1 = 0) = true
    ∧ ((digPending (cmpSt 0 none) 5)[0]? = some ⟨dgr, 1, 0, none⟩
      ∧ digJudge dgr 1 (digBytes dgr 1 0) = some 1 ∧ digJudge dgr 1 (digBytes { dgr with layer := 9 } 1 0) = some 2
      ∧ digJudge dgr 1 (digBytes dgr 2 0) = some 3 ∧ digJudge dgr 1 (digBytes dgr 0 0) = none
      ∧ nowNs (cmpSt 9996 none) < digUntil (cmpSt 9996 none) ⟨dgr, 1, 0, none⟩)
    ∧ ((digPending (cmpSt 1000 (some 1000)) 5)[0]? = some ⟨dgr, 1, 0, some 1000⟩
      ∧ 1000 ≤ nowNs (cmpSt 1004 (some 1000)) ∧ nowNs (cmpSt 1004 (some 1000)) < digUntil (cmpSt 1004 (some 1000)) ⟨dgr, 1, 0, some 1000⟩
      ∧ (digRead (cmpSt 1004 (some 1000)) ⟨dgr, 1, 0, some 1000⟩).1 = true)
    ∧ digUntil (cmpSt 10004 (some 10000)) ⟨dgr, 1, 0, some 10000⟩ ≤ nowNs (cmpSt 10004 (some 10000)) := by decide +kernel

/-- An SPDM session on a transport that has negotiated, with the identity there. -/
def secSt (ready : Bool) : State :=
  let s := setF up (reg .sec 0 0x14) 1 1 1
  { s with sec := { s.sec with conns := [(1, 3)], sessions := [(1, ⟨.i3c, ready, 0⟩)], ide := [(0, []), (8, [])], kem := some ([], []), km := some [] } }

/-- What `Config` leaves open (signatures, certificates, sealing) decides the other hypotheses of this statement, so no state can be
shown to meet those. -/
theorem test_witness_SecurityCommandsAndSessionsKeepTheirOrder :
    (devState up ≠ 1 ∧ devState up ≠ 4 ∧ pageReady up .sec 1 = true ∧ tspLocked up = false ∧ slotOwner up 62 = 63 ∧ pageReady up .sec 2 = true
      ∧ livingParts up = [] ∧ tokenOk up [] = false ∧ pageReady up .sec 3 = true ∧ (secSt true).sec.kem = some ([], []) ∧ (secSt true).sec.km = some [])
    ∧ (let s := setPart (secSt true) 31 { getPart up 31 with st := .frozen }
       (getPart s 31).st = .frozen ∧ (getPart s 30).st = .free)
    ∧ devState (bootSt 4 0 0) = 1
    ∧ (spdmUp (secSt true) .i3c = true ∧ mget 0 (secSt true).sec.conns (Transport.code .i3c) = 3 ∧ mget 0 up.sec.conns (Transport.code .i3c) < 3
      ∧ (secSt true).sec.sessions.length < 4 ∧ mfind (secSt false).sec.sessions 1 = some ⟨.i3c, false, 0⟩ ∧ mfind (secSt true).sec.sessions 1 = some ⟨.i3c, true, 0⟩
      ∧ hasCap (secSt true) 0x60 = true ∧ hasCap (secSt true) 0x61 = true ∧ (mfind (secSt true).sec.ide 0).isSome = true ∧ (mfind (secSt true).sec.ide 8).isSome = true) := by
  decide +kernel

theorem test_witness_AStepRunsTheCommandAtTheFront :
    State.reset.pending = [] ∧ devState up ≠ 1 ∧ up.pending = [] ∧ (getDom up 1).st ≠ 3 := by decide +kernel

theorem test_witness_EveryStepLeavesDomainsAndRowsAsTheirConditionsAsk :
    (match step { radSt with pending := [.rowPark 0] } with | .next t => decide (t.pending = []) | _ => false) = true := by decide +kernel

end Sys2Proof.Tests
end

section
/-! SUPPORT. What a register write does to the fields of a 32-bit register that only holds what is written (R11, R37, R38), and what an
access of a page that is not ready does. -/
namespace Sys2Proof.Machine

/-! ### The field tables -/

/-- Two fields of a register share no bit. -/
abbrev Fld.Apart (f g : Fld) : Prop := f.lo + f.len ≤ g.lo ∨ g.lo + g.len ≤ f.lo

/-- The fields of a row lie in one 32-bit word and share no bit. -/
abbrev RegRow.Narrow (r : RegRow) : Prop := (∀ f ∈ r.flds, f.lo + f.len ≤ 32) ∧ r.flds.Pairwise Fld.Apart

theorem regRows_narrow (b : Block) : ∀ r ∈ regRows b, r.wide = false → r.Narrow := by
  cases b <;> decide

theorem headerRow_eq_none {o : Nat} (h : 0x100 ≤ o) : headerRow o = none := by
  unfold headerRow
  split
  case h_12 => rfl
  all_goals omega

/-- Only a 64-bit register has a high half. -/
theorem RegRow.wide_of_hit_hi {r : RegRow} {i o k : Nat} (h : r.hit i o = some (k, true)) : r.wide = true := by
  cases hw : r.wide with
  | true => rfl
  | false => simp [RegRow.hit, hw] at h

/-- A register above the header is a row of its block's tables. -/
theorem regOf_inv {a : Nat} {h : RegHit} (ha : 0x100 ≤ a % 0x1000) (hr : regOf a = some h) :
    pageAt a = some (h.blk, h.page) ∧ h.row ∈ regRows h.blk ∧ (h.row.wide = false → h.hi = false) := by
  have hAt : regAt a = some h := by
    have hhead : ¬ (a % 0x1000 = 0x10 ∨ a % 0x1000 = 0x14) := by omega
    unfold regOf at hr
    split at hr
    · rename_i heq
      exact heq.trans hr
    · split at hr
      · simp [hhead] at hr
      · cases hr
  unfold regAt at hAt
  split at hAt
  · cases hAt
  · rename_i b i hp
    simp only [headerRow_eq_none ha] at hAt
    obtain ⟨r, hmem, hhit⟩ := List.exists_of_findSome?_eq_some hAt
    obtain ⟨⟨k, hi⟩, hk, rfl⟩ := Option.map_eq_some_iff.mp hhit
    refine ⟨hp, hmem, fun hw => ?_⟩
    cases hi
    · rfl
    · exact absurd ((r.wide_of_hit_hi hk).symm.trans hw) (by decide)

/-- Pages are 4 KiB long. -/
theorem pageBase_mod (b : Block) (i : Nat) : pageBase b i % 0x1000 = 0 := by
  obtain ⟨hbase, hext⟩ : (blockInfo b).2.1 % 0x1000 = 0 ∧ (blockInfo b).2.2.2.2 % 0x1000 = 0 := by cases b <;> decide
  unfold pageBase
  dsimp only
  split
  · rw [Nat.add_mul_mod_self_right, hbase]
  · rw [Nat.add_mul_mod_self_right, hext]

/-- A register above the header is none of the header's. -/
theorem ne_reg_of_header {a o : Nat} (b : Block) (i : Nat) (ha : 0x100 ≤ a % 0x1000) (ho : o < 0x100) : a ≠ reg b i o := by
  have := pageBase_mod b i
  unfold reg
  omega

/-! ### One field of a write -/

/-- A write of a field replaces the bits of that field at most. -/
theorem writeFld_value (locked : Bool) (v : Nat) (x : Nat × Bool × Bool) (f : Fld) :
    (writeFld locked v x f).1 = x.1 ∨ ∃ w, (writeFld locked v x f).1 = putBits x.1 f.lo f.len w := by
  unfold writeFld
  cases f.acc with
  | rw | rwl =>
    dsimp only
    split
    · simp
    · simp
  | w1c | w1s => exact .inr ⟨_, rfl⟩
  | ro | wo | rc => exact .inl rfl

theorem writeFld_lt {locked : Bool} {v w : Nat} {x : Nat × Bool × Bool} {f : Fld} (hx : x.1 < 2 ^ w) (hf : f.lo + f.len ≤ w) :
    (writeFld locked v x f).1 < 2 ^ w := by
  rcases writeFld_value locked v x f with h | ⟨u, h⟩ <;> rw [h]
  · exact hx
  · exact putBits_lt hx hf

theorem bitsAt_writeFld_of_apart {locked : Bool} {v : Nat} {x : Nat × Bool × Bool} {f g : Fld} (h : f.Apart g) :
    bitsAt (writeFld locked v x f).1 g.lo g.len = bitsAt x.1 g.lo g.len := by
  rcases writeFld_value locked v x f with e | ⟨u, e⟩ <;> rw [e]
  rcases h with h | h
  · exact bitsAt_putBits_above _ _ _ _ _ _ h
  · exact bitsAt_putBits_below _ _ _ _ _ _ h

/-- A reserved encoding once seen stays noted. -/
theorem writeFld_bad {locked : Bool} {v : Nat} {x : Nat × Bool × Bool} {f : Fld} (h : x.2.1 = true) :
    (writeFld locked v x f).2.1 = true := by
  unfold writeFld
  cases f.acc with
  | rw | rwl =>
    dsimp only
    split
    · simp [h]
    · simp [h]
  | w1c | w1s | ro | wo | rc => exact h

theorem writeFld_rw_of_takes {locked : Bool} {v : Nat} {x : Nat × Bool × Bool} {f : Fld} (hf : f.acc = .rw)
    (ht : f.takes (bitsAt v f.lo f.len) = true) :
    bitsAt (writeFld locked v x f).1 f.lo f.len = bitsAt v f.lo f.len := by
  simp only [writeFld, hf, ht, if_true, bitsAt_putBits_same]
  exact Nat.mod_eq_of_lt (bitsAt_lt ..)

theorem writeFld_rw_of_not_takes {locked : Bool} {v : Nat} {x : Nat × Bool × Bool} {f : Fld} (hf : f.acc = .rw)
    (ht : f.takes (bitsAt v f.lo f.len) = false) : writeFld locked v x f = (x.1, true, x.2.2) := by
  simp [writeFld, hf, ht]

theorem writeFld_of_readOnly {locked : Bool} {v : Nat} {x : Nat × Bool × Bool} {f : Fld} (hf : f.acc = .ro ∨ f.acc = .rc) :
    writeFld locked v x f = x := by
  rcases hf with hf | hf <;> simp [writeFld, hf]

/-! ### All fields of a write -/

theorem writeFlds_lt {locked : Bool} {v w : Nat} {l : List Fld} {x : Nat × Bool × Bool} (hx : x.1 < 2 ^ w)
    (hl : ∀ f ∈ l, f.lo + f.len ≤ w) : (l.foldl (writeFld locked v) x).1 < 2 ^ w := by
  induction l generalizing x with
  | nil => exact hx
  | cons g r ih => exact ih (writeFld_lt hx (hl g (by simp))) fun f hf => hl f (by simp [hf])

theorem bitsAt_writeFlds_of_apart {locked : Bool} {v : Nat} {l : List Fld} {x : Nat × Bool × Bool} {f : Fld}
    (hl : ∀ g ∈ l, f.Apart g) : bitsAt (l.foldl (writeFld locked v) x).1 f.lo f.len = bitsAt x.1 f.lo f.len := by
  induction l generalizing x with
  | nil => rfl
  | cons g r ih =>
    rw [List.foldl_cons, ih fun k hk => hl k (by simp [hk])]
    exact bitsAt_writeFld_of_apart (hl g (by simp)).symm

theorem writeFlds_bad {locked : Bool} {v : Nat} {l : List Fld} {x : Nat × Bool × Bool} (h : x.2.1 = true) :
    (l.foldl (writeFld locked v) x).2.1 = true := by
  induction l generalizing x with
  | nil => exact h
  | cons g r ih => exact ih (writeFld_bad h)

/-- Of fields that share no bit each ends as its own write leaves it: that write finds the field as it was, and its refusal is kept. -/
theorem writeFlds_field {locked : Bool} {v : Nat} {l : List Fld} {f : Fld} (hl : l.Pairwise Fld.Apart) (hf : f ∈ l)
    (x : Nat × Bool × Bool) :
    ∃ y : Nat × Bool × Bool, bitsAt y.1 f.lo f.len = bitsAt x.1 f.lo f.len
      ∧ bitsAt (l.foldl (writeFld locked v) x).1 f.lo f.len = bitsAt (writeFld locked v y f).1 f.lo f.len
      ∧ ((writeFld locked v y f).2.1 = true → (l.foldl (writeFld locked v) x).2.1 = true) := by
  induction l generalizing x with
  | nil => cases hf
  | cons g r ih =>
    obtain ⟨hg, hr⟩ := List.pairwise_cons.mp hl
    rcases List.mem_cons.mp hf with rfl | hfr
    · exact ⟨x, rfl, bitsAt_writeFlds_of_apart hg, writeFlds_bad⟩
    · obtain ⟨y, hy, hval, hbad⟩ := ih hr hfr (writeFld locked v x g)
      exact ⟨y, hy.trans (bitsAt_writeFld_of_apart (hg f hfr)), hval, hbad⟩

/-! ### The errors of a write -/

/-- The errors that a write of a page's register notes (R11, R42). -/
def noteErrs (s : State) (b : Block) (i : Nat) (bad lk : Bool) : State :=
  let s := if bad then invalidWrite s b i else s
  if lk then lockedWrite s b i else s

theorem onlyIn_noteErrs (s : State) (b : Block) (i : Nat) (bad lk : Bool) : OnlyIn [.bus] s (noteErrs s b i bad lk) := by
  have step (c : Bool) (bit : Nat) (s : State) : OnlyIn [.bus] s (if c then raiseErr s b i bit else s) := by
    cases c
    · exact onlyIn_refl _ s
    · exact onlyIn_raiseErr ..
  exact onlyIn_trans (step bad 0 s) (step lk 1 _)

theorem wordsOnly_noteErrs (s : State) (b : Block) (i : Nat) (bad lk : Bool) :
    WordsOnly [reg b i 0x18, reg b i 0x20] s (noteErrs s b i bad lk) := by
  have step (c : Bool) (bit : Nat) (s : State) :
      WordsOnly [reg b i 0x18, reg b i 0x20] s (if c then raiseErr s b i bit else s) := by
    cases c
    · exact wordsOnly_refl _ s
    · exact wordsOnly_raiseErr ..
  exact wordsOnly_trans (step bad 0 s) (step lk 1 _)

/-- ERR_STAT after an error is raised. -/
theorem getW_raiseErr_same (s : State) (b : Block) (i bit : Nat) :
    getW (raiseErr s b i bit) (reg b i 0x18) = getW s (reg b i 0x18) ||| BitVec.ofNat 32 (2 ^ bit) := by
  rw [getW_raiseErr _ _ _ _ _ (reg_ne b i (by decide)), if_pos rfl]

theorem invalidWrite_sets_flag (s : State) (b : Block) (i : Nat) : getF (invalidWrite s b i) (reg b i 0x18) 0 1 = 1 := by
  simp only [getF, invalidWrite, getW_raiseErr_same, bitsAt, BitVec.toNat_or, pow_zero, pow_one, Nat.div_one]
  exact Nat.or_mod_two_eq_one.mpr (.inr rfl)

theorem lockedWrite_keeps_flag {s : State} {b : Block} {i : Nat} (h : getF s (reg b i 0x18) 0 1 = 1) :
    getF (lockedWrite s b i) (reg b i 0x18) 0 1 = 1 := by
  simp only [getF, lockedWrite, getW_raiseErr_same, bitsAt, BitVec.toNat_or, pow_zero, pow_one, Nat.div_one] at h ⊢
  exact Nat.or_mod_two_eq_one.mpr (.inl h)

/-- A reserved encoding sets INVALID_WRITE (R11). -/
theorem noteErrs_sets_flag (s : State) (b : Block) (i : Nat) (lk : Bool) :
    getF (noteErrs s b i true lk) (reg b i 0x18) 0 1 = 1 := by
  cases lk
  · exact invalidWrite_sets_flag s b i
  · exact lockedWrite_keeps_flag (invalidWrite_sets_flag s b i)

/-! ### A write of a 32-bit register without a selector -/

section
variable {s : State} {h : RegHit} {a v : Nat} (hw : h.row.wide = false) (hk : h.key s a = a)

/-- LOCK of a page (R42). -/
def pageLocked (s : State) (b : Block) (i : Nat) : Bool := getF s (reg b i 0x2C) 0 1 = 1

/-- The register's new value, whether a reserved encoding was written, and whether a locked field was. -/
def fldsWritten (s : State) (h : RegHit) (a v : Nat) : Nat × Bool × Bool :=
  h.row.flds.foldl (writeFld (pageLocked s h.blk h.page) v) ((getW s a).toNat, false, false)

include hw hk in
theorem plainWrite_narrow : plainWrite s h a v =
    noteErrs (setW s a (BitVec.ofNat 32 (fldsWritten s h a v).1)) h.blk h.page (fldsWritten s h a v).2.1 (fldsWritten s h a v).2.2 := by
  simp only [plainWrite, stored, store, hw, hk, Bool.false_eq_true, if_false]
  rfl

include hw hk in
theorem onlyIn_plainWrite : OnlyIn [.bus] s (plainWrite s h a v) := by
  rw [plainWrite_narrow hw hk]
  exact onlyIn_trans (onlyIn_setW ..) (onlyIn_noteErrs ..)

include hw hk in
theorem wordsOnly_plainWrite : WordsOnly [a, reg h.blk h.page 0x18, reg h.blk h.page 0x20] s (plainWrite s h a v) := by
  rw [plainWrite_narrow hw hk]
  exact wordsOnly_trans (wordsOnly_mono (wordsOnly_setW ..) (by simp)) (wordsOnly_mono (wordsOnly_noteErrs ..) (by simp))

variable (hn : h.row.Narrow) (ha : 0x100 ≤ a % 0x1000)

include hw hk hn ha in
theorem getW_plainWrite : (getW (plainWrite s h a v) a).toNat = (fldsWritten s h a v).1 := by
  have hother : a ∉ [reg h.blk h.page 0x18, reg h.blk h.page 0x20] := by
    simp [ne_reg_of_header h.blk h.page ha]
  have hlt : (fldsWritten s h a v).1 < 2 ^ 32 := writeFlds_lt (getW s a).isLt hn.1
  rw [plainWrite_narrow hw hk, (wordsOnly_noteErrs ..).1 a hother, getW_setW_same, BitVec.toNat_ofNat, Nat.mod_eq_of_lt hlt]

include hw hk hn ha in
/-- Each field ends as its own write leaves it, and a reserved encoding is noted. -/
theorem plainWrite_field {f : Fld} (hf : f ∈ h.row.flds) :
    ∃ y : Nat × Bool × Bool, bitsAt y.1 f.lo f.len = getF s a f.lo f.len
      ∧ getF (plainWrite s h a v) a f.lo f.len = bitsAt (writeFld (pageLocked s h.blk h.page) v y f).1 f.lo f.len
      ∧ ((writeFld (pageLocked s h.blk h.page) v y f).2.1 = true → getF (plainWrite s h a v) (reg h.blk h.page 0x18) 0 1 = 1) := by
  obtain ⟨y, hy, hval, hbad⟩ := writeFlds_field (locked := pageLocked s h.blk h.page) (v := v) hn.2 hf
    ((getW s a).toNat, false, false)
  refine ⟨y, hy, ?_, fun hb => ?_⟩
  · rw [getF, getW_plainWrite hw hk hn ha]
    exact hval
  · have hset : (fldsWritten s h a v).2.1 = true := hbad hb
    rw [plainWrite_narrow hw hk, hset]
    exact noteErrs_sets_flag ..

include hw hk hn ha in
theorem plainWrite_rw_of_takes {f : Fld} (hf : f ∈ h.row.flds) (hacc : f.acc = .rw) (ht : f.takes (bitsAt v f.lo f.len) = true) :
    getF (plainWrite s h a v) a f.lo f.len = bitsAt v f.lo f.len := by
  obtain ⟨_, -, hval, -⟩ := plainWrite_field (v := v) hw hk hn ha hf
  exact hval.trans (writeFld_rw_of_takes hacc ht)

include hw hk hn ha in
theorem plainWrite_rw_of_not_takes {f : Fld} (hf : f ∈ h.row.flds) (hacc : f.acc = .rw) (ht : f.takes (bitsAt v f.lo f.len) = false) :
    getF (plainWrite s h a v) a f.lo f.len = getF s a f.lo f.len
      ∧ getF (plainWrite s h a v) (reg h.blk h.page 0x18) 0 1 = 1 := by
  obtain ⟨y, hy, hval, hbad⟩ := plainWrite_field (v := v) hw hk hn ha hf
  rw [writeFld_rw_of_not_takes hacc ht] at hval hbad
  exact ⟨hval.trans hy, hbad rfl⟩

include hw hk hn ha in
theorem plainWrite_readOnly {f : Fld} (hf : f ∈ h.row.flds) (hacc : f.acc = .ro ∨ f.acc = .rc) :
    getF (plainWrite s h a v) a f.lo f.len = getF s a f.lo f.len := by
  obtain ⟨y, hy, hval, -⟩ := plainWrite_field (v := v) hw hk hn ha hf
  rw [writeFld_of_readOnly hacc] at hval
  exact hval.trans hy

end

/-! ### The bus -/

/-- A field of the low `w` bits does not depend on the bits above them. -/
theorem bitsAt_mod_of_le {n lo len w : Nat} (h : lo + len ≤ w) : bitsAt (n % 2 ^ w) lo len = bitsAt n lo len := by
  obtain ⟨k, rfl⟩ := Nat.exists_eq_add_of_le h
  unfold bitsAt
  rw [pow_add, pow_add, Nat.mul_assoc, Nat.mod_mul_right_div_self, Nat.mod_mul_right_mod]

/-- The pages whose registers only hold what is written. -/
def RegHit.OnPlainPage (h : RegHit) : Prop :=
  h.blk = .gov ∧ (h.page = 1 ∨ h.page = 2 ∨ 5 ≤ h.page) ∨ h.blk = .syn ∧ 2 ≤ h.page ∨ h.blk = .rep ∧ h.page = 3 ∨
    h.blk = .ftl ∧ h.page = 3 ∨ h.blk = .own ∧ h.page = 2 ∨ h.blk = .grn ∨ h.blk = .noc ∨ h.blk = .mill

theorem regAbsent_of_onPlainPage {h : RegHit} (s : State) (hp : h.OnPlainPage) (o : Nat) :
    regAbsent s h.blk h.page o = false := by
  rcases hp with ⟨hb, _⟩ | ⟨hb, _⟩ | ⟨hb, _⟩ | ⟨hb, hi⟩ | ⟨hb, _⟩ | hb | hb | hb
  case inr.inr.inr.inl => simp [regAbsent, hb, hi]
  all_goals simp only [regAbsent, hb]

/-- On these pages no register above the header has an effect of its own. -/
theorem regWrite_onPlainPage {h : RegHit} {a : Nat} (s : State) (v : Nat) (hp : h.OnPlainPage) (ha : 0x100 ≤ a % 0x1000) :
    regWrite s h a v = plainWrite s h a v := by
  have hheader : ¬ (a % 0x1000 ≠ 0x10 ∧ a % 0x1000 < 0x100) := by omega
  simp only [regWrite, regAbsent_of_onPlainPage s hp, Bool.false_eq_true, if_false, hheader]
  rcases hp with ⟨hb, hi⟩ | ⟨hb, hi⟩ | ⟨hb, hi⟩ | ⟨hb, hi⟩ | ⟨hb, hi⟩ | hb | hb | hb <;> simp only [hb]
  · have h0 : h.page ≠ 0 := by omega
    have h3 : h.page ≠ 3 := by omega
    have h4 : h.page ≠ 4 := by omega
    simp [writeGov, h0, h3, h4]
  · have h0 : h.page ≠ 0 := by omega
    simp [writeSyn, h0]
  · simp [writeRep, hi]
  · simp [writeFtl, hi]
  · simp [writeOwn, hi]

theorem exec_registerWrite (s : State) {a : BitVec 26} (v : DWord) (h4 : a.toNat % 4 = 0) :
    exec (.registerWrite (.bar0 a) .w32 v) s = .next (settle (write32 s a.toNat (v.toNat % 2 ^ 32))) := by
  simp [exec, execRegisterWrite, busWrite, sizeOk, h4, done]

theorem exec_rcRead (s : State) {a : BitVec 26} (h4 : a.toNat % 4 = 0) :
    exec (.rcRead (.bar0 a) .w32) s = .next (settle (read32 s a.toNat)) := by
  simp [exec, execRcRead, busRead, sizeOk, h4, done]

theorem not_answers_of_not_ready {s : State} {b : Block} {i a : Nat} (ha : 0x100 ≤ a % 0x1000) (hr : pageReady s b i = false) :
    answers s b i a = false := by
  simp [answers, hr, ha]

theorem write32_not_ready {s : State} {b : Block} {i a : Nat} (v : Nat) (ha : 0x100 ≤ a % 0x1000) (hp : pageAt a = some (b, i))
    (hr : pageReady s b i = false) : write32 s a v = notReady s b i := by
  simp [write32, hp, not_answers_of_not_ready ha hr]

theorem read32_not_ready {s : State} {b : Block} {i a : Nat} (ha : 0x100 ≤ a % 0x1000) (hp : pageAt a = some (b, i))
    (hr : pageReady s b i = false) : read32 s a = replyNat (notReady s b i) 0 := by
  simp [read32, hp, not_answers_of_not_ready ha hr]

theorem write32_onPlainPage {s : State} {h : RegHit} {a : Nat} (v : Nat) (ha : 0x100 ≤ a % 0x1000) (hr : regOf a = some h)
    (hw : h.row.wide = false) (hready : pageReady s h.blk h.page = true) (hp : h.OnPlainPage) :
    write32 s a v = plainWrite s h a v := by
  obtain ⟨hpage, -, -⟩ := regOf_inv ha hr
  simp [write32, hpage, answers, hready, hr, hw, regWrite_onPlainPage s v hp ha]

/-- Settles O3: a write on a plain page is a `plainWrite`, in which each field ends as its own write leaves it since the fields of every
32-bit row share no bit. -/
theorem writesFollowTheAccessCodesOfTheFields : Obligations.WritesFollowTheAccessCodesOfTheFields := by
  intro s a v h4 ha
  constructor
  · intro h hr hw hsel hready hplain
    obtain ⟨-, hmem, hhi⟩ := regOf_inv ha hr
    have hn : h.row.Narrow := regRows_narrow h.blk _ hmem hw
    have hk : h.key s a.toNat = a.toNat := by simp [RegHit.key, hsel, RegHit.base, hhi hw]
    have low {f : Fld} (hf : f ∈ h.row.flds) : bitsAt (v.toNat % 2 ^ 32) f.lo f.len = bitsAt v.toNat f.lo f.len :=
      bitsAt_mod_of_le (hn.1 f hf)
    refine ⟨_, exec_registerWrite s v h4, ?_⟩
    rw [write32_onPlainPage _ ha hr hw hready hplain]
    simp only [getF_settle]
    refine ⟨fun f hf hacc ht => ?_, fun f hf hacc ht => ?_, fun f hf hacc => plainWrite_readOnly hw hk hn ha hf hacc,
      onlyIn_settle (onlyIn_plainWrite hw hk), wordsOnly_settle (wordsOnly_plainWrite hw hk)⟩
    · rw [← low hf] at ht ⊢
      exact plainWrite_rw_of_takes hw hk hn ha hf hacc ht
    · rw [← low hf] at ht
      exact plainWrite_rw_of_not_takes hw hk hn ha hf hacc ht
  · intro b i hp hr
    refine ⟨_, exec_registerWrite s v h4, ?_⟩
    rw [write32_not_ready _ ha hp hr]
    refine ⟨?_, onlyIn_settle (onlyIn_raiseErr ..), wordsOnly_settle (wordsOnly_raiseErr ..), _, exec_rcRead s h4, ?_, ?_⟩
    · rw [getW_settle]
      exact getW_raiseErr_same s b i 3
    · rw [read32_not_ready ha hp hr, settle_bus, settle_bus]
      rfl
    · rw [read32_not_ready ha hp hr]
      exact onlyIn_settle (onlyIn_trans (onlyIn_raiseErr ..) (onlyIn_bus ..))

end Sys2Proof.Machine
end

section
/-! SUPPORT. Timeouts and late completions of the HIF (R362, R365), invalidations and snoops (R374 to R376), and the link and the workshop
(R18, R361). -/
namespace Sys2Proof.Machine

/-! ### Rings and the HIF -/

/-- An update of the HIF alone. -/
theorem onlyIn_hif (s : State) (h : Hif) : OnlyIn [.hif] s { s with hif := h } := by
  refine ⟨rfl, fun c hc => ?_⟩
  cases c
  case hif => exact absurd List.mem_cons_self hc
  all_goals rfl

theorem onlyIn_setRing (s : State) (sl : Nat) (r : Ring) : OnlyIn [.hif] s (setRing s sl r) := onlyIn_hif s _

@[simp] theorem getRing_setRing_same (s : State) (sl : Nat) (r : Ring) : getRing (setRing s sl r) sl = r := mget_mset_same ..

@[simp] theorem getRing_settle (s : State) (sl : Nat) : getRing (settle s) sl = getRing s sl := by
  simp only [getRing, settle_hif]

theorem onlyIn_bump32 (s : State) (a n : Nat) : OnlyIn [.bus] s (bump32 s a n) := onlyIn_bus s _

theorem onlyIn_bump64 (s : State) (a n : Nat) : OnlyIn [.bus] s (bump64 s a n) := onlyIn_bus s _

@[simp] theorem getW_bump32_same (s : State) (a n : Nat) : getW (bump32 s a n) a = satAdd32 (getW s a) n := getW_setW_same ..

theorem getW_bump32_other (s : State) {a b : Nat} (n : Nat) (h : b ≠ a) : getW (bump32 s a n) b = getW s b := getW_setW_other s _ h

@[simp] theorem getD64_bump64_same (s : State) (a n : Nat) : getD64 (bump64 s a n) a = getD64 s a + BitVec.ofNat 64 n :=
  getD64_setD64_same ..

/-! ### Timeouts and late completions (R362, R365) -/

/-- A ring stopped by a request that timed out. -/
theorem setRing_timedOut (s : State) (sl : Nat) (r : Ring) :
    getRing (settle (setRing (timedOut s) sl r)) sl = r ∧ (settle (setRing (timedOut s) sl r)).hif.timedOut = s.hif.timedOut + 1
      ∧ OnlyIn [.hif] s (settle (setRing (timedOut s) sl r)) := by
  refine ⟨by simp, by rw [settle_hif]; rfl, onlyIn_settle ?_⟩
  exact onlyIn_trans (onlyIn_hif s _) (onlyIn_setRing (timedOut s) sl r)

theorem timeout_fetch {s : State} {n : BitVec 13} (h : mayFetch { s with hif := { s.hif with linkUp := true } } n.toNat = true) :
    timeout s (.fetch n) = setRing (timedOut s) n.toNat { getRing s n.toNat with xlateErr := true } := if_pos h

theorem timeout_write {s : State} {n : BitVec 13} (h : (getRing s n.toNat).awaiting ≠ []) :
    timeout s (.write n) = setRing (timedOut s) n.toNat { getRing s n.toNat with awaiting := [], xlateErr := true } := if_neg h

/-- Only an uncorrectable memory error does more than to fault the context of the transfer. -/
theorem xferFault_of_ne (s : State) (cid : Nat) {code : Nat} (lf e : Nat) (o : HoistOp) (h : code ≠ cfMemUncorrectable) :
    xferFault s cid code lf e o = ctxFault s cid code (physEng (ctxModule s (getCtx s cid)) lf e) o.step := if_neg h

theorem xferTimeout_eq {s : State} {site lf e cid : Nat} {c : Ctx} {x : Eng} {o : HoistOp}
    (h : hoistAt s site lf e = some (cid, c, x, o)) (hsp : o.offSp = 5 ∨ o.offSp = 6) (hd : o.done < o.total) :
    xferTimeout s site lf e = xferFault (timedOut s) cid cfHostTimeout lf e o := by
  simp only [xferTimeout, h]
  exact if_pos ⟨hsp, hd⟩

theorem lateCompletion_of_timedOut {s : State} (h : s.hif.timedOut ≠ 0) :
    lateCompletion s =
      raiseErr (bump32 { s with hif := { s.hif with timedOut := s.hif.timedOut - 1 } } (reg .hif 0 0x104) 1) .hif 0 8 := if_neg h

section
variable (s : State) (b : Block) (i bit n : Nat) {o : Nat}

/-- The counter of an event that also raises an error of its page. -/
theorem getW_raiseErr_bump32_count (h : o ≠ 0x18) (h' : o ≠ 0x20) :
    getW (raiseErr (bump32 s (reg b i o) n) b i bit) (reg b i o) = satAdd32 (getW s (reg b i o)) n := by
  rw [getW_raiseErr _ _ _ _ _ (reg_ne b i h'), if_neg (reg_ne b i h), getW_bump32_same]

/-- The error that is raised when an event is counted. -/
theorem getW_raiseErr_bump32_flag (h : o ≠ 0x18) :
    getW (raiseErr (bump32 s (reg b i o) n) b i bit) (reg b i 0x18) = getW s (reg b i 0x18) ||| BitVec.ofNat 32 (2 ^ bit) := by
  rw [getW_raiseErr_same, getW_bump32_other _ _ (reg_ne b i h.symm)]

theorem onlyIn_raiseErr_bump32 (a : Nat) : OnlyIn [.bus] s (raiseErr (bump32 s a n) b i bit) :=
  onlyIn_trans (onlyIn_bump32 s a n) (onlyIn_raiseErr ..)

end

/-- A frame across an update of the HIF and then one of the bus. -/
theorem onlyIn_hif_bus {s t : State} (h : Hif) (k : OnlyIn [.bus] { s with hif := h } t) : OnlyIn [.hif, .bus] s t :=
  onlyIn_trans (onlyIn_mono (onlyIn_hif s h) (by simp)) (onlyIn_mono k (by simp))

/-! ### Invalidations and snoops (R375, R376) -/

theorem invalHits_iff (pasid va log : Nat) (e : TlbEnt) :
    invalHits pasid va log e = true ↔
      e.pasid = pasid ∧ e.va < va / 2 ^ log * 2 ^ log + 2 ^ log ∧ va / 2 ^ log * 2 ^ log < e.va + 2 ^ e.log := by
  simp [invalHits, and_assoc]

/-- The entries that an invalidation leaves are those that it does not match. -/
theorem mem_invalidate_tlb (s : State) (pasid va log : Nat) (e : TlbEnt) :
    e ∈ (invalidate s pasid va log).hif.tlb ↔ e ∈ s.hif.tlb
      ∧ ¬ (e.pasid = pasid ∧ e.va < va / 2 ^ log * 2 ^ log + 2 ^ log ∧ va / 2 ^ log * 2 ^ log < e.va + 2 ^ e.log) := by
  rw [← invalHits_iff]
  simp [invalidate]

theorem invalDone_cons {s : State} {a : Nat × Nat × Nat} {r : List (Nat × Nat × Nat)} (h : s.hif.inval = a :: r) :
    invalDone s = bump64 { s with hif := { s.hif with inval := r } } (reg .hif 0 0x110) 1 := by
  simp only [invalDone, h]

/-- A snoop answers with the held line, if any. -/
theorem snoopRead_eq (s : State) (ln : Nat) :
    snoopRead s ln = answer s ((mfind s.hif.hlc ln).map (fun l => lineBytes l.data)) := by
  unfold snoopRead
  cases mfind s.hif.hlc ln <;> rfl

theorem snoopRead_settle (s : State) (ln : Nat) :
    (settle (snoopRead s ln)).hif = { s.hif with answers := s.hif.answers ++ [(mfind s.hif.hlc ln).map (fun l => lineBytes l.data)] }
      ∧ OnlyIn [.hif] s (settle (snoopRead s ln)) := by
  rw [snoopRead_eq]
  exact ⟨settle_hif _, onlyIn_settle (onlyIn_hif s _)⟩

/-! ### The link and the workshop -/

theorem setLink_settle (s : State) (b : Bool) :
    (settle (setLink s b)).hif = { s.hif with linkUp := b } ∧ OnlyIn [.hif] s (settle (setLink s b)) :=
  ⟨settle_hif _, onlyIn_settle (onlyIn_hif s _)⟩

/-- An update of the scheduler alone. -/
theorem onlyIn_sched (s : State) (x : Sched) : OnlyIn [.sched] s { s with sched := x } := by
  refine ⟨rfl, fun c hc => ?_⟩
  cases c
  case sched => exact absurd List.mem_cons_self hc
  all_goals rfl

/-- Settles O41, one kind of request after the other: each command is one update of the HIF, of its counters or of the scheduler, or one
context fault. -/
theorem linkTranslationsAndSnoopsFollowTheHost : Obligations.LinkTranslationsAndSnoopsFollowTheHost := by
  intro s
  refine ⟨fun n h => ?_, fun n h => ?_, fun site lf e cid c x o h hsp hd => ?_, fun h => ?_, fun pasid va k => ?_, fun a r h => ?_,
    fun ln => ⟨fun c hc => ?_, ?_⟩, ⟨_, rfl, setLink_settle s false⟩, ⟨_, rfl, setLink_settle s true⟩,
    ⟨_, rfl, settle_sched _, onlyIn_settle (onlyIn_sched s _)⟩⟩
  · -- the fetch of a submission entry times out
    refine ⟨settle (timeout s (.fetch n)), rfl, ?_⟩
    rw [timeout_fetch h]
    exact setRing_timedOut ..
  · -- a write of a slice's rings times out
    refine ⟨settle (timeout s (.write n)), rfl, ?_⟩
    rw [timeout_write h]
    exact setRing_timedOut ..
  · -- a transfer of a context times out
    refine ⟨physEng (ctxModule (timedOut s) (getCtx (timedOut s) cid)) lf e, o.step, ?_⟩
    change done (xferTimeout s site lf e) = _
    rw [xferTimeout_eq h hsp hd, xferFault_of_ne _ _ _ _ _ (by decide)]
    rfl
  · -- a late completion
    refine ⟨settle (lateCompletion s), rfl, ?_⟩
    rw [lateCompletion_of_timedOut h]
    refine ⟨by simp, ?_, ?_, onlyIn_settle (onlyIn_hif_bus _ (onlyIn_raiseErr_bump32 ..))⟩
    · exact (getW_settle ..).trans (getW_raiseErr_bump32_count _ .hif 0 8 1 (by decide) (by decide))
    · exact (getW_settle ..).trans (getW_raiseErr_bump32_flag _ .hif 0 8 1 (by decide))
  · -- an invalidation arrives
    refine ⟨settle (invalidate s pasid.toNat va.toNat k), rfl, ?_⟩
    rw [settle_hif]
    exact ⟨mem_invalidate_tlb s _ _ _, rfl, rfl, rfl, onlyIn_settle (onlyIn_hif s _)⟩
  · -- the completion of an invalidation is sent
    refine ⟨settle (invalDone s), rfl, ?_⟩
    rw [invalDone_cons h]
    refine ⟨by simp, ?_, onlyIn_settle (onlyIn_hif_bus _ (onlyIn_bump64 ..))⟩
    exact (getD64_settle ..).trans (getD64_bump64_same ..)
  · -- a snoop that reads
    rcases List.mem_pair.mp hc with rfl | rfl
    · exact ⟨_, rfl, snoopRead_settle s ln.toNat⟩
    · exact ⟨_, rfl, snoopRead_settle s ln.toNat⟩
  · -- a snoop that invalidates
    refine ⟨settle (hlcDrop s ln.toNat), rfl, ?_⟩
    rw [settle_hif]
    exact ⟨mfind_mdel_same .., fun _ hk => mfind_mdel_other _ hk, onlyIn_settle (onlyIn_hif s _)⟩

end Sys2Proof.Machine
end

section
/-! SUPPORT. The commands of the bus, the answer of a read, and unassigned offsets (R33, R34). -/
namespace Sys2Proof.Machine

theorem pageIn_inv {b : Block} {pn i : Nat} (h : pageIn b pn = some i) : pageBase b i = pn * 0x1000 := by
  obtain ⟨hbase, hext⟩ : (blockInfo b).2.1 % 0x1000 = 0 ∧ (blockInfo b).2.2.2.2 % 0x1000 = 0 := by cases b <;> decide
  unfold pageIn at h
  unfold pageBase
  generalize blockInfo b = info at h hbase hext ⊢
  obtain ⟨code, base, pages, primary, ext⟩ := info
  dsimp only at h hbase hext ⊢
  split at h
  · cases h
    rw [if_pos (by omega)]
    omega
  · split at h
    · cases h
      rw [if_neg (by omega)]
      omega
    · cases h

/-- An offset lies in the page that it falls in. -/
theorem pageAt_eq_reg {a i o : Nat} {b : Block} (h : pageAt a = some (b, i)) (ho : a % 0x1000 = o) : a = reg b i o := by
  obtain ⟨c, -, hc⟩ := List.exists_of_findSome?_eq_some h
  obtain ⟨j, hj, he⟩ := Option.map_eq_some_iff.mp hc
  cases he
  have := pageIn_inv hj
  unfold reg
  omega

/-! ### Commands of the bus -/

theorem busRead_word (s : State) {a : BitVec 26} (h4 : a.toNat % 4 = 0) : busRead s (.bar0 a) .w32 = read32 s a.toNat := by
  simp [busRead, sizeOk, h4]

theorem busWrite_word (s : State) {a : BitVec 26} (v : Word) (h4 : a.toNat % 4 = 0) :
    busWrite s (.bar0 a) .w32 v.toNat = write32 s a.toNat v.toNat := by
  simp [busWrite, sizeOk, h4, Nat.mod_eq_of_lt v.isLt]

theorem done_busRead (s : State) {a : BitVec 26} (h4 : a.toNat % 4 = 0) :
    done (busRead s (.bar0 a) .w32) = .next (settle (read32 s a.toNat)) := by
  rw [busRead_word s h4]; rfl

theorem done_busWrite (s : State) {a : BitVec 26} (v : Word) (h4 : a.toNat % 4 = 0) :
    done (busWrite s (.bar0 a) .w32 v.toNat) = .next (settle (write32 s a.toNat v.toNat)) := by
  rw [busWrite_word s v h4]; rfl

/-! ### The answer of a read -/

@[simp] theorem getW_replyNat (s : State) (v a : Nat) : getW (replyNat s v) a = getW s a := rfl

@[simp] theorem reply_replyNat (s : State) (v : Nat) : (replyNat s v).bus.reply = BitVec.ofNat 64 v := rfl

theorem onlyIn_replyNat (s : State) (v : Nat) : OnlyIn [.bus] s (replyNat s v) := onlyIn_bus s _

theorem wordsOnly_replyNat (l : List Nat) (s : State) (v : Nat) : WordsOnly l s (replyNat s v) :=
  ⟨fun _ _ => rfl, rfl, rfl, rfl, rfl⟩

/-! ### Unassigned offsets (R33) -/

theorem onlyIn_unmapped (s : State) (a : Nat) : OnlyIn [.bus] s (unmapped s a) :=
  onlyIn_trans (onlyIn_setW ..) (onlyIn_raiseErr ..)

theorem wordsOnly_unmapped (s : State) (a : Nat) :
    WordsOnly [reg .root 0 0x114, reg .root 0 0x18, reg .root 0 0x20] s (unmapped s a) :=
  wordsOnly_trans (wordsOnly_mono (wordsOnly_setW ..) (by simp)) (wordsOnly_mono (wordsOnly_raiseErr ..) (by simp))

theorem getW_unmapped_addr (s : State) (a : BitVec 26) : getW (unmapped s a.toNat) (reg .root 0 0x114) = a.setWidth 32 := by
  unfold unmapped
  rw [getW_raiseErr _ _ _ _ _ (by decide), if_neg (by decide), getW_setW_same, Nat.mod_eq_of_lt a.isLt, BitVec.ofNat_toNat]

theorem getW_unmapped_errStat (s : State) (a : Nat) :
    getW (unmapped s a) (reg .root 0 0x18) = getW s (reg .root 0 0x18) ||| 0x10 := by
  unfold unmapped
  rw [getW_raiseErr_same, getW_setW_other _ _ (by decide)]
  rfl

theorem unmappedAccess_of_unassigned {s : State} {a : Nat} (hp : pageAt a = none) (hm : inMsix a = false) (wr : Bool) :
    unmappedAccess s a wr = if wr then unmapped s a else replyNat (unmapped s a) 0 := by
  simp [unmappedAccess, hp, hm]

theorem read32_unassigned {s : State} {a : Nat} (hp : pageAt a = none) (hm : inMsix a = false) :
    read32 s a = replyNat (unmapped s a) 0 := by
  simp [read32, hp, hm]

theorem write32_unassigned {s : State} {a v : Nat} (hp : pageAt a = none) (hm : inMsix a = false) :
    write32 s a v = unmapped s a := by
  simp [write32, hp, hm]

/-- Settles O1: the command and the bus's read and write all come down to `unmapped`, which writes UNMAPPED_ADDR and raises the error. -/
theorem unassignedOffsetsReadZeroAndAreRecorded : Obligations.UnassignedOffsetsReadZeroAndAreRecorded := by
  intro s a hp hm
  have hexec (wr : Bool) : exec (.unmappedAccess a wr) s
      = .next (settle (if wr then unmapped s a.toNat else replyNat (unmapped s a.toNat) 0)) :=
    congrArg done (unmappedAccess_of_unassigned hp hm wr)
  refine ⟨fun wr => ⟨_, hexec wr, ?_⟩, fun h4 => ⟨?_, fun v => ?_⟩⟩
  · simp only [getW_settle, settle_bus]
    cases wr
    case false =>
      exact ⟨getW_unmapped_addr s a, getW_unmapped_errStat s _, fun _ => rfl,
        onlyIn_settle (onlyIn_trans (onlyIn_unmapped ..) (onlyIn_replyNat ..)),
        wordsOnly_settle (wordsOnly_trans (wordsOnly_unmapped ..) (wordsOnly_replyNat ..))⟩
    case true =>
      exact ⟨getW_unmapped_addr s a, getW_unmapped_errStat s _, fun h => absurd h (by decide),
        onlyIn_settle (onlyIn_unmapped ..), wordsOnly_settle (wordsOnly_unmapped ..)⟩
  · rw [exec_rcRead s h4, hexec, read32_unassigned hp hm]
    rfl
  · rw [exec_registerWrite s v h4, hexec, write32_unassigned hp hm]
    rfl

end Sys2Proof.Machine
end

section
/-! SUPPORT. The registers of every page's header: causes and enables of interrupts and LOCK (R38 to R44), and the message of a page
(R44, R45). -/
namespace Sys2Proof.Machine

/-- A field that spans the number. -/
theorem bitsAt_whole {n w : Nat} (h : n < 2 ^ w) : bitsAt n 0 w = n := by
  simp [bitsAt, Nat.mod_eq_of_lt h]

theorem putBits_whole {n w v : Nat} (hn : n < 2 ^ w) (hv : v < 2 ^ w) : putBits n 0 w v = v := by
  simp [putBits, bitsAt_whole hn, Nat.mod_eq_of_lt hv]

/-- Setting bit 0 where `v` has it set. -/
theorem putBits_or_bit_zero (n v : Nat) : putBits n 0 1 (bitsAt n 0 1 ||| bitsAt v 0 1) = n ||| v % 2 := by
  have hlt : n % 2 ||| v % 2 < 2 ^ 1 := Nat.or_lt_two_pow (by omega) (by omega)
  have hn : n = 2 ^ 1 * (n / 2) + n % 2 := by omega
  calc putBits n 0 1 (bitsAt n 0 1 ||| bitsAt v 0 1)
      = 2 ^ 1 * (n / 2) + (n % 2 ||| v % 2) := by
        simp only [putBits, bitsAt, pow_zero, Nat.div_one, Nat.mul_one, pow_one]; omega
    _ = 2 ^ 1 * (n / 2) ||| (n % 2 ||| v % 2) := Nat.two_pow_add_eq_or_of_lt hlt _
    _ = (2 ^ 1 * (n / 2) ||| n % 2) ||| v % 2 := (Nat.or_assoc ..).symm
    _ = n ||| v % 2 := by rw [← Nat.two_pow_add_eq_or_of_lt (by omega), ← hn]

/-- Clearing the bits of a mask takes away what the word and the mask share. -/
theorem word_sub_and {w : Nat} (x y : BitVec w) : x - (x &&& y) = x &&& ~~~y := by
  have hdisj : (x &&& ~~~y) &&& (x &&& y) = 0#w := by ext i; grind
  rw [sub_eq_iff_eq_add, BitVec.add_eq_or_of_and_eq_zero _ _ hdisj]
  ext i; grind

/-! ### The header of a page (R39 to R44) -/

theorem regAbsent_header (s : State) (b : Block) (i : Nat) {o : Nat} (h : o < 0x100) : regAbsent s b i o = false := by
  cases b <;> simp [regAbsent] <;> omega

/-- A register of the header of page `i`, with its fields. -/
def headerHit (b : Block) (i o : Nat) (flds : List Fld) : RegHit := ⟨b, i, ⟨0, 255, o, 1, 4, false, none, flds⟩, false⟩

theorem regOf_header {a i o : Nat} {b : Block} {l : List Fld} (hp : pageAt a = some (b, i)) (ho : a % 0x1000 = o)
    (hr : headerRow o = some (headerHit b i o l).row) : regOf a = some (headerHit b i o l) := by
  simp only [regOf, regAt, hp, ho, hr]
  rfl

/-- The header answers always, and its writes go by `writeHeader` (R37, R39). -/
theorem write32_header {s : State} {a i o : Nat} {b : Block} {l : List Fld} (v : Nat) (hp : pageAt a = some (b, i))
    (ho : a % 0x1000 = o) (hr : headerRow o = some (headerHit b i o l).row) (hlt : o < 0x100) (hctrl : o ≠ 0x10) :
    write32 s a v = writeHeader s (headerHit b i o l) a v := by
  simp only [write32, hp, answers, ho, hlt, decide_true, Bool.true_or, Bool.not_true, regOf_header hp ho hr, regWrite]
  simp [headerHit, regAbsent_header s b i hlt, hctrl]

/-- A write of a header register in which no field notes an error. -/
theorem plainWrite_header {s : State} {a v n i o : Nat} {b : Block} {l : List Fld}
    (hf : fldsWritten s (headerHit b i o l) a v = (n, false, false)) :
    plainWrite s (headerHit b i o l) a v = setW s a (BitVec.ofNat 32 n) := by
  rw [plainWrite_narrow rfl rfl, hf]; rfl

/-- A write-1-to-clear word. -/
theorem plainWrite_header_w1c (s : State) (b : Block) (i o a : Nat) (v : Word) :
    plainWrite s (headerHit b i o [.w1c 0 32]) a v.toNat = setW s a (getW s a &&& ~~~v) := by
  have hlt := (getW s a).isLt
  have hf : fldsWritten s (headerHit b i o [.w1c 0 32]) a v.toNat
      = ((getW s a).toNat - ((getW s a).toNat &&& v.toNat), false, false) := by
    simp only [fldsWritten, headerHit, List.foldl_cons, List.foldl_nil, writeFld, Fld.w1c, bitsAt_whole hlt,
      bitsAt_whole v.isLt]
    rw [putBits_whole hlt (by omega)]
  rw [plainWrite_header hf, ← word_sub_and,
    ← BitVec.ofNat_sub_ofNat_of_le _ _ (Nat.lt_of_le_of_lt Nat.and_le_left hlt) Nat.and_le_left]
  simp

/-- A word that takes every value. -/
theorem plainWrite_header_rw (s : State) (b : Block) (i o a : Nat) (v : Word) :
    plainWrite s (headerHit b i o [.rw 0 32]) a v.toNat = setW s a v := by
  have hf : fldsWritten s (headerHit b i o [.rw 0 32]) a v.toNat = (v.toNat, false, false) := by
    simp [fldsWritten, headerHit, writeFld, Fld.rw, Fld.takes, bitsAt_whole v.isLt, putBits_whole (getW s a).isLt v.isLt]
  rw [plainWrite_header hf]
  simp

/-- LOCK: LOCKED is write-1-to-set, the bit above it is read only. -/
theorem plainWrite_header_lock (s : State) (b : Block) (i o a : Nat) (v : Word) :
    plainWrite s (headerHit b i o [.w1s 0 1, .ro 1 1]) a v.toNat = setW s a (getW s a ||| (v &&& 1)) := by
  have hf : fldsWritten s (headerHit b i o [.w1s 0 1, .ro 1 1]) a v.toNat = ((getW s a).toNat ||| v.toNat % 2, false, false) := by
    simp only [fldsWritten, headerHit, List.foldl_cons, List.foldl_nil, writeFld, Fld.w1s, Fld.ro, putBits_or_bit_zero]
  rw [plainWrite_header hf, ← Nat.and_one_is_mod, BitVec.ofNat_or, BitVec.ofNat_and]
  simp only [BitVec.ofNat_toNat, BitVec.setWidth_eq]
  rfl

section
variable (s : State) {a i : Nat} {b : Block} (v : Word) (hp : pageAt a = some (b, i))

include hp in
theorem write32_intSet (ho : a % 0x1000 = 0x28) :
    write32 s a v.toNat = afterIntWrite (setW s (reg b i 0x20) (getW s (reg b i 0x20) ||| v)) b i := by
  rw [write32_header (l := [.wo 0 32]) _ hp ho rfl (by decide) (by decide)]
  simp [writeHeader, ho, headerHit]

include hp in
theorem write32_intStat (ho : a % 0x1000 = 0x20) :
    write32 s a v.toNat = afterIntWrite (setW s (reg b i 0x20) (getW s (reg b i 0x20) &&& ~~~v)) b i := by
  rw [write32_header (l := [.w1c 0 32]) _ hp ho rfl (by decide) (by decide), writeHeader, if_pos (.inl ho),
    plainWrite_header_w1c, ← pageAt_eq_reg hp ho]
  rfl

include hp in
theorem write32_intEn (ho : a % 0x1000 = 0x24) : write32 s a v.toNat = afterIntWrite (setW s (reg b i 0x24) v) b i := by
  rw [write32_header (l := [.rw 0 32]) _ hp ho rfl (by decide) (by decide), writeHeader, if_pos (.inr ho),
    plainWrite_header_rw, ← pageAt_eq_reg hp ho]
  rfl

include hp in
theorem write32_lock (ho : a % 0x1000 = 0x2C) :
    write32 s a v.toNat = setW s (reg b i 0x2C) (getW s (reg b i 0x2C) ||| (v &&& 1)) := by
  rw [write32_header (l := [.w1s 0 1, .ro 1 1]) _ hp ho rfl (by decide) (by decide), ← pageAt_eq_reg hp ho,
    ← plainWrite_header_lock s b i 0x2C]
  simp [writeHeader, ho]

end

/-! ### The message of a page (R44, R45) -/

/-- A requested message is pending while its vector is masked, and is sent otherwise. -/
theorem msixRequest_effect (s : State) (n : Nat) :
    if msixMasked s n then mget false (msixRequest s n).bus.pba n = true
    else (msixRequest s n).bus.sent.map Msg.vec = s.bus.sent.map Msg.vec ++ [n] := by
  unfold msixRequest
  split
  · simp
  · simp [msixSend]

theorem afterIntWrite_of_pageOut {s : State} {b : Block} {i : Nat} (h : pageOut s b i = true) :
    afterIntWrite s b i = msixRequest s (getF s (reg b i 0x30) 0 11) := if_pos h

theorem getW_afterIntWrite (s : State) (b : Block) (i a : Nat) : getW (afterIntWrite s b i) a = getW s a := by
  unfold afterIntWrite
  split
  · exact getW_pageRequest ..
  · rfl

theorem onlyIn_afterIntWrite (s : State) (b : Block) (i : Nat) : OnlyIn [.bus] s (afterIntWrite s b i) := by
  unfold afterIntWrite
  split
  · exact onlyIn_msixRequest ..
  · exact onlyIn_refl ..

theorem wordsOnly_afterIntWrite (l : List Nat) (s : State) (b : Block) (i : Nat) : WordsOnly l s (afterIntWrite s b i) := by
  unfold afterIntWrite
  split
  · exact wordsOnly_msixRequest ..
  · exact wordsOnly_refl ..

/-- A word is written and the page's message requested: nothing else changes. -/
theorem setW_afterIntWrite_settle (s : State) (b : Block) (i a : Nat) (w : Word) :
    getW (settle (afterIntWrite (setW s a w) b i)) a = w ∧ OnlyIn [.bus] s (settle (afterIntWrite (setW s a w) b i))
      ∧ WordsOnly [a] s (settle (afterIntWrite (setW s a w) b i)) :=
  ⟨by rw [getW_settle, getW_afterIntWrite, getW_setW_same],
    onlyIn_settle (onlyIn_trans (onlyIn_setW ..) (onlyIn_afterIntWrite ..)),
    wordsOnly_settle (wordsOnly_trans (wordsOnly_setW ..) (wordsOnly_afterIntWrite ..))⟩

/-- Settles O2: each of the four writes is one stored word, for the interrupt registers followed by the page's request. -/
theorem interruptAndLockRegistersOfEveryPage : Obligations.InterruptAndLockRegistersOfEveryPage := by
  intro s a b i hp
  have hword (v : Word) : (v.setWidth 64).toNat % 2 ^ 32 = v.toNat := by simp [Nat.mod_eq_of_lt v.isLt]
  refine ⟨fun ho v => ⟨_, done_busWrite s v (by omega), ?_⟩, fun ho v => ⟨_, done_busWrite s v (by omega), ?_⟩,
    fun ho v => ⟨_, exec_registerWrite s _ (by omega), ?_⟩, fun ho v => ⟨_, exec_registerWrite s _ (by omega), ?_⟩⟩
  · -- INT_SET
    rw [write32_intSet s v hp ho]
    obtain ⟨hget, honly, hwords⟩ := setW_afterIntWrite_settle s b i (reg b i 0x20) (getW s (reg b i 0x20) ||| v)
    refine ⟨hget, fun hout => ?_, honly, hwords⟩
    have hpage : pageOut (setW s (reg b i 0x20) (getW s (reg b i 0x20) ||| v)) b i = true := by
      rw [pageOut, getW_setW_same, getW_setW_other _ _ (reg_ne b i (by decide))]
      exact decide_eq_true hout
    rw [settle_bus, afterIntWrite_of_pageOut hpage, getF_setW_other _ _ _ _ (reg_ne b i (by decide))]
    exact msixRequest_effect (setW s (reg b i 0x20) (getW s (reg b i 0x20) ||| v)) _
  · -- LOCK
    rw [write32_lock s v hp ho, getW_settle, getW_setW_same]
    exact ⟨rfl, onlyIn_settle (onlyIn_setW ..), wordsOnly_settle (wordsOnly_setW ..)⟩
  · -- INT_STAT
    rw [hword, write32_intStat s v hp ho]
    exact setW_afterIntWrite_settle ..
  · -- INT_EN
    rw [hword, write32_intEn s v hp ho]
    exact setW_afterIntWrite_settle ..

end Sys2Proof.Machine
end

section
/-! SUPPORT. Which register an offset names (R31, R35), and what a read answers and clears (R35, R38, R40). -/
namespace Sys2Proof.Machine

/-! ### Which register an offset names (R31, R35) -/

theorem headerRow_not_wide {o : Nat} {r : RegRow} (h : headerRow o = some r) : r.wide = false := by
  unfold headerRow at h
  split at h
  case h_12 => cases h
  all_goals cases h; rfl

/-- Each 64-bit register stands above the header, and no other row of its pages holds a high half of it. -/
theorem regRows_wide (b : Block) : ∀ r ∈ regRows b, r.wide = true → 0x100 ≤ r.off ∧
    ∀ q ∈ regRows b, q = r ∨ (q.p1 < r.p0 ∨ r.p1 < q.p0) ∨ ∀ k < r.n, q.hit q.p0 (r.off + k * max 8 r.stride + 4) = none := by
  cases b <;> decide +kernel

/-- The page matters to a row only by its range. -/
theorem RegRow.hit_page {r : RegRow} {i j o : Nat} (hi : r.p0 ≤ i ∧ i ≤ r.p1) (hj : r.p0 ≤ j ∧ j ≤ r.p1) :
    r.hit i o = r.hit j o := by
  simp [RegRow.hit, hi, hj]

/-- Where the low half of a 64-bit register of a row lies. -/
theorem RegRow.hit_low {r : RegRow} {i o k : Nat} (hw : r.wide = true) (h : r.hit i o = some (k, false)) :
    (r.p0 ≤ i ∧ i ≤ r.p1) ∧ k < r.n ∧ o = r.off + k * max 8 r.stride := by
  simp only [RegRow.hit, hw, if_true] at h
  split at h
  · rename_i hpage
    split at h
    · rename_i hn
      split at h
      · rename_i hd
        cases h
        refine ⟨⟨hpage.1, hpage.2.1⟩, hn, ?_⟩
        have := Nat.div_add_mod' (o - r.off) (max 8 r.stride)
        omega
      · split at h <;> cases h
    · cases h
  · cases h

/-- The word above a low half is the high half. -/
theorem RegRow.hit_high {r : RegRow} {i o k : Nat} (hw : r.wide = true) (h : r.hit i o = some (k, false)) :
    r.hit i (o + 4) = some (k, true) := by
  have hstride : 0 < r.stride := by
    unfold RegRow.hit at h
    split at h
    · omega
    · cases h
  obtain ⟨hpage, hn, rfl⟩ := RegRow.hit_low hw h
  have hsub : r.off + k * max 8 r.stride + 4 - r.off = 4 + k * max 8 r.stride := by omega
  have hlt : 4 < max 8 r.stride := by omega
  have hdiv : (4 + k * max 8 r.stride) / max 8 r.stride = k := by
    rw [Nat.add_mul_div_right _ _ (by omega), Nat.div_eq_of_lt hlt, Nat.zero_add]
  have hmod : (4 + k * max 8 r.stride) % max 8 r.stride = 4 := by rw [Nat.add_mul_mod_self_right, Nat.mod_eq_of_lt hlt]
  have hin : r.p0 ≤ i ∧ i ≤ r.p1 ∧ r.off ≤ r.off + k * max 8 r.stride + 4 ∧ 0 < r.stride := ⟨hpage.1, hpage.2, by omega, hstride⟩
  simp only [RegRow.hit, hw, if_true, if_pos hin, hsub, hdiv, hmod, if_pos hn]
  simp

/-- Outside the header a register is the first row of its block's tables that holds the offset. -/
theorem regAt_of_no_header {a i : Nat} {b : Block} {h : RegHit} (hp : pageAt a = some (b, i)) (hn : headerRow (a % 0x1000) = none) :
    regAt a = some h ↔
      (regRows b).findSome? (fun r => (r.hit i (a % 0x1000)).map (fun (_, hi) => (⟨b, i, r, hi⟩ : RegHit))) = some h := by
  simp only [regAt, hp, hn]

/-- The low half of a 64-bit register is a row's. -/
theorem wideAt_inv {a : Nat} {h : RegHit} (hw : wideAt a = some h) :
    regOf a = some h ∧ h.hi = false ∧ h.row.wide = true ∧ 0x100 ≤ a % 0x1000 ∧ pageAt a = some (h.blk, h.page)
      ∧ h.row ∈ regRows h.blk ∧ ∃ k, h.row.hit h.page (a % 0x1000) = some (k, false) := by
  obtain ⟨hreg, hwide⟩ := Option.filter_eq_some_iff.mp hw
  simp only [Bool.and_eq_true, Bool.not_eq_true'] at hwide
  obtain ⟨hwide, hlow⟩ := hwide
  have hAt : regAt a = some h := by
    unfold regOf at hreg
    split at hreg
    · rename_i heq
      exact heq.trans hreg
    · split at hreg
      · split at hreg
        · cases hreg
          cases hwide
        · cases hreg
      · cases hreg
  cases hp : pageAt a with
  | none => simp [regAt, hp] at hAt
  | some bi =>
    obtain ⟨b, i⟩ := bi
    cases hn : headerRow (a % 0x1000) with
    | some r =>
      simp only [regAt, hp, hn, Option.some.injEq] at hAt
      subst hAt
      exact absurd ((headerRow_not_wide hn).symm.trans hwide) (by decide)
    | none =>
      obtain ⟨r, hmem, hhit⟩ := List.exists_of_findSome?_eq_some ((regAt_of_no_header hp hn).mp hAt)
      obtain ⟨⟨k, hi⟩, hk, rfl⟩ := Option.map_eq_some_iff.mp hhit
      cases hlow
      have ho : a % 0x1000 = r.off + k * max 8 r.stride := (RegRow.hit_low hwide hk).2.2
      have hoff : 0x100 ≤ r.off := (regRows_wide b r hmem hwide).1
      exact ⟨hreg, rfl, hwide, by omega, rfl, hmem, k, hk⟩

theorem RegRow.hit_of_other_page {r : RegRow} {i o : Nat} (h : ¬ (r.p0 ≤ i ∧ i ≤ r.p1)) : r.hit i o = none := by
  unfold RegRow.hit
  exact if_neg (by omega)

/-- No other row of the block holds the word above a low half. -/
theorem RegRow.hit_high_unique {b : Block} {r q : RegRow} {i o k : Nat} (hr : r ∈ regRows b) (hw : r.wide = true)
    (hk : r.hit i o = some (k, false)) (hq : q ∈ regRows b) : q = r ∨ q.hit i (o + 4) = none := by
  obtain ⟨hin, hn, rfl⟩ := RegRow.hit_low hw hk
  rcases (regRows_wide b r hr hw).2 q hq with he | hpages | hnone
  · exact .inl he
  · exact .inr (RegRow.hit_of_other_page (by omega))
  · refine .inr ?_
    by_cases hqp : q.p0 ≤ i ∧ i ≤ q.p1
    · rw [RegRow.hit_page hqp ⟨le_refl _, by omega⟩]
      exact hnone k hn
    · exact RegRow.hit_of_other_page hqp

theorem pageAt_high {a : Nat} (h8 : a % 8 = 0) : pageAt (a + 4) = pageAt a := by
  simp only [pageAt, show (a + 4) / 0x1000 = a / 0x1000 by omega]

/-- The word above the low half of an aligned 64-bit register is its high half. -/
theorem regOf_high {a : Nat} {h : RegHit} (hw : wideAt a = some h) (h8 : a % 8 = 0) :
    regOf (a + 4) = some { h with hi := true } ∧ pageAt (a + 4) = some (h.blk, h.page) := by
  obtain ⟨-, -, hwide, hge, hp, hmem, k, hk⟩ := wideAt_inv hw
  have hpage : pageAt (a + 4) = some (h.blk, h.page) := (pageAt_high h8).trans hp
  have hhigh := RegRow.hit_high hwide hk
  refine ⟨?_, hpage⟩
  suffices hAt : regAt (a + 4) = some { h with hi := true } by simp [regOf, hAt]
  rw [regAt_of_no_header hpage (headerRow_eq_none (by omega)), show (a + 4) % 0x1000 = a % 0x1000 + 4 by omega]
  obtain ⟨x, hx⟩ : ∃ x, (regRows h.blk).findSome?
      (fun r => (r.hit h.page (a % 0x1000 + 4)).map (fun (_, hi) => (⟨h.blk, h.page, r, hi⟩ : RegHit))) = some x := by
    rw [← Option.isSome_iff_exists, List.findSome?_isSome_iff]
    exact ⟨h.row, hmem, by simp [hhigh]⟩
  rw [hx]
  obtain ⟨q, hq, hqx⟩ := List.exists_of_findSome?_eq_some hx
  rcases RegRow.hit_high_unique hmem hwide hk hq with rfl | hnone
  · rw [hhigh] at hqx
    exact hqx.symm
  · simp [hnone] at hqx

/-! ### What a register reads (R38, R40) -/

/-- A register that is there, is not STAT, and holds no write-only field reads its value. -/
theorem regVal_eq {s : State} {h : RegHit} {a : Nat} (habs : regAbsent s h.blk h.page (h.base a % 0x1000) = false)
    (hstat : h.base a % 0x1000 ≠ 0x14) (hwo : h.row.mask (fun f => f.acc = .wo) = 0) :
    regVal s h a =
      (viewReg s h.blk h.page (h.base a % 0x1000) (h.item s)).getD (stored s h a) % 2 ^ (if h.row.wide then 64 else 32) := by
  simp [regVal, habs, hstat, hwo]

theorem regVal_lt {s : State} {h : RegHit} {a : Nat} (hstat : h.base a % 0x1000 ≠ 0x14) : regVal s h a < 2 ^ 64 := by
  have hpow : (2 : Nat) ^ (if h.row.wide then 64 else 32) ≤ 2 ^ 64 := by split <;> omega
  unfold regVal
  dsimp only
  split
  · omega
  · exact Nat.lt_of_le_of_lt (Nat.sub_le ..) (Nat.lt_of_lt_of_le (Nat.mod_lt _ (by positivity)) hpow)

/-- Both halves of a 64-bit register read the same register. -/
theorem regVal_high (s : State) {h : RegHit} (a : Nat) (hlow : h.hi = false) :
    regVal s { h with hi := true } (a + 4) = regVal s h a := by
  have hbase : RegHit.base { h with hi := true } (a + 4) = h.base a := by simp [RegHit.base, hlow]
  simp only [regVal, stored, RegHit.key, hbase]
  rfl

/-- The read-to-clear fields of a register cleared (R38). -/
def rcClear (s : State) (h : RegHit) (a : Nat) : State :=
  if h.row.mask (fun f => f.acc = .rc) = 0 then s
  else store s h a (stored s h a - (stored s h a &&& h.row.mask (fun f => f.acc = .rc)))

/-- Beside clearing the read-to-clear fields a read touches the fantail at most. -/
theorem readEffect_eq (s : State) (h : RegHit) (a : Nat) : ∃ f : Ftl, readEffect s h a = { rcClear s h a with ftl := f } := by
  unfold readEffect rcClear
  dsimp only
  generalize (if h.row.mask (fun f => f.acc = .rc) = 0 then s else _) = t
  repeat' split
  all_goals exact ⟨_, rfl⟩

/-- Only pages 0 and 5 of the fantail have reads with an effect of their own. -/
theorem readEffect_of_plain (s : State) {h : RegHit} (a : Nat) (hp : h.blk = .ftl → h.page ≠ 0 ∧ h.page ≠ 5) :
    readEffect s h a = rcClear s h a := by
  unfold readEffect
  by_cases hb : h.blk = .ftl
  · obtain ⟨h0, h5⟩ := hp hb
    simp only [hb, h0, h5, ne_eq, not_true, false_and, if_false]
    rfl
  · exact if_pos hb

theorem onlyIn_store (s : State) (h : RegHit) (a v : Nat) : OnlyIn [.bus] s (store s h a v) := by
  unfold store
  split
  · exact onlyIn_trans (onlyIn_setW ..) (onlyIn_setW ..)
  · exact onlyIn_setW ..

theorem rcClear_frame (s : State) (h : RegHit) (a : Nat) :
    OnlyIn [.bus] s (rcClear s h a) ∧ (rcClear s h a).bus.latch = s.bus.latch ∧ (rcClear s h a).bus.hold = s.bus.hold := by
  unfold rcClear
  split
  · exact ⟨onlyIn_refl .., rfl, rfl⟩
  · refine ⟨onlyIn_store .., ?_⟩
    unfold store
    split
    · exact ⟨rfl, rfl⟩
    · exact ⟨rfl, rfl⟩

/-- An update of the fantail alone. -/
theorem onlyIn_ftl (s : State) (f : Ftl) : OnlyIn [.ftl] s { s with ftl := f } := by
  refine ⟨rfl, fun c hc => ?_⟩
  cases c
  case ftl => exact absurd List.mem_cons_self hc
  all_goals rfl

theorem readEffect_frame (s : State) (h : RegHit) (a : Nat) :
    OnlyIn [.bus, .ftl] s (readEffect s h a) ∧ (readEffect s h a).bus.latch = s.bus.latch
      ∧ (readEffect s h a).bus.hold = s.bus.hold := by
  obtain ⟨f, hf⟩ := readEffect_eq s h a
  obtain ⟨honly, hlatch, hhold⟩ := rcClear_frame s h a
  rw [hf]
  exact ⟨onlyIn_trans (onlyIn_mono honly (by simp)) (onlyIn_mono (onlyIn_ftl _ f) (by simp)), hlatch, hhold⟩

/-- A read of a ready page's register. -/
theorem read32_reg {s : State} {h : RegHit} {a : Nat} (hp : pageAt a = some (h.blk, h.page)) (hr : regOf a = some h)
    (hans : answers s h.blk h.page a = true) : read32 s a = readWord s h a := by
  simp [read32, hp, hr, hans]

theorem write32_reg {s : State} {h : RegHit} {a : Nat} (v : Nat) (hp : pageAt a = some (h.blk, h.page)) (hr : regOf a = some h)
    (hans : answers s h.blk h.page a = true) (hw : h.row.wide = true) : write32 s a v = writeHalf s h a v := by
  simp [write32, hp, hr, hans, hw]

theorem readWord_narrow (s : State) {h : RegHit} (a : Nat) (hw : h.row.wide = false) :
    readWord s h a = replyNat (readEffect s h a) (regVal s h a) := by
  simp [readWord, hw]

end Sys2Proof.Machine
end

section
/-! SUPPORT. PEND_BLOCK: one flag for each block (R47). -/
namespace Sys2Proof.Machine

theorem bitAt_eq_testBit (n i : Nat) : bitAt n i = n.testBit i := Nat.testBit_eq_decide_div_mod_eq.symm

/-- One more bit, above those of `m`. -/
theorem testBit_add_flag {m c : Nat} (p : Bool) (n : Nat) (h : m < 2 ^ c) :
    (m + flag c p).testBit n = (m.testBit n || (c = n && p)) := by
  cases p
  case false => simp [flag, b2n]
  case true =>
    have hor : m + flag c true = 2 ^ c ||| m := by
      have := Nat.two_pow_add_eq_or_of_lt h 1
      rw [Nat.mul_one] at this
      rw [← this, flag, b2n, if_pos rfl]
      omega
    rw [hor, Nat.testBit_or, Nat.testBit_two_pow, Bool.or_comm, Bool.and_true]

/-- Flags at rising positions do not meet. -/
theorem testBit_foldl_flag {α : Type} (c : α → Nat) (p : α → Bool) (n : Nat) {l : List α} (hl : l.Pairwise (fun x y => c x < c y))
    {m : Nat} (hm : ∀ x ∈ l, m < 2 ^ c x) :
    (l.foldl (fun m x => m + flag (c x) (p x)) m).testBit n = (m.testBit n || l.any (fun x => c x = n && p x)) := by
  induction l generalizing m with
  | nil => simp
  | cons x r ih =>
    obtain ⟨hx, hr⟩ := List.pairwise_cons.mp hl
    have hflag : flag (c x) (p x) ≤ 2 ^ c x := by cases p x <;> simp [flag, b2n]
    have hnext : ∀ y ∈ r, m + flag (c x) (p x) < 2 ^ c y := fun y hy => by
      have hpow : (2 : Nat) ^ (c x + 1) ≤ 2 ^ c y := Nat.pow_le_pow_right (by omega) (hx y hy)
      have := hm x List.mem_cons_self
      omega
    rw [List.foldl_cons, ih hr hnext, testBit_add_flag _ _ (hm x List.mem_cons_self), List.any_cons, Bool.or_assoc]

theorem mem_allBlocks (b : Block) : b ∈ allBlocks := by cases b <;> decide

theorem testBit_pendBlock (s : State) (n : Nat) :
    (pendBlock s).testBit n = true ↔ ∃ (b : Block) (i : Nat), b.code = n ∧ i < b.pages ∧ pageOut s b i = true := by
  have hfold := testBit_foldl_flag Block.code (fun b => (List.range b.pages).any (fun i => pageOut s b i)) n
    (l := allBlocks) (by decide) (m := 0) (fun b _ => by positivity)
  rw [pendBlock, hfold]
  simp [mem_allBlocks]

theorem Block.code_lt (b : Block) : b.code < 32 := by cases b <;> decide

/-- The register of R47. -/
def pendBlockHit : RegHit := ⟨.root, 0, ⟨0, 0, 0x110, 1, 4, false, none, [.ro 0 32]⟩, false⟩

theorem read32_pendBlock {s : State} (hready : pageReady s .root 0 = true) :
    read32 s (reg .root 0 0x110) = replyNat s (pendBlock s % 2 ^ 32) := by
  have hr : regOf (reg .root 0 0x110) = some pendBlockHit := by decide
  have heffect : readEffect s pendBlockHit (reg .root 0 0x110) = s := by
    rw [readEffect_of_plain _ _ (by decide)]
    exact if_pos (by decide)
  have hoff : pendBlockHit.base (reg .root 0 0x110) % 0x1000 = 0x110 := by decide
  have hview : viewReg s .root 0 0x110 0 = some (pendBlock s) := rfl
  have hval : regVal s pendBlockHit (reg .root 0 0x110) = pendBlock s % 2 ^ 32 := by
    have hpresent : regAbsent s .root 0 (pendBlockHit.base (reg .root 0 0x110) % 0x1000) = false := rfl
    rw [regVal_eq hpresent (by rw [hoff]; decide) (by decide), hoff]
    change (viewReg s .root 0 0x110 0).getD _ % 2 ^ 32 = _
    rw [hview, Option.getD_some]
  rw [read32_reg (regOf_inv (by decide) hr).1 hr (by simp [answers, pendBlockHit, hready]), readWord_narrow _ _ rfl, heffect, hval]

/-- Settles O5: the flags of the blocks stand at rising positions below 32, so that each bit is its own block's. -/
theorem pendBlockShowsEveryBlockWithAnOutput : Obligations.PendBlockShowsEveryBlockWithAnOutput := by
  intro s hready
  refine ⟨_, exec_rcRead s (by decide), ?_⟩
  rw [show (BitVec.ofNat 26 (reg .root 0 0x110)).toNat = reg .root 0 0x110 by decide, read32_pendBlock hready]
  refine ⟨fun n => ?_, by rw [settle_bus]; rfl, onlyIn_settle (onlyIn_replyNat ..)⟩
  have hreply : (settle (replyNat s (pendBlock s % 2 ^ 32))).bus.reply.toNat = pendBlock s % 2 ^ 32 := by
    rw [settle_bus, reply_replyNat, BitVec.toNat_ofNat, Nat.mod_eq_of_lt (by omega)]
  rw [hreply, bitAt_eq_testBit, Nat.testBit_mod_two_pow, Bool.and_eq_true, decide_eq_true_eq, testBit_pendBlock]
  refine ⟨And.right, fun hb => ⟨?_, hb⟩⟩
  obtain ⟨b, -, rfl, -⟩ := hb
  exact b.code_lt

end Sys2Proof.Machine
end

section
/-! SUPPORT. Read-to-clear counters, and the latch and the hold of a 64-bit register (R34, R35, R38). -/
namespace Sys2Proof.Machine

/-! ### Read-to-clear counters (R34, R38) -/

/-- A 32-bit RC counter of a page: one stored word, whose read does nothing but clear it. -/
structure IsRcCounter (b : Block) (i o : Nat) : Prop where
  regOf_eq : ∃ r : RegRow, regOf (reg b i o) = some ⟨b, i, r, false⟩ ∧ r.wide = false ∧ r.sel = none ∧ r.flds = [.rc 0 32]
  view_eq : ∀ s, viewReg s b i o 0 = none
  present : ∀ s, regAbsent s b i o = false
  aligned : reg b i o % 4 = 0
  lt_bar : reg b i o < 2 ^ 26
  offset : 0x100 ≤ o ∧ o < 0x1000
  plain : b = .ftl → i ≠ 0 ∧ i ≠ 5

/-- The counters of O4: one of each block that has them. -/
def rcCounters : List (Block × Nat × Nat) :=
  [(.sec, 1, 0x108), (.gov, 1, 0x10C), (.gov, 3, 0x11C), (.gov, 5, 0x18C), (.ftl, 6, 0x118), (.eth, 3, 0x134),
    (.hif, 0, 0x104), (.hif, 6, 0x208), (.hif, 7, 0x180), (.mem, 1, 0x108), (.own, 3, 0x100), (.syn, 0, 0x114),
    (.bol, 2, 0x238), (.grn, 9, 0x138), (.noc, 1, 0x120), (.mill, 17, 0x164), (.rep, 1, 0x12C)]

theorem isRcCounter_of_mem {e : Block × Nat × Nat} (he : e ∈ rcCounters) : IsRcCounter e.1 e.2.1 e.2.2 := by
  fin_cases he <;>
    exact ⟨⟨_, rfl, rfl, rfl, rfl⟩, fun _ => rfl, fun _ => rfl, by decide, by decide, by decide, by decide⟩

namespace IsRcCounter
variable {b : Block} {i o : Nat} (hc : IsRcCounter b i o)
include hc

theorem reg_mod : reg b i o % 0x1000 = o := by
  have := pageBase_mod b i
  have := hc.offset
  unfold reg
  omega

theorem toNat_reg : (BitVec.ofNat 26 (reg b i o)).toNat = reg b i o := Nat.mod_eq_of_lt hc.lt_bar

theorem pageAt_reg : pageAt (reg b i o) = some (b, i) := by
  obtain ⟨r, hr, -⟩ := hc.regOf_eq
  exact (regOf_inv (by rw [hc.reg_mod]; exact hc.offset.1) hr).1

/-- A read answers the stored count and leaves 0. -/
theorem read32_eq {s : State} (hready : pageReady s b i = true) :
    read32 s (reg b i o) = replyNat (setW s (reg b i o) 0) (getW s (reg b i o)).toNat := by
  obtain ⟨r, hr, hw, hsel, hflds⟩ := hc.regOf_eq
  have hlt := (getW s (reg b i o)).isLt
  have hval : regVal s ⟨b, i, r, false⟩ (reg b i o) = (getW s (reg b i o)).toNat := by
    rw [regVal_eq]
    · simp only [RegHit.item, RegHit.base, hsel, hw, stored, RegHit.key, Bool.false_eq_true, if_false, hc.reg_mod, hc.view_eq]
      exact Nat.mod_eq_of_lt hlt
    · simpa [RegHit.base, hc.reg_mod] using hc.present s
    · have := hc.offset
      simp only [RegHit.base, Bool.false_eq_true, if_false, hc.reg_mod]
      omega
    · simp [RegRow.mask, hflds, Fld.rc]
  have hmask : r.mask (fun f => f.acc = .rc) = 2 ^ 32 - 1 := by simp [RegRow.mask, hflds, Fld.rc]
  have hclear : rcClear s ⟨b, i, r, false⟩ (reg b i o) = setW s (reg b i o) 0 := by
    simp only [rcClear, hmask, store, stored, hw, RegHit.key, hsel, RegHit.base, Bool.false_eq_true, if_false,
      Nat.and_two_pow_sub_one_eq_mod, Nat.mod_eq_of_lt hlt, Nat.sub_self]
    rfl
  rw [read32_reg hc.pageAt_reg hr (by simp [answers, hready]), readWord_narrow _ _ hw, readEffect_of_plain _ _ hc.plain,
    hclear, hval]

/-- A partial access is refused by the counter's page. -/
theorem busRead_other (s : State) :
    busRead s (.bar0 (BitVec.ofNat 26 (reg b i o))) .other = replyNat (raiseErr s b i 2) 0 := by
  simp only [busRead, sizeOk, hc.toNat_reg, sizeErr, hc.pageAt_reg]
  rfl

end IsRcCounter

/-! ### The halves of a 64-bit register (R35) -/

section
variable {s : State} {h : RegHit} {a : BitVec 26} (hw : wideAt a.toNat = some h) (h8 : a.toNat % 8 = 0)
  (hans : answers s h.blk h.page a.toNat = true)

include hw in
theorem base_wideAt : h.base a.toNat = a.toNat := by simp [RegHit.base, (wideAt_inv hw).2.1]

include h8 in
theorem toNat_high_half : (a + 4).toNat = a.toNat + 4 := by bv_omega

include hw hans in
theorem answers_high : answers s h.blk h.page (a.toNat + 4) = true := by
  obtain ⟨-, -, -, hge, -⟩ := wideAt_inv hw
  have hready : pageReady s h.blk h.page = true := by simpa [answers, Nat.not_lt.mpr hge] using hans
  simp [answers, hready]

include hw hans in
theorem read32_low : read32 s a.toNat =
    replyNat { readEffect s h a.toNat with bus := { (readEffect s h a.toNat).bus with
      latch := mput (readEffect s h a.toNat).bus.latch a.toNat (BitVec.ofNat 32 (regVal s h a.toNat / 2 ^ 32)) } }
      (regVal s h a.toNat % 2 ^ 32) := by
  obtain ⟨hr, hlow, hwide, -, hp, -⟩ := wideAt_inv hw
  rw [read32_reg hp hr hans]
  simp [readWord, hwide, hlow, base_wideAt hw]

include hw h8 hans in
theorem read32_high : read32 s (a + 4).toNat = readWord s { h with hi := true } (a.toNat + 4) := by
  obtain ⟨hr, hp⟩ := regOf_high hw h8
  rw [toNat_high_half h8, read32_reg (h := { h with hi := true }) hp hr (answers_high (h := h) hw hans)]

include hw in
theorem readWord_high_latched {w : Word} (hl : mfind s.bus.latch a.toNat = some w) : readWord s { h with hi := true } (a.toNat + 4) =
    replyNat { s with bus := { s.bus with latch := mdel s.bus.latch a.toNat } } w.toNat := by
  obtain ⟨-, -, hwide, -⟩ := wideAt_inv hw
  simp [readWord, hwide, RegHit.base, hl]

include hw in
theorem readWord_high_unlatched (hl : mfind s.bus.latch a.toNat = none) : readWord s { h with hi := true } (a.toNat + 4) =
    replyNat s (regVal s h a.toNat / 2 ^ 32) := by
  obtain ⟨-, hlow, hwide, -⟩ := wideAt_inv hw
  simp [readWord, hwide, RegHit.base, hl, regVal_high s _ hlow]

include hw hans in
theorem write32_low (v : Word) : write32 s a.toNat v.toNat =
    { s with bus := { s.bus with hold := mput s.bus.hold a.toNat v } } := by
  obtain ⟨hr, hlow, hwide, -, hp, -⟩ := wideAt_inv hw
  rw [write32_reg _ hp hr hans hwide]
  simp [writeHalf, hlow, base_wideAt hw]

include hw h8 hans in
theorem write32_high (v : Word) : write32 s (a + 4).toNat v.toNat = writeHalf s { h with hi := true } (a.toNat + 4) v.toNat := by
  obtain ⟨-, -, hwide, -⟩ := wideAt_inv hw
  obtain ⟨hr, hp⟩ := regOf_high hw h8
  rw [toNat_high_half h8, write32_reg (h := { h with hi := true }) _ hp hr (answers_high (h := h) hw hans) hwide]

include hw in
theorem writeHalf_high_held {w : Word} (v : Nat) (hl : mfind s.bus.hold a.toNat = some w) :
    writeHalf s { h with hi := true } (a.toNat + 4) v =
      regWrite { s with bus := { s.bus with hold := mdel s.bus.hold a.toNat } } h a.toNat (v * 2 ^ 32 + w.toNat) := by
  obtain ⟨-, hlow, -⟩ := wideAt_inv hw
  have hself : { h with hi := false } = h := by rw [← hlow]
  simp [writeHalf, RegHit.base, hl, hself]

include hw in
theorem writeHalf_high_unheld (v : Nat) (hl : mfind s.bus.hold a.toNat = none) :
    writeHalf s { h with hi := true } (a.toNat + 4) v =
      regWrite s h a.toNat (v * 2 ^ 32 + regVal s h a.toNat % 2 ^ 32) := by
  obtain ⟨-, hlow, -⟩ := wideAt_inv hw
  have hself : { h with hi := false } = h := by rw [← hlow]
  simp [writeHalf, RegHit.base, hl, hself, regVal_high s _ hlow]

end

/-- Settles O4: a counter's read is its stored word and a write of 0; each access of a half is a read or a write of the one register, by
way of its latch or its hold. -/
theorem rcCountersClearAndWideHalvesLatchAndHold : Obligations.RcCountersClearAndWideHalvesLatchAndHold := by
  refine ⟨fun s e he hready => ?_, fun s a h hw h8 hans => ?_⟩
  · have hc : IsRcCounter e.1 e.2.1 e.2.2 := isRcCounter_of_mem he
    refine ⟨⟨_, exec_rcRead s (by rw [hc.toNat_reg]; exact hc.aligned), ?_⟩, ⟨_, congrArg done (hc.busRead_other s), ?_⟩⟩
    · rw [hc.toNat_reg, hc.read32_eq hready, settle_bus, getW_settle, getW_replyNat, getW_setW_same]
      exact ⟨BitVec.ofNat_toNat .., rfl, onlyIn_settle (onlyIn_trans (onlyIn_setW ..) (onlyIn_replyNat ..)),
        wordsOnly_settle (wordsOnly_trans (wordsOnly_setW ..) (wordsOnly_replyNat ..))⟩
    · rw [settle_bus, getW_settle, getW_replyNat, getW_raiseErr_same]
      exact ⟨rfl, rfl, onlyIn_settle (onlyIn_trans (onlyIn_raiseErr ..) (onlyIn_replyNat ..)),
        wordsOnly_settle (wordsOnly_trans (wordsOnly_raiseErr ..) (wordsOnly_replyNat ..))⟩
  · obtain ⟨-, -, -, hge, -⟩ := wideAt_inv hw
    have hlt : regVal s h a.toNat < 2 ^ 64 := regVal_lt (by rw [base_wideAt hw]; omega)
    have h4 : (a + 4).toNat % 4 = 0 := by rw [toNat_high_half h8]; omega
    refine ⟨⟨_, done_busRead s (by omega), ?_⟩, fun w hl => ⟨_, done_busRead s h4, ?_⟩, fun hl => ⟨_, done_busRead s h4, ?_⟩,
      fun v => ⟨_, done_busWrite s v (by omega), ?_⟩, fun v => ?_⟩
    · -- LOW_HALF_READ
      obtain ⟨honly, hlatch, hhold⟩ := readEffect_frame s h a.toNat
      rw [read32_low hw hans, settle_bus]
      refine ⟨Nat.mod_eq_of_lt (by omega), mfind_mput_same .., fun k hk => ?_, hhold, onlyIn_settle ?_⟩
      · exact (mfind_mput_other _ _ hk).trans (by rw [hlatch])
      · exact onlyIn_trans honly (onlyIn_mono (onlyIn_trans (onlyIn_bus ..) (onlyIn_replyNat ..)) (by simp))
    · -- HIGH_HALF_READ with a latch
      rw [read32_high hw h8 hans, readWord_high_latched hw hl, settle_bus]
      exact ⟨by rw [replyNat, BitVec.ofNat_toNat]; rfl, mfind_mdel_same .., fun k hk => mfind_mdel_other _ hk,
        onlyIn_settle (onlyIn_trans (onlyIn_bus ..) (onlyIn_replyNat ..))⟩
    · -- HIGH_HALF_READ without a latch
      rw [read32_high hw h8 hans, readWord_high_unlatched hw hl, settle_bus]
      exact ⟨rfl, Nat.mod_eq_of_lt (by omega), onlyIn_settle (onlyIn_replyNat ..)⟩
    · -- LOW_HALF_WRITE
      rw [write32_low hw hans, settle_bus]
      exact ⟨rfl, mfind_mput_same .., fun k hk => mfind_mput_other _ _ hk, onlyIn_settle (onlyIn_bus ..)⟩
    · -- HIGH_HALF_WRITE
      have hexec : exec (.highHalfWrite (a + 4) v) s = .next (settle (writeHalf s { h with hi := true } (a.toNat + 4) v.toNat)) :=
        (done_busWrite s v h4).trans (by rw [write32_high hw h8 hans])
      cases hl : mfind s.bus.hold a.toNat with
      | some w => rw [hexec, writeHalf_high_held hw _ hl]
      | none => rw [hexec, writeHalf_high_unheld hw _ hl]

end Sys2Proof.Machine
end

section
/-! SUPPORT. The reset state. -/
namespace Sys2Proof.Machine

/-- Settles O60: the reset state lists no stored word, so that each reads its reset value, and its few domains and flags evaluate. -/
theorem resetLeavesTheGivenValues : Obligations.ResetLeavesTheGivenValues := by
  have hdown : deviceUp State.reset = false := by decide
  have hdoms : DomainsFollow State.reset := by
    unfold DomainsFollow
    decide
  refine ⟨rfl, ⟨hdoms, fun hup => absurd (hdown.symm.trans hup) (by decide)⟩, rfl, reset_memory_wf, fun _ => rfl, ?_, rfl, rfl,
    fun _ => rfl, hdown⟩
  decide

end Sys2Proof.Machine
end

section
/-! SUPPORT. The miller: a command that finds its instruction ends as one store of its context (R66, R233 to R236). -/
namespace Sys2Proof.Machine

/-- A command that ends as a store of one context answers a state with that context, and all else as it was. -/
theorem done_of_eq_setCtx {s u : State} {cid : Nat} {x : Ctx} (h : u = setCtx s cid x) :
    ∃ t, done u = .next t ∧ getCtx t cid = x ∧ CtxOnly cid s t ∧ OnlyIn [.sched] s t := by
  subst h
  exact ⟨_, rfl, by rw [getCtx_settle, getCtx_setCtx_same], ctxOnly_settle (ctxOnly_setCtx ..), onlyIn_settle (onlyIn_setCtx ..)⟩

/-! ### Scalar registers -/

theorem Miller.get_set (m : Miller) (d r : Nat) (v : Word) :
    (m.set d v).get r = if r = d ∧ r ≠ 0 then v else m.get r := by
  by_cases hd : d = 0
  · have hkeep : ¬ (r = d ∧ r ≠ 0) := by omega
    rw [Miller.set, if_pos hd, if_neg hkeep]
  · by_cases hr : r = d
    · subst hr
      simp [Miller.get, Miller.set, hd]
    · simp [Miller.get, Miller.set, hd, hr, mget_mset_other]

/-- A write of a scalar register leaves the rest of the miller alone. -/
theorem Miller.set_eq (m : Miller) (d : Nat) (v : Word) : m.set d v = { m with s := (m.set d v).s } := by
  unfold Miller.set
  split <;> rfl

/-! ### What an instruction that issues stores -/

/-- The miller one instruction further. -/
def Miller.stepped (m : Miller) : Miller := { m with pc := (m.pc + 8) % 2 ^ 32 }

section
variable {s : State} {site lf mop : Nat} {i : MIssue}

theorem alu_eq (hi : millerAt s site lf mop = some i) (f : Word → Word → Word) : alu site lf mop f s =
    setCtx s i.cid { i.c with lastMove := nowNs s, miller := (i.m.set (mRd i.w) (f i.ra (aluB i))).stepped } := by
  rw [alu, hi]
  rfl

theorem mLoad_eq {n : Nat} (hi : millerAt s site lf mop = some i) (hok : mdmOk i s n = true) : mLoad site lf mop n s =
    setCtx s i.cid { i.c with lastMove := nowNs s, miller :=
      (i.m.set (mRd i.w) (BitVec.ofNat 32 (ofLE (i.c.mdmRead (mAddr i) n)))).stepped } := by
  rw [mLoad, hi]
  exact if_pos hok

theorem mLoad_bounds {n : Nat} (hi : millerAt s site lf mop = some i) (hok : mdmOk i s n = false) :
    mLoad site lf mop n s = ctxFault s i.cid 0x03 0 (i.m.pc / 8) := by
  rw [mLoad, hi]
  exact if_neg (by simp [hok])

theorem mStore_eq {n : Nat} (hi : millerAt s site lf mop = some i) (hok : mdmOk i s n = true) : mStore site lf mop n s =
    setCtx s i.cid { i.c with mdm := writeMap i.c.mdm (mAddr i) (toLE n i.rb.toNat), lastMove := nowNs s, miller := i.m.stepped } := by
  rw [mStore, hi]
  exact if_pos hok

theorem mStore_bounds {n : Nat} (hi : millerAt s site lf mop = some i) (hok : mdmOk i s n = false) :
    mStore site lf mop n s = ctxFault s i.cid 0x03 0 (i.m.pc / 8) := by
  rw [mStore, hi]
  exact if_neg (by simp [hok])

theorem mWhb_eq (hi : millerAt s site lf 0x14 = some i) : mWhb site lf s =
    setCtx s i.cid { i.c with
      hbIn := if bitAt (mFn i.w) 3 then i.c.hbIn else mset 0 i.c.hbIn (mFn i.w % 8) (i.rb ++ i.ra)
      hbOut := if bitAt (mFn i.w) 3 then mset 0 i.c.hbOut (mFn i.w % 8) (i.rb ++ i.ra) else i.c.hbOut
      lastMove := nowNs s, miller := i.m.stepped } := by
  simp only [mWhb, hi]
  cases bitAt (mFn i.w) 3 <;> rfl

theorem mWlc_eq (hi : millerAt s site lf 0x30 = some i) : mWlc site lf s = setCtx s i.cid { i.c with
    lastMove := nowNs s, miller := { i.m with lc := mset 0 i.m.lc (mRd i.w % 16) i.ra, pc := (i.m.pc + 8) % 2 ^ 32 } } := by
  rw [mWlc, hi]
  rfl

theorem mWofs_eq (hi : millerAt s site lf 0x31 = some i) : mWofs site lf s = setCtx s i.cid { i.c with
    lastMove := nowNs s, miller := { i.m with ofs := mset 0 i.m.ofs (mRd i.w % 16) i.ra, pc := (i.m.pc + 8) % 2 ^ 32 } } := by
  rw [mWofs, hi]
  rfl

end

/-! ### ALU instructions -/

/-- An arithmetic shift right divides and rounds down. -/
theorem sshiftRight_eq_ofInt_div (a : Word) (n : Nat) : a.sshiftRight n = BitVec.ofInt 32 (a.toInt / 2 ^ n) := by
  rw [BitVec.sshiftRight, Int.shiftRight_eq_div_pow, Nat.cast_pow, Nat.cast_ofNat]

/-- Where two words are equal it does not matter which of them is chosen. -/
theorem ite_lt_eq_ite_le {a b x y : Word} (h : a = b → x = y) :
    (if a.toNat < b.toNat then x else y) = if a.toNat ≤ b.toNat then x else y := by
  rcases Nat.lt_trichotomy a.toNat b.toNat with hlt | heq | hgt
  · rw [if_pos hlt, if_pos hlt.le]
  · rw [if_neg heq.not_lt, if_pos heq.le, h (BitVec.eq_of_toNat_eq heq)]
  · rw [if_neg hgt.not_gt, if_neg hgt.not_ge]

/-- Settles O20: each of the fourteen is `alu` with its function, which writes one scalar register and steps the pc. -/
theorem millerAluInstructionsComputeAndStep : Obligations.MillerAluInstructionsComputeAndStep := by
  intro s site lf i mop q f hq hi
  have hexec : exec q s = done (alu site lf mop f s) := by
    simp only [List.mem_cons, List.not_mem_nil, or_false] at hq
    obtain ⟨rfl, rfl, rfl⟩ | ⟨rfl, rfl, rfl⟩ | ⟨rfl, rfl, rfl⟩ | ⟨rfl, rfl, rfl⟩ | ⟨rfl, rfl, rfl⟩ | ⟨rfl, rfl, rfl⟩ | ⟨rfl, rfl, rfl⟩ |
      ⟨rfl, rfl, rfl⟩ | ⟨rfl, rfl, rfl⟩ | ⟨rfl, rfl, rfl⟩ | ⟨rfl, rfl, rfl⟩ | ⟨rfl, rfl, rfl⟩ | ⟨rfl, rfl, rfl⟩ | ⟨rfl, rfl, rfl⟩ := hq
    iterate 7 rfl
    · simp only [← sshiftRight_eq_ofInt_div]; rfl
    iterate 4 rfl
    · simp only [← ite_lt_eq_ite_le id]; rfl
    · simp only [← ite_lt_eq_ite_le Eq.symm]; rfl
  obtain ⟨t, ht, hc, hctx, honly⟩ := done_of_eq_setCtx (alu_eq hi f)
  refine ⟨t, hexec.trans ht, fun r _ => ?_, ?_, hctx, honly⟩
  · rw [hc]
    exact Miller.get_set ..
  · rw [hc, Miller.set_eq]
    rfl

/-! ### Loads, stores and the registers of other engines -/

theorem mdmOk_iff {i : MIssue} {s : State} {n : Nat} : mdmOk i s n = true ↔ mAddr i % n = 0 ∧ mAddr i + n ≤ mdmSize s i.c := by
  simp [mdmOk]

theorem mdmOk_eq_false {i : MIssue} {s : State} {n : Nat} (h : mAddr i % n ≠ 0 ∨ mdmSize s i.c < mAddr i + n) :
    mdmOk i s n = false := by
  rw [Bool.eq_false_iff, ne_eq, mdmOk_iff]
  omega

@[simp] theorem length_toLE (n v : Nat) : (toLE n v).length = n := by
  induction n generalizing v with
  | zero => rfl
  | succ n ih => simp [toLE, ih]

/-- Byte `j` of a little-endian number (R8). -/
theorem getD_toLE {n j : Nat} (v : Nat) (h : j < n) : (toLE n v).getD j 0 = BitVec.ofNat 8 (v / 2 ^ (8 * j)) := by
  induction n generalizing v j with
  | zero => omega
  | succ n ih =>
    cases j with
    | zero => simp [toLE]
    | succ j =>
      rw [toLE, List.getD_cons_succ, ih _ (by omega), Nat.div_div_eq_div_mul, show 8 * (j + 1) = 8 + 8 * j by ring, pow_add]
      rfl

/-- A byte of a sparse memory reads as it was last written. -/
theorem mget_writeMap (m : KMap Byte) (a : Nat) (l : List Byte) (k : Nat) :
    mget 0 (writeMap m a l) k = if a ≤ k ∧ k < a + l.length then l.getD (k - a) 0 else mget 0 m k := mget_cellsWrite m a l k

theorem mget_writeMap_toLE (m : KMap Byte) (a n v k : Nat) : mget 0 (writeMap m a (toLE n v)) k =
    if a ≤ k ∧ k < a + n then BitVec.ofNat 8 (v / 2 ^ (8 * (k - a))) else mget 0 m k := by
  rw [mget_writeMap, length_toLE]
  split
  · exact getD_toLE _ (by omega)
  · rfl

/-- Every key after one is written. -/
theorem mget_mset {α : Type} [DecidableEq α] (d : α) (m : KMap α) (k j : Nat) (v : α) :
    mget d (mset d m k v) j = if j = k then v else mget d m j := by
  split
  · subst_vars
    exact mget_mset_same ..
  · exact mget_mset_other _ _ _ _ (by assumption)

/-- Settles O21: an access inside its bounds, and each register write, is one store of the context; an access outside them faults. -/
theorem millerLoadsStoresAndRegisterWrites : Obligations.MillerLoadsStoresAndRegisterWrites := by
  intro s site lf i
  refine ⟨fun n mop q hq hi => ?_, fun n mop q hq hi => ?_, fun hi => ?_, fun hi => ?_, fun hi => ?_⟩
  · -- LDW, LDB
    have hexec : exec q s = done (mLoad site lf mop n s) := by
      simp only [List.mem_cons, List.not_mem_nil, or_false] at hq
      obtain ⟨rfl, rfl, rfl⟩ | ⟨rfl, rfl, rfl⟩ := hq <;> rfl
    refine ⟨fun ha hb => ?_, fun hbad => hexec.trans (by rw [mLoad_bounds hi (mdmOk_eq_false hbad)]; rfl)⟩
    obtain ⟨t, ht, hc, hctx, honly⟩ := done_of_eq_setCtx (mLoad_eq hi (mdmOk_iff.mpr ⟨ha, hb⟩))
    refine ⟨t, hexec.trans ht, ?_, hctx, honly⟩
    rw [hc, Miller.set_eq]
    rfl
  · -- STW, STB
    have hexec : exec q s = done (mStore site lf mop n s) := by
      simp only [List.mem_cons, List.not_mem_nil, or_false] at hq
      obtain ⟨rfl, rfl, rfl⟩ | ⟨rfl, rfl, rfl⟩ := hq <;> rfl
    refine ⟨fun ha hb => ?_, fun hbad => hexec.trans (by rw [mStore_bounds hi (mdmOk_eq_false hbad)]; rfl)⟩
    obtain ⟨t, ht, hc, hctx, honly⟩ := done_of_eq_setCtx (mStore_eq hi (mdmOk_iff.mpr ⟨ha, hb⟩))
    refine ⟨t, hexec.trans ht, fun a => ?_, ?_, hctx, honly⟩ <;> rw [hc]
    · exact mget_writeMap_toLE ..
    · rfl
  · -- WHB
    obtain ⟨t, ht, hc, hctx, honly⟩ := done_of_eq_setCtx (mWhb_eq hi)
    refine ⟨t, ht, fun k => ?_, fun k => ?_, ?_, hctx, honly⟩ <;> rw [hc]
    · cases bitAt (mFn i.w) 3 <;> simp [mget_mset]
    · cases bitAt (mFn i.w) 3 <;> simp [mget_mset]
    · rfl
  · -- WLC
    obtain ⟨t, ht, hc, hctx, honly⟩ := done_of_eq_setCtx (mWlc_eq hi)
    refine ⟨t, ht, fun k => ?_, ?_, hctx, honly⟩ <;> rw [hc]
    exact mget_mset ..
  · -- WOFS
    obtain ⟨t, ht, hc, hctx, honly⟩ := done_of_eq_setCtx (mWofs_eq hi)
    refine ⟨t, ht, fun k => ?_, ?_, hctx, honly⟩ <;> rw [hc]
    exact mget_mset ..

end Sys2Proof.Machine
end

section
/-! SUPPORT. The sequencer: segments and hardware loops (R56 to R58, R167). -/
namespace Sys2Proof.Machine

/-- A command that ends as a store of one engine of a context. -/
theorem done_of_eq_putEng {s u : State} {cid e : Nat} {c : Ctx} {x : Eng} (h : u = putEng s cid c e x) :
    ∃ t, done u = .next t ∧ getCtx t cid = { c.setEng e x with lastMove := nowNs s } ∧ CtxOnly cid s t ∧ OnlyIn [.sched] s t :=
  done_of_eq_setCtx h

/-- An idle engine takes its oldest pending segment; the miller waits on another engine's segments or on none (R56). -/
theorem segBegin_eq {s : State} {site lf e cid g : Nat} {c : Ctx} {r : List Nat} (hr : runningAt s site lf = some (cid, c))
    (hcur : (c.eng e).cur = none) (hpend : (c.eng e).pend = g :: r) (hheld : (c.eng e).held = false)
    (hwait : c.miller.wait ≠ some (.seqFull e)) : segBegin s site lf e =
      putEng s cid c e { c.eng e with cur := some g, next := segStart ((ctxModule s c).table e) g, pend := r, loops := [] } := by
  simp only [segBegin, hr, hcur, hpend, hheld, if_neg hwait]

section
variable {i : Issue} {s : State} {lf : Nat}

theorem loopEnter_open {n : Nat} (h : countOf i.c.miller (recW i.rcd 2) = some (n + 1)) : loopEnter i s lf =
    putEng s i.cid i.c i.e { i.eng with loops := i.eng.loops ++ [⟨n + 1, 0, i.idx + 1⟩], next := i.idx + 1 } := by
  simp only [loopEnter, h]

theorem loopEnter_skip {j : Nat} {r : Rec} (h : countOf i.c.miller (recW i.rcd 2) = some 0)
    (hj : j = matchEnd (i.m.table i.e) (i.m.table i.e).length (i.idx + 1) 0) (hr : (i.m.table i.e)[j]? = some r) :
    loopEnter i s lf = putEng s i.cid i.c i.e (i.eng.past r j) := by
  simp only [loopEnter, h, ← hj, List.getD, hr, Option.getD_some]

theorem loopEnter_range (h : countOf i.c.miller (recW i.rcd 2) = none) :
    loopEnter i s lf = ctxFault s i.cid 0x01 (physEng i.m lf i.e) i.idx := by
  simp only [loopEnter, h]
  rfl

theorem loopLeave_again {l : LoopLv} (hl : i.eng.loops.getLast? = some l) (hn : l.done + 1 < l.count) : loopLeave i s =
    putEng s i.cid i.c i.e { i.eng with loops := i.eng.loops.dropLast ++ [{ l with done := l.done + 1 }], next := l.first } := by
  simp only [loopLeave, hl, if_pos hn]

theorem loopLeave_last {l : LoopLv} (hl : i.eng.loops.getLast? = some l) (hn : l.count ≤ l.done + 1) :
    loopLeave i s = putEng s i.cid i.c i.e { i.adv with loops := i.eng.loops.dropLast } := by
  simp only [loopLeave, hl, if_neg hn.not_gt]

end

theorem exec_loopBegin {s : State} {site : Site} {lf : LeafNo} {e : EngNo} {i : Issue} (hi : issueAt s site lf e [1] = some i) :
    exec (.loopBegin site lf e) s = done (loopEnter i s lf) := by
  change done _ = _
  rw [hi]

theorem exec_loopEnd {s : State} {site : Site} {lf : LeafNo} {e : EngNo} {i : Issue} (hi : issueAt s site lf e [2] = some i) :
    exec (.loopEnd site lf e) s = done (loopLeave i s) := by
  change done _ = _
  rw [hi]

/-- Settles O6: each command is one store of its engine, by the count of the loop or the passes left; a count out of range faults. -/
theorem sequencersRunLoopsAndSegments : Obligations.SequencersRunLoopsAndSegments := by
  refine ⟨fun s site lf e cid g c r hr hcur hpend hheld hwait => ?_, fun s site lf e i hi => ?_, fun s site lf e i l hi hl => ?_⟩
  · exact done_of_eq_putEng (segBegin_eq hr hcur hpend hheld hwait)
  · obtain ⟨-, -, -, he, -⟩ := issueAt_spec hi
    rw [exec_loopBegin hi, ← he]
    refine ⟨fun n hn => ?_, fun j r hn hj hr => ?_, fun hn => ?_⟩
    · exact done_of_eq_putEng (loopEnter_open hn)
    · exact done_of_eq_putEng (loopEnter_skip hn hj hr)
    · rw [loopEnter_range hn]
      rfl
  · obtain ⟨-, -, -, he, -⟩ := issueAt_spec hi
    rw [exec_loopEnd hi, ← he]
    exact ⟨fun hn => done_of_eq_putEng (loopLeave_again hl hn), fun hn => done_of_eq_putEng (loopLeave_last hl hn)⟩

end Sys2Proof.Machine
end

section
/-! SUPPORT. Operand queues, the miller's queue instructions, and what resumes once a queue has an entry or room (R62, R63, R185, R236). -/
namespace Sys2Proof.Machine

/-! ### Pushing and popping -/

/-- A context whose queue `q` holds other entries. -/
def Ctx.withQueue (c : Ctx) (q : Nat) (x : OpQueue) : Ctx := { c with queues := mset OpQueue.blank c.queues q x }

@[simp] theorem queue_withQueue (c : Ctx) (q : Nat) (x : OpQueue) : (c.withQueue q x).queue q = x := by
  simp [Ctx.queue, Ctx.withQueue]

/-- Entries that fit are all pushed, behind those that wait. -/
theorem push_of_room {c : Ctx} {depth q : Nat} {es : List Line} (h : (c.queue q).ents.length + es.length ≤ depth) :
    c.push depth q es = ([], c.withQueue q { c.queue q with ents := (c.queue q).ents ++ es }) := by
  have hroom : es.length ≤ depth - (c.queue q).ents.length := by omega
  simp only [Ctx.push, List.take_of_length_le hroom, List.drop_of_length_le hroom]
  rfl

/-- A full queue takes nothing. -/
theorem push_of_full {c : Ctx} {depth q : Nat} (es : List Line) (h : depth ≤ (c.queue q).ents.length) :
    c.push depth q es = (es, c.withQueue q (c.queue q)) := by
  simp only [Ctx.push, Nat.sub_eq_zero_of_le h, List.take_zero, List.drop_zero, List.append_nil]
  rfl

theorem pop_one_of_cons {c : Ctx} {q : Nat} {l : Line} {r : List Line} (depth : Nat) (h : (c.queue q).ents = l :: r) :
    c.pop depth q 1 = ([l], c.withQueue q ⟨r, ((c.queue q).head + 1) % (2 * max 1 depth)⟩) := by
  simp only [Ctx.pop, h]
  rfl

theorem pop_of_empty {c : Ctx} {q : Nat} (depth n : Nat) (h : (c.queue q).ents = []) :
    c.pop depth q n = ([], c.withQueue q ⟨[], (c.queue q).head % (2 * max 1 depth)⟩) := by
  simp only [Ctx.pop, h, List.take_nil, List.drop_nil]
  rfl

/-! ### `seq.run`, `qpop` and `qpush` -/

section
variable {s : State} {site lf : Nat} {i : MIssue}

theorem mSeqRun_eq {e seg : Nat} (hi : millerAt s site lf 0x32 = some i) (he : e = mFn i.w % 8) (hseg : seg = (i.ra + mImm i.w).toNat)
    (h0 : e ≠ 0) (hcount : seg < segCount ((ctxModule s i.c).table e)) (hroom : (i.c.eng e).pend.length < 4)
    (hfree : i.c.freezing = false) : mSeqRun site lf s =
      setCtx s i.cid { i.c.setEng e { i.c.eng e with pend := (i.c.eng e).pend ++ [seg] } with
        lastMove := nowNs s, miller := i.m.stepped } := by
  have hrange : ¬ (e = 0 ∨ segCount ((ctxModule s i.c).table e) ≤ seg) := by omega
  simp only [mSeqRun, hi, ← he, ← hseg, if_neg hrange, if_neg hroom.not_ge, hfree, Bool.false_and, Bool.or_false]
  rfl

theorem mSeqRun_full {e seg : Nat} (hi : millerAt s site lf 0x32 = some i) (he : e = mFn i.w % 8) (hseg : seg = (i.ra + mImm i.w).toNat)
    (h0 : e ≠ 0) (hcount : seg < segCount ((ctxModule s i.c).table e)) (hfull : 4 ≤ (i.c.eng e).pend.length) : mSeqRun site lf s =
      setCtx s i.cid { i.c with lastMove := nowNs s, miller := { i.m with wait := some (.seqFull e) } } := by
  have hrange : ¬ (e = 0 ∨ segCount ((ctxModule s i.c).table e) ≤ seg) := by omega
  simp only [mSeqRun, hi, ← he, ← hseg, if_neg hrange, if_pos hfull]
  rfl

theorem mSeqRun_range {e seg : Nat} (hi : millerAt s site lf 0x32 = some i) (he : e = mFn i.w % 8) (hseg : seg = (i.ra + mImm i.w).toNat)
    (hrange : e = 0 ∨ segCount ((ctxModule s i.c).table e) ≤ seg) :
    mSeqRun site lf s = ctxFault s i.cid 0x02 0 (i.m.pc / 8) := by
  simp only [mSeqRun, hi, ← he, ← hseg, if_pos hrange]
  rfl

theorem mQpop_eq {q : Nat} {l : Line} {r : List Line} (hi : millerAt s site lf 0x33 = some i) (hq : q = mFn i.w % 32)
    (hok : mdmOk i s 64 = true) (he : (i.c.queue q).ents = l :: r) : mQpop site lf s =
      setCtx s i.cid { i.c.withQueue q ⟨r, ((i.c.queue q).head + 1) % (2 * max 1 ((ctxModule s i.c).depth q))⟩ with
        mdm := writeMap i.c.mdm (mAddr i) (lineBytes l), lastMove := nowNs s, miller := i.m.stepped } := by
  simp only [mQpop, hi, ← hq, hok, Bool.not_true, Bool.false_eq_true, if_false, pop_one_of_cons _ he]
  rfl

theorem mQpop_empty {q : Nat} (hi : millerAt s site lf 0x33 = some i) (hq : q = mFn i.w % 32) (hok : mdmOk i s 64 = true)
    (he : (i.c.queue q).ents = []) :
    mQpop site lf s = setCtx s i.cid { i.c with lastMove := nowNs s, miller := { i.m with wait := some (.pop q) } } := by
  simp only [mQpop, hi, ← hq, hok, Bool.not_true, Bool.false_eq_true, if_false, pop_of_empty _ _ he]
  rfl

theorem mQpush_eq {q : Nat} (hi : millerAt s site lf 0x34 = some i) (hq : q = mFn i.w % 32) (hok : mdmOk i s 64 = true)
    (hroom : (i.c.queue q).ents.length < (ctxModule s i.c).depth q) : mQpush site lf s =
      setCtx s i.cid { i.c.withQueue q { i.c.queue q with ents := (i.c.queue q).ents ++ [bytesLine (i.c.mdmRead (mAddr i) 64)] } with
        lastMove := nowNs s, miller := i.m.stepped } := by
  simp only [mQpush, hi, ← hq, hok, Bool.not_true, Bool.false_eq_true, if_false,
    push_of_room (es := [bytesLine (i.c.mdmRead (mAddr i) 64)]) hroom]
  rfl

theorem mQpush_full {q : Nat} (hi : millerAt s site lf 0x34 = some i) (hq : q = mFn i.w % 32) (hok : mdmOk i s 64 = true)
    (hfull : (ctxModule s i.c).depth q ≤ (i.c.queue q).ents.length) :
    mQpush site lf s = setCtx s i.cid { i.c with lastMove := nowNs s, miller := { i.m with wait := some (.push q) } } := by
  simp only [mQpush, hi, ← hq, hok, Bool.not_true, Bool.false_eq_true, if_false, push_of_full _ hfull]
  rfl

end

/-! ### QUEUE_RESUME -/

section
variable {s : State} {site lf cid : Nat} {c : Ctx} (hr : runningAt s site lf = some (cid, c))
include hr

/-- A miller whose queue lets it go on waits no more. -/
theorem queueResume_miller {q : Nat} (h : c.miller.wait = some (.pop q) ∧ (c.queue q).ents ≠ [] ∨
      c.miller.wait = some (.push q) ∧ (c.queue q).ents.length < (ctxModule s c).depth q) :
    queueResume s site lf 0 = setCtx s cid { c with lastMove := nowNs s, miller := { c.miller with wait := none } } := by
  have hresume : millerResume (ctxModule s c) c = { c with miller := { c.miller with wait := none } } := by
    unfold millerResume
    obtain ⟨hw, hq⟩ | ⟨hw, hq⟩ := h <;> simp only [hw]
    · exact if_neg hq
    · exact if_pos hq
  have hchanged : ({ c with miller := { c.miller with wait := none } } : Ctx) ≠ c := fun heq => by
    have hw : none = c.miller.wait := congrArg (fun x : Ctx => x.miller.wait) heq
    obtain ⟨hp, -⟩ | ⟨hp, -⟩ := h <;> rw [hp] at hw <;> cases hw
  simp only [queueResume, hr, if_true, hresume, if_neg hchanged]
  rfl

/-- A hoist whose entries in hand all fit pushes them and waits no more. -/
theorem queueResume_hoist {e q : Nat} {h : HoistOp} (he : e ≠ 0) (hop : (c.eng e).op = some (.hoist h))
    (hw : (c.eng e).wait = some (.push q)) (hroom : (c.queue q).ents.length + h.buf.length ≤ (ctxModule s c).depth q) :
    queueResume s site lf e = putEng s cid (c.withQueue q { c.queue q with ents := (c.queue q).ents ++ h.buf }) e
      { c.eng e with op := some (.hoist { h with buf := [] }), wait := none } := by
  have hresume : resumeOp (ctxModule s c) c e (c.eng e) =
      (c.withQueue q { c.queue q with ents := (c.queue q).ents ++ h.buf },
        { c.eng e with op := some (.hoist { h with buf := [] }), wait := none }) := by
    simp only [resumeOp, hop, hw, push_of_room hroom]
  have hchanged : (c.withQueue q { c.queue q with ents := (c.queue q).ents ++ h.buf }).setEng e
      { c.eng e with op := some (.hoist { h with buf := [] }), wait := none } ≠ c := fun heq => by
    have hnone := congrArg (fun x : Ctx => (x.eng e).wait) heq
    simp [hw] at hnone
  simp only [queueResume, hr, if_neg he, hresume, if_neg hchanged]

end

/-- Settles O23: each outcome of `seq.run`, `qpop`, `qpush` and QUEUE_RESUME is one store of the context, or the fault of a bad segment. -/
theorem millerRunsSegmentsAndMovesQueueEntries : Obligations.MillerRunsSegmentsAndMovesQueueEntries := by
  intro s site lf
  refine ⟨fun i e seg hi he hseg => ⟨fun h0 hcount => ⟨fun hroom hfree => ?_, fun hfull => ?_⟩, fun hrange => ?_⟩,
    fun i q hi hq hok => ⟨fun l r he => ?_, fun he => ?_⟩, fun i q hi hq hok => ⟨fun hroom => ?_, fun hfull => ?_⟩,
    fun cid q c hr h => ?_, fun cid q c e h hr he hop hw hroom => ?_⟩
  · exact done_of_eq_setCtx (mSeqRun_eq hi he hseg h0 hcount hroom hfree)
  · exact done_of_eq_setCtx (mSeqRun_full hi he hseg h0 hcount hfull)
  · exact congrArg done (mSeqRun_range hi he hseg hrange)
  · obtain ⟨t, ht, hc, hctx, honly⟩ := done_of_eq_setCtx (mQpop_eq hi hq hok he)
    exact ⟨t, ht, by rw [hc]; exact congrArg OpQueue.ents (queue_withQueue ..), by rw [hc], by rw [hc]; rfl, hctx, honly⟩
  · exact done_of_eq_setCtx (mQpop_empty hi hq hok he)
  · obtain ⟨t, ht, hc, hctx, honly⟩ := done_of_eq_setCtx (mQpush_eq hi hq hok hroom)
    exact ⟨t, ht, by rw [hc]; exact congrArg OpQueue.ents (queue_withQueue ..), by rw [hc]; rfl, by rw [hc]; rfl, hctx, honly⟩
  · exact done_of_eq_setCtx (mQpush_full hi hq hok hfull)
  · exact done_of_eq_setCtx (queueResume_miller hr h)
  · have he0 : (e : Nat) ≠ 0 := Fin.val_ne_zero_iff.mpr he
    obtain ⟨t, ht, hc, hctx, honly⟩ := done_of_eq_putEng (queueResume_hoist hr he0 hop hw hroom)
    refine ⟨t, ht, ?_, ?_, hctx, honly⟩ <;> rw [hc]
    · exact congrArg OpQueue.ents (queue_withQueue ..)
    · exact eng_setEng_same ..

end Sys2Proof.Machine
end

section
/-! SUPPORT. Hoists: the step that a record issues, its transfers into data memory, its end, and a member that detaches (R69 to R72, R206
to R208, R266). -/
namespace Sys2Proof.Machine

/-! ### Issue -/

/-- A hoist operation runs between the places that a record names, at the record's base, and has moved nothing. -/
structure HoistOp.Describes (o : HoistOp) (i : Issue) : Prop where
  base_eq : o.base = hoistBase i.c (hInbound i) (recF i.rcd 2 6 3)
  e0_eq : o.e0 = recF i.rcd 4 0 13
  done_eq : o.done = 0
  onAddr_eq : o.onAddr = i.c.refAddr (recW i.rcd 3)
  inbound_eq : o.inbound = hInbound i
  offSp_eq : o.offSp = if hInbound i then recF i.rcd 2 0 3 else recF i.rcd 2 3 3
  onSp_eq : o.onSp = if hInbound i then recF i.rcd 2 3 3 else recF i.rcd 2 0 3

/-- A record whose counts lie within their maxima names one operation (R206, R207). -/
theorem hoistOf_spec {i : Issue} {indexed : Bool} {k : Rec} {a b d : Nat} (lf : Nat) (ha : countOf i.c.miller (recW k 2) = some a)
    (hbd : indexed = false → countOf i.c.miller (recW k 3) = some b ∧ countOf i.c.miller (recW k 4) = some d) :
    ∃ o, hoistOf i lf indexed k = some o ∧ o.Describes i ∧ o.total = (if indexed then a else a * b * d)
      ∧ o.mcast = if indexed then 0 else recF i.rcd 2 17 2 := by
  cases indexed with
  | true =>
    simp only [hoistOf, ha]
    exact ⟨_, rfl, ⟨rfl, rfl, rfl, rfl, rfl, rfl, rfl⟩, Nat.one_mul a, rfl⟩
  | false =>
    obtain ⟨hb, hd⟩ := hbd rfl
    simp only [hoistOf, ha, hb, hd]
    exact ⟨_, rfl, ⟨rfl, rfl, rfl, rfl, rfl, rfl, rfl⟩, by simp, rfl⟩

theorem hoistOf_eq_none {i : Issue} {k : Rec} (lf : Nat) (indexed : Bool) (ha : countOf i.c.miller (recW k 2) = none) :
    hoistOf i lf indexed k = none := by
  cases indexed <;> simp only [hoistOf, ha] <;> rfl

section
variable {s : State} {site lf e op : Nat} {i : Issue} {k : Rec} {indexed : Bool} (hi : issueAt s site lf e [op] = some i)
  (hk : (i.m.table i.e)[i.idx + 1]? = some k)
include hi hk

theorem hoistOpen_eq {o : HoistOp} (ho : hoistOf i lf indexed k = some o) (hm : o.mcast = 0) : hoistOpen site lf e op indexed s =
    putEng s i.cid i.c i.e { i.eng.past k (i.idx + 1) with op := some (.hoist o) } := by
  simp [hoistOpen, hi, hoistIssue, hk, ho, hm]

theorem hoistOpen_range (ho : hoistOf i lf indexed k = none) :
    hoistOpen site lf e op indexed s = ctxFault s i.cid 0x01 (physEng i.m lf i.e) i.idx := by
  simp only [hoistOpen, hi, hoistIssue, hk, ho]
  rfl

end

/-- Settles O9: the four records are `hoistOpen`, on engine 1 or 2, with three extents or an index list. -/
theorem hoistRecordsIssueTheirPattern : Obligations.HoistRecordsIssueTheirPattern := by
  intro s site lf i k op q hq hi hk
  have hexec : exec q s = done (hoistOpen site lf (if op < 0x042 then 1 else 2) op (decide (op % 2 ≠ 0)) s) := by
    simp only [List.mem_cons, List.not_mem_nil, or_false] at hq
    obtain ⟨rfl, rfl⟩ | ⟨rfl, rfl⟩ | ⟨rfl, rfl⟩ | ⟨rfl, rfl⟩ := hq <;> rfl
  obtain ⟨-, -, -, he, -⟩ := issueAt_spec hi
  have hin : hInbound i = decide (op < 0x042) := by
    rw [hInbound, he]
    split <;> simp_all
  refine ⟨fun a b d ha hbd hm => ?_, fun ha => ?_⟩
  · obtain ⟨o, ho, hdesc, htotal, hmcast⟩ := hoistOf_spec (indexed := decide (op % 2 ≠ 0)) (b := b) (d := d) lf ha
      fun h => hbd (by simpa using h)
    have hm0 : o.mcast = 0 := by
      rw [hmcast]
      split
      · rfl
      · exact hm (by simp_all)
    obtain ⟨t, ht, hc, hctx, honly⟩ := done_of_eq_putEng (hoistOpen_eq hi hk ho hm0)
    refine ⟨t, o, hexec.trans ht, ?_, hdesc.e0_eq, hdesc.done_eq, ?_, hdesc.onAddr_eq, hdesc.inbound_eq.trans hin, ?_, ?_, hc, hctx,
      honly⟩
    · rw [hdesc.base_eq, hoistBase, hin]
      simp
    · rw [htotal]
      by_cases h : op % 2 = 0 <;> simp [h]
    · rw [hdesc.offSp_eq, hin]
      by_cases h : op < 0x042 <;> simp [h]
    · rw [hdesc.onSp_eq, hin]
      by_cases h : op < 0x042 <;> simp [h]
  · rw [hexec, hoistOpen_range hi hk (hoistOf_eq_none _ _ ha)]
    rfl

/-! ### Transfers -/

/-- What is in progress on an engine of a leaf that runs. -/
theorem hoistAt_spec {s : State} {site lf e cid : Nat} {c : Ctx} {x : Eng} {o : HoistOp} (h : hoistAt s site lf e = some (cid, c, x, o)) :
    c = getCtx s cid ∧ x.op = some (.hoist o) := by
  unfold hoistAt at h
  split at h
  · cases h
  · rename_i hr
    split at h
    · rename_i hop
      cases h
      exact ⟨(runningAt_ctx hr).2.2, hop⟩
    · cases h

section
variable {s : State} {site lf cid : Nat} {c : Ctx} {x : Eng} {o : HoistOp} {env : XferEnv}
  (h : hoistAt s site lf 1 = some (cid, c, x, o)) (hin : o.inbound = true) (hon : o.onSp = 0) (hm : o.mcast = 0)
  (hbuf : o.buf = []) (hdone : o.done < o.total) (hwait : x.wait = none) (hup : env.upset = [])

include h hin hm hbuf hdone hwait hup in
/-- A transfer of an inbound step checks its run first (R71). -/
theorem hoistXfer_in : hoistXfer s site lf 1 env =
    if onChipOk s c o then xferIn s site lf cid c x o env else xferFault s cid cfDmemBounds lf 1 o := by
  have hgo : ¬ (o.total ≤ o.done ∨ (o.inbound ∧ o.buf ≠ []) ∨ (o.mcast = 2 ∧ !o.detached)) := by simp [hbuf, hm, hdone]
  have hsend : ¬ (o.mcast = 1 ∧ o.line = 0 ∧ groupOthers s cid c ≠ []) := by simp [hm]
  simp only [hoistXfer, h, if_neg hsend, if_neg hgo, hwait, hup]
  cases hok : onChipOk s c o <;> simp [upsetLines, hok, hin]

variable {a : Nat} {s1 : State} (ha : xferAddr s c o o.done = some a)

include hon hm ha in
theorem xferIn_ok {l : List Byte} (hread : offRead s c o.offSp a o.e0 env = (.ok l, s1)) : xferIn s site lf cid c x o env =
    putEng (meshCount s1 site c.part o.e0) cid ((getCtx s1 cid).dmemWrite (o.onAddr + o.done * o.e0) l) 1
      { x with op := some (.hoist { o with done := o.done + 1 }), wait := none } := by
  simp only [xferIn, hon, hm, ha, hread, deliver, zero_ne_one, OfNat.zero_ne_ofNat, false_and, if_false]
  rfl

include hon hm ha in
theorem xferIn_fault {code : Nat} (hread : offRead s c o.offSp a o.e0 env = (.fault code, s1)) :
    xferIn s site lf cid c x o env = xferFault s1 cid code lf 1 o := by
  simp [xferIn, hon, hm, ha, hread]

end

theorem onlyIn_meshCount (s : State) (site p n : Nat) : OnlyIn [.bus] s (meshCount s site p n) := onlyIn_bump64 ..

theorem meshCount_sched (s : State) (site p n : Nat) : (meshCount s site p n).sched = s.sched := bump64_sched ..

/-! ### The end of a step, and a member that detaches -/

/-- A context whose base register of a hoist holds `v`. -/
def Ctx.withBase (c : Ctx) (inbound : Bool) (k : Nat) (v : DWord) : Ctx :=
  if inbound then { c with hbIn := mset 0 c.hbIn k v } else { c with hbOut := mset 0 c.hbOut k v }

/-- The base register after a step: post-modified, or as it was (R208). -/
def HoistOp.baseAfter (o : HoistOp) (c : Ctx) : DWord :=
  match o.post with
  | some p => BitVec.ofInt 64 ((hoistBase c o.inbound o.hb).toNat + p)
  | none => hoistBase c o.inbound o.hb

theorem hoistBase_withBase_same (c : Ctx) (inb : Bool) (k : Nat) (v : DWord) : hoistBase (c.withBase inb k v) inb k = v := by
  cases inb <;> exact mget_mset_same ..

theorem mget_mset_self {α : Type} [DecidableEq α] (d : α) (m : KMap α) (k j : Nat) : mget d (mset d m k (mget d m k)) j = mget d m j := by
  rw [mget_mset]
  split
  · subst_vars
    rfl
  · rfl

/-- A base register that is written with its own value leaves every one as it was. -/
theorem hoistBase_withBase_self (c : Ctx) (inb side : Bool) (k b : Nat) :
    hoistBase (c.withBase inb k (hoistBase c inb k)) side b = hoistBase c side b := by
  cases inb <;> cases side
  · exact mget_mset_self ..
  · rfl
  · rfl
  · exact mget_mset_self ..

theorem hoistDone_eq {s : State} {site lf e cid : Nat} {c : Ctx} {x : Eng} {o : HoistOp} (h : hoistAt s site lf e = some (cid, c, x, o))
    (hdone : o.total ≤ o.done) (hbuf : o.buf = []) (hwait : x.wait ≠ some .mcastRecv) (hm : o.mcast = 0) : hoistDone s site lf e =
      putEng s cid (c.withBase o.inbound o.hb (o.baseAfter c)) e { x with op := none, wait := none } := by
  have hover : ¬ (o.done < o.total ∨ o.buf ≠ [] ∨ x.wait = some .mcastRecv ∨
      (o.mcast = 1 ∧ o.line = 0 ∧ groupOthers s cid c ≠ [])) := by simp [hbuf, hm, hdone, hwait]
  simp only [hoistDone, h, if_neg hover]
  rfl

theorem memberDetach_eq {s : State} {site lf cid : Nat} {c : Ctx} {x : Eng} {o : HoistOp} (h : hoistAt s site lf 1 = some (cid, c, x, o))
    (hm : o.mcast = 2) (hdet : o.detached = false) (hdone : o.done < o.total) (hwait : x.wait ≠ some .mcastRecv)
    (hroom : hopperRoom s site o.stone o.part o.e0 = false) : memberDetach s site lf =
      countDetach (putEng s cid c 1 { x with op := some (.hoist { o with detached := true }) }) site := by
  simp [memberDetach, h, hm, hdet, hdone, hwait, hroom]

theorem onlyIn_countDetach (s : State) (site : Nat) : OnlyIn [.bus] s (countDetach s site) := onlyIn_bump64 ..

/-- Settles O10: a transfer ends as one store of its engine after the read, or as the fault; so do the end of a step and a detach. -/
theorem hoistTransfersMoveTheirRun : Obligations.HoistTransfersMoveTheirRun := by
  intro s site lf cid c x o
  refine ⟨fun h hin hon hm hbuf hdone hwait env hup => ⟨fun a l s1 hok ha hread => ?_, fun hok => ?_,
    fun a code s1 hok ha hcode hread => ?_⟩, fun e h hdone hbuf hwait hm => ?_, fun h hm hdet hdone hwait hroom => ?_⟩
  · have hx : hoistXfer s site lf 1 env = _ := (hoistXfer_in h hin hm hbuf hdone hwait hup).trans (if_pos hok)
    obtain ⟨t, ht, hc, hctx, honly⟩ := done_of_eq_putEng (hx.trans (xferIn_ok hon hm ha hread))
    have hmem (k : Nat) : mget 0 (getCtx t cid).dmem k =
        if o.onAddr + o.done * o.e0 ≤ k ∧ k < o.onAddr + o.done * o.e0 + l.length then l.getD (k - (o.onAddr + o.done * o.e0)) 0
        else mget 0 (getCtx s1 cid).dmem k := by
      rw [hc]
      exact mget_writeMap ..
    refine ⟨t, ht, ?_, fun j hj => ?_, fun b hb => ?_, ?_, ?_⟩
    · rw [hc]
      exact eng_setEng_same ..
    · rw [hmem, if_pos (by omega), Nat.add_sub_cancel_left]
      simp [hj]
    · rw [hmem, if_neg (by omega)]
    · exact ctxOnly_trans (ctxOnly_of_sched (meshCount_sched ..)) hctx
    · exact onlyIn_trans (onlyIn_mono (onlyIn_meshCount ..) (by simp)) (onlyIn_mono honly (by simp))
  · have hx : hoistXfer s site lf 1 env = _ := (hoistXfer_in h hin hm hbuf hdone hwait hup).trans (if_neg (by simp [hok]))
    exact congrArg done (hx.trans (xferFault_of_ne _ _ _ _ _ (by decide)))
  · have hx : hoistXfer s site lf 1 env = _ := (hoistXfer_in h hin hm hbuf hdone hwait hup).trans (if_pos hok)
    exact congrArg done (hx.trans ((xferIn_fault hon hm ha hread).trans (xferFault_of_ne _ _ _ _ _ hcode)))
  · obtain ⟨t, ht, hc, hctx, honly⟩ := done_of_eq_putEng (hoistDone_eq h hdone hbuf hwait hm)
    have hbase (side : Bool) (b : Nat) :
        hoistBase (getCtx t cid) side b = hoistBase (c.withBase o.inbound o.hb (o.baseAfter c)) side b := by
      rw [hc]
      rfl
    refine ⟨t, ht, ?_, fun p hp => ?_, fun hp b => ?_, hctx, honly⟩
    · rw [hc]
      exact eng_setEng_same ..
    · refine (hbase o.inbound o.hb).trans ((hoistBase_withBase_same ..).trans ?_)
      rw [HoistOp.baseAfter, hp]
      rfl
    · have hkeep (side : Bool) : hoistBase (getCtx t cid) side b = hoistBase c side b := by
        rw [hbase, HoistOp.baseAfter, hp]
        exact hoistBase_withBase_self ..
      exact ⟨hkeep true, hkeep false⟩
  · have hd := memberDetach_eq h hm hdet hdone hwait hroom
    have hstore := onlyIn_putEng s cid c 1 { x with op := some (.hoist { o with detached := true }) }
    refine ⟨_, congrArg done hd, ?_, ctxOnly_settle (ctxOnly_putEng s cid c 1 _), onlyIn_settle ?_⟩
    · rw [getCtx_settle]
      exact (congrArg (fun y : Ctx => y.eng 1) (getCtx_putEng_same ..)).trans (eng_setEng_same ..)
    · exact onlyIn_trans (onlyIn_mono hstore (by simp)) (onlyIn_mono (onlyIn_countDetach ..) (by simp))

end Sys2Proof.Machine
end

section
/-! SUPPORT. Spout stores: what one holds as it issues, the order of their completion, and their granary updates (R55, R154 to R157, R218,
R219). -/
namespace Sys2Proof.Machine

/-! ### What a store writes -/

/-- The converted rows of a region; none of an empty one. -/
def storeOut (s : State) (i : Issue) (g : Region) : List (List Nat × Nat) :=
  if g.n = 0 then [] else (List.range g.m).map (rowOut s i.c i.rcd g)

/-- The runs of bytes that a store to data memory holds: one for each row, a pitch apart (R218). -/
def storeDst (s : State) (i : Issue) (g : Region) : List (Nat × List Byte) :=
  ((((storeOut s i g).map (fun x => x.1)).map (packElems (fmtBits (oFmt i.rcd)))).zipIdx).map (fun p =>
    (i.c.refAddr (recW i.rcd 4) + p.2 * roundUp (g.rowBytes (oFmt i.rcd)) 16, p.1))

theorem storeDst_of_empty {s : State} {i : Issue} {g : Region} (h : g.n = 0) : storeDst s i g = [] := by
  simp [storeDst, storeOut, h]

theorem length_storeDst {s : State} {i : Issue} {g : Region} (h : g.n ≠ 0) : (storeDst s i g).length = g.m := by
  simp [storeDst, storeOut, h]

theorem getElem?_storeDst {s : State} {i : Issue} {g : Region} {j : Nat} {p : Nat × List Byte} (h : (storeDst s i g)[j]? = some p) :
    p = (i.c.refAddr (recW i.rcd 4) + j * roundUp (g.rowBytes (oFmt i.rcd)) 16,
      packElems (fmtBits (oFmt i.rcd)) (rowOut s i.c i.rcd g j).1) := by
  by_cases hn : g.n = 0
  · simp [storeDst_of_empty hn] at h
  · have hj : j < g.m := by
      rw [← length_storeDst (s := s) (i := i) hn]
      exact (List.getElem?_eq_some_iff.mp h).1
    simpa [storeDst, storeOut, hn, hj] using h.symm

/-! ### Issue -/

/-- A store enters the spout's line, and its words are counted. -/
def spoutEnter (s : State) (site : Nat) (drv : Nat × Nat) (words : Nat) : State :=
  bump64 (setMill s site { getMill s site with spout := (getMill s site).spout ++ [drv] }) (reg .mill site 0x1B0) words

theorem push_nil (c : Ctx) (depth q : Nat) : c.push depth q [] = ([], c.withQueue q (c.queue q)) := by
  simp only [Ctx.push, List.take_nil, List.drop_nil, List.append_nil]
  rfl

theorem past_wait (x : Eng) (r : Rec) (idx : Nat) : (x.past r idx).wait = x.wait := by
  unfold Eng.past
  split <;> rfl

/-- An engine that does not wait. -/
theorem op_wait_of_not_waiting {x : Eng} (h : x.wait = none) (op : Option EngOp) :
    ({ x with op := op, wait := none } : Eng) = { x with op := op } := by
  rw [← h]

section
variable {s : State} {site lf : Nat} {i : Issue} {g : Region} (hg : regionOf i = some g)
include hg

/-- A store to data memory that raises no fault enters the spout with its rows; the context keeps its memory and its tiles. -/
theorem storeIssue_memory (hf : storeFault s i g = none) (hq : oToQueue i.rcd = false) :
    ∃ (c : Ctx) (q : Nat) (atoms : List Atom),
      storeIssue i s site lf = putEng (spoutEnter s site (lf, physEng i.m lf i.e) (g.m * g.n * (if g.cplx then 2 else 1))) i.cid c i.e
        { i.adv with op := some (.store ⟨i.idx, storeDst s i g, q, [], atoms⟩), wait := none }
      ∧ c.dmem = i.c.dmem ∧ c.tiles = i.c.tiles := by
  simp only [storeIssue, hg, hf, hq, Bool.false_eq_true, if_false, push_nil]
  exact ⟨_, _, _, rfl, rfl, rfl⟩

theorem storeIssue_fault {code : Nat} (hf : storeFault s i g = some code) :
    storeIssue i s site lf = ctxFault s i.cid code (physEng i.m lf i.e) i.idx := by
  simp only [storeIssue, hg, hf]
  rfl

end

/-! ### Completion and granary updates -/

theorem dmem_foldl_dmemWrite (l : List (Nat × List Byte)) (c : Ctx) :
    l.foldl (fun c p => c.dmemWrite p.1 p.2) c = { c with dmem := l.foldl (fun m p => writeMap m p.1 p.2) c.dmem } := by
  induction l generalizing c with
  | nil => rfl
  | cons p r ih => exact ih _

section
variable {s : State} {site lf e cid : Nat} {c : Ctx} {x : Eng} {o : StoreOp} (h : storeAt s site lf e = some (cid, c, x, o))
  (hents : o.ents = [])

theorem storeDone_of_written (hrows : o.rows = []) (hents : o.ents = []) :
    x.storeDone o = { x with op := if o.atoms = [] then none else some (.store o) } := by
  simp only [Eng.storeDone, hrows, hents, true_and]
  split <;> rfl

include h hents

/-- The store at the front of the line writes its rows and leaves the line (R55, R154). -/
theorem storeComplete_eq {rest : List (Nat × Nat)} (hfront : (getMill s site).spout = (lf, physEng (ctxModule s c) lf e) :: rest) :
    storeComplete s site lf e = putEng (setMill s site { getMill s site with spout := rest }) cid
      { c with dmem := o.rows.foldl (fun m p => writeMap m p.1 p.2) c.dmem } e
      { x with op := if o.atoms = [] then none else some (.store { o with rows := [] }) } := by
  simp only [storeComplete, h, hfront, hents, and_self, if_true, dmem_foldl_dmemWrite]
  rw [storeDone_of_written rfl rfl]

variable {a : Atom} {rest : List Atom} {s1 : State} (hrows : o.rows = []) (hatoms : o.atoms = a :: rest)
include hrows hatoms

theorem storeAtomic_ok {l : List Byte} (hdev : devAtomic s c.part a = (.ok l, s1)) : storeAtomic s site lf e =
    putEng s1 cid c e { x with op := if rest = [] then none else some (.store { o with atoms := rest }) } := by
  simp only [storeAtomic, h, hrows, hents, hatoms, hdev]
  rw [storeDone_of_written rfl rfl]

theorem storeAtomic_denied (hdev : devAtomic s c.part a = (.denied, s1)) :
    storeAtomic s site lf e = ctxFault s1 cid 0x10 (physEng (ctxModule s1 c) lf e) o.step := by
  simp only [storeAtomic, h, hrows, hents, hatoms, hdev]
  rfl

end

theorem getMill_setMill_same (s : State) (site : Nat) (m : Mill) : getMill (setMill s site m) site = m := mget_mset_same ..

theorem onlyIn_setMill (s : State) (site : Nat) (m : Mill) : OnlyIn [.mills] s (setMill s site m) := by
  refine ⟨rfl, fun c hc => ?_⟩
  cases c
  case mills => exact absurd List.mem_cons_self hc
  all_goals rfl

theorem getMill_congr {s t : State} (h : t.mills = s.mills) (site : Nat) : getMill t site = getMill s site := by
  rw [getMill, getMill, h]

/-! A store enters the line last and its words are counted; nothing but the mill and the counter changes. -/

theorem getMill_spoutEnter (s : State) (site : Nat) (drv : Nat × Nat) (words : Nat) :
    (getMill (spoutEnter s site drv words) site).spout = (getMill s site).spout ++ [drv] :=
  congrArg Mill.spout (getMill_setMill_same ..)

theorem getD64_spoutEnter (s : State) (site : Nat) (drv : Nat × Nat) (words : Nat) :
    getD64 (spoutEnter s site drv words) (reg .mill site 0x1B0) = getD64 s (reg .mill site 0x1B0) + BitVec.ofNat 64 words :=
  getD64_bump64_same ..

theorem onlyIn_spoutEnter (s : State) (site : Nat) (drv : Nat × Nat) (words : Nat) :
    OnlyIn [.mills, .bus] s (spoutEnter s site drv words) :=
  onlyIn_trans (onlyIn_mono (onlyIn_setMill ..) (by simp)) (onlyIn_mono (onlyIn_bump64 ..) (by simp))

/-- Settles O13: a store's issue and its completion are one update of the spout's line and one store of the engine; an update of the
granary is one store of the engine after the atomic, or the fault. -/
theorem spoutStoresWriteRowsThenGranaryUpdates : Obligations.SpoutStoresWriteRowsThenGranaryUpdates := by
  intro s site lf e
  refine ⟨fun i g hi hg => ?_, fun cid c x o h hents => ⟨fun rest hfront => ?_, fun a rest hrows hatoms => ⟨fun l s1 hdev => ?_,
    fun s1 hdev => ?_⟩⟩⟩
  · obtain ⟨-, -, -, he, hx, -, -, -, -, -, hwait, -, -⟩ := issueAt_spec hi
    have hexec : exec (.spoutStore site lf e) s = done (storeIssue i s site lf) := by
      change done _ = _
      rw [hi]
    refine ⟨fun hf hq => ?_, fun code hf => ?_⟩
    · obtain ⟨c', q, atoms, hissue, hdmem, htiles⟩ := storeIssue_memory (site := site) (lf := lf) hg hf hq
      have hadv : i.adv.wait = none := (past_wait ..).trans hwait
      obtain ⟨t, ht, hc, hctx, honly⟩ := done_of_eq_putEng hissue
      refine ⟨t, _, hexec.trans ht, by rw [hc, he]; exact (eng_setEng_same ..).trans (op_wait_of_not_waiting hadv _), rfl, storeDst_of_empty, length_storeDst,
        fun j p => getElem?_storeDst, ?_, ?_, by rw [hc]; exact hdmem, by rw [hc]; exact htiles,
        ctxOnly_trans (ctxOnly_of_sched rfl) hctx,
        onlyIn_trans (onlyIn_mono (onlyIn_spoutEnter ..) (by simp)) (onlyIn_mono honly (by simp))⟩
      · rw [getMill_congr (honly.2 .mills (by decide)), getMill_spoutEnter, he]
      · rw [getD64_congr (honly.2 .bus (by decide)), getD64_spoutEnter]
    · rw [hexec, storeIssue_fault hg hf, he]
      rfl
  · obtain ⟨t, ht, hc, hctx, honly⟩ := done_of_eq_putEng (storeComplete_eq h hents hfront)
    refine ⟨t, ht, ?_, ?_, ?_, ctxOnly_trans (ctxOnly_of_sched rfl) hctx,
      onlyIn_trans (onlyIn_mono (onlyIn_setMill ..) (by simp)) (onlyIn_mono honly (by simp))⟩
    · rw [hc]
      rfl
    · rw [hc]
      exact eng_setEng_same ..
    · rw [getMill_congr (honly.2 .mills (by decide)), getMill_setMill_same]
  · obtain ⟨t, ht, hc, hctx, honly⟩ := done_of_eq_putEng (storeAtomic_ok h hents hrows hatoms hdev)
    exact ⟨t, ht, by rw [hc]; exact eng_setEng_same .., hctx, honly⟩
  · exact congrArg done (storeAtomic_denied h hents hrows hatoms hdev)

end Sys2Proof.Machine
end

section
/-! SUPPORT. Leaves and mills: what charging, stopping, starting and clearing a leaf changes (R75 to R81, R314, R318, R319). -/
namespace Sys2Proof.Machine

/-! ### Frames -/

theorem onlyIn_foldl {α : Type} {l : List Comp} {f : State → α → State} (h : ∀ s a, OnlyIn l s (f s a)) (xs : List α) (s : State) :
    OnlyIn l s (xs.foldl f s) := by
  induction xs generalizing s with
  | nil => exact onlyIn_refl l s
  | cons a r ih => exact onlyIn_trans (h s a) (ih _)

theorem onlyIn_setSlice (s : State) (n : Nat) (x : Slice) : OnlyIn [.sched] s (setSlice s n x) := onlyIn_sched s _

theorem onlyIn_gov (s : State) (g : Gov) : OnlyIn [.gov] s { s with gov := g } := by
  refine ⟨rfl, fun c hc => ?_⟩
  cases c
  case gov => exact absurd List.mem_cons_self hc
  all_goals rfl

theorem onlyIn_setLeaf (s : State) (site lf : Nat) (x : Leaf) : OnlyIn [.mills, .gov] s (setLeaf s site lf x) :=
  onlyIn_trans (onlyIn_mono (onlyIn_gov ..) (by simp)) (onlyIn_mono (onlyIn_setMill ..) (by simp))

theorem onlyIn_setStone (s : State) (site k : Nat) (x : Stone) : OnlyIn [.mills] s (setStone s site k x) := onlyIn_setMill ..

theorem nowNs_congr {s t : State} (h : t.ftl = s.ftl) : nowNs t = nowNs s := by simp only [nowNs, ftlT, h]

/-- Of the scheduler's data only the accounts of slices change, and beside it only mills, the registers and the governor's row times. -/
def ChargeOnly (s t : State) : Prop := t.sched = { s.sched with slices := t.sched.slices } ∧ OnlyIn [.sched, .mills, .bus, .gov] s t

namespace ChargeOnly

theorem of_sched {s t : State} (h : t.sched = s.sched) (ho : OnlyIn [.mills, .bus, .gov] s t) : ChargeOnly s t :=
  ⟨by rw [h], onlyIn_mono ho (by simp)⟩

theorem refl (s : State) : ChargeOnly s s := of_sched rfl (onlyIn_refl _ s)

theorem setSlice (s : State) (n : Nat) (x : Slice) : ChargeOnly s (setSlice s n x) := ⟨rfl, onlyIn_mono (onlyIn_setSlice ..) (by simp)⟩

theorem setMill (s : State) (site : Nat) (m : Mill) : ChargeOnly s (setMill s site m) := of_sched rfl (onlyIn_mono (onlyIn_setMill ..) (by simp))

theorem setLeaf (s : State) (site lf : Nat) (x : Leaf) : ChargeOnly s (setLeaf s site lf x) :=
  of_sched rfl (onlyIn_mono (onlyIn_setLeaf ..) (by simp))

theorem raiseInt (s : State) (b : Block) (i bit : Nat) : ChargeOnly s (raiseInt s b i bit) :=
  of_sched (raiseInt_sched ..) (onlyIn_mono (onlyIn_raiseInt ..) (by simp))

variable {s t u : State}

theorem trans (h : ChargeOnly s t) (k : ChargeOnly t u) : ChargeOnly s u := ⟨by rw [k.1, h.1], onlyIn_trans h.2 k.2⟩

theorem foldl {α : Type} {f : State → α → State} (h : ∀ s a, ChargeOnly s (f s a)) (xs : List α) (s : State) : ChargeOnly s (xs.foldl f s) := by
  induction xs generalizing s with
  | nil => exact refl s
  | cons a r ih => exact (h s a).trans (ih _)

theorem ctxs (h : ChargeOnly s t) : t.sched.ctxs = s.sched.ctxs := by rw [h.1]

theorem drains (h : ChargeOnly s t) : t.sched.drains = s.sched.drains := by rw [h.1]

theorem getCtx (h : ChargeOnly s t) (k : Nat) : getCtx t k = getCtx s k := by rw [Machine.getCtx, h.ctxs, Machine.getCtx]

theorem nowNs (h : ChargeOnly s t) : nowNs t = nowNs s := nowNs_congr (h.2.2 .ftl (by decide))

end ChargeOnly

/-! ### A mill without its stones and its waiting stores -/

/-- Leaves and modes of a mill: all but its stones, the spout's line and the hopper wait. -/
def Mill.leaves (m : Mill) : Leaf × Leaf × Nat × Bool × Option Nat := (m.leaf0, m.leaf1, m.runLeaf, m.split, m.swTo)

theorem getMill_setMill_other (s : State) {site k : Nat} (m : Mill) (h : k ≠ site) : getMill (setMill s site m) k = getMill s k :=
  mget_mset_other _ _ _ _ h

theorem leaves_setMill {s : State} {site : Nat} {m : Mill} (h : m.leaves = (getMill s site).leaves) (k : Nat) :
    (getMill (setMill s site m) k).leaves = (getMill s k).leaves := by
  by_cases hk : k = site
  · subst hk
    rw [getMill_setMill_same, h]
  · rw [getMill_setMill_other _ _ hk]

theorem getLeaf_of_leaves {s t : State} {site : Nat} (h : (getMill t site).leaves = (getMill s site).leaves) (l : Nat) :
    getLeaf t site l = getLeaf s site l := by
  exact congrArg (fun x : Leaf × Leaf × Nat × Bool × Option Nat => if l = 0 then x.1 else x.2.1) h

theorem split_of_leaves {s t : State} {site : Nat} (h : (getMill t site).leaves = (getMill s site).leaves) :
    (getMill t site).split = (getMill s site).split :=
  congrArg (fun x : Leaf × Leaf × Nat × Bool × Option Nat => x.2.2.2.1) h

/-! ### One leaf replaced -/

theorem leaf_setLeaf_same (m : Mill) (l : Nat) (x : Leaf) : (m.setLeaf l x).leaf l = x := by
  unfold Mill.setLeaf Mill.leaf
  split <;> rfl

theorem leaf_setLeaf_other (m : Mill) {l k : Nat} (x : Leaf) (h : k = 0 ↔ l ≠ 0) : (m.setLeaf l x).leaf k = m.leaf k := by
  unfold Mill.setLeaf Mill.leaf
  by_cases hl : l = 0 <;> simp [hl, h]

theorem getLeaf_setLeaf_same (s : State) (site lf : Nat) (x : Leaf) : getLeaf (setLeaf s site lf x) site lf = x := by
  rw [getLeaf, setLeaf, getMill_setMill_same, leaf_setLeaf_same]

/-- The other leaf of the mill. -/
theorem getLeaf_setLeaf_other (s : State) (site : Nat) {lf k : Nat} (x : Leaf) (h : k = 0 ↔ lf ≠ 0) :
    getLeaf (setLeaf s site lf x) site k = getLeaf s site k := by
  rw [getLeaf, setLeaf, getMill_setMill_same, leaf_setLeaf_other _ _ h]
  rfl

theorem split_setLeaf (s : State) (site lf : Nat) (x : Leaf) : (getMill (setLeaf s site lf x) site).split = (getMill s site).split := by
  rw [setLeaf, getMill_setMill_same, Mill.setLeaf]
  split <;> rfl

theorem getLeaf_congr {s t : State} (h : t.mills = s.mills) (site l : Nat) : getLeaf t site l = getLeaf s site l := by
  rw [getLeaf, getMill_congr h, getLeaf]

/-! ### Stones and hoppers: the leaves stay as they are -/

theorem leaves_setStone (s : State) (site k j : Nat) (x : Stone) : (getMill (setStone s site k x) j).leaves = (getMill s j).leaves := by
  refine leaves_setMill ?_ j
  rfl

theorem leaves_dropHoppers (s : State) (site lf j : Nat) : (getMill (dropHoppers s site lf) j).leaves = (getMill s j).leaves := by
  refine foldl_keeps (fun s => (getMill s j).leaves) _ _ s fun s k => ?_
  dsimp only
  split
  · exact leaves_setStone ..
  · rfl

theorem dropHoppers_charge (s : State) (site lf : Nat) : ChargeOnly s (dropHoppers s site lf) := by
  refine ChargeOnly.foldl (fun s k => ?_) _ s
  dsimp only
  split
  · exact ChargeOnly.setMill ..
  · exact ChargeOnly.refl s

theorem dropHoppers_bus (s : State) (site lf : Nat) : (dropHoppers s site lf).bus = s.bus := by
  refine foldl_keeps State.bus _ _ s fun s k => ?_
  dsimp only
  split <;> rfl

theorem leaves_hopMark (s : State) (site j : Nat) : (getMill (hopMark s site) j).leaves = (getMill s j).leaves := by
  unfold hopMark
  dsimp only
  split
  · refine leaves_setMill ?_ j
    rfl
  · rw [getMill_congr (bump64_mills ..)]
    refine leaves_setMill ?_ j
    rfl
  · rfl

theorem hopMark_charge (s : State) (site : Nat) : ChargeOnly s (hopMark s site) := by
  unfold hopMark
  dsimp only
  split
  · exact ChargeOnly.setMill ..
  · exact (ChargeOnly.setMill ..).trans (ChargeOnly.of_sched rfl (onlyIn_mono (onlyIn_bump64 ..) (by simp)))
  · exact ChargeOnly.refl s

theorem wordsOnly_bump64 (s : State) (a n : Nat) : WordsOnly [a, a + 4] s (bump64 s a n) :=
  wordsOnly_trans (wordsOnly_mono (wordsOnly_setW ..) (by simp)) (wordsOnly_mono (wordsOnly_setW ..) (by simp))

/-- The hopper wait is counted in one 64-bit counter of the mill's page (R159). -/
theorem wordsOnly_hopMark (s : State) (site : Nat) :
    WordsOnly [reg .mill site 0x1A0, reg .mill site 0x1A4] s (hopMark s site) := by
  unfold hopMark
  dsimp only
  split
  · exact wordsOnly_of_bus rfl
  · exact wordsOnly_trans (wordsOnly_of_bus rfl) (wordsOnly_bump64 ..)
  · exact wordsOnly_refl ..

theorem releaseStones_charge (s : State) (site lf : Nat) (p : Nat → Bool) : ChargeOnly s (releaseStones s site lf p) := by
  refine ChargeOnly.foldl (fun s k => ?_) _ s
  dsimp only
  split
  · split
    · split
      · exact ChargeOnly.setMill ..
      · exact (ChargeOnly.setSlice ..).trans (ChargeOnly.setMill ..)
    · exact ChargeOnly.refl s
  · exact ChargeOnly.refl s

theorem releaseStones_bus (s : State) (site lf : Nat) (p : Nat → Bool) : (releaseStones s site lf p).bus = s.bus := by
  refine foldl_keeps State.bus _ _ s fun s k => ?_
  dsimp only
  split
  · split
    · split <;> rfl
    · rfl
  · rfl

/-! ### Charging, stopping, starting and clearing a leaf -/

/-- What charging a leaf can do: nothing while it does not run; else accounts of its slice and of the leaf itself (R314). -/
theorem chargeLeaf_cases (s : State) (site lf : Nat) : chargeLeaf s site lf = s ∨ ∃ (u : State) (clk : DWord), ChargeOnly s u ∧
    u.mills = s.mills ∧ u.bus = s.bus ∧
    chargeLeaf s site lf = setLeaf u site lf { getLeaf s site lf with activeClk := clk, runFrom := nowNs u } := by
  unfold chargeLeaf
  dsimp only
  split
  · refine .inr ?_
    split
    · exact ⟨s, _, ChargeOnly.refl s, rfl, rfl, rfl⟩
    · exact ⟨_, _, ChargeOnly.setSlice .., rfl, rfl, rfl⟩
  · exact .inl rfl

theorem chargeLeaf_charge (s : State) (site lf : Nat) : ChargeOnly s (chargeLeaf s site lf) := by
  obtain h | ⟨u, clk, hu, -, -, h⟩ := chargeLeaf_cases s site lf <;> rw [h]
  · exact ChargeOnly.refl s
  · exact hu.trans (ChargeOnly.setLeaf ..)

theorem chargeLeaf_bus (s : State) (site lf : Nat) : (chargeLeaf s site lf).bus = s.bus := by
  obtain h | ⟨u, clk, -, -, hb, h⟩ := chargeLeaf_cases s site lf <;> rw [h]
  exact hb

theorem getLeaf_chargeLeaf_other (s : State) (site : Nat) {lf k : Nat} (hk : k = 0 ↔ lf ≠ 0) :
    getLeaf (chargeLeaf s site lf) site k = getLeaf s site k := by
  obtain h | ⟨u, clk, -, hm, -, h⟩ := chargeLeaf_cases s site lf <;> rw [h]
  rw [getLeaf_setLeaf_other _ _ _ hk, getLeaf_congr hm]

theorem imem_chargeLeaf (s : State) (site lf : Nat) : (getLeaf (chargeLeaf s site lf) site lf).imem = (getLeaf s site lf).imem := by
  obtain h | ⟨u, clk, -, -, -, h⟩ := chargeLeaf_cases s site lf <;> rw [h]
  rw [getLeaf_setLeaf_same]

theorem split_chargeLeaf (s : State) (site lf : Nat) : (getMill (chargeLeaf s site lf) site).split = (getMill s site).split := by
  obtain h | ⟨u, clk, -, hm, -, h⟩ := chargeLeaf_cases s site lf <;> rw [h]
  rw [split_setLeaf, getMill_congr hm]

/-- What stopping a leaf can do: it takes the state, and the move of its context is noted if it ran (R294, R314). -/
theorem stopLeaf_cases (s : State) (site lf : Nat) (st : LeafSt) : ∃ u, ChargeOnly s u ∧ (getLeaf u site lf).st = st ∧
    (getLeaf u site lf).imem = (getLeaf s site lf).imem ∧ (∀ k : Nat, (k = 0 ↔ lf ≠ 0) → getLeaf u site k = getLeaf s site k) ∧
    (getMill u site).split = (getMill s site).split ∧
    (stopLeaf s site lf st = u ∨ ∃ c n : Nat, stopLeaf s site lf st = setCtx u c { getCtx u c with lastMove := n }) := by
  by_cases hrun : (getLeaf s site lf).st = .running
  · refine ⟨hopMark (setLeaf (chargeLeaf s site lf) site lf { getLeaf (chargeLeaf s site lf) site lf with st := st }) site,
      (chargeLeaf_charge ..).trans ((ChargeOnly.setLeaf ..).trans (hopMark_charge ..)), ?_, ?_, fun k hk => ?_, ?_, ?_⟩
    · rw [getLeaf_of_leaves (leaves_hopMark ..), getLeaf_setLeaf_same]
    · rw [getLeaf_of_leaves (leaves_hopMark ..), getLeaf_setLeaf_same]
      exact imem_chargeLeaf ..
    · rw [getLeaf_of_leaves (leaves_hopMark ..), getLeaf_setLeaf_other _ _ _ hk, getLeaf_chargeLeaf_other _ _ hk]
    · rw [split_of_leaves (leaves_hopMark ..), split_setLeaf, split_chargeLeaf]
    · simp only [stopLeaf, if_pos hrun]
      split
      · exact .inr ⟨_, _, rfl⟩
      · exact .inl rfl
  · refine ⟨_, ChargeOnly.setLeaf .., ?_, ?_, fun k hk => getLeaf_setLeaf_other _ _ _ hk, split_setLeaf .., .inl (if_neg hrun)⟩ <;>
      rw [getLeaf_setLeaf_same]

theorem imem_stopLeaf (s : State) (site lf : Nat) (st : LeafSt) :
    (getLeaf (stopLeaf s site lf st) site lf).imem = (getLeaf s site lf).imem := by
  obtain ⟨u, -, -, himem, -, -, h | ⟨c, n, h⟩⟩ := stopLeaf_cases s site lf st <;> rw [h] <;> exact himem

/-- A leaf that is cleared keeps its instruction lines and its gang mode (R73, R159, R319). -/
theorem getLeaf_clearLeaf (s : State) (site lf : Nat) : getLeaf (clearLeaf s site lf) site lf = (getLeaf s site lf).vacant :=
  getLeaf_setLeaf_same ..

end Sys2Proof.Machine
end

section
/-! SUPPORT. A context fault: the leaf first, then the context, its teardown and its partition's page (R81, R320, R333). -/
namespace Sys2Proof.Machine

/-! ### The two parts of a fault -/

/-- The part of a fault in the leaf of the context: it is charged, its stones are free, its stores leave the spout, and it is FAULTED. -/
def stopFaulted (s : State) (site lf code eng step : Nat) : State :=
  let s := releaseStones (chargeLeaf s site lf) site lf (fun _ => true)
  let s := setMill s site { getMill s site with spout := (getMill s site).spout.filter (fun r => r.1 ≠ lf) }
  let s := setLeaf s site lf { getLeaf s site lf with st := .faulted, faultCode := code, faultEng := eng, faultStep := step % 2 ^ 16 }
  raiseInt (hopMark s site) .mill site (1 + lf)

/-- That part for a context wherever it is. -/
def placeFault (s : State) (p : Place) (code eng step : Nat) : State :=
  match p with
  | .saved => s
  | .leaf site lf => stopFaulted s site lf code eng step

/-- The registers of a fault: LAST_FAULT and FAULT_CNT of the partition's page, and its interrupt (R333). -/
def partFault (s : State) (c : Ctx) (code eng : Nat) : State :=
  raiseInt (bump32 (setW s (reg .sch (1 + c.part) 0x1B8) (BitVec.ofNat 32 (code + eng * 2 ^ 8 + c.slice * 2 ^ 16)))
    (reg .sch (1 + c.part) 0x1BC) 1) .sch (1 + c.part) 1

/-- The rest of a fault: the context stops, its teardown begins, and its partition's page says so. -/
def recordFault (s : State) (cid : Nat) (c : Ctx) (code eng step : Nat) : State :=
  let s := setCtx s cid { c.squash with killed := true, freezing := false }
  let d : Drain := ⟨c.launch, c.inst, c.part, c.slice, code, eng, step % 2 ^ 16, nowNs s⟩
  partFault { s with sched := { s.sched with drains := mput s.sched.drains cid d } } c code eng

theorem ctxFault_of_gone {s : State} {cid : Nat} (code eng step : Nat) (h : mfind s.sched.ctxs cid = none ∨ (getCtx s cid).killed = true) :
    ctxFault s cid code eng step = s := by
  have hgone : ((mfind s.sched.ctxs cid).isNone || (getCtx s cid).killed) = true := by simpa using h
  unfold ctxFault
  exact if_pos hgone

theorem ctxFault_eq {s : State} {cid : Nat} {c : Ctx} (code eng step : Nat) (h : mfind s.sched.ctxs cid = some c) (hk : c.killed = false) :
    ctxFault s cid code eng step = recordFault (placeFault s c.place code eng step) cid c code eng step := by
  have hc : getCtx s cid = c := by rw [getCtx, mget, h]
  have hlive : ¬ ((mfind s.sched.ctxs cid).isNone || (getCtx s cid).killed) = true := by simp [h, hc, hk]
  unfold ctxFault
  refine (if_neg hlive).trans ?_
  rw [hc]
  rfl

/-! ### The leaf -/

theorem stopFaulted_charge (s : State) (site lf code eng step : Nat) : ChargeOnly s (stopFaulted s site lf code eng step) :=
  (chargeLeaf_charge ..).trans ((releaseStones_charge ..).trans ((ChargeOnly.setMill ..).trans ((ChargeOnly.setLeaf ..).trans
    ((hopMark_charge ..).trans (ChargeOnly.raiseInt ..)))))

theorem placeFault_charge (s : State) (p : Place) (code eng step : Nat) : ChargeOnly s (placeFault s p code eng step) := by
  cases p with
  | saved => exact ChargeOnly.refl s
  | leaf site lf => exact stopFaulted_charge ..

/-- The leaf is FAULTED and holds the code, the engine and the step. -/
theorem getLeaf_stopFaulted (s : State) (site lf code eng step : Nat) : ∃ l : Leaf, getLeaf (stopFaulted s site lf code eng step) site lf =
    { l with st := .faulted, faultCode := code, faultEng := eng, faultStep := step % 2 ^ 16 } := by
  rw [stopFaulted, getLeaf_congr (raiseInt_mills ..), getLeaf_of_leaves (leaves_hopMark ..), getLeaf_setLeaf_same]
  exact ⟨_, rfl⟩

/-- Only registers of the mill's own page change. -/
theorem wordsOnly_stopFaulted (s : State) (site lf code eng step : Nat) :
    WordsOnly [reg .mill site 0x1A0, reg .mill site 0x1A4, reg .mill site 0x20] s (stopFaulted s site lf code eng step) := by
  have hbus : (releaseStones (chargeLeaf s site lf) site lf (fun _ => true)).bus = s.bus :=
    (releaseStones_bus ..).trans (chargeLeaf_bus ..)
  refine wordsOnly_trans (wordsOnly_of_bus hbus) (wordsOnly_trans (wordsOnly_of_bus ?_)
    (wordsOnly_trans (wordsOnly_mono (wordsOnly_hopMark ..) ?_) (wordsOnly_mono (wordsOnly_raiseInt ..) ?_)))
  · rw [setLeaf_bus, setMill_bus]
  · simp
  · simp

/-- Pages of mills and pages of the scheduler do not meet. -/
theorem sch_reg_ne_mill_reg {i site o p : Nat} (hi : i ≤ 32) (hs : site < 256) (ho : o < 0x1000) (hp : p < 0x1000) :
    reg .sch i o ≠ reg .mill site p := by
  have hmill : pageBase .mill site = 0x400000 + site * 0x1000 := if_pos hs
  unfold reg
  by_cases h : i < 16
  · have hsch : pageBase .sch i = 0x130000 + i * 0x1000 := if_pos h
    omega
  · have hsch : pageBase .sch i = 0x830000 + (i - 16) * 0x1000 := if_neg h
    omega

/-- The stop of a leaf leaves the scheduler's pages alone. -/
theorem getW_placeFault {p : Place} {i o : Nat} (s : State) (code eng step : Nat) (hi : i ≤ 32) (ho : o < 0x1000)
    (hsite : ∀ site lf : Nat, p = .leaf site lf → site < 256) :
    getW (placeFault s p code eng step) (reg .sch i o) = getW s (reg .sch i o) := by
  cases p with
  | saved => rfl
  | leaf site lf =>
    have hne {x : Nat} (hx : x < 0x1000) : reg .sch i o ≠ reg .mill site x := sch_reg_ne_mill_reg hi (hsite site lf rfl) ho hx
    exact (wordsOnly_stopFaulted ..).1 _ (by simp [hne])

/-! ### The context and its partition -/

theorem mfind_mmap {α β : Type} (f : Nat → α → β) (m : KMap α) (k : Nat) : mfind (mmap f m) k = (mfind m k).map (f k) := by
  induction m with
  | nil => rfl
  | cons e r ih =>
    obtain ⟨j, v⟩ := e
    by_cases h : j = k
    · subst h
      simp [mmap, mfind]
    · simpa [mmap, mfind, h] using ih

theorem eng_squash (c : Ctx) (e : Nat) : c.squash.eng e = (c.eng e).squash := by
  simp only [Ctx.eng, Ctx.squash, mget, mfind_mmap]
  cases mfind c.engs e <;> rfl

theorem bitAt_raiseInt (s : State) (b : Block) (i : Nat) {bit : Nat} (h : bit < 32) :
    bitAt (getW (raiseInt s b i bit) (reg b i 0x20)).toNat bit = true := by
  have hlt : 2 ^ bit < 2 ^ 32 := Nat.pow_lt_pow_right (by omega) h
  rw [getW_raiseInt, if_pos rfl, bitAt_eq_testBit, BitVec.toNat_or, BitVec.toNat_ofNat, Nat.mod_eq_of_lt hlt]
  simp

theorem recordFault_sched (s : State) (cid : Nat) (c : Ctx) (code eng step : Nat) : (recordFault s cid c code eng step).sched =
    { s.sched with
      ctxs := mput s.sched.ctxs cid { c.squash with killed := true, freezing := false }
      drains := mput s.sched.drains cid ⟨c.launch, c.inst, c.part, c.slice, code, eng, step % 2 ^ 16, nowNs s⟩ } := by
  simp only [recordFault, partFault, raiseInt_sched, bump32_sched, setW_sched]
  rfl

theorem recordFault_mills (s : State) (cid : Nat) (c : Ctx) (code eng step : Nat) :
    (recordFault s cid c code eng step).mills = s.mills := by
  simp only [recordFault, partFault, raiseInt_mills, bump32_mills, setW_mills, setCtx_mills]

theorem getW_partFault_last (s : State) (c : Ctx) (code eng : Nat) : getW (partFault s c code eng) (reg .sch (1 + c.part) 0x1B8) =
    BitVec.ofNat 32 (code + eng * 2 ^ 8 + c.slice * 2 ^ 16) := by
  rw [partFault, getW_raiseInt, if_neg (reg_ne _ _ (by decide)), getW_bump32_other _ _ (reg_ne _ _ (by decide)), getW_setW_same]

theorem getW_partFault_count (s : State) (c : Ctx) (code eng : Nat) : getW (partFault s c code eng) (reg .sch (1 + c.part) 0x1BC) =
    satAdd32 (getW s (reg .sch (1 + c.part) 0x1BC)) 1 := by
  rw [partFault, getW_raiseInt, if_neg (reg_ne _ _ (by decide)), getW_bump32_same, getW_setW_other _ _ (reg_ne _ _ (by decide))]

/-- Settles O27: a fault is the stop of the leaf followed by the record; the stop changes nothing of the scheduler but accounts, and no
register of the scheduler's pages. -/
theorem faultedContextsStopAndAreRecorded : Obligations.FaultedContextsStopAndAreRecorded := by
  intro s cid code eng step
  refine ⟨ctxFault_of_gone code eng step, fun c hc hk t ht => ?_⟩
  rw [ctxFault_eq code eng step hc hk] at ht
  have hstop := placeFault_charge s c.place code eng step
  have hctx : getCtx t cid = { c.squash with killed := true, freezing := false } := by
    rw [ht, getCtx, recordFault_sched]
    exact mget_mput_same ..
  refine ⟨by rw [hctx], by rw [hctx], fun e => ?_, by rw [hctx]; rfl, fun k hkc => ?_, fun site lf hp _ => ?_, ?_, fun hpart => ⟨?_, ?_,
    fun hsite => ?_⟩⟩
  · have he : (getCtx t cid).eng e = (c.eng e).squash := by
      rw [hctx]
      exact eng_squash c e
    rw [he]
    exact ⟨rfl, rfl⟩
  · rw [ht, getCtx, recordFault_sched]
    exact (mget_mput_other _ _ _ hkc).trans (hstop.getCtx k)
  · obtain ⟨l, hl⟩ := getLeaf_stopFaulted s site lf code eng step
    rw [ht, getLeaf_congr (recordFault_mills ..), hp, placeFault, hl]
    exact ⟨rfl, rfl, rfl, rfl⟩
  · rw [ht, recordFault_sched, hstop.nowNs]
    exact mfind_mput_same ..
  · rw [ht]
    exact getW_partFault_last ..
  · rw [ht]
    exact bitAt_raiseInt _ _ _ (by decide)
  · rw [ht]
    refine (getW_partFault_count ..).trans ?_
    rw [← getW_placeFault s code eng step (by omega) (by decide) hsite]
    rfl

end Sys2Proof.Machine
end

section
/-! SUPPORT. The end of a context: what reports its cells, releases its objects and counts down its launch leaves every leaf alone and
brings no context back (R179, R186, R320). -/
namespace Sys2Proof.Machine

/-! ### No context comes back -/

/-- The same teardowns are under way, and no context exists that did not. -/
structure NoNewCtx (s t : State) : Prop where
  drains_eq : t.sched.drains = s.sched.drains
  gone : ∀ k, mfind s.sched.ctxs k = none → mfind t.sched.ctxs k = none

namespace NoNewCtx

theorem of_ctxs {s t : State} (hd : t.sched.drains = s.sched.drains) (hc : t.sched.ctxs = s.sched.ctxs) : NoNewCtx s t :=
  ⟨hd, fun k hk => by rw [hc, hk]⟩

theorem of_sched {s t : State} (h : t.sched = s.sched) : NoNewCtx s t := of_ctxs (by rw [h]) (by rw [h])

theorem refl (s : State) : NoNewCtx s s := of_sched rfl

theorem trans {s t u : State} (h : NoNewCtx s t) (k : NoNewCtx t u) : NoNewCtx s u :=
  ⟨k.drains_eq.trans h.drains_eq, fun c hc => k.gone c (h.gone c hc)⟩

theorem foldl {α : Type} {f : State → α → State} (h : ∀ s a, NoNewCtx s (f s a)) (xs : List α) (s : State) : NoNewCtx s (xs.foldl f s) := by
  induction xs generalizing s with
  | nil => exact refl s
  | cons a r ih => exact (h s a).trans (ih _)

theorem freeObj (s : State) (n : Nat) : NoNewCtx s (freeObj s n) :=
  ⟨rfl, fun k hk => by
    have hctxs : (Machine.freeObj s n).sched.ctxs = mmap (fun _ c => c.evalWaits n SyncObj.blank) s.sched.ctxs := rfl
    rw [hctxs, mfind_mmap, hk, Option.map_none]⟩

end NoNewCtx

theorem onlyIn_freeObj (s : State) (n : Nat) : OnlyIn [.sync, .sched, .hif] s (freeObj s n) := by
  refine ⟨rfl, fun c hc => ?_⟩
  cases c
  case sync | sched | hif => exact absurd hc (by decide)
  all_goals rfl

/-! ### Completion entries and slot status records -/

theorem onlyIn_cplIssue (s : State) (sl : Nat) (e : HeldCpl) : OnlyIn [.hif] s (cplIssue s sl e) := onlyIn_setRing ..

theorem onlyIn_complete (s : State) (sl : Nat) (e : HeldCpl) : OnlyIn [.hif, .bus] s (complete s sl e) := by
  have hdrop (n : Nat) : OnlyIn [.hif, .bus] s (cqDrop s sl n) := onlyIn_mono (onlyIn_bump32 ..) (by simp)
  unfold complete
  dsimp only
  split
  · exact hdrop 1
  · split
    · split
      · exact hdrop 1
      · exact onlyIn_mono (onlyIn_setRing ..) (by simp)
    · exact onlyIn_mono (onlyIn_cplIssue ..) (by simp)

theorem onlyIn_setCell (s : State) (n : Nat) (c : Cell) : OnlyIn [.cells] s (setCell s n c) := by
  refine ⟨rfl, fun k hk => ?_⟩
  cases k
  case cells => exact absurd List.mem_cons_self hk
  all_goals rfl

theorem onlyIn_raiseInt_bump32 (s : State) (a n : Nat) (b : Block) (i bit : Nat) : OnlyIn [.bus] s (raiseInt (bump32 s a n) b i bit) :=
  onlyIn_trans (onlyIn_bump32 ..) (onlyIn_raiseInt ..)

theorem onlyIn_ite {l : List Comp} {s t u : State} {p : Prop} [Decidable p] (ht : OnlyIn l s t) (hu : OnlyIn l s u) :
    OnlyIn l s (if p then t else u) := by
  split
  · exact ht
  · exact hu

theorem onlyIn_countStatus (s : State) (p : Nat) (x : CellSlot) (lost : Bool) : OnlyIn [.bus] s (countStatus s p x lost) := by
  have hlate (s : State) := onlyIn_ite (p := x.late ≠ 0) (onlyIn_raiseInt_bump32 s (schReg p 0x218) 1 .sch (1 + p) 5) (onlyIn_refl _ s)
  have hdamaged (s : State) := onlyIn_ite (p := x.damaged) (onlyIn_raiseInt_bump32 s (schReg p 0x21C) 1 .sch (1 + p) 6) (onlyIn_refl _ s)
  have hlost (s : State) := onlyIn_ite (p := lost) (onlyIn_bump32 s (schReg p 0x224) 1) (onlyIn_refl _ s)
  exact onlyIn_trans (onlyIn_bump64 ..) (onlyIn_trans (hlate _) (onlyIn_trans (hdamaged _) (hlost _)))

theorem onlyIn_reportSlot (s : State) (n k : Nat) (lost : Bool) (done : Nat) : OnlyIn [.cells, .hif, .bus] s (reportSlot s n k lost done) := by
  unfold reportSlot
  dsimp only
  split
  · exact onlyIn_refl ..
  · exact onlyIn_trans (onlyIn_mono (onlyIn_setRing ..) (by simp)) (onlyIn_trans (onlyIn_mono (onlyIn_setCell ..) (by simp))
      (onlyIn_trans (onlyIn_mono (onlyIn_countStatus ..) (by simp)) (onlyIn_mono (onlyIn_complete ..) (by simp))))

theorem onlyIn_reportLost (s : State) (n : Nat) (done : Option Nat) : OnlyIn [.cells, .hif, .bus] s (reportLost s n done) :=
  onlyIn_foldl (fun s k => onlyIn_reportSlot s n k true _) _ s

theorem onlyIn_orphanCells (s : State) (cid : Nat) (torn : Option Nat) : OnlyIn [.cells, .hif, .bus] s (orphanCells s cid torn) := by
  refine onlyIn_foldl (fun s n => ?_) _ s
  exact onlyIn_trans (onlyIn_reportLost ..) (onlyIn_trans (onlyIn_mono (onlyIn_setCell ..) (by simp)) (onlyIn_mono (onlyIn_raiseInt ..) (by simp)))

/-! ### Release -/

theorem onlyIn_releaseCtx (s : State) (cid : Nat) : OnlyIn [.sync, .sched, .hif] s (releaseCtx s cid) :=
  onlyIn_trans (onlyIn_foldl onlyIn_freeObj ..) (onlyIn_mono (onlyIn_sched ..) (by simp))

theorem releaseCtx_drains (s : State) (cid : Nat) : (releaseCtx s cid).sched.drains = s.sched.drains :=
  (NoNewCtx.foldl NoNewCtx.freeObj (privateObjs (ctxModule s (getCtx s cid)) (getCtx s cid)) s).drains_eq

theorem mfind_releaseCtx (s : State) (cid : Nat) : mfind (releaseCtx s cid).sched.ctxs cid = none := mfind_mdel_same ..

theorem complete_sched (s : State) (sl : Nat) (e : HeldCpl) : (complete s sl e).sched = s.sched :=
  (onlyIn_complete s sl e).2 .sched (by decide)

/-- What the end of a launch's last context does before the launch is gone: its SHARED objects are free, and the entry is written. -/
def launchReported (s : State) (l : Launch) : State :=
  let s := (l.shared.map (fun p => p.2)).foldl freeObj s
  if bitAt l.flags 1 then complete s l.slice ⟨l.tag, 1, 0, 0, 0, 0, 0, 0⟩ else s

theorem launchReported_frame (s : State) (l : Launch) :
    OnlyIn [.sync, .sched, .hif, .bus] s (launchReported s l) ∧ NoNewCtx s (launchReported s l) := by
  have hfree := onlyIn_mono (onlyIn_foldl onlyIn_freeObj (l.shared.map (fun p => p.2)) s) (m := [.sync, .sched, .hif, .bus]) (by simp)
  have hgone := NoNewCtx.foldl NoNewCtx.freeObj (l.shared.map (fun p => p.2)) s
  unfold launchReported
  dsimp only
  split
  · exact ⟨onlyIn_trans hfree (onlyIn_mono (onlyIn_complete ..) (by simp)), hgone.trans (.of_sched (complete_sched ..))⟩
  · exact ⟨hfree, hgone⟩

theorem launchLeft_frame (s : State) (ln : Nat) :
    OnlyIn [.sync, .sched, .hif, .bus] s (launchLeft s ln) ∧ NoNewCtx s (launchLeft s ln) := by
  obtain ⟨honly, hgone⟩ := launchReported_frame s (getLaunch s ln)
  unfold launchLeft
  dsimp only
  split
  · exact ⟨onlyIn_mono (onlyIn_sched ..) (by simp), .of_ctxs rfl rfl⟩
  · exact ⟨onlyIn_trans honly (onlyIn_mono (onlyIn_sched ..) (by simp)), hgone.trans (.of_ctxs rfl rfl)⟩

/-- An update of a partition's state, with what it reports in registers. -/
theorem setPart_raiseInt_frame (s t : State) (p : Nat) (x : Part) (b : Block) (i bit : Nat) (h : OnlyIn [.bus] (setPart s p x) t) :
    OnlyIn [.sched, .bus] s (raiseInt t b i bit) ∧ NoNewCtx s (raiseInt t b i bit) := by
  have hbus : OnlyIn [.bus] (setPart s p x) (raiseInt t b i bit) := onlyIn_trans h (onlyIn_raiseInt ..)
  have hsched : (raiseInt t b i bit).sched = (setPart s p x).sched := hbus.2 .sched (by decide)
  exact ⟨onlyIn_trans (onlyIn_mono (onlyIn_sched ..) (by simp)) (onlyIn_mono hbus (by simp)), .of_ctxs (by rw [hsched]; rfl) (by rw [hsched]; rfl)⟩

theorem settlePart_frame (s : State) (p : Nat) : OnlyIn [.sched, .bus] s (settlePart s p) ∧ NoNewCtx s (settlePart s p) := by
  have hfrozen (s : State) : OnlyIn [.sched, .bus] s (partFrozen s p) ∧ NoNewCtx s (partFrozen s p) := by
    unfold partFrozen
    dsimp only
    split
    · exact setPart_raiseInt_frame _ _ _ _ _ _ _ (onlyIn_refl ..)
    · exact ⟨onlyIn_refl .., .refl s⟩
  have hpause (s : State) : OnlyIn [.sched, .bus] s (pauseDone s p) ∧ NoNewCtx s (pauseDone s p) := by
    unfold pauseDone
    split
    · split
      · exact setPart_raiseInt_frame _ _ _ _ _ _ _ (onlyIn_setW ..)
      · exact ⟨onlyIn_refl .., .refl s⟩
    · exact ⟨onlyIn_refl .., .refl s⟩
  obtain ⟨ho, hc⟩ := hfrozen s
  obtain ⟨ho', hc'⟩ := hpause (partFrozen s p)
  exact ⟨onlyIn_trans ho ho', hc.trans hc'⟩

/-- A released context exists no more; no leaf and no teardown is touched. -/
theorem released_frame (s : State) (cid : Nat) (torn : Option Nat) :
    (releaseCtx (orphanCells s cid torn) cid).mills = s.mills
      ∧ (releaseCtx (orphanCells s cid torn) cid).sched.drains = s.sched.drains
      ∧ mfind (releaseCtx (orphanCells s cid torn) cid).sched.ctxs cid = none := by
  have horphan := onlyIn_orphanCells s cid torn
  refine ⟨?_, ?_, mfind_releaseCtx ..⟩
  · exact ((onlyIn_releaseCtx ..).2 .mills (by decide)).trans (horphan.2 .mills (by decide))
  · have hsched : (orphanCells s cid torn).sched = s.sched := horphan.2 .sched (by decide)
    rw [releaseCtx_drains, hsched]

/-- What follows for the launch and the partition touches no leaf and brings no context back. -/
theorem launchLeft_settlePart_frame (s : State) (ln p : Nat) :
    (settlePart (launchLeft s ln) p).mills = s.mills ∧ NoNewCtx s (settlePart (launchLeft s ln) p) := by
  obtain ⟨hl, hlc⟩ := launchLeft_frame s ln
  obtain ⟨hp, hpc⟩ := settlePart_frame (launchLeft s ln) p
  exact ⟨(hp.2 .mills (by decide)).trans (hl.2 .mills (by decide)), hlc.trans hpc⟩

/-! ### CONTEXT_END and TEARDOWN_DRAIN_DONE -/

theorem ctxEnd_eq {s : State} {site lf cid : Nat} {c : Ctx} (hr : runningAt s site lf = some (cid, c)) (he : c.ended = true) :
    ctxEnd s site lf = lendAll (decideLeaf (settlePart (launchLeft
      (releaseCtx (orphanCells (clearLeaf (stopLeaf s site lf .resident) site lf) cid none) cid) c.launch) c.part) site lf none) := by
  simp only [ctxEnd, hr, he, Bool.not_true, Bool.false_eq_true, if_false]

/-- A leaf whose teardown drain ends, and the teardown no longer under way. -/
def drainCleared (s : State) (cid site lf : Nat) : State :=
  let s := clearLeaf s site lf
  { s with sched := { s.sched with drains := mdel s.sched.drains cid } }

/-- The completion entry of a context that faulted (R370). -/
def drainReported (s : State) (d : Drain) : State :=
  complete s d.slice ⟨(getLaunch s d.launch).tag, 2, 2, d.code, d.inst, d.eng, d.step, 0⟩

theorem drainDone_eq {s : State} {cid site lf : Nat} {d : Drain} (hd : mfind s.sched.drains cid = some d)
    (hp : (getCtx s cid).place = .leaf site lf) (hc : (getLeaf s site lf).ctx = some cid) :
    drainDone s cid = lendAll (decideLeaf (settlePart (launchLeft (drainReported
      (releaseCtx (orphanCells (drainCleared s cid site lf) cid (some d.since)) cid) d) d.launch) d.part) site lf none) := by
  simp only [drainDone, hd, hp, if_pos hc]
  rfl

/-! ### IMEM_WRITE -/

theorem imemWrite_loading {s : State} {site lf : Nat} (hr : rowRuns s site = true) (hst : (getLeaf s site lf).st = .loading)
    (line : Nat) (data : Line) : imemWrite s site lf line data =
      setLeaf s site lf { getLeaf s site lf with imem := mset 0 (getLeaf s site lf).imem line data } := by
  simp only [imemWrite, hr, hst, Bool.not_true, Bool.false_eq_true, if_false, if_true]

/-- The log entry of a refused line (spec/03_mill_core.md R78). -/
def imemLog (lf code line : Nat) (active : Bool) : Nat := lf + code * 2 + b2n active * 16 + line * 2 ^ 16 + 2 ^ 31

theorem imemWrite_refused {s : State} {site lf : Nat} (hr : rowRuns s site = true) (hst : (getLeaf s site lf).st ≠ .loading)
    (line : Nat) (data : Line) : ∃ active : Bool, imemWrite s site lf line data =
      raiseErr (bump32 (setW s (reg .mill site 0x160) (BitVec.ofNat 32 (imemLog lf (getLeaf s site lf).st.code line active)))
        (reg .mill site 0x164) 1) .mill site 8 := by
  refine ⟨(getLeaf s site lf).st = .running || (getMill s site).swTo = some lf, ?_⟩
  simp only [imemWrite, hr, Bool.not_true, Bool.false_eq_true, if_false, if_neg hst]
  rfl

/-- The fields of the log entry. -/
theorem bitsAt_imemLog {lf code line : Nat} (hl : lf < 2) (hc : code < 8) (hn : line < 512) (active : Bool) :
    imemLog lf code line active < 2 ^ 32 ∧ bitsAt (imemLog lf code line active) 0 1 = lf
      ∧ bitsAt (imemLog lf code line active) 1 3 = code ∧ bitsAt (imemLog lf code line active) 16 9 = line
      ∧ bitsAt (imemLog lf code line active) 31 1 = 1 := by
  have ha : b2n active < 2 := by cases active <;> decide
  unfold bitsAt imemLog
  omega

/-- The count and the flag of a refused line leave its log entry. -/
theorem getF_refusal (s : State) (site lo len : Nat) :
    getF (raiseErr (bump32 s (reg .mill site 0x164) 1) .mill site 8) (reg .mill site 0x160) lo len = getF s (reg .mill site 0x160) lo len := by
  simp only [getF, getW_raiseErr _ _ _ _ _ (reg_ne .mill site (show 0x160 ≠ 0x20 by decide)),
    if_neg (reg_ne .mill site (show 0x160 ≠ 0x18 by decide)), getW_bump32_other _ _ (reg_ne .mill site (show 0x160 ≠ 0x164 by decide))]

theorem getF_setW_same {n : Nat} (h : n < 2 ^ 32) (s : State) (a lo len : Nat) :
    getF (setW s a (BitVec.ofNat 32 n)) a lo len = bitsAt n lo len := by
  rw [getF, getW_setW_same, BitVec.toNat_ofNat, Nat.mod_eq_of_lt h]

theorem leafSt_code_lt (st : LeafSt) : st.code < 8 := by cases st <;> decide

/-- Settles O28: the leaf is cleared first, and nothing of the release touches it or brings the context back; a line goes into a leaf in
LOADING, and is logged otherwise. -/
theorem endedContextsReleaseWhatTheyHold : Obligations.EndedContextsReleaseWhatTheyHold := by
  refine ⟨fun s site lf cid c hr he => ⟨_, congrArg done (ctxEnd_eq hr he), ?_⟩,
    fun s cid d site lf hd hlf hp hc => ⟨_, congrArg done (drainDone_eq hd hp hc), ?_⟩, fun s site lf line data hrow => ⟨fun hst => ?_,
    fun hst => ?_⟩⟩
  · obtain ⟨hm, -, hgone⟩ := released_frame (clearLeaf (stopLeaf s site lf .resident) site lf) cid none
    obtain ⟨hm', hnew⟩ := launchLeft_settlePart_frame
      (releaseCtx (orphanCells (clearLeaf (stopLeaf s site lf .resident) site lf) cid none) cid) c.launch c.part
    rw [getLeaf_congr (hm'.trans hm), getLeaf_clearLeaf]
    exact ⟨hnew.gone cid hgone, rfl, rfl, imem_stopLeaf ..⟩
  · obtain ⟨hm, hd', hgone⟩ := released_frame (drainCleared s cid site lf) cid (some d.since)
    have hrep (u : State) : OnlyIn [.hif, .bus] u (drainReported u d) := onlyIn_complete ..
    have hreps (u : State) : (drainReported u d).sched = u.sched := (hrep u).2 .sched (by decide)
    obtain ⟨hm', hnew⟩ := launchLeft_settlePart_frame
      (drainReported (releaseCtx (orphanCells (drainCleared s cid site lf) cid (some d.since)) cid) d) d.launch d.part
    refine ⟨hnew.gone cid (by rw [hreps, hgone]), ?_, ?_⟩
    · rw [hnew.drains_eq, hreps, hd']
      exact mfind_mdel_same ..
    · rw [getLeaf_congr (hm'.trans (((hrep _).2 .mills (by decide)).trans hm))]
      exact congrArg Leaf.st (getLeaf_clearLeaf ..)
  · refine ⟨_, congrArg done (imemWrite_loading hrow hst line data), ?_, fun k hk => ?_, ?_, onlyIn_settle (onlyIn_setLeaf ..)⟩ <;>
      rw [getLeaf_settle, getLeaf_setLeaf_same]
    · exact mget_mset_same ..
    · exact mget_mset_other _ _ _ _ hk
    · exact hst
  · obtain ⟨active, hw⟩ := imemWrite_refused hrow hst line data
    obtain ⟨hlt, hlf, hcode, hline, hvalid⟩ := bitsAt_imemLog lf.isLt (leafSt_code_lt (getLeaf s site lf).st) line.isLt active
    refine ⟨_, congrArg done hw, ?_, ?_, ?_, ?_, ?_, ?_, ?_⟩
    · rw [getW_settle, getW_raiseErr_bump32_count _ _ _ _ _ (by decide) (by decide), getW_setW_other _ _ (reg_ne _ _ (by decide))]
    · rw [getF_settle, getF_refusal, getF_setW_same hlt, hlf]
    · rw [getF_settle, getF_refusal, getF_setW_same hlt, hcode]
    · rw [getF_settle, getF_refusal, getF_setW_same hlt, hline]
    · rw [getF_settle, getF_refusal, getF_setW_same hlt, hvalid]
    · exact onlyIn_settle (onlyIn_trans (onlyIn_setW ..) (onlyIn_raiseErr_bump32 ..))
    · exact wordsOnly_settle (wordsOnly_trans (wordsOnly_mono (wordsOnly_setW ..) (by simp))
        (wordsOnly_trans (wordsOnly_mono (wordsOnly_setW ..) (by simp)) (wordsOnly_mono (wordsOnly_raiseErr ..) (by simp))))

end Sys2Proof.Machine
end

section
/-! SUPPORT. Context switches, quanta and blocked swaps (R79, R80, R82, R315, R316). -/
namespace Sys2Proof.Machine

/-! ### Data of contexts -/

/-- The registers, queues, memories and tiles of a context, where a switch must leave them (R79). -/
def Ctx.data (c : Ctx) :=
  (c.dmem, c.mdm, c.queues, c.tiles, (c.miller.s, c.miller.lc, c.miller.ofs, c.miller.pc), c.hbIn, c.hbOut)

/-- Leaves, accounts and registers may change; the data of every context stay. -/
def MovesNoData (s t : State) : Prop := OnlyIn [.mills, .sched, .bus, .gov] s t ∧ ∀ k, (getCtx t k).data = (getCtx s k).data

namespace MovesNoData

theorem refl (s : State) : MovesNoData s s := ⟨onlyIn_refl _ s, fun _ => rfl⟩

theorem setCtx (s : State) (cid : Nat) (x : Ctx) (h : x.data = (getCtx s cid).data) : MovesNoData s (setCtx s cid x) := by
  refine ⟨onlyIn_mono (onlyIn_setCtx ..) (by simp), fun k => ?_⟩
  by_cases hk : k = cid
  · subst hk
    rw [getCtx_setCtx_same, h]
  · rw [getCtx_setCtx_other _ _ hk]

variable {s t u : State}

theorem trans (h : MovesNoData s t) (k : MovesNoData t u) : MovesNoData s u :=
  ⟨onlyIn_trans h.1 k.1, fun c => (k.2 c).trans (h.2 c)⟩

theorem of_charge (h : ChargeOnly s t) : MovesNoData s t :=
  ⟨onlyIn_mono h.2 (by simp), fun k => congrArg Ctx.data (h.getCtx k)⟩

theorem nowNs (h : MovesNoData s t) : nowNs t = nowNs s := nowNs_congr (h.1.2 .ftl (by decide))

end MovesNoData

/-! ### CONTEXT_SWITCH -/

theorem stopLeaf_movesNoData (s : State) (site lf : Nat) (st : LeafSt) : MovesNoData s (stopLeaf s site lf st) := by
  obtain ⟨u, hu, -, -, -, -, h | ⟨c, n, h⟩⟩ := stopLeaf_cases s site lf st <;> rw [h]
  · exact .of_charge hu
  · refine (MovesNoData.of_charge hu).trans (.setCtx _ _ _ ?_)
    rfl

/-- A leaf that stops has its new state; the other leaf of the mill and the mode stay. -/
theorem stopLeaf_leaves (s : State) (site lf : Nat) (st : LeafSt) : (getLeaf (stopLeaf s site lf st) site lf).st = st ∧
    (∀ k : Nat, (k = 0 ↔ lf ≠ 0) → getLeaf (stopLeaf s site lf st) site k = getLeaf s site k) ∧
    (getMill (stopLeaf s site lf st) site).split = (getMill s site).split := by
  obtain ⟨u, -, hst, -, hother, hsplit, h | ⟨c, n, h⟩⟩ := stopLeaf_cases s site lf st <;> rw [h]
  · exact ⟨hst, hother, hsplit⟩
  · exact ⟨hst, hother, hsplit⟩

/-- An outgoing leaf that does not run, or whose context holds for the switch, makes way (R79). -/
theorem outgoing_makes_way {s : State} {site ol : Nat} (h : (getLeaf s site ol).st ≠ .running ∨ ∃ k, (getLeaf s site ol).ctx = some k ∧
      (getCtx s k).freezing = true ∧ (getCtx s k).freezeWhy = 1 ∧ (getCtx s k).holds = true) :
    ∃ u, outgoing s site ol = some u ∧ MovesNoData s u ∧ (getLeaf u site ol).st ≠ .running
      ∧ (∀ k : Nat, (k = 0 ↔ ol ≠ 0) → getLeaf u site k = getLeaf s site k) ∧ (getMill u site).split = (getMill s site).split := by
  by_cases hrun : (getLeaf s site ol).st = .running
  · obtain ⟨k, hctx, hf, hw, hh⟩ := h.resolve_left (not_not_intro hrun)
    obtain ⟨hst, hother, hsplit⟩ := stopLeaf_leaves (dropHoppers s site ol) site ol .resident
    refine ⟨_, ?_, (MovesNoData.of_charge (dropHoppers_charge s site ol)).trans (stopLeaf_movesNoData _ site ol .resident), ?_,
      fun k hk => ?_, ?_⟩
    · simp only [outgoing, hrun, hctx, hf, hw, hh, ne_eq, not_true, if_false, and_self, if_true]
    · rw [hst]
      decide
    · rw [hother k hk, getLeaf_of_leaves (leaves_dropHoppers ..)]
    · rw [hsplit, split_of_leaves (leaves_dropHoppers ..)]
  · exact ⟨s, if_pos hrun, .refl s, hrun, fun _ _ => rfl, rfl⟩

/-- The context of a leaf that starts: it holds no more, and its times are those of a running context. -/
def Ctx.restarted (s : State) (c : Ctx) : Ctx :=
  { thaw s c with started := true, placedAt := nowNs s, lastMove := nowNs s - (if (thaw s c).started then (thaw s c).lastMove else 0) }

theorem startLeaf_eq {s : State} {site lf cid : Nat} (hc : (getLeaf s site lf).ctx = some cid) : startLeaf s site lf =
    hopMark (setLeaf (setCtx s cid ((getCtx s cid).restarted s)) site lf { getLeaf s site lf with st := .running, runFrom := nowNs s }) site := by
  simp only [startLeaf, hc]
  rfl

/-- A leaf that starts runs from now, and its context has the data it had (R79, R188). -/
theorem startLeaf_starts {s : State} {site lf cid : Nat} (hc : (getLeaf s site lf).ctx = some cid) : MovesNoData s (startLeaf s site lf)
    ∧ getLeaf (startLeaf s site lf) site lf = { getLeaf s site lf with st := .running, runFrom := nowNs s }
    ∧ (∀ k : Nat, (k = 0 ↔ lf ≠ 0) → getLeaf (startLeaf s site lf) site k = getLeaf s site k)
    ∧ (getMill (startLeaf s site lf) site).split = (getMill s site).split := by
  rw [startLeaf_eq hc]
  refine ⟨(MovesNoData.setCtx s cid ((getCtx s cid).restarted s) rfl).trans (.of_charge ((ChargeOnly.setLeaf ..).trans (hopMark_charge ..))), ?_, fun k hk => ?_, ?_⟩
  · rw [getLeaf_of_leaves (leaves_hopMark ..), getLeaf_setLeaf_same]
  · rw [getLeaf_of_leaves (leaves_hopMark ..), getLeaf_setLeaf_other _ _ _ hk]
    rfl
  · rw [split_of_leaves (leaves_hopMark ..), split_setLeaf]
    rfl

theorem leaveSplit_of_whole {s : State} {site : Nat} (h : (getMill s site).split = false) : leaveSplit s site = s :=
  if_neg fun hn => Bool.false_ne_true (h.symm.trans hn.1)

/-- The mill of a switch that is done: the leaf is the one that runs, and no switch is pending. -/
def switched (s : State) (site lf : Nat) : State := setMill s site { getMill s site with runLeaf := lf, swTo := none }

theorem ctxSwitch_eq {s u : State} {site lf : Nat} (hr : rowRuns s site = true) (hm : mayStart s site lf = true)
    (hs : (getMill s site).split = false) (hu : outgoing s site (1 - lf) = some u) (hsu : (getMill u site).split = false)
    (hsv : (getMill (startLeaf (dropHoppers u site lf) site lf) site).split = false) : ctxSwitch s site lf false =
      raiseInt (switched (startLeaf (dropHoppers u site lf) site lf) site lf) .mill site 3 := by
  simp only [ctxSwitch, hr, hm, hs, hu, leaveSplit_of_whole hsu, hsu, hsv, Bool.not_true, Bool.false_and, Bool.false_eq_true, if_false,
    false_and, switched]

theorem ctx_of_mayStart {s : State} {site lf : Nat} (h : mayStart s site lf = true) : ∃ cid, (getLeaf s site lf).ctx = some cid := by
  simp only [mayStart] at h
  split at h
  · exact ⟨_, by assumption⟩
  · exact absurd h Bool.false_ne_true

/-- A switch that may be made: one leaf runs from now, the other one does not, and no data move (R79). -/
theorem ctxSwitch_switches {s : State} {site lf : Nat} (hlf : lf < 2) (hr : rowRuns s site = true) (hm : mayStart s site lf = true)
    (hs : (getMill s site).split = false) (ho : (getLeaf s site (1 - lf)).st ≠ .running ∨ ∃ k, (getLeaf s site (1 - lf)).ctx = some k ∧
      (getCtx s k).freezing = true ∧ (getCtx s k).freezeWhy = 1 ∧ (getCtx s k).holds = true) :
    ∃ v, ctxSwitch s site lf false = raiseInt (switched v site lf) .mill site 3 ∧ MovesNoData s v
      ∧ (getLeaf v site lf).st = .running ∧ (getLeaf v site lf).runFrom = nowNs s ∧ (getLeaf v site (1 - lf)).st ≠ .running
      ∧ (getMill v site).split = false := by
  obtain ⟨u, hu, hsu, hstop, hother, hsplit⟩ := outgoing_makes_way ho
  obtain ⟨cid, hcid⟩ := ctx_of_mayStart hm
  have hleaf (k : Nat) : getLeaf (dropHoppers u site lf) site k = getLeaf u site k := getLeaf_of_leaves (leaves_dropHoppers ..) k
  have hdrop : MovesNoData s (dropHoppers u site lf) := hsu.trans (.of_charge (dropHoppers_charge ..))
  obtain ⟨hsv, hrun, hrest, hsplit'⟩ := startLeaf_starts (s := dropHoppers u site lf) (site := site) (lf := lf) (cid := cid)
    (by rw [hleaf, hother lf (by omega), hcid])
  have hwhole : (getMill u site).split = false := hsplit.trans hs
  have hwhole' : (getMill (startLeaf (dropHoppers u site lf) site lf) site).split = false := by
    rw [hsplit', split_of_leaves (leaves_dropHoppers ..), hwhole]
  refine ⟨_, ctxSwitch_eq hr hm hs hu hwhole hwhole', hdrop.trans hsv, ?_, ?_, ?_, hwhole'⟩
  · rw [hrun]
  · rw [hrun, hdrop.nowNs]
  · rwa [hrest _ (by omega), hleaf]

theorem getLeaf_switched (s : State) (site lf k : Nat) : getLeaf (switched s site lf) site k = getLeaf s site k := by
  rw [getLeaf, switched, getMill_setMill_same]
  rfl

/-! ### QUANTUM_EXPIRY -/

section
variable {s : State} {site lf cid : Nat} {c : Ctx} (h : runningAt s site lf = some (cid, c)) (hf : c.freezing = false)
  (hg : (getLaunch s c.launch).grid = 0) (hl : (getW s (reg .sch (1 + c.part) 0x100)).toNat * 1000 ≤ nowNs s - c.placedAt)
  (hn : chooseFor s site lf true = none)
include h hf hg hl hn

/-- A quantum that is over, with no saved context to replace the running one (R315). -/
theorem quantumEnd_eq : quantumEnd s site lf =
    if (getMill s site).split = false ∧ mayStart s site (1 - lf) = true then
      setMill (freezeCtx s cid 1) site { getMill (freezeCtx s cid 1) site with swTo := some (1 - lf) }
    else setCtx s cid { c with placedAt := nowNs s } := by
  simp only [quantumEnd, h, hf, hg, hl, hn]
  simp

end

/-- A context in a leaf, not killed, whose freeze is requested for a switch (R188). -/
theorem freezeCtx_requested {s : State} {cid m lf : Nat} (hp : (getCtx s cid).place = .leaf m lf) (hk : (getCtx s cid).killed = false)
    (hf : (getCtx s cid).freezing = false) (why : Nat) : ∃ x : Ctx, freezeCtx s cid why = setCtx s cid x ∧ x.freezing = true
      ∧ x.freezeFrom = nowNs s ∧ x.freezeWhy = max why (getCtx s cid).freezeWhy := by
  refine ⟨_, by simp only [freezeCtx, hp, hk, Bool.false_eq_true, if_false]; rfl, rfl, ?_, rfl⟩
  exact if_neg (by rw [hf]; decide)

/-! ### BLOCKED_SWAP -/

theorem onlyIn_freezeCtx (s : State) (cid why : Nat) : OnlyIn [.sched] s (freezeCtx s cid why) := by
  unfold freezeCtx
  dsimp only
  split
  · exact onlyIn_refl ..
  · split
    · exact onlyIn_refl ..
    · exact onlyIn_setCtx ..

theorem onlyIn_reserveUnits {s t : State} {cid : Nat} (h : reserveUnits s cid = some t) : OnlyIn [.sched] s t := by
  simp only [reserveUnits] at h
  split at h
  · cases h
    exact onlyIn_setCtx ..
  · cases h

theorem foldl_bind_none (f : State → Nat → Option State) (xs : List Nat) : xs.foldl (fun o c => o.bind (fun s => f s c)) none = none := by
  induction xs with
  | nil => rfl
  | cons c r ih => exact ih

/-- Steps that may fail, each within one part of the state. -/
theorem onlyIn_foldl_bind {l : List Comp} {f : State → Nat → Option State} (hf : ∀ {s t c}, f s c = some t → OnlyIn l s t) (xs : List Nat)
    {s t : State} (h : xs.foldl (fun o c => o.bind (fun s => f s c)) (some s) = some t) : OnlyIn l s t := by
  induction xs generalizing s with
  | nil =>
    cases h
    exact onlyIn_refl ..
  | cons c r ih =>
    rw [List.foldl_cons, Option.bind_some] at h
    cases hc : f s c with
    | none =>
      rw [hc, foldl_bind_none] at h
      cases h
    | some u => exact onlyIn_trans (hf hc) (ih (hc ▸ h))

theorem onlyIn_evict {s u : State} {cid : Nat} (h : evict s cid = some u) : OnlyIn [.sched] s u := by
  obtain ⟨v, hv, rfl⟩ := Option.map_eq_some_iff.mp h
  exact onlyIn_trans (onlyIn_foldl_bind onlyIn_reserveUnits _ hv) (onlyIn_foldl (fun s c => onlyIn_freezeCtx s c 2) _ v)

/-- Every context of the mill that runs or could run is blocked. -/
def AllBlocked (s : State) (site : Nat) : Prop :=
  ∀ l < 2, (getLeaf s site l).st = .running ∨ (getLeaf s site l).st = .resident →
    ∃ k, (getLeaf s site l).ctx = some k ∧ ctxBlocked s (getCtx s k) = true

/-- With every resident context blocked, an EMPTY leaf is filled, or else a blocked context is evicted (R316). -/
theorem blockedSwap_eq {s : State} {site : Nat} (h : AllBlocked s site) : blockedSwap s site =
    if placedIn s (decideLeaf (decideLeaf s site 0 none) site 1 none) site then decideLeaf (decideLeaf s site 0 none) site 1 none
    else match blockedPick s site with
      | none => s
      | some lf => match (getLeaf s site lf).ctx with
        | none => s
        | some cid => match evict s cid with
          | none => s
          | some u => setLeaf u site lf { getLeaf u site lf with want := chooseFor s site lf true } := by
  unfold blockedSwap
  refine (if_neg fun hn => ?_).trans rfl
  refine Bool.false_ne_true (((Bool.not_eq_true' _).mp hn).symm.trans (List.all_eq_true.mpr fun l hl => ?_))
  obtain ⟨hmem, hst⟩ := List.mem_filter.mp hl
  obtain ⟨k, hk, hb⟩ := h l (by simp at hmem; omega) (by simpa using hst)
  rw [hk]
  exact hb

theorem placedIn_iff (s t : State) (site : Nat) :
    placedIn s t site = true ↔ ∃ l < 2, (getLeaf s site l).st = .empty ∧ (getLeaf t site l).st ≠ .empty := by
  simp [placedIn, Nat.le_one_iff_eq_zero_or_eq_one]

/-! ### The statement -/

theorem data_eq_iff (c d : Ctx) : c.data = d.data ↔ c.dmem = d.dmem ∧ c.mdm = d.mdm ∧ c.queues = d.queues ∧ c.tiles = d.tiles
    ∧ c.miller.s = d.miller.s ∧ c.miller.lc = d.miller.lc ∧ c.miller.ofs = d.miller.ofs ∧ c.miller.pc = d.miller.pc
    ∧ c.hbIn = d.hbIn ∧ c.hbOut = d.hbOut := by
  simp only [Ctx.data, Prod.ext_iff, and_assoc]

/-- Settles O25: a switch is a stop and a start of leaves, which move no data; a quantum and a blocked swap only request what follows. -/
theorem switchesMoveNoData : Obligations.SwitchesMoveNoData := by
  refine ⟨fun s site lf hr hm hs ho => ?_, fun s site lf cid c h hf hk hg hl hn => ⟨fun hno => ?_, fun m lf' hs hm hp => ?_⟩,
    fun s u site lf cid hne hb hpick hc hev => ?_, fun s t site l ht hl he hne hb => ?_⟩
  · obtain ⟨v, hv, hdata, hrun, hfrom, hstop, hwhole⟩ := ctxSwitch_switches lf.isLt hr hm hs ho
    have hall : MovesNoData s (raiseInt (switched v site lf) .mill site 3) :=
      hdata.trans (.of_charge ((ChargeOnly.setMill ..).trans (.raiseInt ..)))
    have hleaf (k : Nat) : getLeaf (settle (raiseInt (switched v site lf) .mill site 3)) site k = getLeaf v site k := by
      rw [getLeaf_settle, getLeaf_congr (raiseInt_mills ..), getLeaf_switched]
    have hmill : getMill (settle (raiseInt (switched v site lf) .mill site 3)) site =
        { getMill v site with runLeaf := lf, swTo := none } := by
      rw [getMill_settle, getMill_congr (raiseInt_mills ..), switched, getMill_setMill_same]
    refine ⟨_, congrArg done hv, ?_, ?_, ?_, ?_, ?_, ?_, ?_, fun k => ?_, onlyIn_settle hall.1⟩
    · rw [hleaf, hrun]
    · rw [hleaf, hfrom]
    · rwa [hleaf]
    · rw [hmill]
    · rw [hmill]
    · rw [hmill, hwhole]
    · rw [getW_settle]
      exact bitAt_raiseInt _ _ _ (by decide)
    · rw [getCtx_settle]
      exact (data_eq_iff ..).mp (hall.2 k)
  · refine done_of_eq_setCtx ((quantumEnd_eq h hf hg hl hn).trans (if_neg fun hcan => ?_))
    obtain ⟨hs, hm⟩ := hcan
    rw [hs, hm] at hno
    exact hno.elim Bool.false_ne_true Bool.false_ne_true.symm
  · obtain ⟨-, -, rfl⟩ := runningAt_ctx h
    obtain ⟨x, hx, hfr, hfrom, hwhy⟩ := freezeCtx_requested hp hk hf 1
    refine ⟨_, congrArg done ((quantumEnd_eq h hf hg hl hn).trans (if_pos ⟨hs, hm⟩)), ?_⟩
    rw [hx]
    have hget : getCtx (settle (setMill (setCtx s cid x) site { getMill (setCtx s cid x) site with swTo := some (1 - lf) })) cid = x :=
      (getCtx_settle ..).trans (getCtx_setCtx_same ..)
    refine ⟨?_, ?_, ?_, ?_, ?_, ?_⟩
    · rw [getMill_settle, getMill_setMill_same]
    · rw [hget, hfr]
    · rw [hget, hwhy]
    · rw [hget, hfrom]
    · exact ctxOnly_settle (ctxOnly_trans (ctxOnly_setCtx ..) (ctxOnly_of_sched rfl))
    · exact onlyIn_settle (onlyIn_trans (onlyIn_mono (onlyIn_setCtx ..) (by simp)) (onlyIn_mono (onlyIn_setMill ..) (by simp)))
  · have hnot : ¬ placedIn s (decideLeaf (decideLeaf s site 0 none) site 1 none) site = true := fun hp => by
      obtain ⟨l, hl, he, -⟩ := (placedIn_iff ..).mp hp
      exact hne l hl he
    have honly := onlyIn_evict hev
    have heq := (blockedSwap_eq hb).trans (if_neg hnot)
    simp only [hpick, hc, hev] at heq
    refine ⟨_, congrArg done heq, ?_, ?_, ?_, ?_⟩
    · rw [settle_sched]
      rfl
    · rw [getLeaf_settle, getLeaf_setLeaf_same]
    · rw [getLeaf_settle, getLeaf_setLeaf_same, getLeaf_congr (honly.2 .mills (by decide))]
    · exact onlyIn_settle (onlyIn_trans (onlyIn_mono honly (by simp)) (onlyIn_mono (onlyIn_setLeaf ..) (by simp)))
  · subst ht
    exact congrArg done ((blockedSwap_eq hb).trans (if_pos ((placedIn_iff ..).mpr ⟨l, hl, he, hne⟩)))

end Sys2Proof.Machine
end

section
/-! SUPPORT. The accumulator word: VALUE and SPECIAL after an addition, a list of products in any order, and words of two anchors (R98,
R100 to R102, R105). -/
namespace Sys2Proof.Machine

/-! ### Two's complement -/

theorem wrapTo_lt (w : Nat) (i : Int) : wrapTo w i < 2 ^ w := by
  have h : ((wrapTo w i : Nat) : Int) < 2 ^ w := by
    rw [wrapTo_cast]
    exact Int.emod_lt_of_pos _ (by positivity)
  exact_mod_cast h

theorem wrapTo_congr {w : Nat} {a b : Int} (h : a ≡ b [ZMOD 2 ^ w]) : wrapTo w a = wrapTo w b := congrArg Int.toNat h

theorem sext_modEq (w n : Nat) : sext w n ≡ n [ZMOD 2 ^ w] := by
  have hmod : ((n % 2 ^ w : Nat) : Int) ≡ n [ZMOD 2 ^ w] := by
    rw [Int.natCast_mod, Nat.cast_pow, Nat.cast_ofNat]
    exact Int.mod_modEq ..
  unfold sext
  split
  · exact hmod
  · exact (Int.ModEq.sub hmod (Int.modEq_zero_iff_dvd.mpr dvd_rfl)).trans (by rw [sub_zero])

theorem sext_congr {w m n : Nat} (h : m % 2 ^ w = n % 2 ^ w) : sext w m = sext w n := by rw [sext, sext, h]

/-- A signed number of `w` bits is what its own low `w` bits spell. -/
theorem sext_wrapTo_sext (w n : Nat) : sext w (wrapTo w (sext w n)) = sext w n := by
  refine sext_congr ?_
  have h : ((wrapTo w (sext w n) : Nat) : Int) ≡ n [ZMOD 2 ^ w] := by
    rw [wrapTo_cast]
    exact (Int.mod_modEq ..).trans (sext_modEq w n)
  exact Int.natCast_modEq_iff.mp (by exact_mod_cast h)

/-! ### VALUE and SPECIAL of a word (R98) -/

theorem accSpec_lt (w : DWord) : accSpec w < 4 := bitsAt_lt ..

theorem accVal_canonical (w : DWord) : sext 56 (wrapTo 56 (accVal w)) = accVal w := sext_wrapTo_sext ..

theorem toNat_accWord (v : Int) (sp : Nat) : (accWord v sp).toNat = wrapTo 56 v + sp % 4 * 2 ^ 56 := by
  have := wrapTo_lt 56 v
  rw [accWord, BitVec.toNat_ofNat, Nat.mod_eq_of_lt (by omega)]

theorem accVal_accWord (v : Int) (sp : Nat) : accVal (accWord v sp) = sext 56 (wrapTo 56 v) := by
  rw [accVal, toNat_accWord]
  refine sext_congr ?_
  simp [bitsAt]

theorem accSpec_accWord (v : Int) {sp : Nat} (h : sp < 4) : accSpec (accWord v sp) = sp := by
  have := wrapTo_lt 56 v
  rw [accSpec, toNat_accWord, bitsAt]
  omega

theorem accVal_accWord_modEq (v : Int) (sp : Nat) : accVal (accWord v sp) ≡ v [ZMOD 2 ^ 56] := by
  rw [accVal_accWord]
  refine (sext_modEq ..).trans ?_
  rw [wrapTo_cast]
  exact Int.mod_modEq ..

theorem accWord_congr {a b : Int} (h : a ≡ b [ZMOD 2 ^ 56]) (sp : Nat) : accWord a sp = accWord b sp := by
  rw [accWord, accWord, wrapTo_congr h]

/-! ### The join of special states (R100) -/

theorem specJoin_lt {a b : Nat} (ha : a < 4) (hb : b < 4) : specJoin a b < 4 := by
  unfold specJoin
  grind

theorem specJoin_comm (a b : Nat) : specJoin a b = specJoin b a := by
  unfold specJoin
  grind

theorem specJoin_right_comm (a b c : Nat) : specJoin (specJoin a b) c = specJoin (specJoin a c) b := by
  unfold specJoin
  grind

/-! ### Products added in any order (R100, R101, R105) -/

theorem accAdd_accAdd (w : DWord) (v v' : Int) {sp : Nat} (sp' : Nat) (h : sp < 4) :
    accAdd (accAdd w v sp) v' sp' = accWord (accVal w + v + v') (specJoin (specJoin (accSpec w) sp) sp') := by
  rw [accAdd, accAdd, accSpec_accWord _ (specJoin_lt (accSpec_lt w) h)]
  exact accWord_congr ((accVal_accWord_modEq ..).add_right v') _

theorem accAdd_right_comm (w : DWord) (v v' : Int) {sp sp' : Nat} (h : sp < 4) (h' : sp' < 4) :
    accAdd (accAdd w v sp) v' sp' = accAdd (accAdd w v' sp') v sp := by
  rw [accAdd_accAdd _ _ _ _ h, accAdd_accAdd _ _ _ _ h', specJoin_right_comm, add_right_comm]

theorem accProds_perm {anchor : Int} (w : DWord) {ps qs : List Prod} (hp : ps.Perm qs) (hsp : ∀ p ∈ ps, p.sp < 4) :
    accProds anchor w ps = accProds anchor w qs :=
  hp.foldl_eq' (fun x hx y hy a => (accAdd_right_comm a _ _ (hsp x hx) (hsp y hy))) w

theorem accVal_accProds (anchor : Int) (w : DWord) (ps : List Prod) :
    accVal (accProds anchor w ps) = sext 56 (wrapTo 56 (accVal w + (ps.map (fun p => alignP p.p p.q anchor)).sum)) := by
  induction ps generalizing w with
  | nil => simpa [accProds] using (accVal_canonical w).symm
  | cons p r ih =>
    have hstep : accVal (accAdd w (alignP p.p p.q anchor) p.sp) ≡ accVal w + alignP p.p p.q anchor [ZMOD 2 ^ 56] :=
      accVal_accWord_modEq ..
    rw [accProds, List.foldl_cons, ← accProds, ih, wrapTo_congr (hstep.add_right _), add_assoc, List.map_cons, List.sum_cons]

theorem accSpec_accProds (anchor : Int) (w : DWord) {ps : List Prod} (hsp : ∀ p ∈ ps, p.sp < 4) :
    accSpec (accProds anchor w ps) = (ps.map (fun p => p.sp)).foldl specJoin (accSpec w) := by
  induction ps generalizing w with
  | nil => rfl
  | cons p r ih =>
    obtain ⟨hp, hr⟩ := List.forall_mem_cons.mp hsp
    rw [accProds, List.foldl_cons, ← accProds, ih _ hr, accAdd, accSpec_accWord _ (specJoin_lt (accSpec_lt w) hp)]
    rfl

/-- Settles O17: two additions into a word can change places, and each adds to VALUE modulo 2^56 and joins SPECIAL. -/
theorem accumulationDoesNotDependOnOrder : Obligations.AccumulationDoesNotDependOnOrder := by
  intro anchor w ps qs hp hsp
  exact ⟨accProds_perm w hp hsp, accVal_accProds anchor w ps, accSpec_accProds anchor w hsp⟩

/-! ### Words of two anchors (R102) -/

/-- The word of the lower anchor is shifted right, on whichever side it stands. -/
theorem accAddAnchored_of_le (w v : DWord) {a b : Int} (h : a ≤ b) :
    accAddAnchored w a v b = (accWord (accVal w / 2 ^ (b - a).toNat + accVal v) (specJoin (accSpec w) (accSpec v)), b)
      ∧ accAddAnchored v b w a = (accWord (accVal w / 2 ^ (b - a).toNat + accVal v) (specJoin (accSpec w) (accSpec v)), b) := by
  refine ⟨if_pos h, ?_⟩
  rw [accAddAnchored, add_comm (accVal w / _), specJoin_comm (accSpec w)]
  split
  · obtain rfl : a = b := by omega
    simp
  · rfl

theorem accAddAnchored_anchor (w v : DWord) (a b : Int) : (accAddAnchored w a v b).2 = max a b := by
  unfold accAddAnchored
  split <;> simp only <;> omega

/-- A fold whose step at `k` sets what is read, and at no other key changes it. -/
theorem foldl_sets_key {α β : Type} (p : α → β) {f : α → Nat → α} {k : Nat} {v : β} (hset : ∀ m, p (f m k) = v)
    (hkeep : ∀ m j, j ≠ k → p (f m j) = p m) {l : List Nat} {m : α} (h : p m = v ∨ k ∈ l) : p (l.foldl f m) = v := by
  induction l generalizing m with
  | nil => simpa using h
  | cons j r ih =>
    refine ih ?_
    by_cases hj : j = k
    · subst hj
      exact .inl (hset m)
    · rw [hkeep m j hj]
      exact h.imp_right fun hk => (List.mem_cons.mp hk).resolve_left (Ne.symm hj)

/-- A word of a tile that `flume.tadd` increases. -/
theorem mget_tldTile_add (cls : TileClass) (t : Tile) (anchor : Int) {ws : List Nat} {k w : Nat} (hk : k < 1024) (hw : ws[k]? = some w) :
    mget 0 (tldTile true cls t anchor ws).words k = (accAddAnchored (mget 0 t.words k) t.anchor (cleanWord w) anchor).1 := by
  have hmem : k ∈ List.range 1024 := List.mem_range.mpr hk
  simp only [tldTile, if_true]
  generalize List.range 1024 = keys at hmem ⊢
  refine foldl_sets_key (fun m => mget 0 m k) (fun m => ?_) (fun m j hj => ?_) (.inr hmem)
  · simp only [hw, mget_mset_same]
  · split
    · exact mget_mset_other _ _ _ _ hj.symm
    · split
      · rfl
      · exact mget_mset_other _ _ _ _ hj.symm

/-- Settles O19: both orders of the two words give one sum, and `flume.tadd` adds each of its words so. -/
theorem flumeSumsAlignToTheHigherAnchor : Obligations.FlumeSumsAlignToTheHigherAnchor := by
  refine ⟨fun w v a b hab r hr => ?_,
    fun cls t anchor ws k w hk hw => ⟨rfl, mget_tldTile_add cls t anchor hk hw, accAddAnchored_anchor ..⟩⟩
  obtain ⟨hwv, hvw⟩ := accAddAnchored_of_le w v hab
  obtain rfl : r = (accWord (accVal w / 2 ^ (b - a).toNat + accVal v) (specJoin (accSpec w) (accSpec v)), b) := by
    simpa [hwv, hvw] using hr
  have hval := (accVal_accWord_modEq (accVal w / 2 ^ (b - a).toNat + accVal v) (specJoin (accSpec w) (accSpec v))).symm
  exact ⟨rfl, Int.emod_eq_zero_of_dvd hval.dvd, accSpec_accWord _ (specJoin_lt (accSpec_lt w) (accSpec_lt v))⟩

end Sys2Proof.Machine
end

section
/-! SUPPORT. Packed elements read back, and what a fixed output is (R96, R114, R115). -/
namespace Sys2Proof.Machine

/-! ### Little-endian numbers (R8) -/

theorem ofLE_toLE (n v : Nat) : ofLE (toLE n v) = v % 256 ^ n := by
  induction n generalizing v with
  | zero => simp [toLE, ofLE, Nat.mod_one]
  | succ n ih =>
    rw [toLE, ofLE, ih, BitVec.toNat_ofNat, pow_succ' 256]
    exact (Nat.mod_mul ..).symm

/-- Zeros above the last byte add nothing. -/
theorem ofLE_append_zeros (l : List Byte) (n : Nat) : ofLE (l ++ List.replicate n 0) = ofLE l := by
  induction l with
  | nil =>
    induction n with
    | zero => rfl
    | succ n ih => simpa [List.replicate_succ, ofLE] using ih
  | cons b r ih => rw [List.cons_append, ofLE, ih, ofLE]

theorem drop_toLE (n off v : Nat) : (toLE n v).drop off = toLE (n - off) (v / 256 ^ off) := by
  induction n generalizing off v with
  | zero => simp [toLE]
  | succ n ih =>
    cases off with
    | zero => simp
    | succ off => rw [toLE, List.drop_succ_cons, ih, Nat.div_div_eq_div_mul, Nat.add_sub_add_right, pow_succ']

theorem take_toLE (n k v : Nat) : (toLE n v).take k = toLE (min k n) v := by
  induction n generalizing k v with
  | zero => simp [toLE]
  | succ n ih =>
    cases k with
    | zero => simp [toLE]
    | succ k => rw [toLE, List.take_succ_cons, ih, Nat.succ_min_succ, toLE]

/-- Bytes inside a little-endian number that its bytes hold whole. -/
theorem leAt_toLE {n v : Nat} (off k : Nat) (h : v < 256 ^ n) : leAt (toLE n v) off k = v / 256 ^ off % 256 ^ k := by
  rw [leAt, sliceB, ofLE_append_zeros, drop_toLE, take_toLE, ofLE_toLE]
  rcases le_total k (n - off) with hk | hk
  · rw [min_eq_left hk]
  · have hlt : v / 256 ^ off < 256 ^ (n - off) := by
      refine Nat.div_lt_of_lt_mul (h.trans_le ?_)
      rw [← pow_add]
      exact Nat.pow_le_pow_right (by decide) (by omega)
    rw [min_eq_right hk, Nat.mod_eq_of_lt hlt, Nat.mod_eq_of_lt (hlt.trans_le (Nat.pow_le_pow_right (by decide) hk))]

/-! ### Packed elements (R96) -/

/-- The number that packed elements spell, the first in its low bits. -/
def packNat (w : Nat) (es : List Nat) : Nat := es.foldr (fun e a => e % 2 ^ w + 2 ^ w * a) 0

theorem packElems_eq (w : Nat) (es : List Nat) : packElems w es = toLE (packedLen w es.length) (packNat w es) := rfl

theorem packNat_cons (w e : Nat) (es : List Nat) : packNat w (e :: es) = e % 2 ^ w + 2 ^ w * packNat w es := rfl

theorem packNat_lt (w : Nat) (es : List Nat) : packNat w es < 2 ^ (w * es.length) := by
  induction es with
  | nil => simp [packNat]
  | cons e r ih =>
    have he : e % 2 ^ w < 2 ^ w := Nat.mod_lt _ (by positivity)
    calc packNat w (e :: r) < 2 ^ w * (packNat w r + 1) := by rw [packNat_cons]; linarith
      _ ≤ 2 ^ w * 2 ^ (w * r.length) := Nat.mul_le_mul_left _ ih
      _ = 2 ^ (w * (e :: r).length) := by rw [← pow_add, List.length_cons]; ring_nf

theorem bitsAt_packNat {w i : Nat} {es : List Nat} (h : i < es.length) : bitsAt (packNat w es) (w * i) w = es[i] % 2 ^ w := by
  induction es generalizing i with
  | nil => simp at h
  | cons e r ih =>
    rw [packNat_cons, bitsAt]
    cases i with
    | zero => simp
    | succ i =>
      have hdiv : (e % 2 ^ w + 2 ^ w * packNat w r) / 2 ^ w = packNat w r := by
        rw [Nat.add_mul_div_left _ _ (by positivity), Nat.div_eq_of_lt (Nat.mod_lt _ (by positivity)), Nat.zero_add]
      rw [Nat.mul_succ, Nat.add_comm (w * i), pow_add, ← Nat.div_div_eq_div_mul, hdiv]
      exact ih (by simpa using h)

/-- A field of a field. -/
theorem bitsAt_bitsAt (n : Nat) {lo len l m : Nat} (h : l + m ≤ len) : bitsAt (bitsAt n lo len) l m = bitsAt n (lo + l) m := by
  refine Nat.eq_of_testBit_eq fun j => ?_
  simp only [bitsAt, Nat.testBit_mod_two_pow, Nat.testBit_div_two_pow]
  rw [show j + l + lo = j + (lo + l) by omega]
  by_cases hj : j < m
  · simp [hj, show j + l < len by omega]
  · simp [hj]

theorem packNat_lt_bytes (w : Nat) (es : List Nat) : packNat w es < 256 ^ packedLen w es.length := by
  refine (packNat_lt w es).trans_le ?_
  rw [show (256 : Nat) = 2 ^ 8 by rfl, ← pow_mul]
  exact Nat.pow_le_pow_right (by decide) (by unfold packedLen ceilDiv; omega)

/-- The bytes that hold an element reach to its last bit, at every width. -/
theorem elemAt_packElems (w : Nat) {i : Nat} {es : List Nat} (h : i < es.length) : elemAt (packElems w es) w i = es[i] % 2 ^ w := by
  have hbytes : leAt (packElems w es) (w * i / 8) ((w + 7) / 8 + 1) =
      bitsAt (packNat w es) (8 * (w * i / 8)) (8 * ((w + 7) / 8 + 1)) := by
    rw [packElems_eq, leAt_toLE _ _ (packNat_lt_bytes w es), bitsAt, pow_mul, pow_mul]
    rfl
  rw [elemAt, hbytes, bitsAt_bitsAt _ (by omega), Nat.div_add_mod, bitsAt_packNat h]

/-! ### Fixed outputs (R114, R115) -/

theorem clampInt_of_mem {lo hi i : Int} (h : lo ≤ i) (h' : i ≤ hi) : clampInt lo hi i = i := by
  rw [clampInt, if_neg h.not_gt, if_neg h'.not_gt]

theorem clampInt_of_lt {lo hi i : Int} (h : i < lo) : clampInt lo hi i = lo := if_pos h

theorem clampInt_of_gt {lo hi i : Int} (hle : lo ≤ hi) (h : hi < i) : clampInt lo hi i = hi := by
  rw [clampInt, if_neg (hle.trans_lt h).not_gt, if_pos h]

/-- The greatest value of a symmetric fixed output of `w` bits. -/
def fixedMax (w : Nat) : Int := 2 ^ (w - 1) - 1

theorem fixedMax_nonneg (w : Nat) : 0 ≤ fixedMax w := by
  have : (0 : Int) < 2 ^ (w - 1) := by positivity
  unfold fixedMax
  omega

/-- A value between `n` and `n + 1` LSBs of the output is cut to `n`, and then clamped. -/
theorem narrowFixed_floor {v lsb oexp n : Int} (w : Nat) (h : lsb ≤ oexp) (hlo : n * 2 ^ (oexp - lsb).toNat ≤ v)
    (hhi : v < (n + 1) * 2 ^ (oexp - lsb).toNat) :
    narrowFixed w v lsb oexp none =
      (clampInt (-fixedMax w) (fixedMax w) n, decide (n < -fixedMax w) || decide (fixedMax w < n)) := by
  have hfloor : (if 0 < oexp - lsb then v / 2 ^ (oexp - lsb).toNat else v * 2 ^ (-(oexp - lsb)).toNat) = n := by
    split
    · exact Int.ediv_eq_iff_of_pos (by positivity) |>.mpr ⟨hlo, hhi.trans_eq (by ring)⟩
    · obtain rfl : lsb = oexp := by omega
      simp at hlo hhi ⊢
      omega
  simp only [narrowFixed, hfloor]
  rfl

/-- Settles O18: an element is a field of the number that the bytes spell, and a fixed output the clamped floor. -/
theorem packedElementsReadBackAndFixedOutputsRoundDown : Obligations.PackedElementsReadBackAndFixedOutputsRoundDown := by
  refine ⟨fun w i es h _ => elemAt_packElems w h, fun w v lsb oexp _ hle n hlo hhi => ?_⟩
  have hmax := fixedMax_nonneg w
  rw [narrowFixed_floor w hle hlo hhi]
  change (-fixedMax w ≤ n → n ≤ fixedMax w → _ = (n, false)) ∧ (n < -fixedMax w → _ = (-fixedMax w, true))
    ∧ (fixedMax w < n → _ = (fixedMax w, true))
  refine ⟨fun h h' => ?_, fun h => ?_, fun h => ?_⟩
  · simp [clampInt_of_mem h h', h, h']
  · simp [clampInt_of_lt h, h]
  · have hle : -fixedMax w ≤ fixedMax w := by omega
    simp [clampInt_of_gt hle h, h]

end Sys2Proof.Machine
end

section
/-! SUPPORT. The results of a flume operation: where they go, and the fixed lanes (R96, R222 to R224, R226, R602). -/
namespace Sys2Proof.Machine

/-! ### Where the results go -/

theorem recQO_eq_some {r : Rec} {q : Nat} (h : recQO r = some q) : recF r 1 16 5 = q := by
  unfold recQO at h
  split at h
  · exact Option.some.inj h
  · cases h

section
variable {m : Module} {c : Ctx} {o : FlumeOp}

/-- A filter, a census and a tile operation leave nothing for a queue. -/
theorem flumeRun_whole (h : fOp o.rcd ∈ [4, 6, 12, 13]) : ∃ c', flumeRun m c o = (c', []) := by
  simp only [List.mem_cons, List.not_mem_nil, or_false] at h
  unfold flumeRun
  obtain h | h | h | h := h <;> simp only [h] <;> exact ⟨_, rfl⟩

/-- Every other operation writes packed elements, to QO or to O. -/
theorem flumeRun_list (h : fOp o.rcd ∉ [4, 6, 12, 13]) : flumeRun m c o =
    if (recQO o.rcd).isSome then (c, bytesToEntries (flumeBytes c o))
    else (c.dmemWrite (c.refAddr (recW o.rcd 6)) (flumeBytes c o), []) := by
  unfold flumeRun
  dsimp only
  split <;> simp_all

end

/-! ### FLUME_RESULT (R224) -/

section
variable {s : State} {site lf cid : Nat} {c : Ctx} {o : FlumeOp} (hr : runningAt s site lf = some (cid, c))
  (hop : (c.eng 7).op = some (.flume o)) (hwait : (c.eng 7).wait = none) (hout : o.out = none)
include hr hop hwait hout

/-- Results that their queue has room for are all written, and the engine is free. -/
theorem flumeResult_eq {c' : Ctx} {es : List Line} {q : Nat} (hq : recF o.rcd 1 16 5 = q)
    (hrun : flumeRun (ctxModule s c) c o = (c', es))
    (hpush : c'.push ((ctxModule s c).depth q) q es = ([], c'.withQueue q { c'.queue q with ents := (c'.queue q).ents ++ es })) :
    flumeResult s site lf =
      putEng s cid (c'.withQueue q { c'.queue q with ents := (c'.queue q).ents ++ es }) 7 { c.eng 7 with op := none } := by
  simp only [flumeResult, hr, hop, hwait, hout, hrun, hq, hpush]

/-- Results that go to memory or tiles. -/
theorem flumeResult_direct {c' : Ctx} (hrun : flumeRun (ctxModule s c) c o = (c', [])) : ∃ q x,
    flumeResult s site lf = putEng s cid (c'.withQueue q x) 7 { c.eng 7 with op := none } :=
  ⟨_, _, flumeResult_eq hr hop hwait hout rfl hrun (by rw [push_nil, List.append_nil])⟩

end

/-! ### The fixed lanes (R223, R226) -/

theorem fixedOut_real {f : Nat} (re im oexp : Int) (h : isCplx f = false) :
    fixedOut f re im oexp = wrapTo (fixedPart f) (narrowFixed (fixedPart f) re (-46) oexp none).1 := by
  exact if_neg (by simp [h])

/-- Settles O16: the result is one store of the context, whose queue takes the entries or none; a fixed element is the first part of its
exact result. -/
theorem flumeResultsAreWrittenWhole : Obligations.FlumeResultsAreWrittenWhole := by
  intro s site lf cid c o hr hop hwait hout
  refine ⟨fun hwhole => ?_, fun hlist hq => ?_, fun q hlist hq hroom => ?_, fun a b x y u v hreal ha hb => ?_⟩
  · obtain ⟨c', hrun⟩ := flumeRun_whole (m := ctxModule s c) (c := c) hwhole
    obtain ⟨q, qs, hres⟩ := flumeResult_direct hr hop hwait hout hrun
    obtain ⟨t, ht, hc, hctx, honly⟩ := done_of_eq_putEng hres
    refine ⟨t, ht, ?_, ?_, ?_, hctx, honly⟩ <;> rw [hc]
    · rw [hrun]
      rfl
    · rw [hrun]
      rfl
    · exact eng_setEng_same ..
  · have hrun := (flumeRun_list (m := ctxModule s c) (c := c) hlist).trans (if_neg (by simp [hq]))
    obtain ⟨q, qs, hres⟩ := flumeResult_direct hr hop hwait hout hrun
    obtain ⟨t, ht, hc, hctx, honly⟩ := done_of_eq_putEng hres
    refine ⟨t, ht, ?_, ?_, ?_, hctx, honly⟩ <;> rw [hc]
    · rfl
    · exact eng_setEng_same ..
    · rfl
  · have hrun := (flumeRun_list (m := ctxModule s c) (c := c) hlist).trans (if_pos (by simp [hq]))
    obtain ⟨t, ht, hc, hctx, honly⟩ :=
      done_of_eq_putEng (flumeResult_eq hr hop hwait hout (recQO_eq_some hq) hrun (push_of_room hroom))
    refine ⟨t, ht, ?_, ?_, ?_, hctx, honly⟩ <;> rw [hc]
    · exact congrArg OpQueue.ents (queue_withQueue ..)
    · rfl
    · exact eng_setEng_same ..
  · unfold fixedElem
    refine ⟨fun h => ?_, fun h => ?_, fun h => ?_, fun h => ?_⟩ <;> simp only [ha, hb, h, fixedOut_real _ _ _ hreal]

end Sys2Proof.Machine
end

section
/-! SUPPORT. Stones: what storing one changes, how a gang is taken, what its hoppers give, and how it is freed (R126, R130, R318, R605). -/
namespace Sys2Proof.Machine

/-! ### One stone -/

theorem getStone_congr {s t : State} (h : t.mills = s.mills) (site k : Nat) : getStone t site k = getStone s site k := by
  rw [getStone, getMill_congr h, getStone]

theorem getStone_setStone_same (s : State) (site k : Nat) (x : Stone) : getStone (setStone s site k x) site k = x := by
  rw [getStone, setStone, getMill_setMill_same]
  exact mget_mset_same ..

theorem getStone_setStone_other (s : State) (site : Nat) {j k : Nat} (x : Stone) (h : j ≠ k) :
    getStone (setStone s site k x) site j = getStone s site j := by
  rw [getStone, setStone, getMill_setMill_same]
  exact mget_mset_other _ _ _ _ h

theorem getStone_setLeaf (s : State) (site lf : Nat) (x : Leaf) (k : Nat) : getStone (setLeaf s site lf x) site k = getStone s site k := by
  rw [getStone, setLeaf, getMill_setMill_same, Mill.setLeaf]
  split <;> rfl

theorem getStone_hopMark (s : State) (site k : Nat) : getStone (hopMark s site) site k = getStone s site k := by
  have hset (n : Option Nat) : getStone (setMill s site { getMill s site with hopFrom := n }) site k = getStone s site k := by
    rw [getStone, getMill_setMill_same]
    rfl
  unfold hopMark
  dsimp only
  split
  · exact hset _
  · exact (getStone_congr (bump64_mills ..) ..).trans (hset _)
  · rfl

theorem onlyIn_hopMark (s : State) (site : Nat) : OnlyIn [.mills, .bus] s (hopMark s site) := by
  have hset (m : Mill) : OnlyIn [.mills, .bus] s (setMill s site m) := onlyIn_mono (onlyIn_setMill ..) (by simp)
  unfold hopMark
  dsimp only
  split
  · exact hset _
  · exact onlyIn_trans (hset _) (onlyIn_mono (onlyIn_bump64 ..) (by simp))
  · exact onlyIn_refl ..

/-- An operation stored with the mill's hopper wait followed: its context and the hopper wait's mark change, every stone stays. -/
theorem done_of_eq_hopMark_putEng {v u : State} {site cid e : Nat} {c : Ctx} {x : Eng} (h : u = hopMark (putEng v cid c e x) site) :
    ∃ t, done u = .next t ∧ getCtx t cid = { c.setEng e x with lastMove := nowNs v } ∧ (∀ k, getStone t site k = getStone v site k)
      ∧ CtxOnly cid v t ∧ OnlyIn [.sched, .mills, .bus] v t := by
  subst h
  have hmark := onlyIn_hopMark (putEng v cid c e x) site
  have hsched : (hopMark (putEng v cid c e x) site).sched = (putEng v cid c e x).sched := hmark.2 .sched (by decide)
  refine ⟨_, rfl, ?_, fun k => ?_, ctxOnly_settle (ctxOnly_trans (ctxOnly_putEng ..) (ctxOnly_of_sched hsched)),
    onlyIn_settle (onlyIn_trans (onlyIn_mono (onlyIn_putEng ..) (by simp)) (onlyIn_mono hmark (by simp)))⟩
  · rw [getCtx_settle, getCtx, hsched]
    exact getCtx_putEng_same ..
  · rw [getStone_congr (settle_mills ..), getStone_hopMark]
    rfl

theorem getCtx_of_ctxOnly {s t : State} {cid k : Nat} (h : CtxOnly cid s t) (hk : k ≠ cid) : getCtx t k = getCtx s k := by
  rw [getCtx, mget, h.2 k hk]
  rfl

/-! ### A gang is taken (R130, R495) -/

theorem onlyIn_softStart (radio : Bool) (site : Nat) (s : State) (k : Nat) : OnlyIn [.gov, .bus] s (softStart radio site s k) := by
  have hgov (g : Gov) : OnlyIn [.gov, .bus] s { s with gov := g } := onlyIn_mono (onlyIn_gov ..) (by simp)
  exact onlyIn_ite (onlyIn_refl ..) (onlyIn_ite (onlyIn_trans (hgov _) (onlyIn_mono (onlyIn_bump64 ..) (by simp))) (hgov _))

theorem onlyIn_gangTake (s : State) (site lf drv : Nat) (l : List Nat) : OnlyIn [.mills, .gov, .bus] s (gangTake s site lf drv l) :=
  onlyIn_trans (onlyIn_mono (onlyIn_foldl (onlyIn_softStart _ site) l s) (by simp))
    (onlyIn_mono (onlyIn_foldl (fun s k => onlyIn_setStone s site k _) l _) (by simp))

/-- Every stone of the gang is held by the driving engine. -/
theorem heldBy_gangTake (s : State) (site lf drv : Nat) {l : List Nat} {k : Nat} (hk : k ∈ l) :
    (getStone (gangTake s site lf drv l) site k).heldBy = some (lf, drv) := by
  refine foldl_sets_key (fun s => (getStone s site k).heldBy) (fun s => ?_) (fun s j hj => ?_) (.inr hk)
  · exact congrArg Stone.heldBy (getStone_setStone_same ..)
  · exact congrArg Stone.heldBy (getStone_setStone_other _ _ _ hj.symm)

/-! ### What the hoppers give (R126, R605) -/

/-- An operation with the bytes that wait in its driving stone's hoppers behind those it has. -/
def MmaOp.fed (o : MmaOp) (st : Stone) : MmaOp :=
  { o with stat := o.stat ++ (if mFeedIn o.rcd then st.stat else []), strm := o.strm ++ (if mFeedW o.rcd then st.strm else []) }

/-- A stone whose hoppers hold what an operation gives back and what it does not feed from. -/
def Stone.fedFrom (st : Stone) (r : Rec) (a b : List Byte) : Stone :=
  { st with stat := a ++ (if mFeedIn r then [] else st.stat), strm := b ++ (if mFeedW r then [] else st.strm) }

section
variable {s : State} {site k : Nat} {md : Module} {c : Ctx} {o : MmaOp}

/-- While operands are missing the engine waits on its hoppers, which are drained. -/
theorem pullHoppers_short (x : Eng) (hk : o.stones.getD 0 0 = k) (h : mmaFed md c (o.fed (getStone s site k)) = none) :
    pullHoppers s site md c x o = ({ x with op := some (.mma (o.fed (getStone s site k))), wait := some .hopper },
      setStone s site k ((getStone s site k).fedFrom o.rcd [] [])) := by
  rw [MmaOp.fed] at h
  simp only [pullHoppers, hk, h]
  rfl

/-- An operation with all its operands gives back the bytes it does not need. -/
theorem pullHoppers_complete (x : Eng) (hk : o.stones.getD 0 0 = k) {fs : List Fed} {a b : List Byte}
    (h : mmaFed md c (o.fed (getStone s site k)) = some (fs, a, b)) : ∃ m n, pullHoppers s site md c x o =
      ({ x with op := some (.mma { o with
          stat := (o.fed (getStone s site k)).stat.take m, strm := (o.fed (getStone s site k)).strm.take n }), wait := none },
        setStone s site k ((getStone s site k).fedFrom o.rcd a b)) := by
  rw [MmaOp.fed] at h
  simp only [pullHoppers, hk, h]
  exact ⟨_, _, rfl⟩

end

/-- Whatever the hoppers give, only the operation's bytes, its wait and the bytes of the driving stone change. -/
theorem pullHoppers_spec (s : State) (site : Nat) (md : Module) (c : Ctx) (x : Eng) (o : MmaOp) :
    ∃ (a b : List Byte) (w : Option Wait) (k : Nat) (st : Stone), pullHoppers s site md c x o =
        ({ x with op := some (.mma { o with stat := a, strm := b }), wait := w }, setStone s site k st)
      ∧ st.heldBy = (getStone s site k).heldBy := by
  cases h : mmaFed md c (o.fed (getStone s site (o.stones.getD 0 0))) with
  | none => exact ⟨_, _, _, _, _, pullHoppers_short x rfl h, rfl⟩
  | some f =>
    obtain ⟨fs, a, b⟩ := f
    obtain ⟨m, n, hpull⟩ := pullHoppers_complete x rfl h
    exact ⟨_, _, _, _, _, hpull, rfl⟩

/-! ### A gang is freed (R130, R318) -/

/-- Whether a leaf holds a stone for an engine that `p` selects. -/
def Stone.selected (x : Stone) (lf : Nat) (p : Nat → Bool) : Bool := x.heldBy.any (fun h => h.1 = lf && p h.2)

/-- A stone after the release of those selected. -/
def Stone.release (x : Stone) (lf : Nat) (p : Nat → Bool) (now : Nat) : Stone :=
  if x.selected lf p then { x with heldBy := none, heldFrom := 0, leftAt := some now } else x

/-- The slice of a leaf is charged for the time a stone was held. -/
def chargeStone (s : State) (site lf : Nat) (x : Stone) : State :=
  let n := (getLeaf s site lf).slice
  let sl := getSlice s n
  if sl.st = .none then s else setSlice s n { sl with stoneNs := sl.stoneNs + BitVec.ofNat 64 (nowNs s - x.heldFrom) }

/-- The release of one stone, if it is selected. -/
def releaseStone (site lf : Nat) (p : Nat → Bool) (s : State) (k : Nat) : State :=
  let u := chargeStone s site lf (getStone s site k)
  if (getStone s site k).selected lf p then setStone u site k ((getStone s site k).release lf p (nowNs u)) else s

theorem releaseStones_eq (s : State) (site lf : Nat) (p : Nat → Bool) :
    releaseStones s site lf p = [0, 1, 2, 3].foldl (releaseStone site lf p) s := by
  unfold releaseStones
  congr 1
  funext s k
  cases h : (getStone s site k).heldBy with
  | none => simp [releaseStone, Stone.selected, h]
  | some d =>
    by_cases hd : d.1 = lf ∧ p d.2
    · simp only [releaseStone, Stone.release, Stone.selected, h, hd, Option.any_some, decide_true, Bool.and_self, and_self, if_true]
      rfl
    · simp [releaseStone, Stone.selected, h, hd]

theorem onlyIn_chargeStone (s : State) (site lf : Nat) (x : Stone) : OnlyIn [.sched] s (chargeStone s site lf x) :=
  onlyIn_ite (onlyIn_refl ..) (onlyIn_setSlice ..)

theorem onlyIn_releaseStone (site lf : Nat) (p : Nat → Bool) (s : State) (k : Nat) :
    OnlyIn [.sched, .mills] s (releaseStone site lf p s k) :=
  onlyIn_ite (onlyIn_trans (onlyIn_mono (onlyIn_chargeStone ..) (by simp)) (onlyIn_mono (onlyIn_setStone ..) (by simp))) (onlyIn_refl ..)

theorem onlyIn_releaseStones (s : State) (site lf : Nat) (p : Nat → Bool) : OnlyIn [.sched, .mills] s (releaseStones s site lf p) := by
  rw [releaseStones_eq]
  exact onlyIn_foldl (onlyIn_releaseStone site lf p) ..

theorem getStone_releaseStone (site lf : Nat) (p : Nat → Bool) (s : State) (j k : Nat) : getStone (releaseStone site lf p s j) site k =
    if k = j then (getStone s site k).release lf p (nowNs s) else getStone s site k := by
  have hcharge (i : Nat) (x : Stone) : getStone (chargeStone s site lf x) site i = getStone s site i :=
    getStone_congr ((onlyIn_chargeStone ..).2 .mills (by decide)) ..
  have hnow (x : Stone) : nowNs (chargeStone s site lf x) = nowNs s := nowNs_congr ((onlyIn_chargeStone ..).2 .ftl (by decide))
  unfold releaseStone
  dsimp only
  split
  next hsel =>
    by_cases h : k = j
    · rw [if_pos h, h, getStone_setStone_same, hnow]
    · rw [if_neg h, getStone_setStone_other _ _ _ h, hcharge]
  next hsel =>
    by_cases h : k = j
    · rw [if_pos h, h, Stone.release, if_neg hsel]
    · rw [if_neg h]

theorem getStone_foldl_releaseStone (site lf : Nat) (p : Nat → Bool) (k : Nat) {l : List Nat} (hl : l.Nodup) (s : State) :
    getStone (l.foldl (releaseStone site lf p) s) site k =
      if k ∈ l then (getStone s site k).release lf p (nowNs s) else getStone s site k := by
  induction l generalizing s with
  | nil => rfl
  | cons j r ih =>
    obtain ⟨hj, hr⟩ := List.nodup_cons.mp hl
    have hnow : nowNs (releaseStone site lf p s j) = nowNs s := nowNs_congr ((onlyIn_releaseStone ..).2 .ftl (by decide))
    rw [List.foldl_cons, ih hr, hnow, getStone_releaseStone]
    by_cases h : k = j
    · subst h
      simp [hj]
    · simp [h]

/-- Of the four stones of a mill, those selected are free and the others stay. -/
theorem getStone_releaseStones (s : State) (site lf : Nat) (p : Nat → Bool) {k : Nat} (hk : k < 4) :
    getStone (releaseStones s site lf p) site k = (getStone s site k).release lf p (nowNs s) := by
  have hmem : k ∈ [0, 1, 2, 3] := by
    simp only [List.mem_cons, List.not_mem_nil, or_false]
    omega
  rw [releaseStones_eq, getStone_foldl_releaseStone _ _ _ _ (by decide), if_pos hmem]

theorem heldBy_release_of_held {x : Stone} {lf drv : Nat} (now : Nat) (h : x.heldBy = some (lf, drv)) :
    (x.release lf (fun d => d = drv) now).heldBy = none := by
  simp [Stone.release, Stone.selected, h]

theorem release_of_not_held {x : Stone} {lf drv : Nat} (now : Nat) (h : x.heldBy ≠ some (lf, drv)) :
    x.release lf (fun d => d = drv) now = x := by
  refine if_neg fun hsel => h ?_
  simp only [Stone.selected, Option.any_eq_true, Bool.and_eq_true, decide_eq_true_eq] at hsel
  obtain ⟨d, hd, hlf, hdrv⟩ := hsel
  rw [hd, ← hlf, ← hdrv]

end Sys2Proof.Machine
end

section
/-! SUPPORT. Stone operations: their issue, the wait for a gang or for hoppers, and their landing (R126, R130, R138, R217). -/
namespace Sys2Proof.Machine

/-! ### Issue and acquisition (R130, R217) -/

/-- The operation that a `stone.mma` record starts with its extents. -/
def Issue.mmaOp (i : Issue) (lf m n k : Nat) : MmaOp :=
  ⟨i.idx, physEng i.m lf i.e, i.rcd, m, n, k, gangStones (mGang i.rcd) (physEng i.m lf i.e - 3), false, [], []⟩

/-- The leaf notes the gang mode of the record that it issues. -/
def setGang (s : State) (site lf g : Nat) : State := setLeaf s site lf { getLeaf s site lf with gang := g }

section
variable {s : State} {site lf m n k : Nat} {i : Issue} (hm : dimOf i.c.miller (recF i.rcd 3 0 16) = some m)
  (hn : dimOf i.c.miller (recF i.rcd 3 16 16) = some n) (hk : countOf i.c.miller (recW i.rcd 4) = some k)
include hm hn hk

theorem mmaIssue_ok (hf : mmaFault s i.m i.c i.rcd m n k = none) : mmaIssue i s site lf =
    mmaAcquire (setGang s site lf (mGang i.rcd)) site lf i.cid i.m i.c i.e i.adv (i.mmaOp lf m n k) := by
  simp only [mmaIssue, hm, hn, hk, hf]
  rfl

theorem mmaIssue_fault {code : Nat} (hf : mmaFault s i.m i.c i.rcd m n k = some code) :
    mmaIssue i s site lf = ctxFault s i.cid code (physEng i.m lf i.e) i.idx := by
  simp only [mmaIssue, hm, hn, hk, hf]
  rfl

end

section
variable {s : State} {site lf cid e : Nat} {c : Ctx} {md : Module} {x : Eng} {o : MmaOp}

/-- A free gang is held by its driving engine, and the operation runs, with what its hoppers gave, or waits on them. -/
theorem mmaAcquire_free (h : gangFree s site o.stones = true) : ∃ (v : State) (a b : List Byte) (w : Option Wait),
    mmaAcquire s site lf cid md c e x o =
        hopMark (putEng v cid c e { x with op := some (.mma { o with held := true, stat := a, strm := b }), wait := w }) site
      ∧ OnlyIn [.mills, .gov, .bus] s v ∧ ∀ k ∈ o.stones, (getStone v site k).heldBy = some (lf, o.eng) := by
  obtain ⟨a, b, w, j, st, hpull, hst⟩ :=
    pullHoppers_spec (gangTake s site lf o.eng o.stones) site md c x { o with held := true }
  refine ⟨_, a, b, w, ?_, onlyIn_trans (onlyIn_gangTake s site lf o.eng o.stones) (onlyIn_mono (onlyIn_setStone _ site j st) (by simp)),
    fun k hk => ?_⟩
  · simp only [mmaAcquire, if_pos h, hpull]
  · by_cases hj : k = j
    · rw [hj, getStone_setStone_same, hst, ← hj]
      exact heldBy_gangTake _ _ _ _ hk
    · rw [getStone_setStone_other _ _ _ hj]
      exact heldBy_gangTake _ _ _ _ hk

theorem mmaAcquire_busy (h : gangFree s site o.stones = false) : mmaAcquire s site lf cid md c e x o =
    putEng s cid c e { x with op := some (.mma o), wait := some .gang } :=
  if_neg (by simp [h])

/-- An operation that takes its gang: it has its record and extents, no tile changes, and the driving engine holds every stone. -/
theorem done_mmaAcquire_free (h : gangFree s site o.stones = true) : ∃ (t : State) (u : MmaOp),
    done (mmaAcquire s site lf cid md c e x o) = .next t
      ∧ ((getCtx t cid).eng e).op = some (.mma u) ∧ u.held = true ∧ (u.m, u.n, u.k) = (o.m, o.n, o.k) ∧ u.rcd = o.rcd
      ∧ (getCtx t cid).tiles = c.tiles ∧ (∀ k ∈ o.stones, (getStone t site k).heldBy = some (lf, o.eng))
      ∧ CtxOnly cid s t ∧ OnlyIn [.sched, .mills, .gov, .bus] s t := by
  obtain ⟨v, a, b, w, hacq, hv, hheld⟩ := mmaAcquire_free (lf := lf) (cid := cid) (c := c) (md := md) (e := e) (x := x) h
  obtain ⟨t, ht, hc, hstone, hctx, honly⟩ := done_of_eq_hopMark_putEng hacq
  refine ⟨t, { o with held := true, stat := a, strm := b }, ht, ?_, rfl, rfl, rfl, by rw [hc]; rfl,
    fun k hk => by rw [hstone, hheld k hk], ctxOnly_trans (ctxOnly_of_sched (hv.2 .sched (by decide))) hctx,
    onlyIn_trans (onlyIn_mono hv (by simp)) (onlyIn_mono honly (by simp))⟩
  rw [hc]
  exact congrArg Eng.op (eng_setEng_same ..)

end

theorem gangFree_setGang (s : State) (site lf g : Nat) (l : List Nat) : gangFree (setGang s site lf g) site l = gangFree s site l := by
  simp only [gangFree, setGang, getStone_setLeaf]

theorem onlyIn_setGang (s : State) (site lf g : Nat) : OnlyIn [.mills, .gov] s (setGang s site lf g) := onlyIn_setLeaf ..

theorem gangAcquire_eq {s : State} {site lf e cid : Nat} {c : Ctx} {x : Eng} {o : MmaOp} (h : mmaAt s site lf e = some (cid, c, x, o))
    (hwait : x.wait = some .gang) (hfree : gangFree s site o.stones = true) :
    gangAcquire s site lf e = mmaAcquire s site lf cid (ctxModule s c) c e { x with wait := none } o := by
  simp only [gangAcquire, h, hwait, hfree, and_self, if_true]

/-- Settles O11: a record that raises no fault, and an operation that waited for its gang, both end in `mmaAcquire`, which takes the
whole gang or stores the engine as it waits. -/
theorem stoneOperationsTakeTheirWholeGang : Obligations.StoneOperationsTakeTheirWholeGang := by
  intro s site lf e
  refine ⟨fun i m n k hi hm hn hk => ?_, fun cid c x o h hwait hfree => ?_⟩
  · obtain ⟨-, -, -, he, -⟩ := issueAt_spec hi
    have hexec : exec (.stoneMma site lf e) s = done (mmaIssue i s site lf) := by
      change done _ = _
      rw [hi]
    have hgang := onlyIn_setGang s site lf (mGang i.rcd)
    have hsched := ctxOnly_of_sched (c := i.cid) (hgang.2 .sched (by decide))
    rw [hexec, ← he]
    refine ⟨fun hf => ⟨fun hfree => ?_, fun hbusy => ?_⟩, fun code hf => ?_⟩
    · rw [mmaIssue_ok hm hn hk hf]
      obtain ⟨t, o, ht, hop, hheld, hext, hrcd, htiles, hstones, hctx, honly⟩ :=
        done_mmaAcquire_free (o := i.mmaOp lf m n k) ((gangFree_setGang ..).trans hfree)
      exact ⟨t, o, ht, hop, hheld, hext, hrcd, htiles, hstones, ctxOnly_trans hsched hctx,
        onlyIn_trans (onlyIn_mono hgang (by simp)) honly⟩
    · obtain ⟨t, ht, hc, hctx, honly⟩ := done_of_eq_putEng
        ((mmaIssue_ok hm hn hk hf).trans (mmaAcquire_busy (o := i.mmaOp lf m n k) ((gangFree_setGang ..).trans hbusy)))
      refine ⟨t, _, ht, hc, rfl, rfl, rfl, fun j => ?_, ctxOnly_trans hsched hctx,
        onlyIn_trans (onlyIn_mono hgang (by simp)) (onlyIn_mono honly (by simp))⟩
      rw [getStone_congr (honly.2 .mills (by decide)), setGang, getStone_setLeaf]
    · rw [mmaIssue_fault hm hn hk hf]
      rfl
  · have hexec : exec (.gangAcquire site lf e) s = done (mmaAcquire s site lf cid (ctxModule s c) c e { x with wait := none } o) :=
      congrArg done (gangAcquire_eq h hwait hfree)
    rw [hexec]
    exact done_mmaAcquire_free hfree

/-! ### Hoppers and landing (R126, R138, R159) -/

section
variable {s : State} {site lf e cid : Nat} {c : Ctx} {x : Eng} {o : MmaOp} (h : mmaAt s site lf e = some (cid, c, x, o))
  (hheld : o.held = true)
include h hheld

/-- Bytes that came are taken from the driving stone's hoppers, and the engine is stored. -/
theorem done_hopperPull {k : Nat} {y : Eng} {st : Stone} (hk : o.stones.getD 0 0 = k) (hwait : x.wait = some .hopper)
    (hbytes : mFeedIn o.rcd = true ∧ (getStone s site k).stat ≠ [] ∨ mFeedW o.rcd = true ∧ (getStone s site k).strm ≠ [])
    (hpull : pullHoppers s site (ctxModule s c) c x o = (y, setStone s site k st)) :
    ∃ t, done (hopperPull s site lf e) = .next t ∧ getCtx t cid = { c.setEng e y with lastMove := nowNs s }
      ∧ getStone t site k = st ∧ CtxOnly cid s t ∧ OnlyIn [.sched, .mills, .bus] s t := by
  have heq : hopperPull s site lf e = hopMark (putEng (setStone s site k st) cid c e y) site := by
    simp only [hopperPull, h, hk]
    rw [if_pos ⟨hwait, hheld, hbytes⟩, hpull]
  obtain ⟨t, ht, hc, hstone, hctx, honly⟩ := done_of_eq_hopMark_putEng heq
  exact ⟨t, ht, hc, (hstone k).trans (getStone_setStone_same ..), ctxOnly_trans (ctxOnly_of_sched (setStone_sched ..)) hctx,
    onlyIn_trans (onlyIn_mono (onlyIn_setStone ..) (by simp)) honly⟩

end

/-- A landed operation is counted, and its gang is free. -/
def mmaFreed (s : State) (site lf : Nat) (md : Module) (c : Ctx) (o : MmaOp) : State :=
  releaseStones (mmaCount s site md c o) site lf (fun d => d = o.eng)

theorem mmaLand_eq {s : State} {site lf e cid : Nat} {c c' : Ctx} {x : Eng} {o : MmaOp} {fs : List Fed} {a b : List Byte}
    (h : mmaAt s site lf e = some (cid, c, x, o)) (hheld : o.held = true) (hwait : x.wait = none)
    (hsoft : ∀ k ∈ o.stones, softHeld s site k = false) (hfed : mmaFed (ctxModule s c) c o = some (fs, a, b))
    (hland : landAll (ctxModule s c) c o.rcd o.m o.n o.k fs = c') :
    mmaLand s site lf e = putEng (mmaFreed s site lf (ctxModule s c) c' o) cid c' e { x with op := none } := by
  have hgo : (o.held && !o.stones.any (softHeld s site)) = true := by simpa [hheld] using hsoft
  simp only [mmaLand, h, hgo, hwait, hfed, hland]
  rfl

section
variable (s : State) (site lf : Nat) (md : Module) (c : Ctx) (o : MmaOp)

theorem onlyIn_mmaCount : OnlyIn [.bus] s (mmaCount s site md c o) :=
  onlyIn_ite (onlyIn_refl ..) (onlyIn_trans (onlyIn_foldl (fun s _ => onlyIn_bump64 s _ _) ..) (onlyIn_bump64 ..))

theorem onlyIn_mmaFreed : OnlyIn [.sched, .mills, .bus] s (mmaFreed s site lf md c o) :=
  onlyIn_trans (onlyIn_mono (onlyIn_mmaCount ..) (by simp)) (onlyIn_mono (onlyIn_releaseStones ..) (by simp))

theorem getCtx_mmaFreed (k : Nat) : getCtx (mmaFreed s site lf md c o) k = getCtx s k := by
  have hsched : (mmaCount s site md c o).sched = s.sched := (onlyIn_mmaCount ..).2 .sched (by decide)
  rw [mmaFreed, (releaseStones_charge ..).getCtx, getCtx, hsched, getCtx]

theorem getStone_mmaFreed {k : Nat} (hk : k < 4) : getStone (mmaFreed s site lf md c o) site k =
    (getStone s site k).release lf (fun d => d = o.eng) (nowNs s) := by
  have hcount := onlyIn_mmaCount s site md c o
  rw [mmaFreed, getStone_releaseStones _ _ _ _ hk, getStone_congr (hcount.2 .mills (by decide)), nowNs_congr (hcount.2 .ftl (by decide))]

end

/-- Settles O12: HOPPER_RESUME is one store of the engine with what its hoppers gave; MMA_LANDED counts, frees the gang and stores the
context with its tiles. -/
theorem stonesLandTheirProductsAndFreeTheirGang : Obligations.StonesLandTheirProductsAndFreeTheirGang := by
  intro s site lf e cid c x o h hheld
  refine ⟨fun hwait st o1 hst ho1 hbytes => ?_, fun hwait hsoft fs a b hfed => ?_⟩
  · obtain rfl : o1 = o.fed st := ho1
    subst hst
    refine ⟨fun hnone => ?_, fun hsome => ?_⟩
    · obtain ⟨t, ht, hc, hstone, hctx, honly⟩ :=
        done_hopperPull h hheld rfl hwait hbytes (pullHoppers_short x rfl (Option.isNone_iff_eq_none.mp hnone))
      refine ⟨t, ht, hc, fun hin => ?_, fun hw => ?_, hctx, honly⟩ <;> rw [hstone]
      · simp [Stone.fedFrom, hin]
      · simp [Stone.fedFrom, hw]
    · obtain ⟨⟨fs, a, b⟩, hfed⟩ := Option.isSome_iff_exists.mp hsome
      obtain ⟨m, n, hpull⟩ := pullHoppers_complete x rfl hfed
      obtain ⟨t, ht, hc, -, hctx, honly⟩ := done_hopperPull h hheld rfl hwait hbytes hpull
      exact ⟨t, _, ht, hc, List.take_prefix .., List.take_prefix .., rfl, hctx, honly⟩
  · obtain ⟨t, ht, hc, hctx, honly⟩ := done_of_eq_putEng (mmaLand_eq h hheld hwait hsoft hfed rfl)
    have hstone {k : Nat} (hk : k < 4) : getStone t site k = (getStone s site k).release lf (fun d => d = o.eng) (nowNs s) := by
      rw [getStone_congr (honly.2 .mills (by decide)), getStone_mmaFreed _ _ _ _ _ _ hk]
    refine ⟨t, ht, by rw [hc]; rfl, by rw [hc]; exact eng_setEng_same .., fun k hk hby => ?_, fun k hk hby => ?_, fun k hk => ?_,
      onlyIn_trans (onlyIn_mmaFreed ..) (onlyIn_mono honly (by simp))⟩
    · rw [hstone hk]
      exact heldBy_release_of_held _ hby
    · rw [hstone hk]
      exact release_of_not_held _ hby
    · rw [getCtx_of_ctxOnly hctx hk, getCtx_mmaFreed]

end Sys2Proof.Machine
end

section
/-! SUPPORT. Digests and saturation counts that the spout hands over (R156, R220, R221, R536). -/
namespace Sys2Proof.Machine

/-- A context whose digest register `k` was handed over: CLEAR_ON_EMIT (bit 0) clears it (R536). -/
def Ctx.digestEmitted (c : Ctx) (flags k : Nat) : Ctx := if bitAt flags 0 then { c with digests := mdel c.digests k } else c

/-- A context whose saturation count was read: CLEAR makes it 0 (R221). -/
def Ctx.satRead (c : Ctx) (clear : Bool) : Ctx := if clear then { c with satCnt := 0 } else c

theorem mget_digestEmitted (c : Ctx) (flags k : Nat) :
    mget 0 (c.digestEmitted flags k).digests k = if bitAt flags 0 then 0 else mget 0 c.digests k := by
  unfold Ctx.digestEmitted
  split
  · exact mget_mdel_same ..
  · rfl

theorem queue_satRead (c : Ctx) (clear : Bool) (q : Nat) : (c.satRead clear).queue q = c.queue q := by
  cases clear <;> rfl

theorem satCnt_satRead (c : Ctx) (clear : Bool) : (c.satRead clear).satCnt = if clear then 0 else c.satCnt := by
  cases clear <;> rfl

/-- Entries that fit do not make their engine wait. -/
theorem pushEntries_of_room {c : Ctx} {m : Module} {q : Nat} {es : List Line} (x : Eng) (step : Nat)
    (h : (c.queue q).ents.length + es.length ≤ m.depth q) :
    pushEntries c m x step q es = (c.withQueue q { c.queue q with ents := (c.queue q).ents ++ es }, x) := by
  simp only [pushEntries, push_of_room h]

theorem digestIssue_eq {i : Issue} {d : DigestDecl} {k : Nat} (s : State) (hk : recF i.rcd 1 24 4 = k)
    (h : i.m.digests.find? (fun y => y.id = k) = some d) : digestIssue i s =
      putEng { s with hif := { s.hif with digQ := s.hif.digQ ++
        [⟨i.c.part, i.c.slice, mget 0 i.c.digests k, d.tensor, d.layer, i.c.inst, k⟩] } }
        i.cid (i.c.digestEmitted d.flags k) i.e i.adv := by
  simp only [digestIssue, hk, h, Option.getD_some]
  rfl

theorem statusIssue_eq {i : Issue} {c : Ctx} {q : Nat} (s : State) (hq : recF i.rcd 1 16 5 = q) (hc : i.c.satRead (recB i.rcd 2 0) = c)
    (h : (c.queue q).ents.length < i.m.depth q) : statusIssue i s =
      putEng s i.cid (c.withQueue q { c.queue q with ents := (c.queue q).ents ++ [bytesLine (toLE 4 i.c.satCnt.toNat)] }) i.e i.adv := by
  rw [Ctx.satRead] at hc
  simp only [statusIssue, hq, hc, pushEntries_of_room (es := [bytesLine (toLE 4 i.c.satCnt.toNat)]) _ _ h]

/-- Settles O14: each record is one store of its context, with the queue of the HIF or of the context one entry longer. -/
theorem spoutHandsOverDigestsAndStatus : Obligations.SpoutHandsOverDigestsAndStatus := by
  intro s site lf e i
  refine ⟨fun hi d hd => ?_, fun hi hroom => ?_⟩ <;> obtain ⟨-, -, -, he, -⟩ := issueAt_spec hi
  · have hexec : exec (.spoutDigest site lf e) s = done (digestIssue i s) := by
      change done _ = _
      rw [hi]
    obtain ⟨t, ht, hc, hctx, honly⟩ := done_of_eq_putEng (digestIssue_eq s rfl hd)
    refine ⟨t, hexec.trans ht, honly.2 .hif (by decide), ?_, ?_, ctxOnly_trans (ctxOnly_of_sched rfl) hctx,
      onlyIn_trans (onlyIn_mono (onlyIn_hif ..) (by simp)) (onlyIn_mono honly (by simp))⟩ <;> rw [hc]
    · exact mget_digestEmitted ..
    · rw [he]
      exact eng_setEng_same ..
  · have hexec : exec (.spoutStatus site lf e) s = done (statusIssue i s) := by
      change done _ = _
      rw [hi]
    obtain ⟨t, ht, hc, hctx, honly⟩ := done_of_eq_putEng (statusIssue_eq s rfl rfl (by rwa [queue_satRead]))
    refine ⟨t, hexec.trans ht, ?_, ?_, ?_, hctx, honly⟩ <;> rw [hc]
    · refine (congrArg OpQueue.ents (queue_withQueue ..)).trans ?_
      rw [queue_satRead]
    · exact satCnt_satRead ..
    · rw [he]
      exact eng_setEng_same ..

end Sys2Proof.Machine
end

section
/-! SUPPORT. Cut and wait records of an engine (R188, R202, R282, R284). -/
namespace Sys2Proof.Machine

section
variable {i : Issue} {s : State} {lf : Nat}

theorem markCut_free (h : i.c.freezing = false) : markCut i s = putEng s i.cid i.c i.e i.adv := by
  simp only [markCut, h, Bool.false_eq_true, if_false]

theorem markCut_freezing (h : i.c.freezing = true) :
    markCut i s = putEng s i.cid i.c i.e { i.adv with held := true, cut := some (recCheap i.rcd) } := by
  simp only [markCut, h, if_true]

/-- A wait on an object is satisfied as its condition says (R282). -/
theorem waitNow_obj {c : Ctx} {loc n : Nat} (h : mfind c.syncs loc = some (.obj n)) (cond : Nat) (v : Word) :
    waitNow s c loc cond v = waitCond (getObj s n) cond v := by
  simp only [waitNow, h]

section
variable {v : Nat} (hv : countOf i.c.miller (recW i.rcd 3) = some v)
include hv

theorem waitIssue_satisfied (hf : i.c.freezing = false)
    (hb : waitNow s i.c (syncLocal i.rcd) (syncMode i.rcd) (BitVec.ofNat 32 v) = true) :
    waitIssue i s lf = putEng s i.cid i.c i.e i.adv := by
  simp only [waitIssue, hv, hf, hb, Bool.false_eq_true, if_false, if_true]

theorem waitIssue_waits (hf : i.c.freezing = false)
    (hb : waitNow s i.c (syncLocal i.rcd) (syncMode i.rcd) (BitVec.ofNat 32 v) = false) : waitIssue i s lf =
      putEng s i.cid i.c i.e { i.eng with wait := some (.sync (syncLocal i.rcd) (syncMode i.rcd) (BitVec.ofNat 32 v) false) } := by
  simp only [waitIssue, hv, hf, hb, Bool.false_eq_true, if_false]

theorem waitIssue_freezing {b : Bool} (hf : i.c.freezing = true)
    (hb : waitNow s i.c (syncLocal i.rcd) (syncMode i.rcd) (BitVec.ofNat 32 v) = b) : waitIssue i s lf = putEng s i.cid i.c i.e { i.eng with
      held := true, cut := some (recCheap i.rcd), wait := some (.sync (syncLocal i.rcd) (syncMode i.rcd) (BitVec.ofNat 32 v) b) } := by
  simp only [waitIssue, hv, hf, hb, if_true]

end

end

theorem exec_markCheap {s : State} {site : Site} {lf : LeafNo} {e : EngNo} {i : Issue} (hi : issueAt s site lf e [3] = some i) :
    exec (.markCheap site lf e) s = done (markCut i s) := by
  change done _ = _
  rw [hi]

theorem exec_syncWait {s : State} {site : Site} {lf : LeafNo} {e : EngNo} {i : Issue} (hi : issueAt s site lf e [4] = some i) :
    exec (.syncWait site lf e) s = done (waitIssue i s lf) := by
  change done _ = _
  rw [hi]

/-- Settles O7: each record is one store of its engine, chosen by the pending freeze and, for a wait, by the condition. -/
theorem cutAndWaitRecordsHoldUnderAFreeze : Obligations.CutAndWaitRecordsHoldUnderAFreeze := by
  intro s site lf e i
  refine ⟨fun hi => ?_, fun hi v n b hv hn hb => ?_⟩ <;> obtain ⟨-, -, -, he, -⟩ := issueAt_spec hi
  · rw [exec_markCheap hi, ← he]
    exact ⟨fun hf => done_of_eq_putEng (markCut_free hf), fun hf => done_of_eq_putEng (markCut_freezing hf)⟩
  · rw [exec_syncWait hi, ← he]
    have hnow := (waitNow_obj hn ..).trans hb.symm
    exact ⟨fun hf hsat => done_of_eq_putEng (waitIssue_satisfied hv hf (hnow.trans hsat)),
      fun hf hsat => done_of_eq_putEng (waitIssue_waits hv hf (hnow.trans hsat)),
      fun hf => done_of_eq_putEng (waitIssue_freezing hv hf hnow)⟩

end Sys2Proof.Machine
end

section
/-! SUPPORT. The miller's branches, its loops and its end (R186, R234, R235). -/
namespace Sys2Proof.Machine

section
variable {s : State} {site lf : Nat} {i : MIssue}

theorem mBf_eq (hi : millerAt s site lf 0x20 = some i) : mBf site lf s = setCtx s i.cid { i.c with lastMove := nowNs s, miller :=
    { i.m with pc := if mCond (mFn i.w % 8) i.ra i.rb then (i.m.pc + (mImm i.w).toNat) % 2 ^ 32 else (i.m.pc + 8) % 2 ^ 32 } } := by
  simp only [mBf, hi]
  cases mCond (mFn i.w % 8) i.ra i.rb <;> rfl

theorem mLoopOpen_enter (hi : millerAt s site lf 0x21 = some i) (h0 : i.ra ≠ 0) (hmax : i.ra.toNat ≤ (mImm i.w).toNat) :
    mLoopOpen site lf s = setCtx s i.cid { i.c with lastMove := nowNs s, miller :=
      { i.m with loops := i.m.loops ++ [(i.m.pc, i.m.pc + 8 * (mFn i.w + 1))], pc := (i.m.pc + 8) % 2 ^ 32 } } := by
  simp only [mLoopOpen, hi, if_neg hmax.not_gt, if_neg h0]
  rfl

theorem mLoopOpen_skip (hi : millerAt s site lf 0x21 = some i) (h0 : i.ra = 0) : mLoopOpen site lf s =
    setCtx s i.cid { i.c with lastMove := nowNs s, miller := { i.m with pc := (i.m.pc + 8 * (mFn i.w + 1) + 8) % 2 ^ 32 } } := by
  have hmax : ¬ (mImm i.w).toNat < i.ra.toNat := by simp [h0]
  simp only [mLoopOpen, hi, if_neg hmax, if_pos h0]
  rfl

theorem mLoopOpen_range (hi : millerAt s site lf 0x21 = some i) (hmax : (mImm i.w).toNat < i.ra.toNat) :
    mLoopOpen site lf s = ctxFault s i.cid 0x01 0 (i.m.pc / 8) := by
  simp only [mLoopOpen, hi, if_pos hmax]
  rfl

theorem mLoopBack_again (hi : millerAt s site lf 0x22 = some i) (h1 : i.ra ≠ 1) : mLoopBack site lf s =
    setCtx s i.cid { i.c with lastMove := nowNs s, miller :=
      { i.m.set (mRa i.w) (i.ra - 1) with pc := (i.m.pc + (mImm i.w).toNat) % 2 ^ 32 } } := by
  have hleft : i.ra - 1 ≠ 0 := sub_ne_zero.mpr h1
  simp only [mLoopBack, hi, if_pos hleft]
  rfl

theorem mLoopBack_last (hi : millerAt s site lf 0x22 = some i) (h1 : i.ra = 1) : mLoopBack site lf s =
    setCtx s i.cid { i.c with lastMove := nowNs s, miller :=
      { i.m.set (mRa i.w) 0 with loops := i.m.loops.dropLast, pc := (i.m.pc + 8) % 2 ^ 32 } } := by
  have hnone : i.ra - 1 = 0 := sub_eq_zero.mpr h1
  simp only [mLoopBack, hi, hnone, ne_eq, not_true, if_false]
  rw [Miller.set_eq]
  rfl

theorem mEnd_eq (hi : millerAt s site lf 0x3F = some i) :
    mEnd site lf s = setCtx s i.cid { i.c with lastMove := nowNs s, miller := { i.m with ended := true } } := by
  rw [mEnd, hi]
  rfl

end

/-- Settles O22: each outcome of the four instructions is one store of the context, or the fault of a count out of range. -/
theorem millerBranchesLoopsAndEnd : Obligations.MillerBranchesLoopsAndEnd := by
  intro s site lf i
  refine ⟨fun hi => done_of_eq_setCtx (mBf_eq hi), fun hi => ⟨fun h0 hmax => ?_, fun h0 => ?_, fun hmax => ?_⟩, fun hi => ?_,
    fun hi => done_of_eq_setCtx (mEnd_eq hi)⟩
  · exact done_of_eq_setCtx (mLoopOpen_enter hi h0 hmax)
  · exact done_of_eq_setCtx (mLoopOpen_skip hi h0)
  · exact congrArg done (mLoopOpen_range hi hmax)
  · by_cases h1 : i.ra = 1
    · obtain ⟨t, ht, hc, hrest⟩ := done_of_eq_setCtx (mLoopBack_last hi h1)
      exact ⟨t, ht, fun hn => absurd h1 hn, fun _ => hc, hrest⟩
    · obtain ⟨t, ht, hc, hrest⟩ := done_of_eq_setCtx (mLoopBack_again hi h1)
      exact ⟨t, ht, fun _ => hc, fun he => absurd he h1, hrest⟩

end Sys2Proof.Machine
end

section
/-! SUPPORT. Sync instructions of the miller and satisfied waits (R188, R281 to R284), with what a change of a sync object and the
completion of a phase leave alone (R400). -/
namespace Sys2Proof.Machine

/-! ### A change of an object -/

@[simp] theorem getObj_setObj_same (s : State) (n : Nat) (o : SyncObj) : getObj (setObj s n o) n = o := mget_mset_same ..

theorem getObj_setObj_other (s : State) {n m : Nat} (o : SyncObj) (h : m ≠ n) : getObj (setObj s n o) m = getObj s m :=
  mget_mset_other _ _ _ _ h

theorem getObj_congr {s t : State} (h : t.sync = s.sync) (n : Nat) : getObj t n = getObj s n := by rw [getObj, h, getObj]

theorem onlyIn_setObj (s : State) (n : Nat) (o : SyncObj) : OnlyIn [.sync, .sched, .hif] s (setObj s n o) := by
  refine ⟨rfl, fun c hc => ?_⟩
  cases c
  case sync | sched | hif => exact absurd hc (by decide)
  all_goals rfl

/-! ### What a signal of a context does beside its object -/

theorem onlyIn_phaseDone (s : State) (cid j t : Nat) (ph : PhaseDecl) : OnlyIn [.cells] s (phaseDone s cid j t ph) := by
  refine onlyIn_foldl (fun s n => ?_) _ s
  cases hslot : (getCell s n).slotOf t <;> simp only [hslot]
  · exact onlyIn_refl ..
  · exact onlyIn_setCell ..

theorem onlyIn_phaseStamp (s : State) (cid loc : Nat) (set : Bool) : OnlyIn [.sched, .cells] s (phaseStamp s cid loc set) := by
  unfold phaseStamp
  dsimp only
  split
  · refine onlyIn_ite (onlyIn_refl ..) (onlyIn_foldl (fun s p => ?_) _ s)
    refine onlyIn_ite (onlyIn_refl ..) (onlyIn_trans (onlyIn_mono (onlyIn_setCtx ..) ?_) (onlyIn_mono (onlyIn_phaseDone ..) ?_)) <;> simp
  · exact onlyIn_refl ..

theorem ctxSignal_counter {s : State} {n : Nat} (p : Nat) (set : Bool) (v : Word) (h : (getObj s n).typ = .counter) :
    ctxSignal s p (some (.obj n)) set v =
      .ok 0 (setObj s n { getObj s n with value := if set then v else (getObj s n).value + v }) := by
  simp only [ctxSignal, sigObj, h]

theorem ctxTake_work {s : State} {n : Nat} {inc : Word} (p : Nat) (ans : Word) (h : (getObj s n).typ = .work) (h0 : inc ≠ 0)
    (hmax : (getObj s n).value.toNat + inc.toNat < 2 ^ 32) : ctxTake s p (some (.obj n)) inc ans =
      .ok (getObj s n).value (countTake (setObj s n { getObj s n with value := (getObj s n).value + inc })) := by
  have hok : ¬ (inc = 0 ∨ 0xFFFFFFFF < (getObj s n).value.toNat + inc.toNat) := not_or.mpr ⟨h0, by omega⟩
  simp only [ctxTake, takeObj, if_pos h, if_neg hok]

/-! ### The miller's instructions -/

/-- The miller of an instruction about to issue is its context's, and it does not hold. -/
theorem millerAt_spec {s : State} {site lf mop : Nat} {i : MIssue} (h : millerAt s site lf mop = some i) :
    i.m = i.c.miller ∧ i.m.held = false := by
  unfold millerAt at h
  split at h
  · cases h
  · dsimp only at h
    split at h
    · rename_i hheld _ _
      split at h
      · cases h
        exact ⟨rfl, hheld⟩
      · cases h
    · cases h

section
variable {s : State} {site lf n : Nat} {i : MIssue}

theorem mWait_eq {b : Bool} (hi : millerAt s site lf 0x35 = some i) (hb : waitNow s i.c (mLocal i.w) (mFn i.w % 8) i.rb = b) :
    mWait site lf s = setCtx s i.cid { i.c with lastMove := nowNs s, miller :=
      if i.c.freezing then
        { i.m with held := true, cut := some (mCheap i.w), wait := some (.sync (mLocal i.w) (mFn i.w % 8) i.rb b) }
      else if b then { i.m with pc := (i.m.pc + 8) % 2 ^ 32 }
      else { i.m with wait := some (.sync (mLocal i.w) (mFn i.w % 8) i.rb false) } } := by
  simp only [mWait, hi, hb]
  by_cases hf : i.c.freezing = true
  · simp only [if_pos hf]
    rfl
  · simp only [if_neg hf]
    cases b <;> rfl

theorem mMark_free (hi : millerAt s site lf 0x38 = some i) (hf : i.c.freezing = false) :
    mMark site lf s = setCtx s i.cid { i.c with lastMove := nowNs s, miller := i.m.stepped } := by
  rw [mMark, hi]
  exact congrArg (i.done s) (if_neg (by simp [hf]))

theorem mMark_freezing (hi : millerAt s site lf 0x38 = some i) (hf : i.c.freezing = true) : mMark site lf s = setCtx s i.cid { i.c with
    lastMove := nowNs s, miller := { i.m with held := true, cut := some (bitsAt i.w.toNat 32 10) }.stepped } := by
  rw [mMark, hi]
  exact congrArg (i.done s) (if_pos hf)

/-- A signal of a counter: the object changes, then a phase may complete, and the miller steps. -/
theorem mSignal_counter {u : State} (hi : millerAt s site lf 0x36 = some i) (hn : mfind i.c.syncs (mLocal i.w) = some (.obj n))
    (ht : (getObj s n).typ = .counter) (hu : u = phaseStamp (setObj s n { getObj s n with
      value := if mFn i.w % 8 = 1 then i.rb else (getObj s n).value + i.rb }) i.cid (mLocal i.w) (mFn i.w % 8 = 1)) :
    mSignal site lf s = setCtx u i.cid { getCtx u i.cid with lastMove := nowNs u, miller := i.m.stepped } := by
  simp only [mSignal, hi, hn, ctxSignal_counter _ _ _ ht, decide_eq_true_eq, ← hu]
  rfl

theorem mTake_work {u : State} (hi : millerAt s site lf 0x37 = some i) (hn : mfind i.c.syncs (mLocal i.w) = some (.obj n))
    (ht : (getObj s n).typ = .work) (h0 : i.rb ≠ 0) (hmax : (getObj s n).value.toNat + i.rb.toNat < 2 ^ 32)
    (hu : u = countTake (setObj s n { getObj s n with value := (getObj s n).value + i.rb })) (ans : Word) : mTake site lf ans s =
      setCtx u i.cid { getCtx u i.cid with lastMove := nowNs u, miller := (i.m.set (mRd i.w) (getObj s n).value).stepped } := by
  simp only [mTake, hi, hn, ctxTake_work _ _ ht h0 hmax, ← hu]
  rfl

end

/-- A miller instruction that changes one object, then what does not touch objects, and at last stores the miller of its context. -/
theorem done_of_object_changed {l : List Comp} {s u w : State} {n cid : Nat} {o : SyncObj} {x : Ctx}
    (hu : OnlyIn l (setObj s n o) u) (hsync : Comp.sync ∉ l) (hw : w = setCtx u cid x) :
    ∃ t, done w = .next t ∧ getObj t n = o ∧ (∀ m : Nat, m ≠ n → getObj t m = getObj s m) ∧ getCtx t cid = x
      ∧ OnlyIn ([.sync, .sched, .hif] ++ l) s t := by
  obtain ⟨t, ht, hc, -, honly⟩ := done_of_eq_setCtx hw
  have hobj (m : Nat) : getObj t m = getObj (setObj s n o) m :=
    getObj_congr ((honly.2 .sync (by decide)).trans (hu.2 .sync hsync)) m
  refine ⟨t, ht, ?_, fun m hm => ?_, hc, onlyIn_trans (onlyIn_mono (onlyIn_setObj ..) (List.subset_append_left ..))
    (onlyIn_trans (onlyIn_mono hu (List.subset_append_right ..)) (onlyIn_mono honly (by simp)))⟩
  · rw [hobj, getObj_setObj_same]
  · rw [hobj, getObj_setObj_other _ _ hm]

/-! ### WAIT_SATISFIED -/

section
variable {s : State} {site lf cid loc cond : Nat} {v : Word} {c : Ctx} (hr : runningAt s site lf = some (cid, c))
include hr

theorem waitDone_miller (hw : c.miller.wait = some (.sync loc cond v true)) (hh : c.miller.held = false) : waitDone s site lf 0 =
    setCtx s cid { c with lastMove := nowNs s, miller := { c.miller with wait := none, pc := (c.miller.pc + 8) % 2 ^ 32 } } := by
  simp only [waitDone, hr, if_true, hw, hh]
  rfl

theorem waitDone_engine {e : Nat} {r : Rec} (he : e ≠ 0) (hw : (c.eng e).wait = some (.sync loc cond v true)) (hh : (c.eng e).held = false)
    (hrec : ((ctxModule s c).table e)[(c.eng e).next]? = some r) :
    waitDone s site lf e = putEng s cid c e ({ c.eng e with wait := none }.past r (c.eng e).next) := by
  simp only [waitDone, hr, if_neg he, hw, hh, hrec]

end

/-- Settles O24: a wait, a cut and a satisfied wait are one store of the context; a signal and a take change their object before it. -/
theorem millerSyncInstructionsAndSatisfiedWaits : Obligations.MillerSyncInstructionsAndSatisfiedWaits := by
  intro s site lf
  refine ⟨fun i n b hi hn hb => ?_, fun i hi => ?_, fun i n hi hn ht => ?_, fun i n ans hi hn ht h0 hmax => ?_,
    fun cid loc cond v c hr => ⟨fun hw hh => ?_, fun e r he hw hh hrec => ?_⟩⟩
  · exact done_of_eq_setCtx (mWait_eq hi ((waitNow_obj hn ..).trans hb.symm))
  · obtain ⟨-, hheld⟩ := millerAt_spec hi
    cases hf : i.c.freezing with
    | false =>
      obtain ⟨t, ht, hc, hctx, honly⟩ := done_of_eq_setCtx (mMark_free hi hf)
      refine ⟨t, ht, by rw [hc]; rfl, ?_, fun h => absurd h Bool.false_ne_true, hctx, honly⟩
      rw [hc]
      exact Eq.congr_left hheld
    | true =>
      obtain ⟨t, ht, hc, hctx, honly⟩ := done_of_eq_setCtx (mMark_freezing hi hf)
      exact ⟨t, ht, by rw [hc]; rfl, by rw [hc]; exact Iff.rfl, fun _ => by rw [hc]; rfl, hctx, honly⟩
  · obtain ⟨t, hd, hn', hm', hc, honly⟩ := done_of_object_changed (onlyIn_phaseStamp ..) (by decide) (mSignal_counter hi hn ht rfl)
    exact ⟨t, hd, hn', hm', by rw [hc]; rfl, onlyIn_mono honly (by simp)⟩
  · obtain ⟨t, hd, hn', hm', hc, honly⟩ := done_of_object_changed (onlyIn_bump64 ..) (by decide) (mTake_work hi hn ht h0 hmax rfl ans)
    refine ⟨t, hd, hn', hm', ?_, onlyIn_mono honly (by simp)⟩
    rw [hc, Miller.set_eq]
    rfl
  · exact done_of_eq_setCtx (waitDone_miller hr hw hh)
  · exact done_of_eq_putEng (waitDone_engine hr (Fin.val_ne_zero_iff.mpr he) hw hh hrec)

end Sys2Proof.Machine
end

section
/-! SUPPORT. Freezes that complete, saves, and late freezes and stalls (R188, R259, R294, R308, R309, R319, R328). -/
namespace Sys2Proof.Machine

/-! ### Every leaf after one was stopped -/

/-- A number other than 0 names the second leaf. -/
theorem getLeaf_of_iff (s : State) (m : Nat) {l k : Nat} (h : l = 0 ↔ k = 0) : getLeaf s m l = getLeaf s m k := by
  simp only [getLeaf, Mill.leaf, h]

theorem getLeaf_setLeaf (s : State) (site lf : Nat) (x : Leaf) (m l : Nat) :
    getLeaf (setLeaf s site lf x) m l = if m = site ∧ (l = 0 ↔ lf = 0) then x else getLeaf s m l := by
  split
  · rename_i h
    obtain ⟨rfl, hl⟩ := h
    rw [getLeaf_of_iff _ _ hl, getLeaf_setLeaf_same]
  · rename_i h
    by_cases hm : m = site
    · subst hm
      exact getLeaf_setLeaf_other _ _ _ (by tauto)
    · exact congrArg (fun x : Mill => x.leaf l) (getMill_setMill_other _ _ hm)

theorem st_chargeLeaf (s : State) (site lf m l : Nat) : (getLeaf (chargeLeaf s site lf) m l).st = (getLeaf s m l).st := by
  obtain h | ⟨u, clk, -, hm, -, h⟩ := chargeLeaf_cases s site lf <;> rw [h]
  rw [getLeaf_setLeaf]
  split
  · rename_i hsame
    obtain ⟨rfl, hl⟩ := hsame
    rw [getLeaf_of_iff s m hl]
  · rw [getLeaf_congr hm]

theorem st_stopLeaf (s : State) (site lf : Nat) (st : LeafSt) (m l : Nat) :
    (getLeaf (stopLeaf s site lf st) m l).st = if m = site ∧ (l = 0 ↔ lf = 0) then st else (getLeaf s m l).st := by
  by_cases hrun : (getLeaf s site lf).st = .running
  · have hmark : (getLeaf (hopMark (setLeaf (chargeLeaf s site lf) site lf { getLeaf (chargeLeaf s site lf) site lf with st := st }) site)
        m l).st = if m = site ∧ (l = 0 ↔ lf = 0) then st else (getLeaf s m l).st := by
      rw [getLeaf_of_leaves (leaves_hopMark ..), getLeaf_setLeaf, apply_ite Leaf.st, st_chargeLeaf]
    simp only [stopLeaf, if_pos hrun]
    split <;> exact hmark
  · simp only [stopLeaf, if_neg hrun]
    rw [getLeaf_setLeaf, apply_ite Leaf.st]

/-! ### FREEZE_COMPLETE -/

/-- Leaves only become FROZEN, and of a context only the time of its last move changes. -/
structure FreezesOnly (s t : State) : Prop where
  frame : OnlyIn [.mills, .sched, .bus, .gov] s t
  ctxs : ∀ k, ∃ n, getCtx t k = { getCtx s k with lastMove := n }
  frozen : ∀ m l, (getLeaf s m l).st = .frozen → (getLeaf t m l).st = .frozen

namespace FreezesOnly

theorem of_ctxs {s t : State} (ho : OnlyIn [.sched, .bus] s t) (hc : t.sched.ctxs = s.sched.ctxs) : FreezesOnly s t where
  frame := onlyIn_mono ho (by simp)
  ctxs k := ⟨(getCtx s k).lastMove, by rw [getCtx, hc, getCtx]⟩
  frozen m l h := by rwa [getLeaf_congr (ho.2 .mills (by decide))]

theorem refl (s : State) : FreezesOnly s s := of_ctxs (onlyIn_refl _ s) rfl

variable {s t u : State}

theorem trans (h : FreezesOnly s t) (k : FreezesOnly t u) : FreezesOnly s u where
  frame := onlyIn_trans h.frame k.frame
  ctxs c := by
    obtain ⟨n, hn⟩ := h.ctxs c
    obtain ⟨m, hm⟩ := k.ctxs c
    exact ⟨m, by rw [hm, hn]⟩
  frozen m l hf := k.frozen m l (h.frozen m l hf)

theorem place (h : FreezesOnly s t) (k : Nat) : (getCtx t k).place = (getCtx s k).place := by
  obtain ⟨n, hn⟩ := h.ctxs k
  rw [hn]

theorem dmem_tiles (h : FreezesOnly s t) (k : Nat) : (getCtx t k).dmem = (getCtx s k).dmem ∧ (getCtx t k).tiles = (getCtx s k).tiles := by
  obtain ⟨n, hn⟩ := h.ctxs k
  rw [hn]
  exact ⟨rfl, rfl⟩

theorem stopLeaf (s : State) (site lf : Nat) : FreezesOnly s (stopLeaf s site lf .frozen) where
  frame := (stopLeaf_movesNoData s site lf .frozen).1
  ctxs k := by
    obtain ⟨u, hu, -, -, -, -, h | ⟨c, n, h⟩⟩ := stopLeaf_cases s site lf .frozen <;> rw [h]
    · exact ⟨(getCtx s k).lastMove, hu.getCtx k⟩
    · by_cases hk : k = c
      · subst hk
        exact ⟨n, by rw [getCtx_setCtx_same, hu.getCtx]⟩
      · exact ⟨(getCtx s k).lastMove, by rw [getCtx_setCtx_other _ _ hk, hu.getCtx]⟩
  frozen m l hf := by
    rw [st_stopLeaf, hf, ite_self]

theorem freezeLeaf (s : State) (cid : Nat) : FreezesOnly s (freezeLeaf s cid) := by
  unfold Machine.freezeLeaf
  split
  · exact refl s
  · split
    · exact refl s
    · exact stopLeaf ..

theorem foldl (xs : List Nat) (s : State) : FreezesOnly s (xs.foldl Machine.freezeLeaf s) := by
  induction xs generalizing s with
  | nil => exact refl s
  | cons c r ih => exact (freezeLeaf s c).trans (ih _)

end FreezesOnly

theorem freezeLeaf_frozen {s : State} {cid m l : Nat} (h : (getCtx s cid).place = .leaf m l) :
    (getLeaf (freezeLeaf s cid) m l).st = .frozen := by
  simp only [freezeLeaf, h]
  split
  · assumption
  · rw [st_stopLeaf, if_pos ⟨rfl, Iff.rfl⟩]

/-- Every context of a list that is in a leaf has it FROZEN. -/
theorem foldl_freezeLeaf_frozen {xs : List Nat} {s : State} {k m l : Nat} (hk : k ∈ xs) (hp : (getCtx s k).place = .leaf m l) :
    (getLeaf (xs.foldl freezeLeaf s) m l).st = .frozen := by
  induction xs generalizing s with
  | nil => cases hk
  | cons c r ih =>
    rw [List.foldl_cons]
    rcases List.mem_cons.mp hk with rfl | hr
    · exact (FreezesOnly.foldl ..).frozen m l (freezeLeaf_frozen hp)
    · exact ih hr (((FreezesOnly.freezeLeaf s c).place k).trans hp)

theorem partFrozen_ctxs (s : State) (p : Nat) : (partFrozen s p).sched.ctxs = s.sched.ctxs := by
  unfold partFrozen
  dsimp only
  split
  · rw [raiseInt_sched]
    rfl
  · rfl

theorem pauseDone_ctxs (s : State) (p : Nat) : (pauseDone s p).sched.ctxs = s.sched.ctxs := by
  unfold pauseDone
  split
  · split
    · rw [sliceDone, raiseInt_sched]
      rfl
    · rfl
  · rfl

theorem settlePart_freezesOnly (s : State) (p : Nat) : FreezesOnly s (settlePart s p) :=
  .of_ctxs (settlePart_frame s p).1 ((pauseDone_ctxs ..).trans (partFrozen_ctxs ..))

theorem freezeDone_eq {s : State} {site lf cid : Nat} {c : Ctx} (h : ctxAt s site lf = some (cid, c))
    (hst : (getLeaf s site lf).st ≠ .frozen) (hr : freezeReady s cid = true) (hg : ∀ k ∈ groupOf s cid, freezeReady s k = true) :
    freezeDone s site lf = settlePart ((groupOf s cid).foldl freezeLeaf s) c.part := by
  have hall : (groupOf s cid).all (freezeReady s) = true := List.all_eq_true.mpr hg
  have hgo : ¬ ((getLeaf s site lf).st = .frozen ∨ (!freezeReady s cid) = true ∨ (!(groupOf s cid).all (freezeReady s)) = true) := by
    simp [hst, hr, hall]
  simp only [freezeDone, h, if_neg hgo]

/-! ### SAVE_DONE -/

theorem ctx_of_ctxAt {s : State} {site lf cid : Nat} {c : Ctx} (h : ctxAt s site lf = some (cid, c)) : c = getCtx s cid := by
  obtain ⟨k, -, hk⟩ := Option.map_eq_some_iff.mp h
  cases hk
  rfl

theorem liveOnly_miller (m : Module) (c : Ctx) : (liveOnly m c).miller = c.miller := by
  unfold liveOnly
  split <;> rfl

theorem clearLeaf_charge (s : State) (site lf : Nat) : ChargeOnly s (clearLeaf s site lf) := by
  unfold clearLeaf
  dsimp only
  split
  · exact (dropHoppers_charge ..).trans (ChargeOnly.setLeaf ..)
  · exact ChargeOnly.setLeaf ..

/-- A save that succeeds stores the context with its live set only, and clears its leaf (R309, R319). -/
theorem saveCtx_inv {s u : State} {cid site lf : Nat} (hp : (getCtx s cid).place = .leaf site lf) (h : saveCtx s cid = some u) :
    ∃ (v : State) (units : List Nat) (n : Nat), u = bump64 (clearLeaf (setCtx v cid { liveOnly (ctxModule s (getCtx s cid)) (getCtx s cid) with
      place := .saved, saveUnits := units, savedAt := n, freezing := true, freezeWhy := 0 }) site lf) (reg .sch 0 0x130) 1 := by
  simp only [saveCtx, hp] at h
  split at h
  · cases h
  · exact ⟨_, _, _, (Option.some.inj h).symm⟩

theorem saveDone_eq {s u : State} {site lf cid : Nat} {c : Ctx} (h : ctxAt s site lf = some (cid, c))
    (hst : (getLeaf s site lf).st = .frozen) (hw : c.freezeWhy = 2 ∨ c.freezeWhy = 3) (hg : groupOf s cid = [cid])
    (hr : freezeReady s cid = true) (hp : c.place = .leaf site lf) (hu : saveCtx s cid = some u) :
    saveDone s site lf = kickPart (decideLeaf (settlePart u c.part) site lf (getLeaf s site lf).want) c.part := by
  have hwhy : 2 ≤ c.freezeWhy ∧ c.freezeWhy ≤ 3 := by omega
  have hplace : (getCtx s cid).place = .leaf site lf := by rw [← ctx_of_ctxAt h, hp]
  simp [saveDone, h, hst, hg, hr, hwhy, saveAll, hplace, hu]

/-! ### FREEZE_TIMEOUT and STALL_WATCHDOG -/

theorem freezeLate_eq {s : State} {site lf cid : Nat} {c : Ctx} (h : ctxAt s site lf = some (cid, c))
    (hst : (getLeaf s site lf).st = .running) (hf : c.freezing = true) (hw : 1 < c.freezeWhy) (hh : c.holds = false)
    (hl : ∀ n, siteMill s site = some n → isLent s n = false)
    (ht : (getW s (reg .sch (1 + c.part) 0x104)).toNat * 1000 < nowNs s - c.freezeFrom) :
    ∃ e i, freezeLate s site lf = ctxFault s cid 0x21 e i := by
  cases hm : siteMill s site with
  | none =>
    simp only [freezeLate, h, hm, hst, hf, hw, hh, ht, Bool.not_false, and_self, if_true]
    exact ⟨_, _, rfl⟩
  | some n =>
    simp only [freezeLate, h, hm, hl n hm, hst, hf, hw, hh, ht, Bool.not_false, and_self, if_true]
    exact ⟨_, _, rfl⟩

theorem stallCheck_eq {s : State} {site lf cid : Nat} {c : Ctx} (h : runningAt s site lf = some (cid, c)) (hs : ctxStalled s c = true)
    (ht : (getW s (reg .syn 2 (0x100 + 4 * c.part))).toNat * 1000 < nowNs s - stalledFrom s c) :
    ∃ e i, stallCheck s site lf = raiseInt (bump32 (ctxFault s cid 0x20 e i) (reg .syn 0 0x110) 1) .syn 0 1 := by
  simp only [stallCheck, h, hs, ht, and_self, if_true]
  exact ⟨_, _, rfl⟩

/-- Settles O26: a freeze completes by stopping leaves, a save stores the live set and clears its leaf, and the two timers fault. -/
theorem frozenContextsAreSavedAndLeafTaken : Obligations.FrozenContextsAreSavedAndLeafTaken := by
  refine ⟨fun s site lf cid c h hst hr hg => ?_, fun s u site lf cid c h hst hw hg hr hp hu => ?_,
    fun s site lf cid c h hst hf hw hh hl ht => ?_, fun s site lf cid c h hs ht => ?_⟩
  · have hall := (FreezesOnly.foldl (groupOf s cid) s).trans (settlePart_freezesOnly _ c.part)
    refine ⟨_, congrArg done (freezeDone_eq h hst hr hg), fun k hk m l hp => ?_, fun k => ?_, onlyIn_settle hall.frame⟩
    · rw [getLeaf_settle]
      exact (settlePart_freezesOnly ..).frozen m l (foldl_freezeLeaf_frozen hk hp)
    · rw [getCtx_settle]
      exact ⟨hall.place k, hall.dmem_tiles k⟩
  · obtain rfl := ctx_of_ctxAt h
    obtain ⟨v, units, n, hv⟩ := saveCtx_inv hp hu
    have hctx : getCtx u cid = { liveOnly (ctxModule s (getCtx s cid)) (getCtx s cid) with
        place := .saved, saveUnits := units, savedAt := n, freezing := true, freezeWhy := 0 } := by
      rw [hv, getCtx, bump64_sched]
      exact ((clearLeaf_charge ..).getCtx cid).trans (getCtx_setCtx_same ..)
    refine ⟨by rw [hctx], by rw [hctx], by rw [hctx], by rw [hctx]; exact liveOnly_miller .., ?_,
      congrArg done (saveDone_eq h hst hw hg hr hp hu)⟩
    rw [hv, getLeaf_congr (bump64_mills ..), getLeaf_clearLeaf]
    rfl
  · obtain ⟨e, i, hlate⟩ := freezeLate_eq h hst hf hw hh hl ht
    exact ⟨e, i, congrArg done hlate⟩
  · obtain ⟨e, i, hstall⟩ := stallCheck_eq h hs ht
    refine ⟨_, _, e, i, congrArg done hstall, rfl, fun k => ?_, ?_, ?_, onlyIn_settle (onlyIn_raiseInt_bump32 ..)⟩
    · rw [getCtx_settle, getCtx, raiseInt_sched, bump32_sched, getCtx]
    · rw [getW_settle, getW_raiseInt, if_neg (reg_ne _ _ (by decide)), getW_bump32_same]
    · rw [getW_settle]
      exact bitAt_raiseInt _ _ _ (by decide)

end Sys2Proof.Machine
end

section
/-! SUPPORT. The completion of a load (R242, R244): its leaves leave LOADING, which the governor notes as the last time at which their
rows were busy (R505), and nothing that follows in the completion changes a partition. -/
namespace Sys2Proof.Machine

/-! ### The scheduler's decisions keep every partition -/

theorem leaveSplit_sched (s : State) (site : Nat) : (leaveSplit s site).sched = s.sched := by
  unfold leaveSplit
  dsimp only
  split <;> rfl

theorem setCtx_parts (s : State) (c : Nat) (x : Ctx) : (setCtx s c x).sched.parts = s.sched.parts := rfl

theorem placeCtx_parts (s : State) (cid site lf : Nat) (st : LeafSt) : (placeCtx s cid site lf st).sched.parts = s.sched.parts := by
  unfold placeCtx
  dsimp only
  split
  · rfl
  · rw [setCtx_parts, setLeaf_sched, wakeRow_sched]

/-- Units that are reserved where there are enough. -/
theorem reserveUnits_parts (s : State) (cid : Nat) : ((reserveUnits s cid).getD s).sched.parts = s.sched.parts := by
  unfold reserveUnits
  dsimp only
  split <;> rfl

theorem swapIn_parts (s : State) (cid site lf : Nat) : (swapIn s cid site lf).sched.parts = s.sched.parts := by
  unfold swapIn
  refine (placeCtx_parts ..).trans ?_
  rw [apply_ite State.sched, apply_ite Sched.parts, reserveUnits_parts, setCtx_parts, ite_self]

theorem swapInGrid_parts (s : State) (ln : Nat) : (swapInGrid s ln).sched.parts = s.sched.parts := by
  unfold swapInGrid
  dsimp only
  split
  · split
    · rfl
    · exact foldl_keeps (fun s : State => s.sched.parts) _ _ s fun s c => swapIn_parts ..
  · rfl

theorem decideLeaf_parts (s : State) (site lf : Nat) (want : Option Nat) : (decideLeaf s site lf want).sched.parts = s.sched.parts := by
  have hsplit := congrArg Sched.parts (leaveSplit_sched s site)
  unfold decideLeaf
  dsimp only
  split
  · exact hsplit
  · split
    · exact (swapIn_parts ..).trans hsplit
    · exact (foldl_keeps (fun s : State => s.sched.parts) _ _ _ swapInGrid_parts).trans hsplit

theorem lendMill_parts (s : State) (r n : Nat) : (lendMill s r n).sched.parts = s.sched.parts := by
  unfold lendMill
  split
  · rfl
  · split
    · rfl
    · dsimp only
      split
      · exact (decideLeaf_parts ..).trans (decideLeaf_parts ..)
      · rfl

theorem lendAll_parts (s : State) : (lendAll s).sched.parts = s.sched.parts :=
  foldl_keeps (fun s : State => s.sched.parts) _ _ s fun s r => foldl_keeps (fun s => s.sched.parts) _ _ s fun s n => lendMill_parts s r n

theorem lendAll_of_no_parts {s : State} (h : s.sched.parts = []) : lendAll s = s := by
  rw [lendAll, h]
  rfl

/-! ### The end of a load -/

theorem mbxLoaded_keeps (s : State) (code : Nat) :
    (mbxLoaded s code).gov = s.gov ∧ (mbxLoaded s code).sched.parts = s.sched.parts := by
  unfold mbxLoaded
  split
  · split <;> exact ⟨rfl, rfl⟩
  · exact ⟨rfl, rfl⟩

section
variable {l : Load} (hm : l.mailbox = true) (hf : bitAt l.flags 0 = false)
include hm hf

/-- A load of the mailbox, without a completion entry, ends with its report and result; then mills are lent. -/
theorem loadEnd_of_mailbox (s : State) (n : Nat) (bytes : List Byte) (cached : Bool) (r : Option Fail) (z : LoadSizes)
    (ats : List (Option AtsAns)) :
    ∃ v, loadEnd s n l bytes cached r z ats = lendAll v ∧ v.gov = s.gov ∧ v.sched.parts = s.sched.parts := by
  simp only [loadEnd, hm, hf, if_true, Bool.false_eq_true, if_false]
  exact ⟨_, rfl, mbxLoaded_keeps ..⟩

theorem loadEnd_parts (s : State) (n : Nat) (bytes : List Byte) (cached : Bool) (r : Option Fail) (z : LoadSizes)
    (ats : List (Option AtsAns)) : (loadEnd s n l bytes cached r z ats).sched.parts = s.sched.parts := by
  obtain ⟨v, hv, -, hparts⟩ := loadEnd_of_mailbox hm hf s n bytes cached r z ats
  rw [hv, lendAll_parts, hparts]

theorem loadEnd_gov {s : State} (hs : s.sched.parts = []) (n : Nat) (bytes : List Byte) (cached : Bool) (r : Option Fail) (z : LoadSizes)
    (ats : List (Option AtsAns)) : (loadEnd s n l bytes cached r z ats).gov = s.gov := by
  obtain ⟨v, hv, hgov, hparts⟩ := loadEnd_of_mailbox hm hf s n bytes cached r z ats
  rw [hv, lendAll_of_no_parts (hparts.trans hs), hgov]

end

/-! ### A load whose one leaf is LOADING -/

/-- The launch of a load whose leaves are written, with its contexts RESIDENT. -/
def launched (s : State) (l : Load) (p : LoadPlan) : State :=
  (List.range p.places.length).foldl (residentAt l p (keyAfter s.sched.launches) (keyAfter s.sched.ctxs))
    (setLaunch s (keyAfter s.sched.launches)
      ⟨l.part, l.slice, l.tag, l.flags, p.modl, p.bytes, p.places.length, p.args, l.grid, p.shared, p.places.length, p.sizes⟩)

theorem loadComplete_of_loading {s : State} {n : Nat} {l : Load} {p : LoadPlan} (hl : mfind s.sched.loads n = some l)
    (hw : s.sched.workshop = true) (hfirst : loadFirst s n l = true) (hp : l.plan = some p)
    (hleaf : ∀ x ∈ p.places, (getLeaf s x.1 x.2).st = .loading) (hrow : ∀ x ∈ p.places, rowRuns s x.1 = true)
    (mod arg : XferEnv) (rep : List (Option AtsAns)) :
    loadComplete s n mod arg rep = loadEnd (launched s l p) n l p.bytes p.cached none p.sizes rep := by
  have hloading : p.places.all (fun x => (getLeaf s x.1 x.2).st = .loading) = true := by simpa using hleaf
  have hrows : p.places.all (fun x => rowRuns s x.1) = true := List.all_eq_true.mpr hrow
  simp only [loadComplete, hl, hw, hfirst, hp, loadFinish, hloading, hrows, Bool.not_true, Bool.false_eq_true, or_self, if_false, launched]

/-- A plan for one context, in leaf 0 of site 0. -/
def oneLeafPlan : LoadPlan := ⟨Module.blank, [], [], LoadSizes.zero, false, [(0, 0)], [], []⟩

/-- A load of the mailbox with that plan. -/
def oneLeafLoad : Load := { Load.blank with mailbox := true, instances := 1, plan := some oneLeafPlan }

/-- A device without partitions in which that load has its leaf LOADING, in a row that runs and whose idle time is not noted yet. -/
def oneLeafLoading : State :=
  { State.reset with
    mills := [(0, { Mill.zero with leaf0 := { Leaf.empty with st := .loading } })]
    gov := { Gov.zero with rows := [(0, { Row.blank with st := .running })] }
    sched := { Sched.zero with workshop := true, loads := [(0, oneLeafLoad)] } }

theorem oneLeafLoading_places : ∀ x ∈ oneLeafPlan.places, (getLeaf oneLeafLoading x.1 x.2).st = .loading
    ∧ rowRuns oneLeafLoading x.1 = true ∧ x.2 < 2 := by decide

/-- The leaf leaves LOADING at fantail time 0, and the governor notes it for row 0. -/
theorem launched_oneLeaf_actAt : (launched oneLeafLoading oneLeafLoad oneLeafPlan).gov.actAt = [(0, 0)] := by decide

theorem launched_oneLeaf_parts : (launched oneLeafLoading oneLeafLoad oneLeafPlan).sched.parts = [] := by decide

/-- Refutes O31: the second half says that the state `u` in which the contexts are RESIDENT differs from the first one in mills and
scheduler only, but a leaf that leaves LOADING restarts the idle time of its row, which the governor keeps (R505). In a device without
partitions the end of the load does not touch that time, so every `u` that leads to the same end holds it. -/
theorem not_loadsPlaceTheirContextsTogether : ¬ Obligations.LoadsPlaceTheirContextsTogether := by
  intro h
  have hfinish := loadComplete_of_loading (s := oneLeafLoading) (n := 0) rfl rfl rfl rfl (fun x hx => (oneLeafLoading_places x hx).1)
    (fun x hx => (oneLeafLoading_places x hx).2.1) ⟨[], [], [], none⟩ ⟨[], [], [], none⟩ []
  obtain ⟨u, hexec, -, -, -, honly⟩ := h.2 oneLeafLoading 0 oneLeafLoad oneLeafPlan ⟨[], [], [], none⟩ ⟨[], [], [], none⟩ [] rfl rfl rfl rfl
    oneLeafLoading_places (by decide)
  have hsame : settle (loadEnd u 0 oneLeafLoad [] false none LoadSizes.zero []) =
      settle (loadEnd (launched oneLeafLoading oneLeafLoad oneLeafPlan) 0 oneLeafLoad [] false none LoadSizes.zero []) :=
    Host.Outcome.next.inj (hexec.symm.trans (congrArg done hfinish))
  have hparts : u.sched.parts = [] := by
    have hsched := congrArg (fun t : State => t.sched.parts) hsame
    simpa only [settle_sched, loadEnd_parts (l := oneLeafLoad) rfl rfl, launched_oneLeaf_parts] using hsched
  have hnoted : u.gov.actAt = [(0, 0)] := by
    have hgov := congrArg (fun t : State => t.gov.actAt) hsame
    simpa only [settle_gov_actAt, loadEnd_gov (l := oneLeafLoad) rfl rfl hparts,
      loadEnd_gov (l := oneLeafLoad) rfl rfl launched_oneLeaf_parts, launched_oneLeaf_actAt] using hgov
  have hkept : u.gov.actAt = [] := congrArg Gov.actAt (honly.2 .gov (by decide))
  rw [hnoted] at hkept
  cases hkept

end Sys2Proof.Machine
end

section
/-! SUPPORT. Submission entries that act for their slice: KICK, LAUNCH and LEASE, the revocation of leases, and the faults of a lapsed
lease (R242, R368, R369, R380, R381). -/
namespace Sys2Proof.Machine

/-! ### The entry of a ring -/

theorem onEntry_of_type {s : State} {sl typ : Nat} {e : Line} (act : State → Line → State) (he : (getRing s sl).entry = some e)
    (ht : entB e 0 = typ) : onEntry s sl typ act = act (entryDone s sl) e := by
  simp only [onEntry, he, ht, if_true]

theorem onlyIn_entryDone (s : State) (sl : Nat) : OnlyIn [.hif] s (entryDone s sl) := onlyIn_setRing ..

theorem entry_entryDone (s : State) (sl : Nat) : (getRing (entryDone s sl) sl).entry = none := by rw [entryDone, getRing_setRing_same]

section
variable {s : State} {n : BitVec 13} {e : Line} (he : (getRing s n.toNat).entry = some e)
include he

theorem exec_kick_entry (ht : entB e 0 = 2) : exec (.kick n) s = done (kick (entryDone s n.toNat) n.toNat e) :=
  congrArg done (onEntry_of_type _ he ht)

theorem exec_launch_entry (ht : entB e 0 = 1) : exec (.launch n) s =
    done (addLoad (entryDone s n.toNat) (loadOf (getSlice s n.toNat).part n.toNat false e)) :=
  congrArg done (onEntry_of_type _ he ht)

theorem exec_lease_entry (ht : entB e 0 = 3) : exec (.lease n) s = done (lease (entryDone s n.toNat) n.toNat e) :=
  congrArg done (onEntry_of_type _ he ht)

end

/-! ### KICK (R368) -/

theorem signalExt_of_done {s : State} {n : Nat} {set : Bool} {v : Word} {o : SyncObj} (h : sigObj (getObj s n) set v = .done o) :
    signalExt s n set v = setObj s n o := by
  simp only [signalExt, h]

section
variable {s : State} {sl : Nat} {e : Line} {o : SyncObj}

/-- A KICK of an object of another partition, or that would watch one. -/
theorem kick_of_not_owned (h : objOwner s (entF e 16 2) ≠ (getSlice s sl).part
    ∨ entB e 1 = 1 ∧ objOwner s (entF e 24 2) ≠ (getSlice s sl).part) : kick s sl e = completeEntry s sl (entF e 8 8) 4 0 := if_pos h

/-- A KICK that only signals. -/
theorem kick_of_signal (hown : objOwner s (entF e 16 2) = (getSlice s sl).part) (hdone : entB e 1 ≠ 1)
    (hsig : sigObj (getObj s (entF e 16 2)) (decide (entB e 18 = 1)) (BitVec.ofNat 32 (entF e 20 4)) = .done o) :
    kick s sl e = completeEntry (setObj s (entF e 16 2) o) sl (entF e 8 8) 0 0 := by
  have howned : ¬ (objOwner s (entF e 16 2) ≠ (getSlice s sl).part ∨ entB e 1 = 1 ∧ objOwner s (entF e 24 2) ≠ (getSlice s sl).part) :=
    not_or.mpr ⟨not_not.mpr hown, fun h => hdone h.1⟩
  simp only [kick, if_neg howned, if_neg hdone, signalExt_of_done hsig]

/-- A KICK that signals and then watches an object. -/
theorem kick_of_watch (hown : objOwner s (entF e 16 2) = (getSlice s sl).part) (hdone : entB e 1 = 1)
    (hwatch : objOwner s (entF e 24 2) = (getSlice s sl).part)
    (hsig : sigObj (getObj s (entF e 16 2)) (decide (entB e 18 = 1)) (BitVec.ofNat 32 (entF e 20 4)) = .done o) :
    kick s sl e = { setObj s (entF e 16 2) o with hif := { (setObj s (entF e 16 2) o).hif with
      watches := (setObj s (entF e 16 2) o).hif.watches ++ [⟨sl, entF e 24 2, BitVec.ofNat 32 (entF e 28 4), entF e 8 8,
        waitCond (getObj (setObj s (entF e 16 2) o) (entF e 24 2)) 0 (BitVec.ofNat 32 (entF e 28 4))⟩] } } := by
  have howned : ¬ (objOwner s (entF e 16 2) ≠ (getSlice s sl).part ∨ entB e 1 = 1 ∧ objOwner s (entF e 24 2) ≠ (getSlice s sl).part) :=
    not_or.mpr ⟨not_not.mpr hown, fun h => h.2 hwatch⟩
  simp only [kick, if_neg howned, if_pos hdone, signalExt_of_done hsig]

end

/-- The object is signalled once the entry is gone from the ring. -/
theorem onlyIn_setObj_entryDone (s : State) (sl n : Nat) (o : SyncObj) : OnlyIn [.hif, .sync, .sched] s (setObj (entryDone s sl) n o) :=
  onlyIn_trans (onlyIn_mono (onlyIn_entryDone ..) (by simp)) (onlyIn_mono (onlyIn_setObj ..) (by simp))

/-! ### LEASE and LEASE_REVOKE (R380, R381) -/

theorem onlyIn_setLease (s : State) (p : Nat) (t : DWord) : OnlyIn [.bus] s (setLease s p t) := onlyIn_bus s _

theorem getD64_setLease_same (s : State) (p : Nat) (t : DWord) : getD64 (setLease s p t) (reg .hif 6 (0x100 + 8 * p)) = t :=
  getD64_setD64_same ..

/-- The expiries of two partitions lie in different registers. -/
theorem getD64_setLease_other (s : State) {p q : Nat} (t : DWord) (h : q ≠ p) :
    getD64 (setLease s p t) (reg .hif 6 (0x100 + 8 * q)) = getD64 s (reg .hif 6 (0x100 + 8 * q)) := by
  have hreg (x : Nat) : reg .hif 6 (0x100 + 8 * x) = pageBase .hif 6 + 0x100 + 8 * x := (Nat.add_assoc ..).symm
  rw [setLease, setD64, hreg, hreg, getD64_setW_other _ _ (by omega) (by omega), getD64_setW_other _ _ (by omega) (by omega)]

section
variable {s : State} {sl : Nat} {e : Line}

theorem lease_of_not_allowed (h : getF s (ringReg sl 0x11C) 17 1 = 0) : lease s sl e = completeEntry s sl (entF e 8 8) 5 0 := if_pos h

/-- Note whether the lease of a partition has lapsed. -/
def setLapsed (s : State) (p : Nat) (b : Bool) : State := { s with hif := { s.hif with lapsed := mset false s.hif.lapsed p b } }

theorem lapsed_setLapsed (s : State) (p : Nat) (b : Bool) : mget false (setLapsed s p b).hif.lapsed p = b :=
  mget_mset_same false s.hif.lapsed p b

/-- The state in which a LEASE entry that is granted completes: a lease that is not ended at once has not lapsed. -/
def leased (s : State) (p dur : Nat) : State :=
  let u := setLease s p (BitVec.ofNat 64 (nowNs s + dur))
  if dur = 0 then u else setLapsed u p false

theorem lease_of_allowed (h : getF s (ringReg sl 0x11C) 17 1 = 1) (hdur : entF e 16 8 ≤ 10000000000) :
    lease s sl e = completeEntry (leased s (getSlice s sl).part (entF e 16 8)) sl (entF e 8 8) 0 0 := by
  have hmay : ¬ getF s (ringReg sl 0x11C) 17 1 = 0 := by omega
  exact (if_neg hmay).trans (if_neg (not_lt.mpr hdur))

end

theorem leased_bus (s : State) (p dur : Nat) : (leased s p dur).bus = (setLease s p (BitVec.ofNat 64 (nowNs s + dur))).bus := by
  unfold leased
  split <;> rfl

theorem leased_not_lapsed (s : State) (p : Nat) {dur : Nat} (h : dur ≠ 0) : mget false (leased s p dur).hif.lapsed p = false := by
  rw [leased, if_neg h]
  exact lapsed_setLapsed ..

theorem onlyIn_leased (s : State) (p dur : Nat) : OnlyIn [.hif, .bus] s (leased s p dur) := by
  have hlease := onlyIn_mono (onlyIn_setLease s p (BitVec.ofNat 64 (nowNs s + dur))) (m := [.hif, .bus]) (by simp)
  exact onlyIn_ite hlease (onlyIn_trans hlease (onlyIn_mono (onlyIn_hif ..) (by simp)))

/-- Of the listed partitions every expiry is 0, and no other has moved. -/
theorem getD64_foldl_setLease_zero (l : List Nat) (s : State) (q : Nat) :
    getD64 (l.foldl (fun s p => setLease s p 0) s) (reg .hif 6 (0x100 + 8 * q)) =
      if q ∈ l then 0 else getD64 s (reg .hif 6 (0x100 + 8 * q)) := by
  induction l generalizing s with
  | nil => rfl
  | cons p r ih =>
    rw [List.foldl_cons, ih]
    by_cases hq : q = p
    · subst hq
      simp [getD64_setLease_same]
    · simp [hq, getD64_setLease_other]

theorem mem_setBitsOf {w n i : Nat} : i ∈ setBitsOf w n ↔ i < w ∧ bitAt n i = true := by simp [setBitsOf]

theorem leaseRevoke_of_ready {s : State} (v : Nat) (h : pageReady s .hif 6 = true) :
    leaseRevoke s v = (setBitsOf 32 v).foldl (fun s p => setLease s p 0) s := if_pos h

/-! ### LEASE_LAPSE (R381) -/

theorem getCtx_of_listed {s : State} {k : Nat} {c : Ctx} (h : mfind s.sched.ctxs k = some c) : getCtx s k = c := by rw [getCtx, mget, h]

/-- A context after a fault; one that is faulted already stays as it is (R320). -/
def Ctx.faulted (c : Ctx) : Ctx := if c.killed then c else { c.squash with killed := true, freezing := false }

theorem killed_faulted (c : Ctx) : c.faulted.killed = true := by
  unfold Ctx.faulted
  split
  · assumption
  · rfl

theorem faulted_faulted (c : Ctx) : c.faulted.faulted = c.faulted := if_pos (killed_faulted c)

section
variable (s : State) (cid code eng step : Nat)

/-- What a fault does to the contexts: it faults its own, if that exists. -/
theorem ctxFault_contexts : mfind (ctxFault s cid code eng step).sched.ctxs cid = (mfind s.sched.ctxs cid).map Ctx.faulted
    ∧ (∀ k, k ≠ cid → mfind (ctxFault s cid code eng step).sched.ctxs k = mfind s.sched.ctxs k) := by
  cases hc : mfind s.sched.ctxs cid with
  | none =>
    rw [ctxFault_of_gone _ _ _ (.inl hc)]
    exact ⟨hc, fun _ _ => rfl⟩
  | some c =>
    cases hk : c.killed with
    | true =>
      have hgone : (getCtx s cid).killed = true := by rw [getCtx_of_listed hc, hk]
      rw [ctxFault_of_gone _ _ _ (.inr hgone), hc, Option.map_some, Ctx.faulted, if_pos hk]
      exact ⟨rfl, fun _ _ => rfl⟩
    | false =>
      rw [ctxFault_eq _ _ _ hc hk, recordFault_sched, (placeFault_charge ..).ctxs, mfind_mput_same, Option.map_some, Ctx.faulted, hk]
      exact ⟨rfl, fun _ hne => mfind_mput_other _ _ hne⟩

theorem ctxFault_hif : (ctxFault s cid code eng step).hif = s.hif := by
  by_cases hgone : mfind s.sched.ctxs cid = none ∨ (getCtx s cid).killed = true
  · rw [ctxFault_of_gone _ _ _ hgone]
  · obtain ⟨hne, hk⟩ := not_or.mp hgone
    obtain ⟨c, hc⟩ := Option.ne_none_iff_exists'.mp hne
    rw [getCtx_of_listed hc, Bool.not_eq_true] at hk
    rw [ctxFault_eq _ _ _ hc hk, recordFault, partFault, raiseInt_hif, bump32_hif, setW_hif]
    exact (placeFault_charge ..).2.2 .hif (by decide)

end

/-- A request that waited for its lease is discarded: it is counted, and its context faults (R381). -/
def fenceCtx (s : State) (cid : Nat) : State := ctxFault (bump32 s (reg .hif 6 0x208) 1) cid cfFabricFenced 2 0

theorem fenceCtx_contexts (s : State) (cid : Nat) : mfind (fenceCtx s cid).sched.ctxs cid = (mfind s.sched.ctxs cid).map Ctx.faulted
    ∧ (∀ k, k ≠ cid → mfind (fenceCtx s cid).sched.ctxs k = mfind s.sched.ctxs k) := ctxFault_contexts ..

theorem mfind_foldl_fenceCtx_other {l : List Nat} {k : Nat} (s : State) (h : k ∉ l) :
    mfind (l.foldl fenceCtx s).sched.ctxs k = mfind s.sched.ctxs k := by
  induction l generalizing s with
  | nil => rfl
  | cons a r ih =>
    obtain ⟨hka, hkr⟩ := List.ne_and_not_mem_of_not_mem_cons h
    rw [List.foldl_cons, ih _ hkr, (fenceCtx_contexts s a).2 k hka]

/-- Each listed context is faulted, however often the list names it. -/
theorem mfind_foldl_fenceCtx_mem {l : List Nat} {k : Nat} (s : State) (h : k ∈ l) :
    mfind (l.foldl fenceCtx s).sched.ctxs k = (mfind s.sched.ctxs k).map Ctx.faulted := by
  induction l generalizing s with
  | nil => cases h
  | cons a r ih =>
    rw [List.foldl_cons]
    by_cases hr : k ∈ r
    · rw [ih _ hr]
      by_cases hka : k = a
      · subst hka
        rw [(fenceCtx_contexts s k).1, Option.map_map]
        exact congrArg (fun f => Option.map f _) (funext faulted_faulted)
      · rw [(fenceCtx_contexts s a).2 k hka]
    · obtain rfl := (List.mem_cons.mp h).resolve_right hr
      rw [mfind_foldl_fenceCtx_other _ hr, (fenceCtx_contexts s k).1]

theorem foldl_fenceCtx_hif (l : List Nat) (s : State) : (l.foldl fenceCtx s).hif = s.hif :=
  foldl_keeps State.hif _ _ s fun s c => ctxFault_hif (bump32 s (reg .hif 6 0x208) 1) c cfFabricFenced 2 0

/-- The contexts of a partition that a lapse of its lease faults: those that exist, of the ones that wait. -/
def lapseFaults (s : State) (p : Nat) (waiting : List Nat) : List Nat :=
  waiting.filter (fun c => (mfind s.sched.ctxs c).isSome && (getCtx s c).part = p)

theorem mem_lapseFaults {s : State} {p : Nat} {waiting : List Nat} {k : Nat} :
    k ∈ lapseFaults s p waiting ↔ k ∈ waiting ∧ (mfind s.sched.ctxs k).isSome = true ∧ (getCtx s k).part = p := by
  simp [lapseFaults]

theorem leaseLapse_of_invalid {s : State} {p : Nat} (waiting : List Nat) (hv : leaseValid s p = false)
    (hl : mget false s.hif.lapsed p = false) : leaseLapse s p waiting =
      (lapseFaults s p waiting).foldl fenceCtx (setLapsed s p true) := by
  have hnow : ¬ (leaseValid s p = true ∨ mget false s.hif.lapsed p = true) := by simp [hv, hl]
  exact if_neg hnow

theorem leaseLapse_effect {s : State} {p : Nat} (waiting : List Nat) (hv : leaseValid s p = false)
    (hl : mget false s.hif.lapsed p = false) :
    mget false (leaseLapse s p waiting).hif.lapsed p = true
    ∧ (∀ (k : Nat) (c : Ctx), k ∈ waiting → mfind s.sched.ctxs k = some c → c.part = p →
      (getCtx (leaseLapse s p waiting) k).killed = true)
    ∧ (∀ k : Nat, ¬ (k ∈ waiting ∧ (getCtx s k).part = p) → getCtx (leaseLapse s p waiting) k = getCtx s k) := by
  rw [leaseLapse_of_invalid waiting hv hl]
  refine ⟨?_, fun k c hk hc hp => ?_, fun k hk => ?_⟩
  · rw [foldl_fenceCtx_hif]
    exact lapsed_setLapsed ..
  · have hmem : k ∈ lapseFaults s p waiting :=
      mem_lapseFaults.mpr ⟨hk, Option.isSome_of_mem hc, (congrArg Ctx.part (getCtx_of_listed hc)).trans hp⟩
    rw [getCtx_of_listed ((mfind_foldl_fenceCtx_mem (setLapsed s p true) hmem).trans (congrArg (Option.map Ctx.faulted) hc))]
    exact killed_faulted c
  · have hmem : k ∉ lapseFaults s p waiting := fun h => by
      obtain ⟨hw, -, hp⟩ := mem_lapseFaults.mp h
      exact hk ⟨hw, hp⟩
    rw [getCtx, mget, mfind_foldl_fenceCtx_other _ hmem]
    rfl

/-! ### The statement -/

/-- Settles O40, one command after the other: an entry is gone from its ring before it acts, which moves no object, no register and no
scheduler data, so that each command is one of the updates above. -/
theorem submissionEntriesActForTheirSlice : Obligations.SubmissionEntriesActForTheirSlice := by
  intro s n e p he hp
  subst hp
  refine ⟨fun ht => ⟨fun o hown hsig => ⟨fun hdone => ?_, fun hdone hwatch => ?_⟩, fun hown => ?_⟩, fun ht => ?_,
    fun ht => ⟨fun hmay hdur => ?_, fun hmay => ?_⟩, fun v hready => ?_, fun q waiting hv hl => ?_⟩
  · -- KICK that signals
    exact ⟨setObj (entryDone s n.toNat) (entF e 16 2) o,
      (exec_kick_entry he ht).trans (congrArg done (kick_of_signal (s := entryDone s n.toNat) hown hdone hsig)),
      getObj_setObj_same .., fun k hk => getObj_setObj_other _ o hk, onlyIn_setObj_entryDone ..⟩
  · -- KICK that signals and watches
    refine ⟨settle (kick (entryDone s n.toNat) n.toNat e), exec_kick_entry he ht, ?_⟩
    rw [kick_of_watch (s := entryDone s n.toNat) hown hdone hwatch hsig, getObj_congr (settle_sync _), getObj_congr (settle_sync _),
      getRing_settle, settle_hif]
    exact ⟨getObj_setObj_same .., List.getLast?_concat, entry_entryDone .., onlyIn_settle
      (onlyIn_trans (onlyIn_setObj_entryDone ..) (onlyIn_mono (onlyIn_hif ..) (by simp)))⟩
  · -- KICK of an object of another partition
    exact ⟨entryDone s n.toNat,
      (exec_kick_entry he ht).trans (congrArg done (kick_of_not_owned (s := entryDone s n.toNat) hown)), onlyIn_entryDone ..⟩
  · -- LAUNCH
    refine ⟨_, exec_launch_entry he ht, settle_sched _, ?_, onlyIn_settle
      (onlyIn_trans (onlyIn_mono (onlyIn_entryDone ..) (by simp)) (onlyIn_mono (onlyIn_sched ..) (by simp)))⟩
    rw [getRing_settle]
    exact entry_entryDone ..
  · -- LEASE of a slice that may set leases
    exact ⟨leased (entryDone s n.toNat) (getSlice s n.toNat).part (entF e 16 8),
      (exec_lease_entry he ht).trans (congrArg done (lease_of_allowed (s := entryDone s n.toNat) hmay hdur)),
      (getD64_congr (leased_bus ..) _).trans (getD64_setLease_same ..), leased_not_lapsed _ _,
      onlyIn_trans (onlyIn_mono (onlyIn_entryDone ..) (by simp)) (onlyIn_leased ..)⟩
  · -- LEASE of a slice that may not
    exact ⟨entryDone s n.toNat,
      (exec_lease_entry he ht).trans (congrArg done (lease_of_not_allowed (s := entryDone s n.toNat) hmay)), onlyIn_entryDone ..⟩
  · -- LEASE_REVOKE
    refine ⟨settle (leaseRevoke s v.toNat), rfl, ?_⟩
    rw [leaseRevoke_of_ready _ hready]
    refine ⟨fun q hq => ?_, onlyIn_settle (onlyIn_foldl (fun s p => onlyIn_setLease s p 0) _ s)⟩
    rw [getD64_settle, getD64_foldl_setLease_zero]
    simp only [mem_setBitsOf, hq, true_and]
  · -- LEASE_LAPSE
    refine ⟨settle (leaseLapse s q waiting), rfl, ?_⟩
    simp only [settle_hif, getCtx_settle]
    exact leaseLapse_effect waiting hv hl

end Sys2Proof.Machine
end

section
/-! SUPPORT. What a peer is answered, inbound accesses that their window and granules admit or refuse, and mesh links that repeat or fail
(R277, R344, R356, R360, R382, R383). -/
namespace Sys2Proof.Machine

/-! ### Answers -/

theorem answer_settle (s : State) (a : Option (List Byte)) : (settle (answer s a)).hif = { s.hif with answers := s.hif.answers ++ [a] }
    ∧ OnlyIn [.hif] s (settle (answer s a)) := ⟨settle_hif _, onlyIn_settle (onlyIn_hif s _)⟩

/-- Unsupported Request is answered and counted. -/
theorem inRefuse_settle (s : State) : (settle (inRefuse s)).hif.answers = s.hif.answers ++ [none]
    ∧ getW (settle (inRefuse s)) (reg .hif 7 0x180) = satAdd32 (getW s (reg .hif 7 0x180)) 1
    ∧ OnlyIn [.hif, .bus] s (settle (inRefuse s)) := by
  refine ⟨congrArg Hif.answers (settle_hif _), (getW_settle ..).trans (getW_bump32_same s ..), onlyIn_settle ?_⟩
  exact onlyIn_trans (onlyIn_mono (onlyIn_bump32 ..) (by simp)) (onlyIn_mono (onlyIn_hif ..) (by simp))

/-! ### Accesses through an inbound window (R344, R382) -/

section
variable {s u w : State} {i off n a p : Nat} {wr : Bool}

/-- What the window and the granules admit runs as an access of the owner of the first granule. -/
theorem inAccess_of_admitted (act : State → Nat → Nat → State) (ha : inAddr s i off n = some a)
    (hc : inCheck wr (piecesOf 16384 a n) s = (some p, u)) : inAccess s i off n wr act = act u p a := by
  simp only [inAccess, ha, hc]

/-- Beyond the window, or where a granule does not admit it, nothing runs. -/
theorem inAccess_of_refused (act : State → Nat → Nat → State) (h : inAddr s i off n = none ∧ u = s
    ∨ ∃ a : Nat, inAddr s i off n = some a ∧ inCheck wr (piecesOf 16384 a n) s = (none, u)) :
    inAccess s i off n wr act = inRefuse u := by
  obtain ⟨ha, rfl⟩ | ⟨a, ha, hc⟩ := h
  · simp only [inAccess, ha]
  · simp only [inAccess, ha, hc]

variable {upset : List (Nat × Nat)} {l : List Byte}

theorem inboundRead_of_admitted (ha : inAddr (upsetLines s upset) i off n = some a)
    (hc : inCheck false (piecesOf 16384 a n) (upsetLines s upset) = (some p, u)) (hr : readPassed u p a n true none = (some l, w)) :
    inboundRead s i off n upset = answer w (some l) := by
  refine (inAccess_of_admitted _ ha hc).trans ?_
  rw [hr]

theorem inboundWrite_of_admitted {data : List Byte} (ha : inAddr (upsetLines s upset) i off data.length = some a)
    (hc : inCheck true (piecesOf 16384 a data.length) (upsetLines s upset) = (some p, u))
    (hw : writePassed u p a data true none = (.ok, w)) : inboundWrite s i off data upset = answer w (some []) := by
  refine (inAccess_of_admitted _ ha hc).trans ?_
  rw [hw]

/-- An atomic reads the old bytes, writes its result and answers the old bytes (R360, R383). -/
theorem inboundAtomic_of_admitted {z : State} {wide : Bool} {k x y : Nat} (op : AtomOp) (hk : k = if wide then 8 else 4)
    (ha : inAddr (upsetLines s upset) i (off / k * k) k = some a)
    (hc : inCheck true (piecesOf 16384 a k) (upsetLines s upset) = (some p, u)) (hr : readPassed u p a k true none = (some l, w))
    (hw : writePassed w p a (toLE k (atomNew op (8 * k) (ofLE l) x y)) true none = (.ok, z)) :
    inboundAtomic s i off op wide x y upset = answer z (some l) := by
  subst hk
  refine (inAccess_of_admitted _ ha hc).trans ?_
  simp only [hr, hw]

end

/-! ### Faults of many contexts (R320) -/

/-- Registers at different offsets of their pages are different. -/
theorem reg_ne_of_offset {b c : Block} {i j x y : Nat} (h : x % 0x1000 ≠ y % 0x1000) : reg b i x ≠ reg c j y := by
  have hb := pageBase_mod b i
  have hc := pageBase_mod c j
  unfold reg
  omega

/-- Contexts stay as they are or are faulted, and no page's ERR_STAT changes. -/
structure FaultsOnly (s t : State) : Prop where
  contexts : ∀ k, mfind t.sched.ctxs k = mfind s.sched.ctxs k ∨ mfind t.sched.ctxs k = (mfind s.sched.ctxs k).map Ctx.faulted
  errStat : ∀ b i, getW t (reg b i 0x18) = getW s (reg b i 0x18)

theorem map_faulted_map_faulted (x : Option Ctx) : (x.map Ctx.faulted).map Ctx.faulted = x.map Ctx.faulted := by
  rw [Option.map_map]
  exact congrArg (Option.map · x) (funext faulted_faulted)

namespace FaultsOnly

theorem of_sched {s t : State} (hs : t.sched = s.sched) (hw : ∀ b i, getW t (reg b i 0x18) = getW s (reg b i 0x18)) : FaultsOnly s t :=
  ⟨fun _ => .inl (by rw [hs]), hw⟩

theorem refl (s : State) : FaultsOnly s s := of_sched rfl fun _ _ => rfl

variable {s t u : State}

/-- Faulted once more, every context is what it is faulted at once. -/
theorem map_faulted (h : FaultsOnly s t) (k : Nat) :
    (mfind t.sched.ctxs k).map Ctx.faulted = (mfind s.sched.ctxs k).map Ctx.faulted := by
  obtain hk | hk := h.contexts k <;> rw [hk]
  exact map_faulted_map_faulted _

theorem trans (h : FaultsOnly s t) (g : FaultsOnly t u) : FaultsOnly s u := by
  refine ⟨fun k => ?_, fun b i => (g.errStat b i).trans (h.errStat b i)⟩
  obtain hk | hk := g.contexts k
  · rw [hk]
    exact h.contexts k
  · rw [hk, h.map_faulted]
    exact .inr rfl

theorem foldl {α : Type} {f : State → α → State} (h : ∀ s a, FaultsOnly s (f s a)) (xs : List α) (s : State) :
    FaultsOnly s (xs.foldl f s) := by
  induction xs generalizing s with
  | nil => exact refl s
  | cons a r ih => exact (h s a).trans (ih _)

end FaultsOnly

/-- A fault raises no error: it writes the mill's wait counter, the partition's fault registers and interrupt causes. -/
theorem errStat_ctxFault (s : State) (cid code eng step : Nat) (b : Block) (i : Nat) :
    getW (ctxFault s cid code eng step) (reg b i 0x18) = getW s (reg b i 0x18) := by
  by_cases hgone : mfind s.sched.ctxs cid = none ∨ (getCtx s cid).killed = true
  · rw [ctxFault_of_gone _ _ _ hgone]
  · obtain ⟨hne, hk⟩ := not_or.mp hgone
    obtain ⟨c, hc⟩ := Option.ne_none_iff_exists'.mp hne
    rw [getCtx_of_listed hc, Bool.not_eq_true] at hk
    have hplace : getW (placeFault s c.place code eng step) (reg b i 0x18) = getW s (reg b i 0x18) := by
      cases c.place with
      | saved => rfl
      | leaf site lf => exact (wordsOnly_stopFaulted ..).1 _ (by simp [reg_ne_of_offset])
    rw [ctxFault_eq _ _ _ hc hk, recordFault, partFault, getW_raiseInt, if_neg (reg_ne_of_offset (by decide)),
      getW_bump32_other _ _ (reg_ne_of_offset (by decide)), getW_setW_other _ _ (reg_ne_of_offset (by decide))]
    exact hplace

theorem ctxFault_faultsOnly (s : State) (cid code eng step : Nat) : FaultsOnly s (ctxFault s cid code eng step) := by
  obtain ⟨hself, hother⟩ := ctxFault_contexts s cid code eng step
  refine ⟨fun k => ?_, errStat_ctxFault s cid code eng step⟩
  by_cases hk : k = cid
  · exact .inr (hk ▸ hself)
  · exact .inl (hother k hk)

theorem ctxUncorrectable_faultsOnly (s : State) (cid eng step : Nat) : FaultsOnly s (ctxUncorrectable s cid eng step) :=
  FaultsOnly.trans (t := damageCells s cid) (FaultsOnly.of_sched rfl fun _ _ => rfl) (ctxFault_faultsOnly ..)

theorem faultAll_faultsOnly (s : State) (p : Ctx → Bool) (code eng step : Nat) : FaultsOnly s (faultAll s p code eng step) :=
  FaultsOnly.foldl (fun s c => ctxFault_faultsOnly s c code eng step) _ s

theorem mem_of_mfind {α : Type} {m : KMap α} {k : Nat} {x : α} (h : mfind m k = some x) : (k, x) ∈ m := by
  induction m with
  | nil => cases h
  | cons e r ih =>
    by_cases he : e.1 = k
    · rw [mfind, if_pos he] at h
      cases h
      exact he ▸ List.mem_cons_self
    · rw [mfind, if_neg he] at h
      exact List.mem_cons_of_mem _ (ih h)

theorem mem_mkeys_of_mfind {α : Type} {p : Nat → α → Bool} {m : KMap α} {k : Nat} {x : α} (h : mfind m k = some x)
    (hp : p k x = true) : k ∈ mkeys p m :=
  List.mem_map.mpr ⟨(k, x), List.mem_filter.mpr ⟨mem_of_mfind h, hp⟩, rfl⟩

/-- Every context that is selected is faulted: it is when its turn comes, and no later fault changes it. -/
theorem mfind_faultAll {s : State} {p : Ctx → Bool} {k : Nat} {c : Ctx} (code eng step : Nat) (hc : mfind s.sched.ctxs k = some c)
    (hp : p c = true) : mfind (faultAll s p code eng step).sched.ctxs k = some c.faulted := by
  obtain ⟨before, after, hkeys⟩ := List.append_of_mem (mem_mkeys_of_mfind (p := fun _ c => p c) hc hp)
  have fold (l : List Nat) (s : State) : FaultsOnly s (l.foldl (fun s c => ctxFault s c code eng step) s) :=
    FaultsOnly.foldl (fun s c => ctxFault_faultsOnly s c code eng step) l s
  have hturn := (ctxFault_contexts (before.foldl (fun s c => ctxFault s c code eng step) s) k code eng step).1
  rw [(fold before s).map_faulted, hc, Option.map_some] at hturn
  rw [faultAll, hkeys, List.foldl_append, List.foldl_cons]
  obtain h | h := (fold after _).contexts k <;> rw [h, hturn]
  rw [Option.map_some, faulted_faulted]

/-! ### Error records and DEV_STATE (R509, R561) -/

theorem errRecord_faultsOnly (s : State) (b : Block) (inst kind sev part addr detail : Nat) :
    FaultsOnly s (errRecord s b inst kind sev part addr detail) := by
  have hcount (u : State) : WordsOnly [reg .rep 1 0x130, reg .rep 1 0x134] u (bump64 u (reg .rep 1 0x130) 1) := wordsOnly_bump64 ..
  unfold errRecord
  refine FaultsOnly.of_sched ?_ fun c i => ?_
  · rw [raiseInt_sched, bump64_sched]
    split <;> rfl
  · rw [getW_raiseInt, if_neg (reg_ne_of_offset (by decide)), (hcount _).1 _ (by simp [reg_ne_of_offset])]
    split
    · exact getW_bump32_other _ _ (reg_ne_of_offset (by decide))
    · rfl

theorem setDevState_faultsOnly (s : State) (v : Nat) : FaultsOnly s (setDevState s v) := by
  unfold setDevState
  split
  · exact FaultsOnly.refl s
  · refine FaultsOnly.of_sched (raiseInt_sched ..) fun b i => ?_
    rw [getW_raiseInt, if_neg (reg_ne_of_offset (by decide)), getW_setF_other _ _ _ _ (reg_ne_of_offset (by decide))]

theorem setDevState_sched (s : State) (v : Nat) : (setDevState s v).sched = s.sched := by
  unfold setDevState
  split
  · rfl
  · exact raiseInt_sched ..

theorem devState_setDevState (s : State) {v : Nat} (h : v < 8) : devState (setDevState s v) = v := by
  unfold setDevState
  split
  · assumption
  · rw [devState, getF, getW_raiseInt, if_neg (reg_ne _ _ (by decide))]
    exact (getF_setF_same s _ 0 3 v (by decide)).trans (Nat.mod_eq_of_lt h)

/-! ### Mesh links (R277) -/

/-- A failed link raises its error; then contexts fault and the device state changes, which raises none. -/
theorem linkDown_faultsOnly (s : State) (q : Nat) (ctxs : List Nat) : FaultsOnly (raiseErr s .noc q 9) (linkDown s q ctxs) :=
  (errRecord_faultsOnly ..).trans ((FaultsOnly.foldl (fun s c => ctxUncorrectable_faultsOnly s c 0 0) ctxs _).trans
    ((faultAll_faultsOnly ..).trans (setDevState_faultsOnly ..)))

theorem requireReset_killed {s : State} {k : Nat} {c : Ctx} (code : Nat) (hc : mfind s.sched.ctxs k = some c) :
    (getCtx (requireReset s code) k).killed = true := by
  have hfaulted : mfind (requireReset s code).sched.ctxs k = some c.faulted := by
    rw [requireReset, setDevState_sched]
    exact mfind_faultAll _ _ _ hc rfl
  rw [getCtx_of_listed hfaulted]
  exact killed_faulted c

/-- Every context is faulted, whether or not its packets were on the link. -/
theorem linkDown_killed {s : State} {k : Nat} {c : Ctx} (q : Nat) (ctxs : List Nat) (hc : mfind s.sched.ctxs k = some c) :
    (getCtx (linkDown s q ctxs) k).killed = true := by
  have hraised : mfind (raiseErr s .noc q 9).sched.ctxs k = some c := by rw [raiseErr_sched, hc]
  have hbefore := (errRecord_faultsOnly (raiseErr s .noc q 9) .noc q 12 3 62 q 0).trans
    (FaultsOnly.foldl (fun s c => ctxUncorrectable_faultsOnly s c 0 0) ctxs _)
  obtain hk | hk := hbefore.contexts k <;> rw [hraised] at hk <;> exact requireReset_killed _ hk

theorem bitAt_raiseErr (s : State) (b : Block) (i : Nat) {bit : Nat} (h : bit < 32) :
    bitAt (getW (raiseErr s b i bit) (reg b i 0x18)).toNat bit = true := by
  have hlt : 2 ^ bit < 2 ^ 32 := Nat.pow_lt_pow_right (by omega) h
  rw [getW_raiseErr_same, bitAt_eq_testBit, BitVec.toNat_or, BitVec.toNat_ofNat, Nat.mod_eq_of_lt hlt]
  simp

/-! ### The statement -/

/-- Settles O36: an admitted access is one answer after the owner's read or write, a refused one is Unsupported Request; a repeat is a
counter and an error bit, and a failed link faults every context on its way to RESET_REQUIRED. -/
theorem inboundAccessesReachExportedMemory : Obligations.InboundAccessesReachExportedMemory := by
  refine ⟨fun s v i off upset hv => ?_, fun s q => ⟨?_, fun ctxs => ?_⟩⟩
  · subst hv
    refine ⟨fun n data a p u w l => ⟨fun ha hc hr => ?_, fun ha hc hw => ?_⟩, fun op wide x y a p k u w z l hk ha hc hr hw => ?_,
      fun n u h => ?_, fun data u h => ?_⟩
    · -- a read that is admitted
      exact ⟨_, congrArg done (inboundRead_of_admitted ha hc hr), answer_settle ..⟩
    · -- a write that is admitted
      exact ⟨_, congrArg done (inboundWrite_of_admitted ha hc hw), answer_settle ..⟩
    · -- an atomic that is admitted
      exact ⟨_, congrArg done (inboundAtomic_of_admitted op hk ha hc hr hw), answer_settle ..⟩
    · -- a read that is refused
      exact ⟨_, congrArg done (inAccess_of_refused _ h), inRefuse_settle u⟩
    · -- a write that is refused
      exact ⟨_, congrArg done (inAccess_of_refused _ h), inRefuse_settle u⟩
  · -- a link repeats a packet
    exact ⟨settle (linkRetry s q), rfl, (getW_settle ..).trans (getW_raiseErr_bump32_count s .noc q 8 1 (by decide) (by decide)),
      (getW_settle ..).trans (getW_raiseErr_bump32_flag s .noc q 8 1 (by decide)), onlyIn_settle (onlyIn_raiseErr_bump32 ..)⟩
  · -- a link fails
    refine ⟨settle (linkDown s q ctxs), rfl, ?_, ?_, fun k c hc => ?_⟩
    · rw [getW_settle, (linkDown_faultsOnly s q ctxs).errStat]
      exact bitAt_raiseErr s .noc q (by decide)
    · exact (getF_congr (settle_bus _) ..).trans (devState_setDevState _ (by decide))
    · rw [getCtx_settle]
      exact linkDown_killed q ctxs hc

end Sys2Proof.Machine
end

section
/-! SUPPORT. Signals and takes of an engine on an object of its block (R204, R281, R283, R284). -/
namespace Sys2Proof.Machine

/-! ### Operands and objects -/

/-- A COUNT is a constant of 24 bits or at most one (R169). -/
theorem countOf_lt {m : Miller} {d v : Nat} (h : countOf m d = some v) : v < 2 ^ 32 := by
  have hmax : bitsAt d 0 24 < 2 ^ 24 := bitsAt_lt ..
  unfold countOf at h
  dsimp only at h
  split at h
  · split at h <;> cases h
    omega
  · cases h
    omega

/-- An operand is the number that it was given as. -/
theorem toNat_countOf {m : Miller} {d v : Nat} (h : countOf m d = some v) : (BitVec.ofNat 32 v).toNat = v :=
  (BitVec.toNat_ofNat ..).trans (Nat.mod_eq_of_lt (countOf_lt h))

section
variable {o : SyncObj} {set : Bool} {v : Word}

theorem sigObj_counter (h : o.typ = .counter) : sigObj o set v = .done { o with value := if set then v else o.value + v } := by
  simp only [sigObj, h]

theorem sigObj_flag (h : o.typ = .flag) : sigObj o set v = .done { o with value := if set then v else o.value ||| v } := by
  simp only [sigObj, h]

/-- Arrivals carry into the value of a barrier. -/
theorem sigObj_barrier (h : o.typ = .barrier) (hp : o.param ≠ 0) : sigObj o false v = .done { o with
    value := o.value + BitVec.ofNat 32 ((o.arrivals + v.toNat) / o.param.toNat), arrivals := (o.arrivals + v.toNat) % o.param.toNat } := by
  simp only [sigObj, h, Bool.false_eq_true, false_or, if_neg hp]

theorem sigObj_work (h : o.typ = .work) (hmax : o.value.toNat + v.toNat < 2 ^ 32) :
    sigObj o false v = .done { o with value := o.value + v } := by
  have hle : ¬ 0xFFFFFFFF < o.value.toNat + v.toNat := by omega
  simp [sigObj, h, hle]

end

/-- An operand of 0 and one that would pass the largest word are out of a take's range. -/
theorem takeObj_range {o : SyncObj} {inc : Word} (h : o.typ = .work) (hr : inc = 0 ∨ 2 ^ 32 ≤ o.value.toNat + inc.toNat) :
    takeObj o inc = .range := by
  have hrange : inc = 0 ∨ 0xFFFFFFFF < o.value.toNat + inc.toNat := hr.imp_right (by omega)
  simp only [takeObj, if_pos h, if_pos hrange]

/-- A change of an object evaluates waits; the queues of every context stay. -/
theorem queue_setObj (s : State) (n : Nat) (o : SyncObj) (k q : Nat) :
    (getCtx (setObj s n o) k).queue q = (getCtx s k).queue q := by
  simp only [getCtx, setObj, mget, mfind_mmap]
  cases mfind s.sched.ctxs k with
  | none => rfl
  | some c =>
    simp only [Option.map_some, Ctx.evalWaits]
    cases c.place <;> rfl

theorem putEng_bus (s : State) (cid : Nat) (c : Ctx) (e : Nat) (x : Eng) : (putEng s cid c e x).bus = s.bus := rfl

/-- TAKE_CNT counts a successful take (R296). -/
theorem getD64_countTake_setObj (s : State) (n : Nat) (o : SyncObj) :
    getD64 (countTake (setObj s n o)) (reg .syn 0 0x118) = getD64 s (reg .syn 0 0x118) + 1 :=
  (getD64_bump64_same (setObj s n o) _ 1).trans (congrArg (· + 1) (getD64_congr (s := s) rfl _))

/-- The state that a command answers. -/
theorem eq_settle_of_done {w t : State} (h : done w = .next t) : t = settle w := (Host.Outcome.next.inj h).symm

/-! ### SYNC_SIGNAL, SYNC_TAKE -/

section
variable {s : State} {site : Site} {lf : LeafNo} {e : EngNo} {i : Issue} {v n : Nat} (hv : countOf i.c.miller (recW i.rcd 3) = some v)
  (hn : mfind i.c.syncs (syncLocal i.rcd) = some (.obj n))
include hv hn

theorem signalIssue_eq {o : SyncObj} {u : State} (ho : sigObj (getObj s n) (syncMode i.rcd = 1) (BitVec.ofNat 32 v) = .done o)
    (hu : u = phaseStamp (setObj s n o) i.cid (syncLocal i.rcd) (syncMode i.rcd = 1)) :
    signalIssue i s lf = putEng u i.cid (getCtx u i.cid) i.e i.adv := by
  simp only [signalIssue, hv, hn, ctxSignal, ho, ← hu]

/-- A signal that the object's type accepts: the object changes, a phase may complete, and the engine goes on. -/
theorem syncSignal_accepted (hi : issueAt s site lf e [5] = some i) {o : SyncObj}
    (ho : sigObj (getObj s n) (syncMode i.rcd = 1) (BitVec.ofNat 32 v) = .done o) :
    ∃ t, exec (.syncSignal site lf e) s = .next t ∧ getObj t n = o ∧ (∀ m : Nat, m ≠ n → getObj t m = getObj s m)
      ∧ (getCtx t i.cid).eng e = i.adv ∧ OnlyIn [.sync, .sched, .hif, .cells] s t := by
  obtain ⟨-, -, -, he, -⟩ := issueAt_spec hi
  have hexec : exec (.syncSignal site lf e) s = done (signalIssue i s lf) := by
    change done _ = _
    rw [hi]
  obtain ⟨t, ht, hsame, hother, hc, honly⟩ :=
    done_of_object_changed (onlyIn_phaseStamp ..) (by decide) (signalIssue_eq hv hn ho rfl)
  refine ⟨t, hexec.trans ht, hsame, hother, ?_, onlyIn_mono honly (by simp)⟩
  rw [hc, he]
  exact eng_setEng_same ..

theorem takeIssue_eq {u : State} (ht : (getObj s n).typ = .work) (h0 : v ≠ 0) (hmax : (getObj s n).value.toNat + v < 2 ^ 32)
    (hu : u = countTake (setObj s n { getObj s n with value := (getObj s n).value + BitVec.ofNat 32 v }))
    (hroom : ((getCtx u i.cid).queue (recF i.rcd 1 16 5)).ents.length < i.m.depth (recF i.rcd 1 16 5)) (ans : Word) :
    takeIssue i s lf ans = putEng u i.cid ((getCtx u i.cid).withQueue (recF i.rcd 1 16 5)
      { (getCtx u i.cid).queue (recF i.rcd 1 16 5) with ents :=
        ((getCtx u i.cid).queue (recF i.rcd 1 16 5)).ents ++ [bytesLine (toLE 4 (getObj s n).value.toNat)] }) i.e i.adv := by
  have hne : BitVec.ofNat 32 v ≠ 0 := fun h => h0 (by simpa [toNat_countOf hv] using congrArg BitVec.toNat h)
  have htake := ctxTake_work (inc := BitVec.ofNat 32 v) i.c.part ans ht hne (by rwa [toNat_countOf hv])
  have hpush := pushEntries_of_room (es := [bytesLine (toLE 4 (getObj s n).value.toNat)]) i.adv i.idx hroom
  simp only [takeIssue, hv, hn, htake, ← hu, hpush]

theorem takeIssue_range (ht : (getObj s n).typ = .work) (hr : v = 0 ∨ 2 ^ 32 ≤ (getObj s n).value.toNat + v) (ans : Word) :
    takeIssue i s lf ans = ctxFault s i.cid 0x01 (physEng i.m lf i.e) i.idx := by
  have hrange : BitVec.ofNat 32 v = 0 ∨ 2 ^ 32 ≤ (getObj s n).value.toNat + (BitVec.ofNat 32 v).toNat := by
    rw [toNat_countOf hv]
    exact hr.imp_left (congrArg (BitVec.ofNat 32))
  simp only [takeIssue, hv, hn, ctxTake, takeObj_range ht hrange]
  rfl

end

/-- Settles O8: what the type of the object makes of a signal is one change of the object, after which the engine is stored; a take is
such a change with one entry more in QO. -/
theorem engineSignalsAndTakesActOnTheirObject : Obligations.EngineSignalsAndTakesActOnTheirObject := by
  intro s site lf e i v n hv hn
  refine ⟨fun hi htyp => ?_, fun hi hwork => ?_⟩
  · obtain ht | ht | ⟨ht, hadd, hp⟩ | ⟨ht, hadd, hmax⟩ := htyp
    · obtain ⟨t, hd, ho, hrest⟩ := syncSignal_accepted hv hn hi (sigObj_counter ht)
      exact ⟨t, hd, by simp [ho, ht], by simp [ht], hrest⟩
    · obtain ⟨t, hd, ho, hrest⟩ := syncSignal_accepted hv hn hi (sigObj_flag ht)
      exact ⟨t, hd, by simp [ho, ht], by simp [ht], hrest⟩
    · have hsig := sigObj_barrier (v := BitVec.ofNat 32 v) ht hp
      rw [toNat_countOf hv, ← decide_eq_false hadd] at hsig
      obtain ⟨t, hd, ho, hrest⟩ := syncSignal_accepted hv hn hi hsig
      exact ⟨t, hd, by simp [ho, ht], by simp [ho], hrest⟩
    · have hsig := sigObj_work (v := BitVec.ofNat 32 v) ht (by rwa [toNat_countOf hv])
      rw [← decide_eq_false hadd] at hsig
      obtain ⟨t, hd, ho, hrest⟩ := syncSignal_accepted hv hn hi hsig
      exact ⟨t, hd, by simp [ho, ht], by simp [ht], hrest⟩
  · obtain ⟨-, hc, -, he, -⟩ := issueAt_spec hi
    have hexec (ans : Word) : exec (.syncTake site lf e ans) s = done (takeIssue i s lf ans) := by
      change done _ = _
      rw [hi]
    refine ⟨fun ans h0 hmax hroom => ?_, fun ans hr => ?_⟩
    · have hqueue : (getCtx (countTake (setObj s n { getObj s n with value := (getObj s n).value + BitVec.ofNat 32 v })) i.cid).queue
          (recF i.rcd 1 16 5) = i.c.queue (recF i.rcd 1 16 5) := by
        rw [hc]
        exact queue_setObj ..
      rw [← hqueue] at hroom ⊢
      have htake := takeIssue_eq (lf := lf) hv hn hwork h0 hmax rfl hroom ans
      obtain ⟨t, hd, hsame, hother, hctx, honly⟩ := done_of_object_changed (onlyIn_bump64 ..) (by decide) htake
      refine ⟨t, (hexec ans).trans hd, hsame, hother, ?_, ?_, ?_, onlyIn_mono honly (by simp)⟩
      · rw [hctx]
        exact congrArg OpQueue.ents (queue_withQueue ..)
      · rw [hctx, he]
        exact eng_setEng_same ..
      · rw [eq_settle_of_done hd, getD64_settle, htake]
        exact (getD64_congr (putEng_bus ..) _).trans (getD64_countTake_setObj ..)
    · rw [hexec, takeIssue_range hv hn hwork hr, he]
      rfl

end Sys2Proof.Machine
end

section
/-! SUPPORT. Sync objects reached from outside the block: OBJ_VALUE writes, inbound operations and polls of REMOTE waits (R281, R283, R288
to R290, R296, R297, R379, R382). -/
namespace Sys2Proof.Machine

/-! ### OBJ_VALUE (R296, R297) -/

section
variable {s : State} {n : Nat} (hready : pageReady s .syn 0 = true) (hn : n = getF s (reg .syn 0 0x100) 0 16) (v : Word)
include hready hn

theorem objValueWrite_of_accepted (hnone : (getObj s n).typ ≠ .none) (htimed : (getObj s n).typ ≠ .timed) :
    objValueWrite s v = setObj s n { getObj s n with value := v } := by
  have hok : ¬ ((getObj s n).typ = .none ∨ (getObj s n).typ = .timed) := not_or.mpr ⟨hnone, htimed⟩
  simp only [objValueWrite, gated, hready, if_true, ← hn, if_neg hok]

theorem objValueWrite_of_refused (h : (getObj s n).typ = .none ∨ (getObj s n).typ = .timed) :
    objValueWrite s v = raiseErr s .syn 0 0 := by
  simp only [objValueWrite, gated, hready, if_true, ← hn, if_pos h]
  rfl

end

/-! ### Inbound operations (R289, R290, R382) -/

section
variable {s : State} {i n : Nat} (hopen : syncOpen s i = true)
include hopen

theorem inboundSignal_of_accepted (hok : remoteOk s n = true) {set : Bool} {v : Word} {o : SyncObj}
    (ho : sigObj (getObj s n) set v = .done o) : inboundSignal s i n set v = answer (setObj s n o) (some []) := by
  simp only [inboundSignal, hopen, hok, Bool.not_true, Bool.false_eq_true, if_false, if_true, signalExt_of_done ho]

theorem inboundTake_of_got (hok : remoteOk s n = true) {inc old : Word} {o : SyncObj} (ho : takeObj (getObj s n) inc = .got old o) :
    inboundTake s i n inc = answer (countTake (setObj s n o)) (some (toLE 4 old.toNat)) := by
  simp only [inboundTake, hopen, hok, Bool.not_true, Bool.false_eq_true, if_false, ho]

theorem inboundSignal_of_discarded (hno : remoteOk s n = false) (set : Bool) (v : Word) :
    inboundSignal s i n set v = answer (discardOp s) (some []) := by
  simp only [inboundSignal, hopen, hno, Bool.not_true, Bool.false_eq_true, if_false]

theorem inboundTake_of_discarded (hno : remoteOk s n = false) (inc : Word) :
    inboundTake s i n inc = answer (discardOp s) (some (toLE 4 0xFFFFFFFF)) := by
  simp only [inboundTake, hopen, hno, Bool.not_true, Bool.not_false, Bool.false_eq_true, if_false, if_true]

end

/-- Through a window that is not open for sync every operation is refused. -/
theorem exec_inbound_of_closed {s : State} {i : Fin 4} {m : BitVec 16} {v : Word} (hclosed : syncOpen s i = false) {c : Instr}
    (hc : c ∈ ([.inboundAddSignal i m v, .inboundSetSignal i m v, .inboundTake i m v, .inboundValueRead i m] : List Instr)) :
    exec c s = done (inRefuse s) := by
  have hshut : (!syncOpen s i) = true := by rw [hclosed, Bool.not_false]
  have hsignal (set : Bool) : inboundSignal s i m.toNat set v = inRefuse s := if_pos hshut
  simp only [List.mem_cons, List.not_mem_nil, or_false] at hc
  obtain rfl | rfl | rfl | rfl := hc
  · exact congrArg done (hsignal false)
  · exact congrArg done (hsignal true)
  · exact congrArg done (if_pos hshut)
  · exact congrArg done (if_neg (by rw [hclosed]; exact Bool.false_ne_true))

theorem wordsOnly_inRefuse (s : State) : WordsOnly [reg .hif 7 0x180] s (settle (inRefuse s)) :=
  wordsOnly_settle (wordsOnly_trans (wordsOnly_setW ..) (wordsOnly_of_bus rfl))

theorem answer_bus (s : State) (a : Option (List Byte)) : (answer s a).bus = s.bus := rfl

/-- One object changes, then what touches neither objects nor the HIF, and a peer is answered. -/
theorem object_changed_and_answered {l : List Comp} {s u : State} {n : Nat} {o : SyncObj} (hu : OnlyIn l (setObj s n o) u)
    (hsync : Comp.sync ∉ l) (hhif : Comp.hif ∉ l) (a : Option (List Byte)) :
    getObj (settle (answer u a)) n = o ∧ (∀ k : Nat, k ≠ n → getObj (settle (answer u a)) k = getObj s k)
      ∧ (settle (answer u a)).hif.answers = s.hif.answers ++ [a] ∧ OnlyIn ([.sync, .sched, .hif] ++ l) s (settle (answer u a)) := by
  obtain ⟨hans, honly⟩ := answer_settle u a
  have hobj (k : Nat) : getObj (settle (answer u a)) k = getObj (setObj s n o) k :=
    getObj_congr ((honly.2 .sync (by decide)).trans (hu.2 .sync hsync)) k
  refine ⟨?_, fun k hk => ?_, ?_, onlyIn_trans (onlyIn_mono (onlyIn_setObj ..) (List.subset_append_left ..))
    (onlyIn_trans (onlyIn_mono hu (List.subset_append_right ..)) (onlyIn_mono honly (by simp)))⟩
  · rw [hobj, getObj_setObj_same]
  · rw [hobj, getObj_setObj_other _ _ hk]
  · rw [hans, hu.2 .hif hhif]
    rfl

/-- An operation that REMOTE_OK does not admit changes no object; it is counted and answered (R289). -/
theorem discarded_and_answered (s : State) (a : Option (List Byte)) :
    (settle (answer (discardOp s) a)).sync = s.sync ∧ (settle (answer (discardOp s) a)).hif.answers = s.hif.answers ++ [a]
      ∧ getW (settle (answer (discardOp s) a)) (reg .syn 0 0x114) = satAdd32 (getW s (reg .syn 0 0x114)) 1
      ∧ OnlyIn [.hif, .bus] s (settle (answer (discardOp s) a)) := by
  obtain ⟨hans, honly⟩ := answer_settle (discardOp s) a
  have hdiscard : OnlyIn [.bus] s (discardOp s) := onlyIn_raiseErr_bump32 ..
  refine ⟨(honly.2 .sync (by decide)).trans (hdiscard.2 .sync (by decide)), ?_, ?_,
    onlyIn_trans (onlyIn_mono hdiscard (by simp)) (onlyIn_mono honly (by simp))⟩
  · rw [hans, hdiscard.2 .hif (by decide)]
  · rw [getW_congr (honly.2 .bus (by decide))]
    exact getW_raiseErr_bump32_count s .syn 0 8 1 (by decide) (by decide)

/-! ### REMOTE_POLL (R288, R292) -/

theorem heldWait_putWait (c : Ctx) (e : Nat) (w : Option Wait) : heldWait (putWait c e w) e = w := by
  unfold heldWait putWait
  split
  · rfl
  · rw [eng_setEng_same]

/-- A read leaves for its peer also in shadow mode (R384). -/
theorem fabSend_read (s : State) (p d : Nat) (a : DWord) :
    fabSend s p ⟨.read, d, a, []⟩ = { s with hif := { s.hif with fab := s.hif.fab ++ [⟨.read, d, a, []⟩] } } :=
  if_neg fun h => h.1 rfl

section
variable {s u : State} {site lf e cid loc cond w n d a : Nat} {cmp : Word} {sat : Bool} {x : SyncDecl}
  (hctx : (getLeaf s site lf).ctx = some cid) (hst : (getLeaf s site lf).st = .running ∨ (getLeaf s site lf).st = .resident)
  (hlive : (getCtx s cid).killed = false) (hwait : heldWait (getCtx s cid) e = some (.sync loc cond cmp sat))
  (hloc : mfind (getCtx s cid).syncs loc = some (.remote w n))
  (hcheck : fabCheck s (getCtx s cid).part (remoteAddr s (getCtx s cid).part w n 0) 4 false = (.pass d a, u))
  (hdecl : (ctxModule u (getCtx s cid)).syncs.find? (fun y => y.loc = loc) = some x)
include hctx hst hlive hwait hloc hcheck hdecl

/-- A poll that passes its check is one request and one store of the context. -/
theorem remotePoll_of_passed (v : Word) : remotePoll s site lf e v =
    setCtx { u with hif := { u.hif with fab := u.hif.fab ++ [⟨.read, d, BitVec.ofNat 64 a, []⟩] } } cid
      (putWait (getCtx u cid) e (some (.sync loc cond cmp (sat || waitCond ⟨ObjType.ofCode x.typ, v, 0, 0⟩ cond cmp)))) := by
  have hgo : ¬ ((¬ ((getLeaf s site lf).st = .running ∨ (getLeaf s site lf).st = .resident)) ∨ (getCtx s cid).killed = true) := by
    simp [hst, hlive]
  have hmod (h : Hif) : ctxModule { u with hif := h } (getCtx s cid) = ctxModule u (getCtx s cid) := rfl
  simp only [remotePoll, hctx, if_neg hgo, hwait, hloc, hcheck, fabSend_read, hmod, hdecl]
  rfl

end

/-! ### The statement -/

/-- Settles O35: each operation that is admitted is one change of its object and an answer; one that is refused is counted and answered;
a poll is one read and one store of the context. -/
theorem objectsAreReachedFromOutside : Obligations.ObjectsAreReachedFromOutside := by
  intro s
  refine ⟨fun v n hready hn => ⟨fun hnone htimed => ?_, fun hbad => ?_⟩,
    fun i m v => ⟨fun hopen hok => ⟨fun c set o hc ho => ?_, fun old o ho => ?_⟩, fun hopen => ?_, fun hclosed c hc => ?_,
      fun hopen hno c hc => ?_⟩,
    fun u site lf e v cid loc cond w n d a cmp sat x hctx hst hlive hwait hloc hcheck hdecl => ?_⟩
  · -- a write of OBJ_VALUE
    refine ⟨_, congrArg done (objValueWrite_of_accepted hready hn v hnone htimed), ?_, fun k hk => ?_, onlyIn_settle (onlyIn_setObj ..)⟩
    · rw [getObj_congr (settle_sync _), getObj_setObj_same]
    · rw [getObj_congr (settle_sync _), getObj_setObj_other _ _ hk]
  · -- a write of OBJ_VALUE for NONE or TIMED
    exact ⟨_, congrArg done (objValueWrite_of_refused hready hn v hbad), (getW_settle ..).trans (getW_raiseErr_same ..),
      onlyIn_settle (onlyIn_raiseErr ..)⟩
  · -- a signal
    have hexec : exec c s = done (inboundSignal s i m.toNat set v) := by
      simp only [List.mem_cons, List.not_mem_nil, or_false] at hc
      obtain ⟨rfl, rfl⟩ | ⟨rfl, rfl⟩ := hc <;> rfl
    rw [hexec, inboundSignal_of_accepted hopen hok ho]
    exact ⟨_, rfl, object_changed_and_answered (onlyIn_refl [] _) (by decide) (by decide) _⟩
  · -- a take
    have hcounted : OnlyIn [.bus] (setObj s m.toNat o) (countTake (setObj s m.toNat o)) := onlyIn_bump64 ..
    obtain ⟨hsame, hother, hans, honly⟩ :=
      object_changed_and_answered hcounted (by decide) (by decide) (some (toLE 4 old.toNat))
    refine ⟨_, congrArg done (inboundTake_of_got hopen hok ho), hsame, hother, hans, ?_, honly⟩
    exact (getD64_settle ..).trans ((getD64_congr (answer_bus ..) _).trans (getD64_countTake_setObj ..))
  · -- a read
    exact ⟨_, congrArg done (if_pos hopen), congrArg Hif.answers (answer_settle ..).1, (answer_settle ..).2⟩
  · -- a window that is not open
    obtain ⟨hans, hcount, honly⟩ := inRefuse_settle s
    exact ⟨_, exec_inbound_of_closed hclosed hc, hans, hcount, honly, wordsOnly_inRefuse s⟩
  · -- an object without REMOTE_OK
    simp only [List.mem_cons, List.not_mem_nil, or_false] at hc
    obtain rfl | rfl | rfl := hc
    · rw [if_neg nofun]
      exact ⟨_, congrArg done (inboundSignal_of_discarded hopen hno ..), discarded_and_answered ..⟩
    · rw [if_neg nofun]
      exact ⟨_, congrArg done (inboundSignal_of_discarded hopen hno ..), discarded_and_answered ..⟩
    · rw [if_pos rfl]
      exact ⟨_, congrArg done (inboundTake_of_discarded hopen hno ..), discarded_and_answered ..⟩
  · -- a poll
    obtain ⟨t, ht, hc, hctxOnly, honly⟩ := done_of_eq_setCtx (remotePoll_of_passed hctx hst hlive hwait hloc hcheck hdecl v)
    refine ⟨t, ht, ?_, ?_, ctxOnly_trans (ctxOnly_of_sched rfl) hctxOnly,
      onlyIn_trans (onlyIn_mono (onlyIn_hif ..) (by simp)) (onlyIn_mono honly (by simp))⟩
    · rw [hc, heldWait_putWait]
    · exact congrArg Hif.fab (honly.2 .hif (by decide))

end Sys2Proof.Machine
end

section
/-! SUPPORT. What a partition holds: mills leave it, everything of it returns to the pool (R291, R304, R322, R387, R424, R467, R578). -/
namespace Sys2Proof.Machine

/-! ### Holdings -/

/-- Partitions and what is held in their name: cells, sync blocks and key slots; with them a mailbox command other than a LAUNCH. -/
structure Holdings where
  parts : KMap Part
  mailbox : Option MbxCmd
  cells : KMap Cell
  blocks : KMap Nat
  slots : KMap KeySlot

def State.holdings (s : State) : Holdings :=
  ⟨s.sched.parts, s.sched.mbx.filter (fun c => c.op ≠ 8), s.cells, s.sync.owner, s.mem.slots⟩

theorem holdings_parts (s : State) : s.holdings.parts = s.sched.parts := rfl
theorem holdings_mailbox (s : State) : s.holdings.mailbox = s.sched.mbx.filter (fun c => c.op ≠ 8) := rfl
theorem holdings_cells (s : State) : s.holdings.cells = s.cells := rfl
theorem holdings_blocks (s : State) : s.holdings.blocks = s.sync.owner := rfl
theorem holdings_slots (s : State) : s.holdings.slots = s.mem.slots := rfl

/-- The cells of partition `p` are gone. -/
def Holdings.dropCells (h : Holdings) (p : Nat) : Holdings :=
  { h with cells := (mkeys (fun _ c => c.part = p) h.cells).foldl mdel h.cells }

/-- The sync blocks of partition `p` are in the pool. -/
def Holdings.dropBlocks (h : Holdings) (p : Nat) : Holdings := { h with blocks := h.blocks.filter (fun e => e.2 ≠ p) }

/-- A key slot is erased. -/
def eraseSlot (m : KMap KeySlot) (k : Nat) : KMap KeySlot := mset KeySlot.empty m k KeySlot.empty

/-- The key slots of partition `p` are erased. -/
def Holdings.dropSlots (h : Holdings) (p : Nat) : Holdings :=
  { h with slots := (mkeys (fun _ x => x.owner = p) h.slots).foldl eraseSlot h.slots }

/-- Partition `p` becomes `x`. -/
def Holdings.putPart (h : Holdings) (p : Nat) (x : Part) : Holdings := { h with parts := mset Part.free h.parts p x }

/-! Updates that move nothing from one holder to another. -/

@[simp] theorem holdings_setW (s : State) (a : Nat) (v : Word) : (setW s a v).holdings = s.holdings := rfl
@[simp] theorem holdings_setF (s : State) (a lo len v : Nat) : (setF s a lo len v).holdings = s.holdings := rfl
@[simp] theorem holdings_bump32 (s : State) (a n : Nat) : (bump32 s a n).holdings = s.holdings := rfl
@[simp] theorem holdings_bump64 (s : State) (a n : Nat) : (bump64 s a n).holdings = s.holdings := rfl
@[simp] theorem holdings_setCtx (s : State) (c : Nat) (x : Ctx) : (setCtx s c x).holdings = s.holdings := rfl
@[simp] theorem holdings_setLeaf (s : State) (site lf : Nat) (x : Leaf) : (setLeaf s site lf x).holdings = s.holdings := rfl
@[simp] theorem holdings_freeObj (s : State) (n : Nat) : (freeObj s n).holdings = s.holdings := rfl
@[simp] theorem holdings_setSet (s : State) (i : Nat) (x : BolSet) : (setSet s i x).holdings = s.holdings := rfl
@[simp] theorem holdings_setSteer (s : State) (e : Nat) (x : Steer) : (setSteer s e x).holdings = s.holdings := rfl
@[simp] theorem holdings_dwellMark (s : State) : (dwellMark s).holdings = s.holdings := rfl

theorem holdings_setPart (s : State) (p : Nat) (x : Part) : (setPart s p x).holdings = s.holdings.putPart p x := rfl

theorem holdings_core (s : State) : s.core.holdings = s.holdings := rfl

theorem holdings_of_core {s t : State} (h : t.core = s.core) : t.holdings = s.holdings := by
  rw [← holdings_core t, h, holdings_core]

theorem holdings_foldl_freeObj (l : List Nat) (s : State) : (l.foldl freeObj s).holdings = s.holdings :=
  foldl_keeps State.holdings _ l s holdings_freeObj

theorem holdings_of_onlyIn {l : List Comp} {s t : State} (h : OnlyIn l s t) (hl : ∀ c ∈ [Comp.sched, .cells, .sync, .mem], c ∉ l) :
    t.holdings = s.holdings := by
  have hsched : t.sched = s.sched := h.2 .sched (hl _ (by simp))
  have hcells : t.cells = s.cells := h.2 .cells (hl _ (by simp))
  have hsync : t.sync = s.sync := h.2 .sync (hl _ (by simp))
  have hmem : t.mem = s.mem := h.2 .mem (hl _ (by simp))
  rw [State.holdings, hsched, hcells, hsync, hmem, State.holdings]

@[simp] theorem holdings_raiseInt (s : State) (b : Block) (i bit : Nat) : (raiseInt s b i bit).holdings = s.holdings :=
  holdings_of_onlyIn (onlyIn_raiseInt ..) (by decide)

theorem holdings_of_charge {s t : State} (h : ChargeOnly s t) : t.holdings = s.holdings := by
  have hcells : t.cells = s.cells := h.2.2 .cells (by decide)
  have hsync : t.sync = s.sync := h.2.2 .sync (by decide)
  have hmem : t.mem = s.mem := h.2.2 .mem (by decide)
  rw [State.holdings, h.1, hcells, hsync, hmem, State.holdings]

theorem getPart_of_holdings {s t : State} (h : t.holdings.parts = s.holdings.parts) (p : Nat) : getPart t p = getPart s p :=
  congrArg (mget Part.free · p) h

/-! ### A mill leaves (R304, R321) -/

theorem holdings_recordFault (s : State) (cid : Nat) (c : Ctx) (code eng step : Nat) :
    (recordFault s cid c code eng step).holdings = s.holdings := by
  rw [recordFault, partFault, holdings_raiseInt, holdings_bump32, holdings_setW]
  rfl

theorem holdings_ctxFault (s : State) (cid code eng step : Nat) : (ctxFault s cid code eng step).holdings = s.holdings := by
  by_cases hgone : mfind s.sched.ctxs cid = none ∨ (getCtx s cid).killed = true
  · rw [ctxFault_of_gone _ _ _ hgone]
  · obtain ⟨hne, hk⟩ := not_or.mp hgone
    obtain ⟨c, hc⟩ := Option.ne_none_iff_exists'.mp hne
    rw [getCtx_of_listed hc, Bool.not_eq_true] at hk
    rw [ctxFault_eq _ _ _ hc hk, holdings_recordFault]
    exact holdings_of_charge (placeFault_charge ..)

theorem holdings_unplan (s : State) (p : LoadPlan) : (unplan s p).holdings = s.holdings := by
  rw [unplan, holdings_foldl_freeObj, holdings_foldl_freeObj]
  refine foldl_keeps State.holdings _ _ s fun s x => ?_
  dsimp only
  split
  · exact holdings_setLeaf ..
  · rfl

/-- Only a LAUNCH in the mailbox waits for a load. -/
theorem holdings_mbxLoaded (s : State) (code : Nat) : (mbxLoaded s code).holdings = s.holdings := by
  unfold mbxLoaded
  split
  next c hc =>
    split
    next hop => simp [State.holdings, hc, hop, Option.filter]
    next => rfl
  next => rfl

theorem holdings_dropLoad (s : State) (n : Nat) : (dropLoad s n).holdings = s.holdings := by
  have hplan : (match (mget Load.blank s.sched.loads n).plan with | some p => unplan s p | none => s).holdings = s.holdings := by
    split
    · exact holdings_unplan ..
    · rfl
  unfold dropLoad
  dsimp only
  split
  · exact (holdings_mbxLoaded ..).trans hplan
  · exact hplan

theorem holdings_millLeaves (s : State) (n : Nat) : (millLeaves s n).holdings = s.holdings := by
  unfold millLeaves
  split
  next => rfl
  next =>
    refine (foldl_keeps State.holdings _ _ _ fun s lf => ?_).trans (foldl_keeps State.holdings _ _ s holdings_dropLoad)
    refine (holdings_of_charge (clearLeaf_charge ..)).trans ?_
    split
    · exact holdings_ctxFault ..
    · rfl

/-! ### Mills moved (R403, R489) -/

theorem holdings_govEvent (s : State) (typ val aux16 aux32 : Nat) : (govEvent s typ val aux16 aux32).holdings = s.holdings := by
  unfold govEvent
  split
  · exact holdings_bump32 ..
  · exact holdings_raiseInt ..

theorem holdings_capClamp (s : State) : (capClamp s).holdings = s.holdings := by
  unfold capClamp
  dsimp only
  rw [holdings_dwellMark]
  split
  · rw [holdings_govEvent, holdings_raiseInt, holdings_setF]
  · exact holdings_setF ..

theorem holdings_millsMoved (s : State) : (millsMoved s).holdings = s.holdings :=
  (holdings_capClamp _).trans (holdings_of_core (radioRowsUp_core s))

/-! ### RESIZE_APPLY (R304) -/

/-- Removed mills have left partition `p`, and their loans are marked over. -/
def millsLeft (s : State) (p rem : Nat) : State := (setBitsOf 240 rem).foldl (fun s n => putLend (millLeaves s n) p n false) s

theorem getPart_millsLeft (s : State) (p rem q : Nat) : getPart (millsLeft s p rem) q = getPart s q :=
  getPart_of_holdings (congrArg Holdings.parts (foldl_keeps State.holdings _ _ s fun s n =>
    (holdings_setF ..).trans (holdings_millLeaves s n))) q

theorem getPart_setPart_same (s : State) (p : Nat) (x : Part) : getPart (setPart s p x) p = x := mget_mset_same ..

theorem resizeApply_of_due {s : State} {p : Nat} {z : Resize} (hz : (getPart s p).resize = some z) (hat : reached (nowNs s) z.at_ = true)
    (hback : ∀ n ∈ setBitsOf 240 z.rem, isLent s n = false) : resizeApply s p =
      kickPart (millsMoved (setPart (millsLeft s p z.rem) p
        { getPart s p with mills := millsAfter (getPart s p) z.add z.rem, resize := none })) p := by
  have hnone : (setBitsOf 240 z.rem).any (isLent s) = false := List.any_eq_false.mpr fun n hn => by simp [hback n hn]
  simp only [resizeApply, hz, hat, hnone, Bool.not_true, Bool.false_eq_true, or_self, if_false]
  rw [← millsLeft, getPart_millsLeft]

/-! ### PARTITION_TEARDOWN_DONE (R291, R322) -/

theorem holdings_garble (s : State) (ln : Nat) (hit : Nat → Bool) : (garble s ln hit).holdings = s.holdings := by
  refine foldl_keeps State.holdings _ _ s fun s b => ?_
  dsimp only
  split <;> rfl

theorem holdings_grnDrop (s : State) (key : Nat) : (grnDrop s key).holdings = s.holdings := by
  unfold grnDrop
  split
  next => rfl
  next =>
    dsimp only
    split
    · rw [holdings_garble, holdings_setF]
      rfl
    · split
      · rw [holdings_bump64]
        rfl
      · rfl

theorem holdings_recount (s0 s : State) : (recount s0 s).holdings = s.holdings :=
  foldl_keeps State.holdings _ _ s fun _ _ => holdings_setCtx ..

theorem holdings_flowUnbind (s : State) (n : Nat) : (flowUnbind s n).holdings = s.holdings := by
  rw [flowUnbind, sluCounts, holdings_setW, holdings_setW]
  rfl

theorem holdings_cellFree (s : State) (n : Nat) : (cellFree s n).holdings = { s.holdings with cells := mdel s.holdings.cells n } := by
  have hcells (s : State) : ({ s with cells := mdel s.cells n } : State).holdings =
      { s.holdings with cells := mdel s.holdings.cells n } := rfl
  rw [cellFree, holdings_recount, radioCounts, holdings_setW, holdings_setW, hcells, holdings_flowUnbind, holdings_foldl_freeObj]

theorem holdings_cellsFreed (s : State) (p : Nat) :
    ((mkeys (fun _ c => c.part = p) s.cells).foldl cellFree s).holdings = s.holdings.dropCells p := by
  have hfold (l : List Nat) (s : State) : (l.foldl cellFree s).holdings = { s.holdings with cells := l.foldl mdel s.holdings.cells } := by
    induction l generalizing s with
    | nil => rfl
    | cons n r ih => rw [List.foldl_cons, ih, holdings_cellFree, List.foldl_cons]
  exact hfold ..

theorem holdings_bolterDisable (s : State) (i r : Nat) : (bolterDisable s i r).holdings = s.holdings := by
  have hbol (s : State) (b : Bolters) : ({ s with bol := b } : State).holdings = s.holdings := rfl
  rw [bolterDisable, holdings_setSet, hbol, holdings_recount, holdings_of_core (domsFollow_core _), holdings_setF]

/-- Objects of partition `p` are NONE and their blocks admit no inbound operation; the blocks are still its own. -/
def blocksCleared (s : State) (p : Nat) : State :=
  let s := (mkeys (fun n _ => objOwner s n = p) s.sync.objs).foldl freeObj s
  (mkeys (fun _ q => q = p) s.sync.owner).foldl (fun s b => setF s (reg .syn 3 (0x100 + 4 * (b / 32))) (b % 32) 1 0) s

/-- The sync unit without the blocks of partition `p`. -/
def ownersDropped (s : State) (p : Nat) : State :=
  { s with sync := { s.sync with owner := s.sync.owner.filter (fun e => e.2 ≠ p) } }

theorem blocksFree_eq (s : State) (p : Nat) : blocksFree s p = ownersDropped (blocksCleared s p) p := rfl

theorem holdings_ownersDropped (s : State) (p : Nat) : (ownersDropped s p).holdings = s.holdings.dropBlocks p := rfl

theorem holdings_blocksCleared (s : State) (p : Nat) : (blocksCleared s p).holdings = s.holdings :=
  (foldl_keeps State.holdings _ _ _ fun _ _ => holdings_setF ..).trans (holdings_foldl_freeObj ..)

theorem holdings_blocksFree (s : State) (p : Nat) : (blocksFree s p).holdings = s.holdings.dropBlocks p := by
  rw [blocksFree_eq, holdings_ownersDropped, holdings_blocksCleared]

theorem holdings_weirFree (s : State) (p : Nat) : (weirFree s p).holdings = s.holdings := by
  have hqueue (s : State) (b : Bus) (x : Net) : ({ s with bus := b, net := x } : State).holdings = s.holdings := rfl
  exact (foldl_keeps State.holdings _ _ _ fun _ _ => (holdings_setSteer ..).trans (holdings_setF ..)).trans
    (foldl_keeps State.holdings _ _ s fun _ _ => hqueue ..)

theorem holdings_slotsErased (s : State) (p : Nat) : ((partKeys s p).foldl slotErase s).holdings = s.holdings.dropSlots p := by
  have hfold (l : List Nat) (s : State) :
      (l.foldl slotErase s).holdings = { s.holdings with slots := l.foldl eraseSlot s.holdings.slots } := by
    induction l generalizing s with
    | nil => rfl
    | cons k r ih =>
      rw [List.foldl_cons, ih, List.foldl_cons]
      rfl
  exact hfold ..

/-- The lines, cells, rings, sync blocks, queues and keys of partition `p` are gone. -/
def partUnbound (s : State) (p : Nat) : State :=
  let s := grnDropAll s (fun _ g => g.owner = p)
  let s := (mkeys (fun _ c => c.part = p) s.cells).foldl cellFree s
  let s := (bolSets s p).foldl (fun s i => bolterDisable (bolterDisable s i 0) i 1) s
  let s := weirFree (blocksFree s p) p
  (partKeys s p).foldl slotErase s

/-- The rest of partition `p`, its mills apart: granary slices and ways, its page, and the partition itself. -/
def partPooled (s : State) (p : Nat) : State :=
  let s := { s with
    grn := { s.grn with dedic := s.grn.dedic.filter (fun e => e.2 ≠ p), ways := s.grn.ways.filter (fun e => e.2 ≠ p) }
    rep := { s.rep with partConf := mdel s.rep.partConf p } }
  let s := setW s (reg .sch (1 + p) 0x10) 0
  let s := setW s (reg .sch (1 + p) 0x18) (getW s (reg .sch (1 + p) 0x18) &&& 0xFF)
  let s := setW s (reg .sch (1 + p) 0x20) (getW s (reg .sch (1 + p) 0x20) &&& 1)
  millsMoved (setPart (schPageReset s p) p Part.free)

theorem partFree_eq (s : State) (p : Nat) :
    ∃ mills, partFree s p = partPooled ((setBitsOf 240 mills).foldl millLeaves (partUnbound s p)) p := ⟨_, rfl⟩

theorem holdings_partUnbound (s : State) (p : Nat) :
    (partUnbound s p).holdings = ((s.holdings.dropCells p).dropBlocks p).dropSlots p := by
  have hrings (l : List Nat) (s : State) : (l.foldl (fun s i => bolterDisable (bolterDisable s i 0) i 1) s).holdings = s.holdings :=
    foldl_keeps State.holdings _ l s fun _ _ => (holdings_bolterDisable ..).trans (holdings_bolterDisable ..)
  have hlines : (grnDropAll s (fun _ g => g.owner = p)).holdings = s.holdings := foldl_keeps State.holdings _ _ s holdings_grnDrop
  rw [partUnbound, holdings_slotsErased, holdings_weirFree, holdings_blocksFree, hrings, holdings_cellsFreed, hlines]

theorem holdings_partFree (s : State) (p : Nat) : (partFree s p).holdings =
    (((s.holdings.dropCells p).dropBlocks p).dropSlots p).putPart p Part.free := by
  obtain ⟨mills, hfree⟩ := partFree_eq s p
  have hleft := (foldl_keeps State.holdings _ (setBitsOf 240 mills) _ holdings_millLeaves).trans (holdings_partUnbound s p)
  rw [hfree, partPooled, holdings_millsMoved, holdings_setPart, ← hleft]
  rfl

theorem grn_capClamp (s : State) : (capClamp s).grn = s.grn := by
  have hevent (s : State) (typ val aux16 aux32 : Nat) : (govEvent s typ val aux16 aux32).grn = s.grn := by
    unfold govEvent
    split
    · rfl
    · exact raiseInt_grn ..
  have hdwell (s : State) : (dwellMark s).grn = s.grn := rfl
  unfold capClamp
  dsimp only
  rw [hdwell]
  split
  · rw [hevent, raiseInt_grn, setF_grn]
  · rfl

theorem grn_partPooled (s : State) (p : Nat) :
    (partPooled s p).grn =
      { s.grn with dedic := s.grn.dedic.filter (fun e => e.2 ≠ p), ways := s.grn.ways.filter (fun e => e.2 ≠ p) } := by
  rw [partPooled, millsMoved, grn_capClamp, core_grn (radioRowsUp_core _), setPart_grn]
  rfl

theorem mem_foldl_mdel {α : Type} {m : KMap α} {l : List Nat} {e : Nat × α} (h : e ∈ l.foldl mdel m) : e ∈ m ∧ e.1 ∉ l := by
  induction l generalizing m with
  | nil => exact ⟨h, List.not_mem_nil⟩
  | cons k r ih =>
    obtain ⟨hm, hr⟩ := ih h
    obtain ⟨hm, hk⟩ := List.mem_filter.mp hm
    have hne : e.1 ≠ k := of_decide_eq_true hk
    exact ⟨hm, fun h => (List.mem_cons.mp h).elim hne hr⟩

/-- No cell is left in the name of the partition. -/
theorem mkeys_dropCells (h : Holdings) (p : Nat) : mkeys (fun _ c => c.part = p) (h.dropCells p).cells = [] := by
  rw [mkeys, List.map_eq_nil_iff, List.filter_eq_nil_iff]
  intro e he hp
  obtain ⟨hm, hk⟩ := mem_foldl_mdel he
  exact hk (List.mem_map_of_mem (List.mem_filter.mpr ⟨hm, hp⟩))

theorem mget_foldl_eraseSlot (l : List Nat) (m : KMap KeySlot) (k : Nat) :
    mget KeySlot.empty (l.foldl eraseSlot m) k = if k ∈ l then KeySlot.empty else mget KeySlot.empty m k := by
  induction l generalizing m with
  | nil => rfl
  | cons j r ih =>
    rw [List.foldl_cons, ih, eraseSlot]
    by_cases hj : k = j
    · subst hj
      simp
    · simp [hj, mget_mset_other _ _ _ _ hj]

/-- No key slot is left in the name of the partition: an empty slot is the pool's. -/
theorem owner_dropSlots (h : Holdings) {p : Nat} (hp : p < 32) (k : Nat) : (mget KeySlot.empty (h.dropSlots p).slots k).owner ≠ p := by
  have hempty : KeySlot.empty.owner ≠ p := by
    have : KeySlot.empty.owner = 63 := rfl
    omega
  simp only [Holdings.dropSlots, mget_foldl_eraseSlot]
  split
  next => exact hempty
  next hk =>
    cases hx : mfind h.slots k with
    | none => simpa only [mget, hx] using hempty
    | some x =>
      simp only [mget, hx]
      exact fun ho => hk (mem_mkeys_of_mfind hx (decide_eq_true ho))

theorem value_ne_of_mem_filter {m : KMap Nat} {p : Nat} {e : Nat × Nat} (h : e ∈ m.filter (fun e => e.2 ≠ p)) : e.2 ≠ p :=
  of_decide_eq_true (List.mem_filter.mp h).2

section
variable (s : State) (p : Nat)

theorem parts_partFree : (partFree s p).sched.parts = mset Part.free s.sched.parts p Part.free := by
  rw [← holdings_parts, holdings_partFree]
  rfl

theorem getPart_partFree_same : getPart (partFree s p) p = Part.free := by rw [getPart, parts_partFree, mget_mset_same]

theorem getPart_partFree_other {q : Nat} (h : q ≠ p) : getPart (partFree s p) q = getPart s q := by
  rw [getPart, parts_partFree, mget_mset_other _ _ _ _ h, getPart]

theorem owner_partFree {e : Nat × Nat} (h : e ∈ (partFree s p).sync.owner) : e.2 ≠ p := by
  rw [← holdings_blocks, holdings_partFree] at h
  exact value_ne_of_mem_filter h

theorem slotOwner_partFree (hp : p < 32) (k : Nat) : slotOwner (partFree s p) k ≠ p := by
  rw [slotOwner, ← holdings_slots, holdings_partFree]
  exact owner_dropSlots _ hp k

theorem cells_partFree : mkeys (fun _ c => c.part = p) (partFree s p).cells = [] := by
  rw [← holdings_cells, holdings_partFree]
  exact mkeys_dropCells ..

theorem grn_partFree : (∀ e ∈ (partFree s p).grn.dedic, e.2 ≠ p) ∧ ∀ e ∈ (partFree s p).grn.ways, e.2 ≠ p := by
  obtain ⟨mills, hfree⟩ := partFree_eq s p
  rw [hfree, grn_partPooled]
  exact ⟨fun _ => value_ne_of_mem_filter, fun _ => value_ne_of_mem_filter⟩

/-- A mailbox command other than a LAUNCH is still there. -/
theorem mbx_partFree {c : MbxCmd} (hc : s.sched.mbx = some c) (hop : c.op ≠ 8) : (partFree s p).sched.mbx = some c := by
  have hhad : s.holdings.mailbox = some c := Option.filter_eq_some_iff.mpr ⟨hc, decide_eq_true hop⟩
  have hkept : (partFree s p).holdings.mailbox = some c := by
    rw [holdings_partFree]
    exact hhad
  rw [holdings_mailbox] at hkept
  exact (Option.filter_eq_some_iff.mp hkept).1

end

/-- The mailbox once a teardown of partition `p` is over: a command that asked for it has its result. -/
def tornDown (p : Nat) (m : Option MbxCmd) : Option MbxCmd :=
  m.map (fun c => if c.op = 3 ∧ c.part = p then { c with res := some 0 } else c)

/-- The mailbox holds `m`. -/
def State.withMbx (s : State) (m : Option MbxCmd) : State := { s with sched := { s.sched with mbx := m } }

theorem getPart_withMbx (s : State) (m : Option MbxCmd) (q : Nat) : getPart (s.withMbx m) q = getPart s q := rfl
theorem withMbx_sync (s : State) (m : Option MbxCmd) : (s.withMbx m).sync = s.sync := rfl
theorem withMbx_grn (s : State) (m : Option MbxCmd) : (s.withMbx m).grn = s.grn := rfl
theorem withMbx_mem (s : State) (m : Option MbxCmd) : (s.withMbx m).mem = s.mem := rfl
theorem withMbx_cells (s : State) (m : Option MbxCmd) : (s.withMbx m).cells = s.cells := rfl

theorem teardownDone_of_over {s : State} {p : Nat} (hst : (getPart s p).st = .teardown) (hw : s.sched.workshop = true)
    (hover : teardownOver s p = true) : teardownDone s p = (partFree s p).withMbx (tornDown p (partFree s p).sched.mbx) := by
  have hgo : ¬ ((getPart s p).st ≠ .teardown ∨ (!s.sched.workshop) = true ∨ (!teardownOver s p) = true) := by simp [hst, hw, hover]
  rw [teardownDone, if_neg hgo]
  generalize partFree s p = t
  dsimp only [State.withMbx, tornDown]
  split
  next c hc =>
    split
    next h => simp only [hc, Option.map_some, if_pos h]
    next h =>
      simp only [hc, Option.map_some, if_neg h]
      rw [← hc]
  next hc =>
    simp only [hc, Option.map_none]
    rw [← hc]

/-! ### The statement -/

/-- Settles O34: mills that leave touch no partition, so a resize stores the partition as it was with other mills; the end of a teardown
drops all that is held in the name of the partition, and then the partition. -/
theorem resizesAndTeardownsFinish : Obligations.ResizesAndTeardownsFinish := by
  refine ⟨fun s p z hz hat hback => ⟨_, congrArg done (resizeApply_of_due hz hat hback), ?_⟩, fun s p hst hw hover => ?_⟩
  · rw [getPart_of_holdings (congrArg Holdings.parts (holdings_millsMoved _)), getPart_setPart_same]
  · refine ⟨_, congrArg done (teardownDone_of_over hst hw hover), ?_, fun q hq => ?_, ?_, ?_, ?_, fun k => ?_, ?_, fun hmbx => ?_⟩
    · rw [getPart_settle, getPart_withMbx, getPart_partFree_same]
    · rw [getPart_settle, getPart_withMbx, getPart_partFree_other _ _ hq]
    · rw [settle_sync, withMbx_sync]
      exact fun _ => owner_partFree s p
    · rw [settle_grn, withMbx_grn]
      exact (grn_partFree s p).1
    · rw [settle_grn, withMbx_grn]
      exact (grn_partFree s p).2
    · rw [slotOwner, settle_mem, withMbx_mem]
      exact slotOwner_partFree s p p.isLt k
    · rw [settle_cells, withMbx_cells, cells_partFree]
    · obtain ⟨c, hc, hcp⟩ := Option.map_eq_some_iff.mp hmbx
      obtain ⟨hop, hpart⟩ : c.op = 3 ∧ c.part = p := by simpa using hcp
      rw [settle_sched, mbx_partFree s p hc (by omega)]
      exact congrArg (fun x : MbxCmd => some x.res) (if_pos ⟨hop, hpart⟩)

end Sys2Proof.Machine
end

section
/-! SUPPORT. Slices and partitions that resume (R305, R327): a leaf that leaves FROZEN restarts the idle time of its row, which the governor
keeps (R505), and with no mill to decide for, what follows changes nothing. -/
namespace Sys2Proof.Machine

/-! ### What the scheduler's decisions leave of loans -/

theorem setCtx_lent (s : State) (c : Nat) (x : Ctx) : (setCtx s c x).sched.lent = s.sched.lent := rfl

theorem placeCtx_lent (s : State) (cid site lf : Nat) (st : LeafSt) : (placeCtx s cid site lf st).sched.lent = s.sched.lent := by
  unfold placeCtx
  dsimp only
  split
  · rfl
  · rw [setCtx_lent, setLeaf_sched, wakeRow_sched]

theorem reserveUnits_lent (s : State) (cid : Nat) : ((reserveUnits s cid).getD s).sched.lent = s.sched.lent := by
  unfold reserveUnits
  dsimp only
  split <;> rfl

theorem swapIn_lent (s : State) (cid site lf : Nat) : (swapIn s cid site lf).sched.lent = s.sched.lent := by
  unfold swapIn
  refine (placeCtx_lent ..).trans ?_
  rw [apply_ite State.sched, apply_ite Sched.lent, reserveUnits_lent, setCtx_lent, ite_self]

theorem swapInGrid_lent (s : State) (ln : Nat) : (swapInGrid s ln).sched.lent = s.sched.lent := by
  unfold swapInGrid
  dsimp only
  split
  · split
    · rfl
    · exact foldl_keeps (fun s : State => s.sched.lent) _ _ s fun s c => swapIn_lent ..
  · rfl

theorem decideLeaf_lent (s : State) (site lf : Nat) (want : Option Nat) : (decideLeaf s site lf want).sched.lent = s.sched.lent := by
  have hsplit := congrArg Sched.lent (leaveSplit_sched s site)
  unfold decideLeaf
  dsimp only
  split
  · exact hsplit
  · split
    · exact (swapIn_lent ..).trans hsplit
    · exact (foldl_keeps (fun s : State => s.sched.lent) _ _ _ swapInGrid_lent).trans hsplit

/-! ### The decision for a partition's mills -/

/-- The decision for one mill, where partition `p` runs on it. -/
def decideMill (p : Nat) (s : State) (n : Nat) : State :=
  match millSite s n with
  | some site => if millUser s n = some p then decideLeaf (decideLeaf s site 0 none) site 1 none else s
  | none => s

theorem kickPart_eq (s : State) (p : Nat) : kickPart s p = lendAll ((List.range 240).foldl (decideMill p) s) := rfl

theorem decideMill_keeps (p : Nat) (s : State) (n : Nat) :
    (decideMill p s n).sched.parts = s.sched.parts ∧ (decideMill p s n).sched.lent = s.sched.lent := by
  unfold decideMill
  split
  · split
    · exact ⟨by rw [decideLeaf_parts, decideLeaf_parts], by rw [decideLeaf_lent, decideLeaf_lent]⟩
    · exact ⟨rfl, rfl⟩
  · exact ⟨rfl, rfl⟩

theorem foldl_decideMill_keeps (p : Nat) (l : List Nat) (s : State) :
    (l.foldl (decideMill p) s).sched.parts = s.sched.parts ∧ (l.foldl (decideMill p) s).sched.lent = s.sched.lent :=
  ⟨foldl_keeps (fun s : State => s.sched.parts) _ l s fun s n => (decideMill_keeps p s n).1,
    foldl_keeps (fun s : State => s.sched.lent) _ l s fun s n => (decideMill_keeps p s n).2⟩

theorem kickPart_parts (s : State) (p : Nat) : (kickPart s p).sched.parts = s.sched.parts := by
  rw [kickPart_eq, lendAll_parts, (foldl_decideMill_keeps p _ s).1]

theorem lendAll_of_no_radio {s : State} (h : mkeys (fun _ x => x.desc.radio) s.sched.parts = []) : lendAll s = s := by
  rw [lendAll, h]
  rfl

theorem kickPart_lent {s : State} (p : Nat) (h : mkeys (fun _ x => x.desc.radio) s.sched.parts = []) :
    (kickPart s p).sched.lent = s.sched.lent := by
  obtain ⟨hparts, hlent⟩ := foldl_decideMill_keeps p (List.range 240) s
  rw [kickPart_eq, lendAll_of_no_radio (by rw [hparts, h]), hlent]

/-- No partition of these holds a mill, and none is of the radio class. -/
def Millless (m : KMap Part) : Prop :=
  mkeys (fun _ x => x.desc.radio) m = [] ∧ ∀ n, mkeys (fun _ x => bitAt x.mills n) m = []

theorem kickPart_of_millless {s : State} (p : Nat) (hparts : Millless s.sched.parts) (hlent : s.sched.lent = []) : kickPart s p = s := by
  have huser (n : Nat) : millUser s n = none := by
    rw [millUser, hlent, hparts.2 n]
    rfl
  have hstep (n : Nat) : decideMill p s n = s := by
    unfold decideMill
    rw [huser]
    split <;> rfl
  rw [kickPart_eq, List.foldl_fixed' hstep, lendAll_of_no_radio hparts.1]

/-- A decision that leads to the partitions and loans of a state without mills was made in that state, where it changes nothing: the idle
times of rows stood before it as they stand after it. -/
theorem actAt_of_kickPart {u w : State} {p : Nat} (hparts : (kickPart u p).sched.parts = w.sched.parts)
    (hlent : (kickPart u p).sched.lent = w.sched.lent) (hactAt : (kickPart u p).gov.actAt = w.gov.actAt)
    (hw : Millless w.sched.parts) (hnone : w.sched.lent = []) : u.gov.actAt = w.gov.actAt := by
  have hu : Millless u.sched.parts := by
    rw [← kickPart_parts u p, hparts]
    exact hw
  have hkick : kickPart u p = u := kickPart_of_millless p hu (by rw [← kickPart_lent p hu.1, hlent, hnone])
  rw [← hactAt, hkick]

theorem core_of_settle_eq {s t : State} (h : settle s = settle t) : s.core = t.core := by
  rw [← settle_core s, h, settle_core]

/-! ### A device with one partition, whose one context is FROZEN -/

/-- A compute partition without mills. -/
def milllessPart (st : PartSt) : Part := { Part.free with st := st, desc := { PartDesc.blank with sliceCount := 1 } }

/-- A device that is up, with that partition and its slice 0, whose context stands FROZEN in leaf 0 of site 0. The governor has not noted
the idle time of row 0 yet. -/
def frozenDevice (ps : PartSt) (ss : SliceSt) : State :=
  { setW State.reset (reg .gov 4 0x180) 2 with
    mills := [(0, { Mill.zero with leaf0 := { Leaf.empty with st := .frozen, ctx := some 0 } })]
    sched := { Sched.zero with
      parts := [(0, milllessPart ps)]
      slices := [(0, { Slice.blank with st := ss })]
      ctxs := [(0, { Ctx.blank with place := .leaf 0 0, freezing := true })]
      workshop := true } }

theorem millless_milllessPart (ps : PartSt) : Millless [(0, milllessPart ps)] := by
  refine ⟨rfl, fun n => ?_⟩
  have hbit : bitAt 0 n = false := by simp [bitAt]
  simp [mkeys, milllessPart, Part.free, hbit]

/-! ### RESUME of a slice -/

/-- A slice that resumes, before the scheduler decides. -/
def sliceResumed (s : State) (p n : Nat) : State :=
  let s := setSlice s n { getSlice s n with st := .active }
  sliceDone ((sliceCtxs s n).foldl unfreeze s) p 0

theorem sliceCmd_of_inRange {s : State} {p n : Nat} (act : State → Nat → Nat → State) (hready : pageReady s .sch (1 + p) = true)
    (hst : (getPart s p).st ≠ .free) (hcmd : (getPart s p).sliceCmd = none) (hrange : sliceInRange (getPart s p).desc n = true) :
    sliceCmd s p n act = act s p n := by
  simp [sliceCmd, gated, hready, hst, hcmd, hrange]

theorem sliceResume_of_paused {s : State} {p n : Nat} (hp : (getPart s p).st = .active) (hn : (getSlice s n).st = .paused) :
    sliceResume s p n = kickPart (sliceResumed s p n) p := by
  unfold sliceResume
  dsimp only
  exact if_neg (by simp [hp, hn])

/-- The leaf leaves FROZEN at fantail time 0, and the governor notes it for row 0. -/
theorem sliceResumed_frozenDevice : (sliceResumed (frozenDevice .active .paused) 0 0).gov.actAt = [(0, 0)]
    ∧ Millless (sliceResumed (frozenDevice .active .paused) 0 0).sched.parts
    ∧ (sliceResumed (frozenDevice .active .paused) 0 0).sched.lent = [] := by
  have hparts : (sliceResumed (frozenDevice .active .paused) 0 0).sched.parts = [(0, milllessPart .active)] := by decide
  exact ⟨by decide, hparts ▸ millless_milllessPart .active, by decide⟩

/-- Refutes O29: RESUME of a slice is said to change, before the scheduler decides, the bus, the scheduler and mills only, but a leaf that
leaves FROZEN restarts the idle time of its row, which the governor keeps (R505). Where no partition holds a mill the decision changes
nothing, so every `u` that leads to the same end holds that time. -/
theorem not_sliceCommandsActAndReport : ¬ Obligations.SliceCommandsActAndReport := by
  intro h
  obtain ⟨hactAt, hmills, hlent⟩ := sliceResumed_frozenDevice
  obtain ⟨-, -, -, hresume, -⟩ :=
    h.2.1 (frozenDevice .active .paused) 0 0 (by decide) (by decide) (by decide) (by decide)
  obtain ⟨u, hexec, -, -, -, -, honly⟩ := hresume (by decide)
  have hend : exec (.sliceResume 0 0) (frozenDevice .active .paused) = done (sliceResumed (frozenDevice .active .paused) 0 0) := by
    refine congrArg done ((sliceCmd_of_inRange _ (by decide) (by decide) (by decide) (by decide)).trans ?_)
    rw [← kickPart_of_millless 0 hmills hlent]
    exact sliceResume_of_paused (by decide) (by decide)
  have hsame : settle (kickPart u 0) = settle (sliceResumed (frozenDevice .active .paused) 0 0) :=
    Host.Outcome.next.inj (hexec.symm.trans hend)
  have hsched := core_sched (core_of_settle_eq hsame)
  have hnoted := actAt_of_kickPart (congrArg Sched.parts hsched) (congrArg Sched.lent hsched)
    (core_gov_actAt (core_of_settle_eq hsame)) hmills hlent
  have hkept : u.gov.actAt = [] := congrArg Gov.actAt (honly.2 .gov (by decide))
  rw [hkept, hactAt] at hnoted
  cases hnoted

/-! ### The mailbox (R327, R373) -/

theorem mbxTake_of_free {s : State} (op p : Nat) (act : State → Option Nat × State) (hready : pageReady s .mgt 0 = true)
    (hfree : s.sched.mbx = none) (hw : s.sched.workshop = true) : mbxTake s op p act = (act s).2.withMbx (some ⟨op, p, (act s).1⟩) := by
  simp [mbxTake, gated, hready, hfree, hw, State.withMbx]

theorem partReq_of_accepted {s : State} {op : Nat} {l : List Byte} {code : Nat → Nat} {act : Nat → State → Option Nat × State}
    (hready : pageReady s .mgt 0 = true) (hfree : s.sched.mbx = none) (hw : s.sched.workshop = true) (hp : leAt l 0 1 < 32)
    (hup : devState s = 2) (hconf : mfind s.rep.partConf (leAt l 0 1) = none) (hcode : code (leAt l 0 1) = 0) :
    partReq s op l code act = (act (leAt l 0 1) s).2.withMbx (some ⟨op, leAt l 0 1, (act (leAt l 0 1) s).1⟩) := by
  have hlow : ¬ 31 < leAt l 0 1 := by omega
  rw [partReq, mbxTake_of_free _ _ _ hready hfree hw]
  simp [hlow, hup, hconf, hcode]

theorem withMbx_parts (s : State) (m : Option MbxCmd) : (s.withMbx m).sched.parts = s.sched.parts := rfl
theorem withMbx_lent (s : State) (m : Option MbxCmd) : (s.withMbx m).sched.lent = s.sched.lent := rfl
theorem withMbx_gov (s : State) (m : Option MbxCmd) : (s.withMbx m).gov = s.gov := rfl

/-- Two commands of the mailbox that end in one state agree on partitions, loans and the idle times of rows. -/
theorem agree_of_settle_withMbx {s t : State} {m : Option MbxCmd} (h : settle (s.withMbx m) = settle (t.withMbx m)) :
    s.sched.parts = t.sched.parts ∧ s.sched.lent = t.sched.lent ∧ s.gov.actAt = t.gov.actAt := by
  have hcore := core_of_settle_eq h
  have hsched := core_sched hcore
  have hactAt := core_gov_actAt hcore
  rw [withMbx_gov, withMbx_gov] at hactAt
  refine ⟨?_, ?_, hactAt⟩
  · rw [← withMbx_parts s m, hsched, withMbx_parts]
  · rw [← withMbx_lent s m, hsched, withMbx_lent]

/-- A partition that resumes, before the scheduler decides. -/
def partResumed (s : State) (p : Nat) : State :=
  let s := setPart s p { getPart s p with st := .active }
  (mkeys (fun _ c => c.part = p && !c.killed && (getSlice s c.slice).st = .active) s.sched.ctxs).foldl unfreeze s

theorem partResume_of_frozen {s : State} {l : List Byte} (hready : pageReady s .mgt 0 = true) (hfree : s.sched.mbx = none)
    (hw : s.sched.workshop = true) (hp : leAt l 0 1 < 32) (hup : devState s = 2) (hconf : mfind s.rep.partConf (leAt l 0 1) = none)
    (hst : (getPart s (leAt l 0 1)).st = .frozen) : partResume s l =
      (kickPart (partResumed s (leAt l 0 1)) (leAt l 0 1)).withMbx (some ⟨7, leAt l 0 1, some 0⟩) := by
  rw [partResume, partReq_of_accepted hready hfree hw hp hup hconf, partResumed]
  exact if_pos (.inl hst)

/-- The request for partition 0, all other bytes 0. -/
def requestZero : List Byte := List.replicate 256 0

/-- The leaf leaves FROZEN at fantail time 0, and the governor notes it for row 0. -/
theorem partResumed_frozenDevice : (partResumed (frozenDevice .frozen .active) 0).gov.actAt = [(0, 0)]
    ∧ Millless (partResumed (frozenDevice .frozen .active) 0).sched.parts
    ∧ (partResumed (frozenDevice .frozen .active) 0).sched.lent = [] := by
  have hparts : (partResumed (frozenDevice .frozen .active) 0).sched.parts = [(0, milllessPart .active)] := by decide
  exact ⟨by decide, hparts ▸ millless_milllessPart .active, by decide⟩

/-- Refutes O32: a resume of a partition is said to change, before the scheduler decides, the scheduler and mills only, but as for a slice
the governor notes the leaves that leave FROZEN (R505). -/
theorem not_partitionRequestsChangeTheirPartition : ¬ Obligations.PartitionRequestsChangeTheirPartition := by
  intro h
  have hzero : leAt requestZero 0 1 = 0 := by decide
  obtain ⟨hactAt, hmills, hlent⟩ := partResumed_frozenDevice
  obtain ⟨-, -, hreq⟩ := (h (frozenDevice .frozen .active) requestZero 0 (by decide) (by decide)).1 (by decide)
  obtain ⟨-, -, -, hresume⟩ := hreq hzero.symm (by decide) (by decide) (by decide)
  obtain ⟨u, v, hexec, hv, -, -, honly⟩ := hresume (by decide)
  have hend : exec (.partResume requestZero) (frozenDevice .frozen .active) =
      done ((partResumed (frozenDevice .frozen .active) 0).withMbx (some ⟨7, 0, some 0⟩)) := by
    refine congrArg done ((partResume_of_frozen (by decide) (by decide) (by decide) ?_ (by decide) ?_ ?_).trans ?_) <;> rw [hzero]
    · decide
    · decide
    · decide
    · rw [kickPart_of_millless 0 hmills hlent]
  have hsame : settle (v.withMbx (some ⟨7, 0, some 0⟩)) =
      settle ((partResumed (frozenDevice .frozen .active) 0).withMbx (some ⟨7, 0, some 0⟩)) :=
    Host.Outcome.next.inj (hexec.symm.trans hend)
  obtain ⟨hpartsV, hlentV, hactAtV⟩ := agree_of_settle_withMbx hsame
  have hnoted := actAt_of_kickPart (hv ▸ hpartsV) (hv ▸ hlentV) (hv ▸ hactAtV) hmills hlent
  have hkept : u.gov.actAt = [] := congrArg Gov.actAt (honly.2 .gov (by decide))
  rw [hkept, hactAt] at hnoted
  cases hnoted

end Sys2Proof.Machine
end

section
/-! SUPPORT. Loans (R310): a LEND bit, the reclaim of a lent mill, and its end (R312, R313, R332). -/
namespace Sys2Proof.Machine

/-! ### A write of a LEND bit (R333) -/

theorem onlyIn_setF (s : State) (a lo len v : Nat) : OnlyIn [.bus] s (setF s a lo len v) := onlyIn_setW ..

theorem wordsOnly_setF (s : State) (a lo len v : Nat) : WordsOnly [a] s (setF s a lo len v) := wordsOnly_setW ..

theorem lendBit_putLend (s : State) (r n : Nat) (b : Bool) : lendBit (putLend s r n b) r n = b := by
  rw [lendBit, putLend, getF_setF_same _ _ _ _ _ (by omega)]
  cases b <;> rfl

section
variable {s : State} {r n : Nat} (hready : pageReady s .sch (1 + r) = true) (hst : (getPart s r).st ≠ .free)
  (hradio : (getPart s r).desc.radio = true)
include hready

theorem lendWrite_of_not_held (h : bitAt (getPart s r).mills n = false) (b : Bool) : lendWrite s r n b = s := by
  simp [lendWrite, gated, hready, h]

include hst hradio

theorem lendWrite_of_held (h : bitAt (getPart s r).mills n = true) (b : Bool) : lendWrite s r n b =
    if b then lendMill (putLend s r n b) r n else reclaimMill (putLend s r n b) n := by
  simp [lendWrite, gated, hready, hst, hradio, h]

end

/-! ### The loan and its reclaim -/

/-- Mill `n` is lent to partition `b`. -/
def lentTo (s : State) (n b : Nat) : State := { s with sched := { s.sched with lent := mput s.sched.lent n b, lastLoan := b } }

theorem lendMill_of_taker {s : State} {r n b site : Nat} (hl : lendable s r n = true) (hsite : millSite s n = some site)
    (hb : ((List.range 32).map (fun i => (s.sched.lastLoan + 1 + i) % 32)).find? (loanTaker s) = some b) :
    lendMill s r n = decideLeaf (decideLeaf (lentTo s n b) site 0 none) site 1 none := by
  have hlent : millSite (lentTo s n b) n = some site := hsite
  simp only [lendMill, hl, hb, Bool.not_true, Bool.false_eq_true, if_false]
  rw [← lentTo, hlent]

/-- The freeze of the context in a leaf, as a reclaim requests it. -/
def reclaimLeaf (site : Nat) (s : State) (lf : Nat) : State :=
  match (getLeaf s site lf).ctx with
  | some c => freezeCtx s c 4
  | none => s

/-- The reclaim of mill `n` is noted, before any freeze. -/
def reclaimNoted (s : State) (n : Nat) : State :=
  { s with sched := { s.sched with reclaims := mput s.sched.reclaims n (nowNs s) } }

theorem reclaimMill_of_lent {s : State} {n b site : Nat} (hl : mfind s.sched.lent n = some b) (hr : mfind s.sched.reclaims n = none)
    (hsite : millSite s n = some site) : reclaimMill s n = reclaimLeaf site (reclaimLeaf site (reclaimNoted s n) 0) 1 := by
  simp only [reclaimMill, hl, hr, hsite]
  rfl

/-! ### Requests of freezes -/

/-- The freeze of context `k` is requested, for the reason `w` or a more binding one (R323). -/
def Ctx.asked (c : Ctx) (w : Nat) : Prop := c.freezing = true ∧ w ≤ c.freezeWhy

/-- A request for a context in a leaf that is not torn down marks the context; for any other it does nothing. -/
theorem freezeCtx_cases (s : State) (cid w : Nat) :
    (freezeCtx s cid w = s ∧ ∀ m l : Nat, (getCtx s cid).place = .leaf m l → (getCtx s cid).killed = true)
      ∨ ∃ x : Ctx, freezeCtx s cid w = setCtx s cid x ∧ x.asked w ∧ x.place = (getCtx s cid).place
        ∧ x.killed = (getCtx s cid).killed := by
  unfold freezeCtx
  dsimp only
  split
  next hp => exact .inl ⟨rfl, fun m l h => by rw [hp] at h; cases h⟩
  next =>
    split
    next hk => exact .inl ⟨rfl, fun _ _ _ => hk⟩
    next => exact .inr ⟨_, rfl, ⟨rfl, le_max_left ..⟩, rfl, rfl⟩

/-- Of the scheduler only contexts change, and of those neither the place nor the teardown. -/
structure FreezeRequests (s t : State) : Prop where
  frame : OnlyIn [.sched] s t
  sched : t.sched = { s.sched with ctxs := t.sched.ctxs }
  place : ∀ k, (getCtx t k).place = (getCtx s k).place
  killed : ∀ k, (getCtx t k).killed = (getCtx s k).killed

namespace FreezeRequests

theorem refl (s : State) : FreezeRequests s s := ⟨onlyIn_refl .., rfl, fun _ => rfl, fun _ => rfl⟩

theorem trans {s t u : State} (h : FreezeRequests s t) (g : FreezeRequests t u) : FreezeRequests s u :=
  ⟨onlyIn_trans h.frame g.frame, by rw [g.sched, h.sched], fun k => (g.place k).trans (h.place k), fun k => (g.killed k).trans (h.killed k)⟩

theorem freezeCtx (s : State) (cid w : Nat) : FreezeRequests s (freezeCtx s cid w) := by
  obtain ⟨h, -⟩ | ⟨x, h, -, hp, hk⟩ := freezeCtx_cases s cid w
  · rw [h]
    exact refl s
  · rw [h]
    refine ⟨onlyIn_setCtx .., rfl, fun k => ?_, fun k => ?_⟩ <;> by_cases hc : k = cid
    · rw [hc, getCtx_setCtx_same, hp]
    · rw [getCtx_setCtx_other _ _ hc]
    · rw [hc, getCtx_setCtx_same, hk]
    · rw [getCtx_setCtx_other _ _ hc]

end FreezeRequests

theorem asked_freezeCtx_same {s : State} {cid m l : Nat} (w : Nat) (hp : (getCtx s cid).place = .leaf m l)
    (hk : (getCtx s cid).killed = false) : (getCtx (freezeCtx s cid w) cid).asked w := by
  obtain ⟨-, hgone⟩ | ⟨x, h, hasked, -⟩ := freezeCtx_cases s cid w
  · rw [hgone m l hp] at hk
    cases hk
  · rwa [h, getCtx_setCtx_same]

theorem getCtx_freezeCtx_other (s : State) {cid k : Nat} (w : Nat) (h : k ≠ cid) : getCtx (freezeCtx s cid w) k = getCtx s k := by
  obtain ⟨hs, -⟩ | ⟨x, hs, -⟩ := freezeCtx_cases s cid w <;> rw [hs]
  exact getCtx_setCtx_other _ _ h

/-- A request stands whatever is requested next, for a reason at least as binding. -/
theorem asked_freezeCtx {s : State} {k w : Nat} (cid : Nat) (h : (getCtx s k).asked w) : (getCtx (freezeCtx s cid w) k).asked w := by
  obtain ⟨hs, -⟩ | ⟨x, hs, hasked, -⟩ := freezeCtx_cases s cid w <;> rw [hs]
  · exact h
  · by_cases hk : k = cid
    · rwa [hk, getCtx_setCtx_same]
    · rwa [getCtx_setCtx_other _ _ hk]

/-! ### The freezes of a reclaim (R312) -/

section
variable (site : Nat) (s : State) (lf : Nat)

theorem reclaimLeaf_of_ctx {c : Nat} (h : (getLeaf s site lf).ctx = some c) : reclaimLeaf site s lf = freezeCtx s c 4 := by
  simp only [reclaimLeaf, h]

theorem reclaimLeaf_of_none (h : (getLeaf s site lf).ctx = none) : reclaimLeaf site s lf = s := by
  simp only [reclaimLeaf, h]

theorem reclaimLeaf_requests : FreezeRequests s (reclaimLeaf site s lf) := by
  unfold reclaimLeaf
  split
  · exact .freezeCtx ..
  · exact .refl s

theorem getLeaf_reclaimLeaf (m l : Nat) : getLeaf (reclaimLeaf site s lf) m l = getLeaf s m l :=
  getLeaf_congr ((reclaimLeaf_requests site s lf).frame.2 .mills (by decide)) m l

variable {site s lf} {k : Nat}

theorem getCtx_reclaimLeaf_other (h : (getLeaf s site lf).ctx ≠ some k) : getCtx (reclaimLeaf site s lf) k = getCtx s k := by
  cases hc : (getLeaf s site lf).ctx with
  | none => rw [reclaimLeaf_of_none _ _ _ hc]
  | some c =>
    rw [reclaimLeaf_of_ctx _ _ _ hc]
    exact getCtx_freezeCtx_other _ _ fun e => h (by rw [hc, e])

theorem asked_reclaimLeaf (h : (getCtx s k).asked 4) : (getCtx (reclaimLeaf site s lf) k).asked 4 := by
  unfold reclaimLeaf
  split
  · exact asked_freezeCtx _ h
  · exact h

theorem asked_reclaimLeaf_ctx {m l : Nat} (hc : (getLeaf s site lf).ctx = some k) (hp : (getCtx s k).place = .leaf m l)
    (hk : (getCtx s k).killed = false) : (getCtx (reclaimLeaf site s lf) k).asked 4 := by
  rw [reclaimLeaf_of_ctx _ _ _ hc]
  exact asked_freezeCtx_same 4 hp hk

end

/-- The reclaim of a mill: both leaves' contexts are to freeze, and no other context changes. -/
theorem reclaimLeaves_spec (site : Nat) (s : State) :
    FreezeRequests s (reclaimLeaf site (reclaimLeaf site s 0) 1)
    ∧ (∀ lf k m l : Nat, lf < 2 → (getLeaf s site lf).ctx = some k → (getCtx s k).killed = false → (getCtx s k).place = .leaf m l →
        (getCtx (reclaimLeaf site (reclaimLeaf site s 0) 1) k).asked 4)
    ∧ ∀ k : Nat, (∀ lf < 2, (getLeaf s site lf).ctx ≠ some k) →
        getCtx (reclaimLeaf site (reclaimLeaf site s 0) 1) k = getCtx s k := by
  have hfirst := reclaimLeaf_requests site s 0
  refine ⟨hfirst.trans (reclaimLeaf_requests ..), fun lf k m l hlf hc hk hp => ?_, fun k hk => ?_⟩
  · obtain rfl | rfl : lf = 0 ∨ lf = 1 := by omega
    · exact asked_reclaimLeaf (asked_reclaimLeaf_ctx hc hp hk)
    · refine asked_reclaimLeaf_ctx (m := m) (l := l) ?_ ?_ ?_
      · rw [getLeaf_reclaimLeaf, hc]
      · rw [hfirst.place, hp]
      · rw [hfirst.killed, hk]
  · rw [getCtx_reclaimLeaf_other, getCtx_reclaimLeaf_other (hk 0 (by omega))]
    rw [getLeaf_reclaimLeaf]
    exact hk 1 (by omega)

/-! ### The end of a reclaim (R312, R313) -/

theorem reclaimDone_of_saved {s u : State} {n asked b site r : Nat} (ha : mfind s.sched.reclaims n = some asked)
    (hb : mfind s.sched.lent n = some b) (hsite : millSite s n = some site) (hu : saveLeaves site [0, 1] s = some u)
    (hr : (mkeys (fun _ p => bitAt p.mills n) u.sched.parts).head? = some r) :
    reclaimDone s n = kickPart (settlePart (millBack u r n asked) b) b := by
  simp only [reclaimDone, ha, hb, hsite, hu, hr]

/-- The mill is back: its loan and its reclaim are over. -/
def loanOver (s : State) (n : Nat) : State :=
  { s with sched := { s.sched with lent := mdel s.sched.lent n, reclaims := mdel s.sched.reclaims n } }

/-- The longest reclaim so far (R332). -/
def reclaimTimed (s : State) (clk : Nat) : State :=
  if (getW s (reg .sch 0 0x140)).toNat < clk then setW s (reg .sch 0 0x140) (BitVec.ofNat 32 (min clk 0xFFFFFFFF)) else s

theorem millBack_eq (s : State) (r n asked : Nat) : ∃ clk, millBack s r n asked =
    raiseInt (reclaimTimed (bump64 (loanOver s n) (reg .sch 0 0x138) 1) clk) .sch (1 + r) 2 := ⟨_, rfl⟩

theorem onlyIn_reclaimTimed (s : State) (clk : Nat) : OnlyIn [.bus] s (reclaimTimed s clk) :=
  onlyIn_ite (onlyIn_setW ..) (onlyIn_refl ..)

theorem getD64_reclaimTimed (s : State) (clk : Nat) : getD64 (reclaimTimed s clk) (reg .sch 0 0x138) = getD64 s (reg .sch 0 0x138) := by
  unfold reclaimTimed
  split
  · exact getD64_setW_other _ _ (reg_ne _ _ (by decide)) (reg_ne (x := 0x13C) _ _ (by decide))
  · rfl

theorem getD64_raiseInt_other {s : State} {a i bit : Nat} {b : Block} (ha : a ≠ reg b i 0x20) (hb : a + 4 ≠ reg b i 0x20) :
    getD64 (raiseInt s b i bit) a = getD64 s a := by
  rw [getD64, getW_raiseInt, getW_raiseInt, if_neg ha, if_neg hb, getD64]

theorem millBack_spec (s : State) (r n asked : Nat) :
    (millBack s r n asked).sched = { s.sched with lent := mdel s.sched.lent n, reclaims := mdel s.sched.reclaims n }
    ∧ getD64 (millBack s r n asked) (reg .sch 0 0x138) = getD64 s (reg .sch 0 0x138) + 1
    ∧ bitAt (getW (millBack s r n asked) (reg .sch (1 + r) 0x20)).toNat 2 = true
    ∧ OnlyIn [.sched, .bus] s (millBack s r n asked) := by
  obtain ⟨clk, h⟩ := millBack_eq s r n asked
  have hbus : OnlyIn [.bus] (loanOver s n) (millBack s r n asked) := by
    rw [h]
    exact onlyIn_trans (onlyIn_trans (onlyIn_bump64 ..) (onlyIn_reclaimTimed ..)) (onlyIn_raiseInt ..)
  refine ⟨hbus.2 .sched (by decide), ?_, ?_, onlyIn_trans (onlyIn_mono (onlyIn_sched ..) (by simp)) (onlyIn_mono hbus (by simp))⟩
  · rw [h, getD64_raiseInt_other (reg_ne_of_offset (by decide)) (reg_ne_of_offset (x := 0x13C) (by decide)), getD64_reclaimTimed,
      getD64_bump64_same]
    rfl
  · rw [h]
    exact bitAt_raiseInt _ _ _ (by decide)

/-- Settles O30: a LEND bit is one field of one register, after which the mill is lent or the contexts in its leaves are asked to freeze;
the end of a reclaim is one update of the loans and of the counters of the scheduler's page. -/
theorem loansMoveMillsAndReclaimsBringThemBack : Obligations.LoansMoveMillsAndReclaimsBringThemBack := by
  refine ⟨fun s p n hready hst hradio => ⟨fun hno => ?_, fun hheld => ?_, fun hheld b site hb hr hsite => ?_⟩,
    fun s u n asked b site r ha hb hsite hu hr => ?_⟩
  · -- a mill that the partition does not hold
    exact congrArg done (lendWrite_of_not_held hready hno true)
  · -- LEND
    exact ⟨putLend s p n true, lendBit_putLend .., onlyIn_setF .., wordsOnly_setF ..,
      congrArg done (lendWrite_of_held hready hst hradio hheld true), fun b site hl hsite hb =>
        ⟨lentTo (putLend s p n true) n b, lendMill_of_taker hl hsite hb, rfl, onlyIn_sched ..⟩⟩
  · -- RECLAIM
    obtain ⟨hreq, hasked, hother⟩ := reclaimLeaves_spec site (reclaimNoted (putLend s p n false) n)
    have hbus : OnlyIn [.bus] s (putLend s p n false) := onlyIn_setF ..
    have hwords : WordsOnly [reg .sch (1 + p) (0x140 + 4 * (n / 32))] s (putLend s p n false) := wordsOnly_setF ..
    have hsame : (reclaimLeaf site (reclaimLeaf site (reclaimNoted (putLend s p n false) n) 0) 1).bus = (putLend s p n false).bus :=
      hreq.frame.2 .bus (by decide)
    refine ⟨_, congrArg done ((lendWrite_of_held hready hst hradio hheld false).trans (reclaimMill_of_lent hb hr hsite)), ?_, ?_, ?_,
      fun lf k m l hlf hc hk hp => ?_, fun k hk => ?_, onlyIn_settle ?_, wordsOnly_settle (wordsOnly_trans hwords (wordsOnly_of_bus hsame))⟩
    · rw [lendBit, getF_settle, getF_congr hsame]
      exact lendBit_putLend ..
    · rw [settle_sched, hreq.sched]
      exact mfind_mput_same ..
    · rw [settle_sched, hreq.sched]
      rfl
    · rw [getCtx_settle]
      exact hasked lf k m l hlf hc hk hp
    · rw [getCtx_settle]
      exact hother k hk
    · exact onlyIn_trans (onlyIn_mono hbus (by simp)) (onlyIn_trans (onlyIn_mono (onlyIn_sched ..) (by simp))
        (onlyIn_mono hreq.frame (by simp)))
  · -- RECLAIM_DONE
    obtain ⟨hsched, hcount, hint, honly⟩ := millBack_spec u r n asked
    exact ⟨_, congrArg done (reclaimDone_of_saved ha hb hsite hu hr), hsched, hcount, hint, honly⟩

end Sys2Proof.Machine
end

section
/-! SUPPORT. An import that meets a table conflict (R330, R557): the fault of another partition's context is charged to a slice that the
image has just restored (R314). -/
namespace Sys2Proof.Machine

/-- A device that is up at fantail time 1 ns. Partition 0 holds slices 0 to 7 and has no context; a context of partition 1 and slice 9 has
run in leaf 0 of site 0 since 0 ns. The save area of partition 0 is granule 0, whose two table entries differ: one names partition 0, the
other partition 1. -/
def conflictDevice : State :=
  { setW State.reset (reg .gov 4 0x180) 2 with
    ftl := { Ftl.zero with offset := 2 ^ 32 }
    mem := { Mem.zero with ownA := [(0, 0x40)], ownB := [(0, 0x41)] }
    sec := { Sec.zero with km := some [1] }
    mills := [(0, { Mill.zero with leaf0 := { Leaf.empty with st := .running, ctx := some 0, part := 1, slice := 9 } })]
    sched := { Sched.zero with
      parts := [(0, { Part.free with st := .active, desc := { PartDesc.blank with sliceCount := 8, saveGran := 1 } }),
        (1, { Part.free with st := .active, desc := { PartDesc.blank with sliceBase := 8, sliceCount := 8 } })]
      slices := [(9, { Slice.blank with st := .active, part := 1, pasid := 1, share := 1 })]
      ctxs := [(0, { Ctx.blank with part := 1, slice := 9, place := .leaf 0 0, started := true })]
      workshop := true } }

/-- An image for partition 0 with one saved context, and a slice outside the partition's range: no check of an IMPORT looks at that. -/
def strayImage : Image :=
  { dfp := 0, full := false, desc := { PartDesc.blank with sliceCount := 8, saveGran := 1 }
    slices := [(9, { Slice.blank with st := .active, share := 1 })], ctxs := [(0, Ctx.blank)], objs := [], launches := [], km := [1] }

theorem importCode_strayImage : importCode conflictDevice requestZero (some strayImage) 0 = 0 := by decide

/-- The save of the context looks up granule 0, the conflict faults the context of partition 1, and slice 9 is charged the 1 ns. -/
theorem importAll_strayImage :
    ∃ u, importAll conflictDevice 0 (importPasids requestZero strayImage.slices.length) strayImage = some u ∧ (getSlice u 9).millNs = 1 :=
  Option.map_eq_some_iff.mp (show (importAll conflictDevice 0 (importPasids requestZero strayImage.slices.length) strayImage).map
    (fun u => (getSlice u 9).millNs) = some 1 by decide +kernel)

/-- Refutes O33: an import is said to leave each slice as the image has it, but the contexts of the image are saved after its slices are
restored, and a save can find a table conflict, which faults running contexts of the partitions that the entries name (R557). The slice of
a leaf that stops so is charged, here one that the image names too. -/
theorem not_imagesAndLaunchesGoThroughTheMailbox : ¬ Obligations.ImagesAndLaunchesGoThroughTheMailbox := by
  intro h
  obtain ⟨hreq, -⟩ := (h conflictDevice requestZero 0 (by decide)).1 (by decide) (by decide)
  obtain ⟨-, himport⟩ := hreq (by decide) (by decide) (by decide) (by decide)
  obtain ⟨u, hu, hcharged⟩ := importAll_strayImage
  obtain ⟨t, -, hsched, -, -, hslices, -⟩ := himport strayImage u importCode_strayImage hu
  have hslice := congrArg Slice.millNs (hslices 0 (9, { Slice.blank with st := .active, share := 1 }) rfl (by decide))
  have hsame : (getSlice t 9).millNs = (getSlice u 9).millNs := by rw [getSlice, hsched, getSlice]
  rw [hsame, hcharged] at hslice
  exact absurd hslice (by decide)

end Sys2Proof.Machine
end

section
/-! SUPPORT. What every step leaves behind: the domains and the rows of radio mills as the end of a command brings them up to date (R403, R494,
R502, R503, R508). -/
namespace Sys2Proof.Machine

/-! ### Clock domains -/

theorem getDom_foldl_setDom_other {l : List Nat} {d : Nat} (h : d ∉ l) (s : State) :
    getDom (l.foldl (fun s d => setDom s d (domWant s d)) s) d = getDom s d := by
  induction l generalizing s with
  | nil => rfl
  | cons e l ih =>
    obtain ⟨hne, hl⟩ := List.ne_and_not_mem_of_not_mem_cons h
    rw [List.foldl_cons, ih hl, getDom_setDom_other _ _ hne]

/-- A domain takes the state that its condition asks before the others move: their moves are in no condition. -/
theorem getDom_foldl_setDom {l : List Nat} (hl : l.Nodup) (s : State) {d : Nat} (h : d ∈ l) :
    (getDom (l.foldl (fun s d => setDom s d (domWant s d)) s) d).st = domWant s d := by
  induction l generalizing s with
  | nil => exact absurd h List.not_mem_nil
  | cons e l ih =>
    obtain ⟨he, hl⟩ := List.nodup_cons.mp hl
    rw [List.foldl_cons]
    obtain rfl | h := List.mem_cons.mp h
    · rw [getDom_foldl_setDom_other he, getDom_setDom_same]
    · rw [ih hl _ h, domWant_core (setDom_core ..)]

theorem plainDoms_nodup : plainDoms.Nodup := by decide

theorem domsFollow_domainsFollow (s : State) : DomainsFollow (domsFollow s) := fun d hd =>
  (getDom_foldl_setDom plainDoms_nodup s hd).trans (domWant_core (domsFollow_core s) d).symm

/-! ### Rows of radio mills -/

/-- One row of `radioRowsUp`. -/
def radioRowUp (s : State) (r : Nat) : State :=
  if radioRow s r then
    setRow (if (getRow s r).st = .off then wakeRow s r else s) r { getRow (if (getRow s r).st = .off then wakeRow s r else s) r with opp := 0 }
  else s

theorem radioRowsUp_eq (s : State) : radioRowsUp s = (List.range 16).foldl radioRowUp s := rfl

@[simp] theorem getRow_setRow_same (s : State) (r : Nat) (x : Row) : getRow (setRow s r x) r = x := mget_mset_same ..

theorem getRow_setRow_other (s : State) {r k : Nat} (x : Row) (h : k ≠ r) : getRow (setRow s r x) k = getRow s k :=
  mget_mset_other _ _ _ _ h

theorem getRow_wakeRow_other (s : State) {r k : Nat} (h : k ≠ r) : getRow (wakeRow s r) k = getRow s k := by
  unfold wakeRow
  dsimp only
  split
  · rfl
  · split
    · exact getRow_setRow_other _ _ h
    · exact getRow_setRow_other _ _ h
    · rfl

theorem wakeRow_of_off {s : State} {r : Nat} (hd : devState s ≠ 6) (h : (getRow s r).st = .off) :
    wakeRow s r = setRow s r { (getRow s r).close (nowNs s) with st := .starting, fromOff := true } := by
  simp only [wakeRow, if_neg hd, h]

theorem radioRowUp_core (s : State) (r : Nat) : (radioRowUp s r).core = s.core := by
  unfold radioRowUp
  split
  · rw [setRow_core]
    split
    · exact wakeRow_core s r
    · rfl
  · rfl

theorem getRow_radioRowUp_other (s : State) {r k : Nat} (h : k ≠ r) : getRow (radioRowUp s r) k = getRow s k := by
  unfold radioRowUp
  split
  · rw [getRow_setRow_other _ _ h]
    split
    · exact getRow_wakeRow_other s h
    · rfl
  · rfl

theorem getRow_radioRowUp_same {s : State} {r : Nat} (hd : devState s ≠ 6) (h : radioRow s r = true) :
    (getRow (radioRowUp s r) r).st ≠ .off ∧ (getRow (radioRowUp s r) r).opp = 0 := by
  rw [radioRowUp, if_pos h, getRow_setRow_same]
  by_cases hoff : (getRow s r).st = .off
  · rw [if_pos hoff, wakeRow_of_off hd hoff, getRow_setRow_same]
    exact ⟨by simp, rfl⟩
  · rw [if_neg hoff]
    exact ⟨hoff, rfl⟩

theorem radioRow_core {s t : State} (h : t.core = s.core) (r : Nat) : radioRow t r = radioRow s r := by
  rw [radioRow, core_sched h, radioRow]

theorem devState_core {s t : State} (h : t.core = s.core) : devState t = devState s := getF_congr (core_bus h) ..

theorem getRow_foldl_radioRowUp_other {l : List Nat} {r : Nat} (h : r ∉ l) (s : State) : getRow (l.foldl radioRowUp s) r = getRow s r := by
  induction l generalizing s with
  | nil => rfl
  | cons k l ih =>
    obtain ⟨hne, hl⟩ := List.ne_and_not_mem_of_not_mem_cons h
    rw [List.foldl_cons, ih hl, getRow_radioRowUp_other _ hne]

theorem getRow_foldl_radioRowUp {l : List Nat} (hl : l.Nodup) {s : State} (hd : devState s ≠ 6) {r : Nat} (h : r ∈ l)
    (hr : radioRow s r = true) : (getRow (l.foldl radioRowUp s) r).st ≠ .off ∧ (getRow (l.foldl radioRowUp s) r).opp = 0 := by
  induction l generalizing s with
  | nil => exact absurd h List.not_mem_nil
  | cons k l ih =>
    obtain ⟨hk, hl⟩ := List.nodup_cons.mp hl
    rw [List.foldl_cons]
    obtain rfl | h := List.mem_cons.mp h
    · rw [getRow_foldl_radioRowUp_other hk]
      exact getRow_radioRowUp_same hd hr
    · exact ih hl ((devState_core (radioRowUp_core ..)).trans_ne hd) h ((radioRow_core (radioRowUp_core ..) _).trans hr)

theorem domsFollow_rows (s : State) : (domsFollow s).gov.rows = s.gov.rows :=
  foldl_keeps (fun s => s.gov.rows) _ _ s fun s d => by
    unfold setDom
    dsimp only
    split <;> rfl

/-! ### The end of a command -/

theorem deviceUp_settle (s : State) : deviceUp (settle s) = deviceUp s := by
  simp only [deviceUp, devState_settle]

theorem settle_radioRowsUp (s : State) : RadioRowsUp (settle s) := by
  intro hup r hr hradio
  rw [deviceUp_settle] at hup
  rw [radioRow_core (settle_core s)] at hradio
  have hd : devState s ≠ 6 := fun h => by simp [deviceUp, h] at hup
  have hrow : getRow (settle s) r = getRow (radioRowsUp s) r := by
    rw [settle, if_pos hup, getRow, domsFollow_rows, getRow]
  rw [hrow, radioRowsUp_eq]
  exact getRow_foldl_radioRowUp List.nodup_range hd (List.mem_range.mpr hr) hradio

theorem settle_settled (s : State) : Settled (settle s) := ⟨domsFollow_domainsFollow _, settle_radioRowsUp s⟩

/-- Every command has a meaning, and ends by bringing the domains and the rows up to date. -/
theorem exec_ends (i : Instr) (s : State) : ∃ u, exec i s = done u := by
  cases i <;> exact ⟨_, rfl⟩

theorem step_ends (s : State) : ∃ u, step s = done u := by
  unfold step
  split
  · exact ⟨tick s, rfl⟩
  · exact exec_ends _ _

/-- Settles O59: every step is `done`, after which each domain has taken its state and each row of a radio mill is up. -/
theorem everyStepLeavesDomainsAndRowsAsTheirConditionsAsk : Obligations.EveryStepLeavesDomainsAndRowsAsTheirConditionsAsk := by
  intro s s' h
  obtain ⟨u, hu⟩ := step_ends s
  rw [eq_settle_of_done (hu.symm.trans h)]
  exact settle_settled u

end Sys2Proof.Machine
end

section
/-! SUPPORT. The start sequence: what the start of steps leaves, and one tick of the fantail (R470, R514, R518 to R522). -/
namespace Sys2Proof.Machine

/-! ### `RET` and the masks of a start -/

theorem toNat_setRet (s : State) {lo len : Nat} (v : Nat) (h : lo + len ≤ 64) :
    (getD64 (setRet s lo len v) (bootReg 0x118)).toNat = putBits (getD64 s (bootReg 0x118)).toNat lo len v := by
  rw [setRet, getD64_setD64_same, BitVec.toNat_ofNat, Nat.mod_eq_of_lt (putBits_lt (BitVec.isLt _) h)]

theorem getW_setRet_other (s : State) (lo len v : Nat) {a : Nat} (h : a ≠ bootReg 0x118) (h' : a ≠ bootReg 0x11C) :
    getW (setRet s lo len v) a = getW s a := getW_setD64_other s _ h h'

theorem onlyIn_setD64 (s : State) (a : Nat) (v : DWord) : OnlyIn [.bus] s (setD64 s a v) :=
  onlyIn_trans (onlyIn_setW ..) (onlyIn_setW ..)

theorem onlyIn_setRet (s : State) (lo len v : Nat) : OnlyIn [.bus] s (setRet s lo len v) := onlyIn_setD64 ..

theorem onlyIn_bootMark (s : State) (off i : Nat) : OnlyIn [.bus] s (bootMark s off i) := onlyIn_setD64 ..

/-- An update of the sequencer alone. -/
theorem onlyIn_boot (s : State) (b : Boot) : OnlyIn [.boot] s { s with boot := b } := by
  refine ⟨rfl, fun c hc => ?_⟩
  cases c <;> first | rfl | exact absurd List.mem_cons_self hc

/-- An update of device memory alone. -/
theorem onlyIn_mem (s : State) (m : Mem) : OnlyIn [.mem] s { s with mem := m } := by
  refine ⟨rfl, fun c hc => ?_⟩
  cases c <;> first | rfl | exact absurd List.mem_cons_self hc

theorem bitAt_or_flag (w : DWord) {i : Nat} (h : i < 64) : bitAt (w ||| BitVec.ofNat 64 (2 ^ i)).toNat i = true := by
  have hlt : 2 ^ i < 2 ^ 64 := Nat.pow_lt_pow_right (by omega) h
  rw [bitAt_eq_testBit, BitVec.toNat_or, BitVec.toNat_ofNat, Nat.mod_eq_of_lt hlt]
  simp

theorem bitAt_bootMark (s : State) (off : Nat) {i : Nat} (h : i < 64) :
    bitAt (getD64 (bootMark s off i) (bootReg off)).toNat i = true := by
  rw [bootMark, getD64_setD64_same]
  exact bitAt_or_flag _ h

/-! ### Steps start -/

/-- The words that a step's start writes: `BOOT_STEP` and `RET`. -/
def startWords : List Nat := [bootReg 0x100, bootReg 0x118, bootReg 0x11C]

/-- Steps start: runs are added, `RET` names the last one below bit 32, and step 17 draws a key. -/
structure StartsRuns (s t : State) : Prop where
  frame : OnlyIn [.bus, .boot, .mem] s t
  words : ∀ a, a ∉ startWords → getW t a = getW s a
  ret : ∀ lo len, 32 ≤ lo → bitsAt (getD64 t (bootReg 0x118)).toNat lo len = bitsAt (getD64 s (bootReg 0x118)).toNat lo len
  boot : t.boot = { s.boot with running := t.boot.running, alts := t.boot.alts }
  runs : ∀ k ∈ s.boot.running, k ∈ t.boot.running

namespace StartsRuns

theorem refl (s : State) : StartsRuns s s := ⟨onlyIn_refl .., fun _ _ => rfl, fun _ _ _ => rfl, rfl, fun _ h => h⟩

variable {s t u : State}

theorem trans (h : StartsRuns s t) (k : StartsRuns t u) : StartsRuns s u where
  frame := onlyIn_trans h.frame k.frame
  words a ha := (k.words a ha).trans (h.words a ha)
  ret lo len hlo := (k.ret lo len hlo).trans (h.ret lo len hlo)
  boot := by rw [k.boot, h.boot]
  runs x hx := k.runs x (h.runs x hx)

theorem halted (h : StartsRuns s t) : t.boot.halted = s.boot.halted := by rw [h.boot]

theorem getF (h : StartsRuns s t) {a : Nat} (ha : a ∉ startWords) (lo len : Nat) : getF t a lo len = getF s a lo len := by
  rw [Machine.getF, h.words a ha, Machine.getF]

theorem getD64 (h : StartsRuns s t) {a : Nat} (ha : a ∉ startWords) (ha' : a + 4 ∉ startWords) : getD64 t a = getD64 s a := by
  rw [Machine.getD64, h.words _ ha, h.words _ ha', Machine.getD64]

theorem devState (h : StartsRuns s t) : devState t = devState s := h.getF (by decide) ..

theorem stepDone (h : StartsRuns s t) (i : Nat) : stepDone t i = stepDone s i := by
  rw [Machine.stepDone, h.getD64 (by decide) (by decide), Machine.stepDone]

end StartsRuns

/-- `RET` names the attempt before it begins. -/
def retNames (s : State) (i alt : Nat) : State := setRet (setRet s 16 8 i) 24 2 alt

theorem ret_retNames (s : State) (i alt : Nat) {lo : Nat} (len : Nat) (h : 32 ≤ lo) :
    bitsAt (getD64 (retNames s i alt) (bootReg 0x118)).toNat lo len = bitsAt (getD64 s (bootReg 0x118)).toNat lo len := by
  rw [retNames, toNat_setRet _ _ (by decide), toNat_setRet _ _ (by decide), bitsAt_putBits_above _ _ _ _ _ _ (by omega),
    bitsAt_putBits_above _ _ _ _ _ _ (by omega)]

theorem nowNs_of_ftl {s t : State} (h : t.ftl = s.ftl) : nowNs t = nowNs s := by rw [nowNs, ftlT, h, nowNs, ftlT]

/-- The sequencer once an attempt has begun. -/
def Boot.begun (b : Boot) (i alt tries now : Nat) : Boot :=
  { b with
    running := b.running ++ [⟨i, alt, tries, now⟩]
    alts := if altSteps.contains i then mset 0 b.alts i alt else b.alts }

theorem onlyIn_retNames (s : State) (i alt : Nat) : OnlyIn [.bus] s (retNames s i alt) :=
  onlyIn_trans (onlyIn_setRet ..) (onlyIn_setRet ..)

/-- The state once an attempt has begun, before step 17 draws its key. -/
def runBegun (s : State) (i alt tries : Nat) : State :=
  { retNames s i alt with boot := (retNames s i alt).boot.begun i alt tries (nowNs (retNames s i alt)) }

theorem freshKey63_eq (s : State) : ∃ m : Mem, freshKey63 s = { s with mem := m } := ⟨_, rfl⟩

theorem startRun_eq (s : State) (i alt tries : Nat) :
    startRun s i alt tries = if i = 17 then freshKey63 (runBegun s i alt tries) else runBegun s i alt tries := rfl

theorem startRun_cases (s : State) (i alt tries : Nat) : (startRun s i alt tries).bus = (runBegun s i alt tries).bus
    ∧ (startRun s i alt tries).boot = (runBegun s i alt tries).boot
    ∧ OnlyIn [.mem] (runBegun s i alt tries) (startRun s i alt tries) := by
  rw [startRun_eq]
  split
  · obtain ⟨m, h⟩ := freshKey63_eq (runBegun s i alt tries)
    rw [h]
    exact ⟨rfl, rfl, onlyIn_mem ..⟩
  · exact ⟨rfl, rfl, onlyIn_refl ..⟩

theorem boot_startRun (s : State) (i alt tries : Nat) : (startRun s i alt tries).boot = s.boot.begun i alt tries (nowNs s) :=
  (startRun_cases s i alt tries).2.1.trans (congrArg₂ (fun b now => Boot.begun b i alt tries now)
    ((onlyIn_retNames s i alt).2 .boot (by decide)) (nowNs_of_ftl ((onlyIn_retNames s i alt).2 .ftl (by decide))))

theorem startRun_startsRuns (s : State) (i alt tries : Nat) : StartsRuns s (startRun s i alt tries) := by
  have hboot := boot_startRun s i alt tries
  obtain ⟨hbus, -, hmem⟩ := startRun_cases s i alt tries
  have hbus : (startRun s i alt tries).bus = (retNames s i alt).bus := hbus
  refine ⟨?_, fun a ha => ?_, fun lo len hlo => ?_, by rw [hboot]; rfl, fun k hk => by rw [hboot]; exact List.mem_append_left _ hk⟩
  · exact onlyIn_trans (onlyIn_mono (onlyIn_retNames ..) (by simp))
      (onlyIn_trans (onlyIn_mono (onlyIn_boot (retNames s i alt) _) (by simp)) (onlyIn_mono hmem (by simp)))
  · simp only [startWords, List.mem_cons, List.not_mem_nil, or_false, not_or] at ha
    obtain ⟨-, hlow, hhigh⟩ := ha
    rw [getW_congr hbus, retNames, getW_setRet_other _ _ _ _ hlow hhigh, getW_setRet_other _ _ _ _ hlow hhigh]
  · rw [getD64_congr hbus, ret_retNames s i alt len hlo]

theorem mem_running_startRun {s : State} {i alt tries : Nat} {k : BootRun} :
    k ∈ (startRun s i alt tries).boot.running ↔ k ∈ s.boot.running ∨ k = ⟨i, alt, tries, nowNs s⟩ := by
  rw [boot_startRun]
  simp [Boot.begun]

/-- A run that a step's first attempt begins now. -/
def BootRun.FirstAt (k : BootRun) (now : Nat) : Prop := k.since = now ∧ k.tries = 0

theorem startReady_starts (n : Nat) (s : State) : StartsRuns s (startReady n s)
    ∧ ∀ k ∈ (startReady n s).boot.running, k ∈ s.boot.running ∨ k.FirstAt (nowNs s) := by
  induction n generalizing s with
  | zero => exact ⟨.refl s, fun k hk => .inl hk⟩
  | succ n ih =>
    unfold startReady
    split
    · exact ⟨.refl s, fun k hk => .inl hk⟩
    · split
      · exact ⟨.refl s, fun k hk => .inl hk⟩
      · rename_i i _
        have hrun := startRun_startsRuns s i (startAlt s i) 0
        have hnow : nowNs (startRun s i (startAlt s i) 0) = nowNs s := nowNs_of_ftl (hrun.frame.2 .ftl (by decide))
        obtain ⟨hstarts, hnew⟩ := ih (startRun s i (startAlt s i) 0)
        refine ⟨hrun.trans hstarts, fun k hk => ?_⟩
        obtain hk | hk := hnew k hk
        · obtain hk | rfl := mem_running_startRun.mp hk
          · exact .inl hk
          · exact .inr ⟨rfl, rfl⟩
        · exact .inr (hnow ▸ hk)

theorem startReady_of_not_starting {s : State} (n : Nat) (h : devState s ≠ 1) : startReady n s = s := by
  cases n with
  | zero => rfl
  | succ n => exact if_pos (.inr (.inl h))

theorem bootShow_startsRuns (s : State) : StartsRuns s (bootShow s) := by
  have hw : ∀ a, a ≠ bootReg 0x100 → getW (bootShow s) a = getW s a := fun a ha => getW_setF_other s _ _ _ ha
  refine ⟨onlyIn_mono (onlyIn_setF ..) (by simp), fun a ha => hw a (fun h => ha (h ▸ List.mem_cons_self)), fun lo len _ => ?_, rfl,
    fun _ h => h⟩
  rw [getD64, hw _ (by decide), hw _ (by decide), getD64]

theorem bootMove_startsRuns (s : State) : StartsRuns s (bootMove s) := (startReady_starts 4 s).1.trans (bootShow_startsRuns _)

theorem mem_running_bootMove {s : State} {k : BootRun} (h : k ∈ (bootMove s).boot.running) : k ∈ s.boot.running ∨ k.FirstAt (nowNs s) :=
  (startReady_starts 4 s).2 k h

/-! ### The start itself -/

theorem domsFollow_bus (s : State) : (domsFollow s).bus = s.bus := core_bus (domsFollow_core s)

/-- The state in which the steps of a start become ready. -/
def startBegun (s : State) (full : Bool) : State :=
  let no := bitsAt (getD64 s (bootReg 0x118)).toNat 0 16 + 1
  let u := setW (setD64 { s with boot := { s.boot with
      running := [], halted := false, from_ := nowNs s, prevRet := getD64 s (bootReg 0x118), alts := [], memo := [], logOk := false, memoClr := false } }
    (bootReg 0x118) (BitVec.ofNat 64 (no % 2 ^ 16))) (bootReg 0x124) (BitVec.ofNat 32 no)
  if full then setD64 u (bootReg 0x108) 6 else u

theorem beginStart_eq (s : State) (full : Bool) : beginStart s full = bootMove (domsFollow (setDevState (startBegun s full) 1)) := rfl

theorem onlyIn_startBegun (s : State) (full : Bool) : OnlyIn [.bus, .boot] s (startBegun s full) := by
  have hstart : ∀ (b : Boot) (v : DWord) (w : Word), OnlyIn [.bus, .boot] s (setW (setD64 { s with boot := b } (bootReg 0x118) v) (bootReg 0x124) w) :=
    fun b v w => onlyIn_trans (onlyIn_mono (onlyIn_boot s b) (by simp))
      (onlyIn_mono (onlyIn_trans (onlyIn_setD64 _ (bootReg 0x118) v) (onlyIn_setW _ (bootReg 0x124) w)) (by simp))
  unfold startBegun
  dsimp only
  split
  · exact onlyIn_trans (hstart ..) (onlyIn_mono (onlyIn_setD64 ..) (by simp))
  · exact hstart ..

theorem onlyIn_setDevState (s : State) (v : Nat) : OnlyIn [.bus] s (setDevState s v) := by
  unfold setDevState
  split
  · exact onlyIn_refl ..
  · exact onlyIn_trans (onlyIn_setF ..) (onlyIn_raiseInt ..)

/-- Equal cores: the rows and domains of the governor are in no frame. -/
theorem onlyIn_of_core (l : List Comp) {s t : State} (h : t.core = s.core) : OnlyIn l s t := by
  refine ⟨core_pending h, fun c _ => ?_⟩
  cases c
  case gov => exact congrArg State.gov h
  all_goals simp only [Comp.same, core_freshNo h, core_bus h, core_mills h, core_sync h, core_sched h, core_mem h, core_grn h, core_hif h,
    core_ftl h, core_cells h, core_rep h, core_net h, core_bol h, core_card h, core_boot h, core_sec h]

theorem beginStart_startsRuns (s : State) (full : Bool) :
    StartsRuns (domsFollow (setDevState (startBegun s full) 1)) (beginStart s full) := bootMove_startsRuns _

theorem onlyIn_beginStart (s : State) (full : Bool) : OnlyIn [.bus, .boot, .mem] s (beginStart s full) :=
  onlyIn_trans (onlyIn_mono (onlyIn_startBegun s full) (by simp)) (onlyIn_trans (onlyIn_mono (onlyIn_setDevState ..) (by simp))
    (onlyIn_trans (onlyIn_of_core _ (domsFollow_core _)) (beginStart_startsRuns s full).frame))

theorem devState_beginStart (s : State) (full : Bool) : devState (beginStart s full) = 1 :=
  (beginStart_startsRuns s full).devState.trans ((devState_core (domsFollow_core _)).trans (devState_setDevState _ (by decide)))

/-! ### A tick -/

/-- COUNT rises while the time island is clocked. -/
def counted (s : State) : State :=
  if (getDom s 1).st = 3 then { s with ftl := { s.ftl with count := s.ftl.count + 1 } } else s

theorem counted_cases (s : State) : ∃ c, counted s = { s with ftl := { s.ftl with count := c } }
    ∧ c = if (getDom s 1).st = 3 then s.ftl.count + 1 else s.ftl.count := by
  unfold counted
  split <;> exact ⟨_, rfl, rfl⟩

theorem tick_eq (s : State) : tick s = if devState s = 4 ∧ s.boot.d3 = false then beginStart (counted s) true else bootMove (counted s) := by
  obtain ⟨c, h, -⟩ := counted_cases s
  have hdev : devState (counted s) = devState s := by rw [h]; rfl
  have hd3 : (counted s).boot.d3 = s.boot.d3 := by rw [h]
  rw [← hdev, ← hd3]
  rfl

theorem getW_counted (s : State) (a : Nat) : getW (counted s) a = getW s a := by
  obtain ⟨c, h, -⟩ := counted_cases s
  rw [h]
  rfl

theorem onlyIn_tick (s : State) : OnlyIn [.bus, .boot, .mem] (counted s) (tick s) := by
  rw [tick_eq]
  exact onlyIn_ite (onlyIn_beginStart ..) (bootMove_startsRuns _).frame

/-- Outside a reset or start no step begins, and only BOOT_STEP is shown anew. -/
theorem getW_tick {s : State} (h1 : devState s ≠ 1) (h4 : devState s ≠ 4 ∨ s.boot.d3 = true) {a : Nat} (ha : a ≠ bootReg 0x100) :
    getW (tick s) a = getW s a := by
  have hdev : devState (counted s) ≠ 1 := fun h => h1 (by simpa only [devState, getF, getW_counted] using h)
  rw [tick_eq, if_neg fun h => h4.elim (fun k => k h.1) (fun k => Bool.false_ne_true (h.2.symm.trans k)), bootMove,
    startReady_of_not_starting _ hdev, bootShow, getW_setF_other _ _ _ _ ha, getW_counted]

/-- Settles O58: a command is taken off the queue by definition, and an empty queue is a tick, which counts and lets steps begin. -/
theorem aStepRunsTheCommandAtTheFront : Obligations.AStepRunsTheCommandAtTheFront := by
  refine ⟨fun c s rest => rfl, fun s hs => ⟨settle (tick s), by rw [step, hs]; rfl, ?_, fun h1 h4 a ha => ?_, fun h4 hd3 => ?_, ?_⟩⟩
  · rw [settle_pending, (onlyIn_tick s).1, ← hs]
    obtain ⟨c, h, -⟩ := counted_cases s
    rw [h]
  · exact (getW_settle ..).trans (getW_tick h1 h4 ha)
  · rw [devState_settle, tick_eq, if_pos ⟨h4, hd3⟩]
    exact devState_beginStart ..
  · obtain ⟨c, h, hc⟩ := counted_cases s
    rw [settle_ftl, (onlyIn_tick s).2 .ftl (by decide), h]
    exact hc

end Sys2Proof.Machine
end

section
/-! SUPPORT. Steps of the start that complete or fail, their policies, MEMO_CLR and SVN_COMMIT (R518 to R526, R568, R584). -/
namespace Sys2Proof.Machine

/-! ### What the steps do: no step moves fantail time -/

theorem putWords_ftl (s : State) (a : Nat) (l : List Byte) (n : Nat) : (putWords s a l n).ftl = s.ftl :=
  foldl_keeps State.ftl _ _ s fun _ _ => rfl

theorem drawNonce_ftl (s : State) : (drawNonce s).ftl = s.ftl := foldl_keeps State.ftl _ _ s fun _ _ => rfl

theorem mergeLog_ftl (s : State) : (mergeLog s).ftl = s.ftl := by
  unfold mergeLog
  dsimp only [setRet, setD64_ftl, setW_ftl]
  split <;> rfl

theorem takeRecord_ftl (s : State) (r : CfgRecord) : (takeRecord s r).ftl = s.ftl := rfl

theorem countTry_ftl (s : State) (i : Nat) : (countTry s i).ftl = s.ftl := by
  unfold countTry
  split
  · exact foldl_keeps State.ftl _ _ s fun _ _ => rfl
  · rfl

theorem trained_ftl (s : State) (alt : Nat) : (trained s alt).ftl = s.ftl := rfl

theorem buildCaps_ftl (s : State) : (buildCaps s).ftl = s.ftl := by
  unfold buildCaps
  dsimp only
  rw [setD64_ftl, putWords_ftl]

theorem govEvent_ftl (s : State) (typ val aux16 aux32 : Nat) : (govEvent s typ val aux16 aux32).ftl = s.ftl := by
  unfold govEvent
  split
  · rfl
  · rw [raiseInt_ftl]

theorem capClamp_ftl (s : State) : (capClamp s).ftl = s.ftl := by
  unfold capClamp dwellMark
  dsimp only
  split
  · rw [govEvent_ftl, raiseInt_ftl, setF_ftl]
  · rfl

theorem loadBoard_ftl (s : State) : (loadBoard s).ftl = s.ftl := by
  unfold loadBoard
  split
  · rfl
  · rw [capClamp_ftl, setF_ftl]

theorem lockPages_ftl (s : State) : (lockPages s).ftl = s.ftl := by
  unfold lockPages
  split
  · rfl
  · refine foldl_keeps State.ftl _ _ s fun s p => ?_
    split <;> rfl

theorem setDevState_ftl (s : State) (v : Nat) : (setDevState s v).ftl = s.ftl := (onlyIn_setDevState s v).2 .ftl (by decide)

theorem setRet_ftl (s : State) (lo len v : Nat) : (setRet s lo len v).ftl = s.ftl := setD64_ftl ..

theorem setRet_boot (s : State) (lo len v : Nat) : (setRet s lo len v).boot = s.boot := setD64_boot ..

theorem bootMark_ftl (s : State) (off i : Nat) : (bootMark s off i).ftl = s.ftl := setD64_ftl ..

theorem writeLog_ftl (s : State) (outcome : Nat) : (writeLog s outcome).ftl = s.ftl := rfl

theorem bootReady_ftl (s : State) : (bootReady s).ftl = s.ftl := by
  unfold bootReady
  dsimp only
  rw [setDevState_ftl]
  dsimp only
  rw [setW_ftl, writeLog_ftl, setRet_ftl, bootMark_ftl]

/-- What a step does, if it passes, leaves fantail time. -/
def KeepsFtl (s : State) (x : Option State) : Prop := ∀ u, x = some u → u.ftl = s.ftl

theorem keepsFtl_some {s u : State} (h : u.ftl = s.ftl) : KeepsFtl s (some u) := fun _ hv => Option.some.inj hv ▸ h

theorem keepsFtl_none (s : State) : KeepsFtl s none := fun _ h => nomatch h

theorem keepsFtl_ite {s : State} {p : Prop} [Decidable p] {x y : Option State} (hx : KeepsFtl s x) (hy : KeepsFtl s y) :
    KeepsFtl s (if p then x else y) := by
  split
  · exact hx
  · exact hy

theorem plain_keepsFtl (s : State) (r : BootRun) : KeepsFtl s (stepEffect s r .plain) := by
  unfold stepEffect
  refine keepsFtl_ite (keepsFtl_some ?_) <| keepsFtl_ite (keepsFtl_some (mergeLog_ftl s)) <|
    keepsFtl_ite (keepsFtl_ite (keepsFtl_none s) (keepsFtl_some ?_)) <| keepsFtl_ite (keepsFtl_some rfl) <| keepsFtl_ite (keepsFtl_some rfl) <|
    keepsFtl_ite (keepsFtl_some rfl) <| keepsFtl_ite (keepsFtl_some ?_) <| keepsFtl_ite (keepsFtl_some rfl) <|
    keepsFtl_ite (keepsFtl_some (buildCaps_ftl s)) <| keepsFtl_ite (keepsFtl_some rfl) <| keepsFtl_ite (keepsFtl_some (loadBoard_ftl s)) <|
    keepsFtl_ite (keepsFtl_some (lockPages_ftl s)) <| keepsFtl_ite (keepsFtl_some rfl) <| keepsFtl_ite (keepsFtl_some rfl) <|
    keepsFtl_ite (keepsFtl_some (bootReady_ftl s)) (keepsFtl_some rfl)
  · rw [drawNonce_ftl, setF_ftl]
  · rw [loadFloors, setW_ftl, setW_ftl, setF_ftl]
  · rw [trained_ftl, countTry_ftl]

theorem stepEffect_ftl {s u : State} {r : BootRun} {d : StepData} (h : stepEffect s r d = some u) : u.ftl = s.ftl := by
  cases d with
  | image svn fw ubv dg =>
    rw [← Option.some.inj h]
    simp only [setF_ftl, setW_ftl]
  | identity dg =>
    rw [← Option.some.inj h]
    simp only [setF_ftl, putWords_ftl]
  | record x =>
    obtain ⟨-, h⟩ := Option.ite_none_right_eq_some.mp h
    rw [← Option.some.inj h, takeRecord_ftl]
  | plain => exact plain_keepsFtl s r u h

/-! ### A step completes (R518, R522, R526) -/

theorem step_of_stepRun {s : State} {i : Nat} {r : BootRun} (h : stepRun s i = some r) : r.step = i := by
  have := List.find?_some h
  simpa using this

/-- The state in which a completed step is marked, before others start. -/
def stepMarked (u : State) (i : Nat) : State := domsFollow (bootMark u 0x108 i)

theorem stepComplete_eq {s u : State} {i : Nat} {d : StepData} {r : BootRun} (hr : stepRun s i = some r) (hm : mayComplete s i = true)
    (hd : dataFits i d = true) (hu : stepEffect (endRun s i) r d = some u) : stepComplete s i d = bootMove (stepMarked u i) := by
  simp only [stepComplete, hr, hm, hd, hu, Bool.not_true, Bool.false_eq_true, or_self, if_false]
  rfl

theorem onlyIn_stepMarked (u : State) (i : Nat) : OnlyIn [.bus] u (stepMarked u i) :=
  onlyIn_trans (onlyIn_bootMark ..) (onlyIn_of_core _ (domsFollow_core _))

theorem stepDone_stepMarked (u : State) {i : Nat} (h : i < 64) : stepDone (stepMarked u i) i = true := by
  rw [stepDone, stepMarked, getD64_congr (domsFollow_bus _)]
  exact bitAt_bootMark _ _ h

theorem devState_bootMark (s : State) {off i : Nat} (h : reg .gov 4 0x180 ≠ bootReg off) (h' : reg .gov 4 0x180 ≠ bootReg off + 4) :
    devState (bootMark s off i) = devState s := by
  rw [devState, getF, bootMark, getW_setD64_other _ _ h h', devState, getF]

theorem devState_stepMarked (u : State) (i : Nat) : devState (stepMarked u i) = devState u :=
  (devState_core (domsFollow_core _)).trans (devState_bootMark _ (by decide) (by decide))

/-- Step 40 makes the device READY. -/
theorem devState_of_last_step {s u : State} {r : BootRun} {d : StepData} (hr : r.step = 40) (hd : dataFits 40 d = true)
    (hu : stepEffect s r d = some u) : devState u = 2 := by
  cases d with
  | plain =>
    simp only [stepEffect, hr, Nat.reduceEqDiff, if_false, if_true, Option.some.injEq] at hu
    rw [← hu]
    exact devState_setDevState _ (by decide)
  | _ => simp [dataFits] at hd

/-! ### A step fails (R520, R522) -/

/-- A failure stands recorded: `RET` from bit 32, and the interrupt of MGT page 1. -/
structure KeepsFailure (s t : State) : Prop where
  ret : ∀ lo len, 32 ≤ lo → bitsAt (getD64 t (bootReg 0x118)).toNat lo len = bitsAt (getD64 s (bootReg 0x118)).toNat lo len
  int : getW t (bootReg 0x20) = getW s (bootReg 0x20)

namespace KeepsFailure

variable {s t u : State}

theorem trans (h : KeepsFailure s t) (k : KeepsFailure t u) : KeepsFailure s u :=
  ⟨fun lo len hlo => (k.ret lo len hlo).trans (h.ret lo len hlo), k.int.trans h.int⟩

theorem of_words {l : List Nat} (h : ∀ a, a ∉ l → getW t a = getW s a) (hl : bootReg 0x118 ∉ l) (hh : bootReg 0x11C ∉ l)
    (hi : bootReg 0x20 ∉ l) : KeepsFailure s t := by
  refine ⟨fun lo len _ => ?_, h _ hi⟩
  rw [getD64, h _ hl, h _ (show bootReg 0x118 + 4 ∉ l from hh), getD64]

theorem of_starts (h : StartsRuns s t) : KeepsFailure s t := ⟨h.ret, h.words _ (by decide)⟩

theorem of_bus (h : t.bus = s.bus) : KeepsFailure s t := ⟨fun _ _ _ => by rw [getD64_congr h], getW_congr h _⟩

end KeepsFailure

/-- The state in which a failure is recorded, before the step's policy applies. -/
def failNoted (s : State) (r : BootRun) (kind : Nat) : State :=
  setRet (setRet (setRet (raiseInt (countTry (endRun s r.step) r.step) .mgt 1 1) 32 8 r.step) 40 2 r.alt) 44 2 kind

/-- Another attempt, unless a HALT is in force. -/
def tryAgain (s : State) (i alt tries : Nat) : State := if s.boot.halted then s else startRun s i alt tries

/-- A step marked and counted as done. -/
def stepSkipped (s : State) (i : Nat) (marks : List DtEntry) : State :=
  domsFollow (bootMark (bootMark (setF (marks.foldl (markPart i) s) (reg .mgt 1 0x14) 0 1 1) 0x110 i) 0x108 i)

/-- What a step's policy does. -/
def failPolicy (s : State) (r : BootRun) (marks : List DtEntry) : State :=
  match stepPolicy r.step with
  | .retry n => if r.tries < n then tryAgain s r.step r.alt (r.tries + 1) else haltStart s
  | .alternate m => if r.alt < m then tryAgain s r.step (r.alt + 1) 0 else haltStart s
  | .skip => stepSkipped s r.step marks
  | .halt => haltStart s

theorem stepFails_eq (s : State) (r : BootRun) (kind : Nat) (marks : List DtEntry) :
    stepFails s r kind marks = bootMove (failPolicy (failNoted s r kind) r marks) := rfl

theorem ret_failNoted (s : State) (r : BootRun) (kind : Nat) (hstep : r.step < 256) (hkind : kind < 4) :
    bitsAt (getD64 (failNoted s r kind) (bootReg 0x118)).toNat 32 8 = r.step
    ∧ bitsAt (getD64 (failNoted s r kind) (bootReg 0x118)).toNat 40 2 = r.alt % 4
    ∧ bitsAt (getD64 (failNoted s r kind) (bootReg 0x118)).toNat 44 2 = kind := by
  rw [failNoted, toNat_setRet _ _ (by decide), toNat_setRet _ _ (by decide), toNat_setRet _ _ (by decide)]
  refine ⟨?_, ?_, ?_⟩
  · rw [bitsAt_putBits_below _ _ _ _ _ _ (by decide), bitsAt_putBits_below _ _ _ _ _ _ (by decide), bitsAt_putBits_same]
    exact Nat.mod_eq_of_lt hstep
  · exact (bitsAt_putBits_below _ _ _ _ _ _ (by decide)).trans (bitsAt_putBits_same ..)
  · rw [bitsAt_putBits_same]
    exact Nat.mod_eq_of_lt hkind

theorem int_failNoted (s : State) (r : BootRun) (kind : Nat) : bitAt (getW (failNoted s r kind) (bootReg 0x20)).toNat 1 = true := by
  rw [failNoted, getW_setRet_other _ _ _ _ (by decide) (by decide), getW_setRet_other _ _ _ _ (by decide) (by decide),
    getW_setRet_other _ _ _ _ (by decide) (by decide)]
  exact bitAt_raiseInt _ .mgt 1 (by decide)

theorem countTry_boot (s : State) (i : Nat) : (countTry s i).boot = s.boot := by
  unfold countTry
  split
  · exact foldl_keeps State.boot _ _ s fun _ _ => rfl
  · rfl

theorem halted_failNoted (s : State) (r : BootRun) (kind : Nat) : (failNoted s r kind).boot.halted = s.boot.halted := by
  rw [failNoted, setRet_boot, setRet_boot, setRet_boot, raiseInt_boot, countTry_boot]
  rfl

/-! A HALT. -/

theorem haltStart_of_running {s : State} (h : s.boot.halted = false) :
    (haltStart s).boot.halted = true ∧ devState (haltStart s) = 5 ∧ KeepsFailure s (haltStart s) := by
  have hdev := devState_setDevState { s with boot := { s.boot with halted := true } } (v := 5) (by decide)
  have hboot : (setDevState { s with boot := { s.boot with halted := true } } 5).boot.halted = true :=
    congrArg Boot.halted ((onlyIn_setDevState _ _).2 .boot (by decide))
  have hkeeps : KeepsFailure s (setDevState { s with boot := { s.boot with halted := true } } 5) := by
    unfold setDevState
    split
    · exact .of_bus rfl
    · exact .of_words (l := [reg .gov 4 0x180, reg .gov 4 0x20]) (fun a ha => by
        simp only [List.mem_cons, List.not_mem_nil, or_false, not_or] at ha
        rw [getW_raiseInt, if_neg ha.2, getW_setF_other _ _ _ _ ha.1]
        rfl) (by decide) (by decide) (by decide)
  rw [haltStart, h]
  simp only [Bool.false_eq_true, if_false]
  split
  · exact ⟨hboot, hdev, hkeeps.trans (.of_bus rfl)⟩
  · exact ⟨hboot, hdev, hkeeps⟩

/-! Another attempt. -/

theorem tryAgain_of_running {s : State} (h : s.boot.halted = false) (i alt tries : Nat) :
    tryAgain s i alt tries = startRun s i alt tries := by rw [tryAgain, h]; rfl

theorem running_bootMove_startRun (s : State) (i alt tries : Nat) :
    ∃ k ∈ (bootMove (startRun s i alt tries)).boot.running, k.step = i ∧ k.alt = alt ∧ k.tries = tries :=
  ⟨_, (bootMove_startsRuns _).runs _ (mem_running_startRun.mpr (.inr rfl)), rfl, rfl, rfl⟩

/-! A skip. -/

/-- The words that marks of failed parts may write. -/
def recordWords : List Nat := [reg .rep 1 0x12C, reg .rep 1 0x130, reg .rep 1 0x134, reg .rep 0 0x20]

theorem getW_errRecord (s : State) (b : Block) (inst kind sev part addr detail : Nat) {a : Nat} (h : a ∉ recordWords) :
    getW (errRecord s b inst kind sev part addr detail) a = getW s a := by
  simp only [recordWords, List.mem_cons, List.not_mem_nil, or_false, not_or] at h
  obtain ⟨hlost, hlow, hhigh, hint⟩ := h
  unfold errRecord
  dsimp only
  rw [getW_raiseInt, if_neg hint, bump64, getW_setD64_other _ _ hlow hhigh]
  split
  · exact getW_bump32_other _ _ hlost
  · rfl

theorem getW_markPart (i : Nat) (s : State) (e : DtEntry) {a : Nat} (h : a ∉ recordWords) : getW (markPart i s e) a = getW s a := by
  unfold markPart
  split
  · rfl
  · exact getW_errRecord _ _ _ _ _ _ _ _ h

theorem getW_marks (i : Nat) (marks : List DtEntry) (s : State) {a : Nat} (h : a ∉ recordWords) :
    getW (marks.foldl (markPart i) s) a = getW s a := foldl_keeps (getW · a) _ _ s fun s e => getW_markPart i s e h

theorem stepSkipped_keepsFailure (s : State) (i : Nat) (marks : List DtEntry) : KeepsFailure s (stepSkipped s i marks) :=
  .of_words (l := [reg .mgt 1 0x14, bootReg 0x110, bootReg 0x114, bootReg 0x108, bootReg 0x10C] ++ recordWords) (fun a ha => by
    obtain ⟨ha, hr⟩ := not_or.mp (mt List.mem_append.mpr ha)
    simp only [List.mem_cons, List.not_mem_nil, or_false, not_or] at ha
    obtain ⟨hstat, hmark, hmark', hdone, hdone'⟩ := ha
    rw [stepSkipped, getW_congr (domsFollow_bus _), bootMark, getW_setD64_other _ _ hdone hdone', bootMark, getW_setD64_other _ _ hmark hmark',
      getW_setF_other _ _ _ _ hstat, getW_marks _ _ _ hr]) (by decide) (by decide) (by decide)

theorem stepSkipped_marks (s : State) {i : Nat} (marks : List DtEntry) (h : i < 64) : stepDone (stepSkipped s i marks) i = true
    ∧ bitAt (getD64 (stepSkipped s i marks) (bootReg 0x110)).toNat i = true ∧ getF (stepSkipped s i marks) (bootReg 0x14) 0 1 = 1 := by
  refine ⟨?_, ?_, ?_⟩
  · rw [stepDone, stepSkipped, getD64_congr (domsFollow_bus _)]
    exact bitAt_bootMark _ _ h
  · rw [stepSkipped, getD64_congr (domsFollow_bus _), bootMark, getD64, getW_setD64_other _ _ (by decide) (by decide),
      getW_setD64_other _ _ (by decide) (by decide)]
    exact bitAt_bootMark _ _ h
  · rw [stepSkipped, getF_congr (domsFollow_bus _), getF, bootMark, getW_setD64_other _ _ (by decide) (by decide), bootMark,
      getW_setD64_other _ _ (by decide) (by decide)]
    exact getF_setF_same _ _ 0 1 1 (by decide)

/-- Whatever the policy does, the failure stays recorded. -/
theorem failPolicy_keepsFailure {s : State} (h : s.boot.halted = false) (r : BootRun) (marks : List DtEntry) :
    KeepsFailure s (failPolicy s r marks) := by
  have hagain : ∀ alt tries, KeepsFailure s (tryAgain s r.step alt tries) := fun alt tries => by
    rw [tryAgain_of_running h]
    exact .of_starts (startRun_startsRuns ..)
  obtain ⟨-, -, hhalt⟩ := haltStart_of_running h
  unfold failPolicy
  split
  · split
    · exact hagain ..
    · exact hhalt
  · split
    · exact hagain ..
    · exact hhalt
  · exact stepSkipped_keepsFailure ..
  · exact hhalt

/-- A start that halts stays halted while nothing else begins. -/
theorem bootMove_halted {s : State} (h : s.boot.halted = true ∧ devState s = 5) :
    (bootMove s).boot.halted = true ∧ devState (bootMove s) = 5 :=
  ⟨(bootMove_startsRuns s).halted.trans h.1, (bootMove_startsRuns s).devState.trans h.2⟩

/-! ### SVN_COMMIT (R568, R584) -/

theorem onlyIn_sec (s : State) (x : Sec) : OnlyIn [.sec] s { s with sec := x } := by
  refine ⟨rfl, fun c hc => ?_⟩
  cases c <;> first | rfl | exact absurd List.mem_cons_self hc

/-- The floor record that a commit stores. -/
def committedFloor (s : State) : FloorRec :=
  ⟨max (getW s (reg .sec 0 0x108)).toNat (getW s (reg .sec 0 0x100)).toNat, max (getW s (reg .sec 0 0x10C)).toNat (getW s (reg .sec 0 0x104)).toNat,
    (match heldFloor s with | some f => f.no | none => 0) + 1⟩

theorem committedFloor_lt (s : State) : (committedFloor s).img < 2 ^ 32 ∧ (committedFloor s).cfg < 2 ^ 32 :=
  ⟨max_lt (BitVec.isLt _) (BitVec.isLt _), max_lt (BitVec.isLt _) (BitVec.isLt _)⟩

/-- Both copies take the record, and the registers show its floors. -/
def floorsStored (s : State) (f : FloorRec) : State :=
  setW (setW { s with sec := { s.sec with floorA := some f, floorB := some f } } (reg .sec 0 0x108) (BitVec.ofNat 32 f.img)) (reg .sec 0 0x10C)
    (BitVec.ofNat 32 f.cfg)

theorem raiseFloors_eq (s : State) : raiseFloors s = raiseInt (floorsStored s (committedFloor s)) .sec 0 1 := rfl

theorem svnCommit_during_start {s : State} (h : devState s = 1 ∨ devState s = 4) (v : Nat) : svnCommit s v = raiseErr s .sec 0 8 := if_pos h

theorem svnCommit_keyed {s : State} {v : Nat} (h1 : devState s ≠ 1) (h4 : devState s ≠ 4) (hready : pageReady s .sec 0 = true)
    (hkey : v % 2 ^ 16 = 0x5A3C) (hgo : bitAt v 31 = true) : svnCommit s v = raiseFloors s := by
  rw [svnCommit, if_neg (not_or.mpr ⟨h1, h4⟩), gated, if_pos hready, if_neg (not_not.mpr hkey), if_pos hgo]

theorem onlyIn_floorsStored (s : State) (f : FloorRec) : OnlyIn [.sec, .bus] s (floorsStored s f) :=
  onlyIn_trans (onlyIn_mono (onlyIn_sec s _) (by simp)) (onlyIn_mono (onlyIn_trans (onlyIn_setW _ (reg .sec 0 0x108) _) (onlyIn_setW ..)) (by simp))

/-! ### The statement -/

theorem stepFails_spec {s : State} {i : Nat} {r : BootRun} {kind : Nat} (hi : i < 41) (hr : r.step = i) (hh : s.boot.halted = false)
    (hk : kind < 4) (marks : List DtEntry) :
    bitsAt (getD64 (stepFails s r kind marks) (bootReg 0x118)).toNat 32 8 = i
    ∧ bitsAt (getD64 (stepFails s r kind marks) (bootReg 0x118)).toNat 40 2 = r.alt % 4
    ∧ bitsAt (getD64 (stepFails s r kind marks) (bootReg 0x118)).toNat 44 2 = kind
    ∧ bitAt (getW (stepFails s r kind marks) (bootReg 0x20)).toNat 1 = true := by
  have hn : (failNoted s r kind).boot.halted = false := (halted_failNoted ..).trans hh
  have hkeep : KeepsFailure (failNoted s r kind) (stepFails s r kind marks) :=
    (failPolicy_keepsFailure hn r marks).trans (.of_starts (bootMove_startsRuns _))
  obtain ⟨hstep, halt, hkind⟩ := ret_failNoted s r kind (by omega) hk
  rw [hkeep.ret 32 8 (by decide), hkeep.ret 40 2 (by decide), hkeep.ret 44 2 (by decide), hkeep.int]
  exact ⟨hstep.trans hr, halt, hkind, int_failNoted ..⟩

/-- Settles O54: a step that completes is marked, and a failure is recorded before its policy applies; no step that starts then writes what
either has left. MEMO_CLR and SVN_COMMIT are one update each. -/
theorem startStepsFollowTheirPolicies : Obligations.StartStepsFollowTheirPolicies := by
  refine ⟨fun s u i d r hr hm hd hu => ?_, fun s i marks r c kind hr hh hc => ?_, fun s v hready => ⟨fun hkey hgo => ?_, fun hkey => ?_⟩,
    fun s v => ⟨fun hst => ?_, fun h1 h4 hready hkey hgo => ?_⟩⟩
  · -- STEP_COMPLETE
    have hstarts := bootMove_startsRuns (stepMarked u i)
    have hall : OnlyIn [.bus, .boot, .mem] u (bootMove (stepMarked u i)) :=
      onlyIn_trans (onlyIn_mono (onlyIn_stepMarked ..) (by simp)) hstarts.frame
    have hftl : u.ftl = s.ftl := stepEffect_ftl (s := endRun s i) hu
    have hnow : nowNs (stepMarked u i) = nowNs s :=
      nowNs_of_ftl (((onlyIn_stepMarked u i).2 .ftl (by decide)).trans hftl)
    refine ⟨_, congrArg done (stepComplete_eq hr hm hd hu), ?_, ?_, ?_, ?_, fun h40 => ?_, fun k hk => ?_⟩
    · rw [stepDone, getD64_settle]
      exact (hstarts.stepDone i).trans (stepDone_stepMarked u (by omega))
    · rw [settle_sched]
      exact hall.2 .sched (by decide)
    · rw [settle_card]
      exact hall.2 .card (by decide)
    · rw [settle_sec]
      exact hall.2 .sec (by decide)
    · rw [devState_settle, hstarts.devState, devState_stepMarked]
      exact devState_of_last_step ((step_of_stepRun hr).trans h40) (h40 ▸ hd) hu
    · rw [settle_boot] at hk
      obtain hk | hk := mem_running_bootMove hk
      · exact .inl ((congrArg Boot.running ((onlyIn_stepMarked u i).2 .boot (by decide))) ▸ hk)
      · exact .inr (hnow ▸ hk)
  · -- STEP_ERROR, STEP_LIMIT
    have hstep := step_of_stepRun hr
    have hexec : exec c s = .next (settle (stepFails s r kind marks)) := by
      obtain ⟨rfl, rfl⟩ | ⟨rfl, rfl, hlim⟩ := hc
      · exact congrArg done (by simp only [hr])
      · exact congrArg done (by simp only [stepLimited, hr, hlim, if_true])
    have hk : kind < 4 := by obtain ⟨-, rfl⟩ | ⟨-, rfl, -⟩ := hc <;> decide
    have hn : (failNoted s r kind).boot.halted = false := (halted_failNoted ..).trans hh
    obtain ⟨hret, halt, hkind, hint⟩ := stepFails_spec i.isLt hstep hh hk marks
    have hhalts : failPolicy (failNoted s r kind) r marks = haltStart (failNoted s r kind) →
        (settle (stepFails s r kind marks)).boot.halted = true ∧ devState (settle (stepFails s r kind marks)) = 5 := fun hp => by
      obtain ⟨hhalted, hdev, -⟩ := haltStart_of_running hn
      rw [settle_boot, devState_settle, stepFails_eq, hp]
      exact bootMove_halted ⟨hhalted, hdev⟩
    have hagain : ∀ alt tries, failPolicy (failNoted s r kind) r marks = tryAgain (failNoted s r kind) r.step alt tries →
        ∃ k ∈ (settle (stepFails s r kind marks)).boot.running, k.step = i ∧ k.alt = alt ∧ k.tries = tries := fun alt tries hp => by
      rw [settle_boot, stepFails_eq, hp, tryAgain_of_running hn, ← hstep]
      exact running_bootMove_startRun ..
    have hpol : ∀ p, stepPolicy i = p → stepPolicy r.step = p := fun p hp => hstep ▸ hp
    refine ⟨_, hexec, ?_, ?_, ?_, ?_, fun n hp hlt => hagain _ _ ?_, fun n hp hle => hhalts ?_, fun n hp hlt => hagain _ _ ?_,
      fun n hp hle => hhalts ?_, fun hp => ?_, fun hp => hhalts ?_⟩
    · rw [getD64_settle]
      exact hret
    · rw [getD64_settle]
      exact halt
    · rw [getD64_settle]
      exact hkind
    · rw [getW_settle]
      exact hint
    · simp only [failPolicy, hpol _ hp, if_pos hlt]
    · simp only [failPolicy, hpol _ hp, if_neg (Nat.not_lt.mpr hle)]
    · simp only [failPolicy, hpol _ hp, if_pos hlt]
    · simp only [failPolicy, hpol _ hp, if_neg (Nat.not_lt.mpr hle)]
    · have hskip : failPolicy (failNoted s r kind) r marks = stepSkipped (failNoted s r kind) i marks := by
        simp only [failPolicy, hstep, hp]
      obtain ⟨hdone, hmark, hstat⟩ := stepSkipped_marks (failNoted s r kind) (i := i) marks (by omega)
      have hstarts := bootMove_startsRuns (stepSkipped (failNoted s r kind) i marks)
      rw [stepDone, getD64_settle, getD64_settle, getF_settle, stepFails_eq, hskip]
      exact ⟨(hstarts.stepDone i).trans hdone, (congrArg (fun w : DWord => bitAt w.toNat i) (hstarts.getD64 (by decide) (by decide))).trans hmark,
        (hstarts.getF (by decide) ..).trans hstat⟩
    · simp only [failPolicy, hpol _ hp]
  · -- MEMO_CLR with its key
    have h : memoClear s v.toNat = { s with boot := { s.boot with memoClr := true, hdrMemo := [] } } := by
      rw [memoClear, gated, if_pos hready, if_neg (not_not.mpr hkey), if_pos hgo]
    refine ⟨_, congrArg done h, settle_boot _, onlyIn_settle (onlyIn_boot ..)⟩
  · -- MEMO_CLR without
    have h : memoClear s v.toNat = raiseErr s .mgt 1 0 := by
      rw [memoClear, gated, if_pos hready, if_pos hkey]
      rfl
    exact ⟨_, congrArg done h, by rw [settle_boot, raiseErr_boot], (getW_settle ..).trans (getW_raiseErr_same ..),
      onlyIn_settle (onlyIn_raiseErr ..)⟩
  · -- SVN_COMMIT during a start
    exact ⟨_, congrArg done (svnCommit_during_start hst v.toNat), (getW_settle ..).trans (getW_raiseErr_same ..), onlyIn_settle (onlyIn_raiseErr ..)⟩
  · -- SVN_COMMIT
    obtain ⟨himg, hcfg⟩ := committedFloor_lt s
    refine ⟨_, committedFloor s, congrArg done ((svnCommit_keyed h1 h4 hready hkey hgo).trans (raiseFloors_eq s)), ?_, rfl, rfl,
      fun g hg => by simp only [committedFloor, hg], ?_, ?_, ?_, onlyIn_settle ?_⟩
    · rw [settle_sec, raiseInt_sec]
      rfl
    · rw [getW_settle, getW_raiseInt, if_neg (by decide), floorsStored, getW_setW_other _ _ (by decide), getW_setW_same, BitVec.toNat_ofNat,
        Nat.mod_eq_of_lt himg]
    · rw [getW_settle, getW_raiseInt, if_neg (by decide), floorsStored, getW_setW_same, BitVec.toNat_ofNat, Nat.mod_eq_of_lt hcfg]
    · rw [getW_settle]
      exact bitAt_raiseInt _ .sec 0 (by decide)
    · exact onlyIn_trans (onlyIn_floorsStored ..) (onlyIn_mono (onlyIn_raiseInt ..) (by simp))

end Sys2Proof.Machine
end

section
/-! SUPPORT. Reset levels (R510 to R515), supply monitors (R595), and what the I3C ports answer (R527, R591). -/
namespace Sys2Proof.Machine

/-! ### What a full reset keeps (R513) -/

/-- A map whose keys are filtered. -/
theorem mfind_filter_keys {α : Type} (p : Nat → Bool) (m : KMap α) (k : Nat) :
    mfind (m.filter (fun e => p e.1)) k = if p k then mfind m k else none := by
  induction m with
  | nil => simp
  | cons e r ih =>
    obtain ⟨j, v⟩ := e
    by_cases hj : j = k
    · subst hj
      cases hp : p j <;> simp [List.filter, hp, mfind, ih]
    · cases hp : p j <;> simp [List.filter, hp, mfind, hj, ih]

/-- Every row is OFF from now on. -/
def rowsOff (s : State) (now : Nat) : State := (List.range 16).foldl (fun x r => setRow x r { Row.blank with since := now }) s

theorem rowsOff_core (s : State) (now : Nat) : (rowsOff s now).core = s.core := foldl_keeps State.core _ _ s fun _ _ => rfl

theorem getRow_foldl_setRow {l : List Nat} {r : Nat} (x : Row) (h : r ∈ l) (s : State) :
    getRow (l.foldl (fun s r => setRow s r x) s) r = x := by
  induction l generalizing s with
  | nil => exact absurd h List.not_mem_nil
  | cons k l ih =>
    rw [List.foldl_cons]
    by_cases hl : r ∈ l
    · exact ih hl _
    · have hk : r = k := (List.mem_cons.mp h).resolve_right hl
      have hother : ∀ (l : List Nat) (s : State), r ∉ l → getRow (l.foldl (fun s r => setRow s r x) s) r = getRow s r := by
        intro l
        induction l with
        | nil => exact fun _ _ => rfl
        | cons j l ih =>
          intro s hj
          obtain ⟨hne, hl⟩ := List.ne_and_not_mem_of_not_mem_cons hj
          rw [List.foldl_cons, ih _ hl, getRow_setRow_other _ _ hne]
      rw [hother l _ hl, hk, getRow_setRow_same]

theorem getRow_rowsOff (s : State) (now : Nat) {r : Nat} (h : r < 16) : (getRow (rowsOff s now) r).st = .off := by
  rw [rowsOff, getRow_foldl_setRow _ (List.mem_range.mpr h)]
  rfl

/-- A full reset of the block, but for the rows. -/
def fullBase (s : State) : State :=
  { coldState s with
    bus := { s.bus with words := s.bus.words.filter (fun e => keptWord e.1), latch := [], hold := [] }
    hif := { (coldState s).hif with linkUp := s.hif.linkUp, ras := s.hif.ras }
    ftl := { (coldState s).ftl with
      count := s.ftl.count, rate := s.ftl.rate, offset := s.ftl.offset, servos := s.ftl.servos, slewing := s.ftl.slewing
      refLost := s.ftl.refLost }
    rep := { (coldState s).rep with recs := s.rep.recs, nextSeq := s.rep.nextSeq, ce := s.rep.ce, least := s.rep.least }
    gov := { Gov.zero with doms := [(0, ⟨3, false, nowNs s, 0⟩)] }
    boot := { (coldState s).boot with
      aoFresh := false, d3 := s.boot.d3, pwrgdAt := s.boot.pwrgdAt, perstAt := s.boot.perstAt, cardReleased := s.boot.cardReleased } }

theorem fullState_eq (s : State) : fullState s = rowsOff (fullBase s) (nowNs s) := rfl

theorem getW_fullState_kept (s : State) {a : Nat} (h : keptWord a = true) : getW (fullState s) a = getW s a := by
  have hbus : (fullState s).bus = (fullBase s).bus := core_bus (rowsOff_core ..)
  have hfind : mfind (s.bus.words.filter (fun e => keptWord e.1)) a = mfind s.bus.words a := by rw [mfind_filter_keys, if_pos h]
  rw [getW_congr hbus, getW, getW, mget, mget, ← hfind]
  rfl

/-! ### A full reset proceeds (R512, R514) -/

/-- The block after a full reset, before the causes are set. -/
def resetBlock (s : State) (link : Bool) : State := if link then linkReset (fullState (setDevState s 4)) else fullState (setDevState s 4)

/-- Cause, count and DEV_STATE of a full reset. -/
def resetNoted (s : State) (cause : Nat) : State :=
  setF (bump32 (setW s (reg .gov 4 0x188) (BitVec.ofNat 32 cause)) (reg .gov 4 0x18C) 1) (reg .gov 4 0x180) 0 3 4

/-- D3hot holds the start, or not. -/
def heldD3 (s : State) (hold : Bool) : State := { s with boot := { s.boot with d3 := hold } }

theorem fullReset_eq (s : State) (cause row : Nat) (link hold : Bool) :
    fullReset s cause row link hold = heldD3 (resetNoted (resetBlock s link) (cause + row * 2 ^ 8)) hold := rfl

theorem onlyIn_resetNoted (s : State) (cause : Nat) : OnlyIn [.bus] s (resetNoted s cause) :=
  onlyIn_trans (onlyIn_trans (onlyIn_setW ..) (onlyIn_bump32 ..)) (onlyIn_setF ..)

theorem getW_resetNoted_cause (s : State) (cause : Nat) : getW (resetNoted s cause) (reg .gov 4 0x188) = BitVec.ofNat 32 cause := by
  rw [resetNoted, getW_setF_other _ _ _ _ (by decide), getW_bump32_other _ _ (by decide), getW_setW_same]

theorem getW_resetNoted_count (s : State) (cause : Nat) :
    getW (resetNoted s cause) (reg .gov 4 0x18C) = satAdd32 (getW s (reg .gov 4 0x18C)) 1 := by
  rw [resetNoted, getW_setF_other _ _ _ _ (by decide), getW_bump32_same, getW_setW_other _ _ (by decide)]

theorem devState_resetNoted (s : State) (cause : Nat) : devState (resetNoted s cause) = 4 := getF_setF_same _ _ 0 3 4 (by decide)

/-- What a reset of the block leaves. -/
structure ResetOf (s t : State) : Prop where
  pending : t.pending = s.pending
  sched : t.sched = State.reset.sched
  sync : t.sync = State.reset.sync
  cells : t.cells = []
  mem : t.mem.cells = s.mem.cells
  log : t.boot.log = s.boot.log
  floorA : t.sec.floorA = s.sec.floorA

theorem coldState_resetOf (s : State) : ResetOf s (coldState s) := ⟨rfl, rfl, rfl, rfl, rfl, rfl, rfl⟩

theorem fullBase_resetOf (s : State) : ResetOf s (fullBase s) := ⟨rfl, rfl, rfl, rfl, rfl, rfl, rfl⟩

theorem ResetOf.of_core {s t u : State} (h : ResetOf s t) (hc : u.core = t.core) : ResetOf s u where
  pending := (core_pending hc).trans h.pending
  sched := (core_sched hc).trans h.sched
  sync := (core_sync hc).trans h.sync
  cells := (core_cells hc).trans h.cells
  mem := by rw [core_mem hc, h.mem]
  log := by rw [core_boot hc, h.log]
  floorA := by rw [core_sec hc, h.floorA]

/-- Nothing that a reset keeps or clears is in a frame of registers. -/
theorem ResetOf.of_frame {s t u : State} (h : ResetOf s t) (ho : OnlyIn [.bus] t u) : ResetOf s u where
  pending := ho.1.trans h.pending
  sched := (ho.2 .sched (by decide)).trans h.sched
  sync := (ho.2 .sync (by decide)).trans h.sync
  cells := (ho.2 .cells (by decide)).trans h.cells
  mem := (congrArg Mem.cells (ho.2 .mem (by decide))).trans h.mem
  log := (congrArg Boot.log (ho.2 .boot (by decide))).trans h.log
  floorA := (congrArg Sec.floorA (ho.2 .sec (by decide))).trans h.floorA

theorem ResetOf.from_frame {s t u : State} (h : ResetOf t u) (ho : OnlyIn [.bus] s t) : ResetOf s u where
  pending := h.pending.trans ho.1
  sched := h.sched
  sync := h.sync
  cells := h.cells
  mem := h.mem.trans (congrArg Mem.cells (ho.2 .mem (by decide)))
  log := h.log.trans (congrArg Boot.log (ho.2 .boot (by decide)))
  floorA := h.floorA.trans (congrArg Sec.floorA (ho.2 .sec (by decide)))

/-- What a full reset keeps beside. -/
structure FullResetOf (s t : State) : Prop extends ResetOf s t where
  rows : ∀ k, k < 16 → (getRow t k).st = .off
  count : t.ftl.count = s.ftl.count
  recs : t.rep.recs = s.rep.recs

theorem fullState_resetOf (s : State) : FullResetOf s (fullState s) where
  toResetOf := (fullBase_resetOf s).of_core (rowsOff_core ..)
  rows k hk := getRow_rowsOff _ _ hk
  count := by rw [fullState_eq, core_ftl (rowsOff_core ..)]; rfl
  recs := by rw [fullState_eq, core_rep (rowsOff_core ..)]; rfl

theorem linkReset_of_full {s t : State} (h : FullResetOf s t) : FullResetOf s (linkReset t) where
  toResetOf := ⟨h.pending, h.sched, h.sync, h.cells, h.mem, h.log, h.floorA⟩
  rows := h.rows
  count := h.count
  recs := h.recs

theorem resetBlock_resetOf (s : State) (link : Bool) : FullResetOf s (resetBlock s link) := by
  have hdev : OnlyIn [.bus] s (setDevState s 4) := onlyIn_setDevState s 4
  have hfull := fullState_resetOf (setDevState s 4)
  have h : FullResetOf s (fullState (setDevState s 4)) :=
    { toResetOf := hfull.toResetOf.from_frame hdev
      rows := hfull.rows
      count := hfull.count.trans (congrArg Ftl.count (hdev.2 .ftl (by decide)))
      recs := hfull.recs.trans (congrArg Rep.recs (hdev.2 .rep (by decide))) }
  unfold resetBlock
  split
  · exact linkReset_of_full h
  · exact h

theorem getRow_resetNoted (s : State) (cause r : Nat) : getRow (resetNoted s cause) r = getRow s r := by
  rw [getRow, resetNoted, setF_gov, bump32_gov, setW_gov, getRow]

theorem getW_linkReset (s : State) (a : Nat) : getW (linkReset s) a = getW s a := rfl

theorem getW_resetBlock (s : State) (link : Bool) {a : Nat} (h : keptWord a = true) :
    getW (resetBlock s link) a = getW (setDevState s 4) a := by
  unfold resetBlock
  split
  · rw [getW_linkReset, getW_fullState_kept _ h]
  · exact getW_fullState_kept _ h

theorem getW_setDevState_other (s : State) (v : Nat) {a : Nat} (h : a ≠ reg .gov 4 0x180) (h' : a ≠ reg .gov 4 0x20) :
    getW (setDevState s v) a = getW s a := by
  unfold setDevState
  split
  · rfl
  · rw [getW_raiseInt, if_neg h', getW_setF_other _ _ _ _ h]

theorem FullResetOf.heldD3 {s t : State} (h : FullResetOf s t) (hold : Bool) : FullResetOf s (heldD3 t hold) where
  toResetOf := ⟨h.pending, h.sched, h.sync, h.cells, h.mem, h.log, h.floorA⟩
  rows := h.rows
  count := h.count
  recs := h.recs

theorem getW_heldD3 (s : State) (hold : Bool) (a : Nat) : getW (heldD3 s hold) a = getW s a := rfl

theorem devState_heldD3 (s : State) (hold : Bool) : devState (heldD3 s hold) = devState s := rfl

/-- A full reset, whatever raised it. -/
theorem fullReset_spec (s : State) (cause row : Nat) (link hold : Bool) :
    FullResetOf s (fullReset s cause row link hold) ∧ (fullReset s cause row link hold).boot.d3 = hold
    ∧ devState (fullReset s cause row link hold) = 4
    ∧ getW (fullReset s cause row link hold) (reg .gov 4 0x188) = BitVec.ofNat 32 (cause + row * 2 ^ 8)
    ∧ getW (fullReset s cause row link hold) (reg .gov 4 0x18C) = satAdd32 (getW s (reg .gov 4 0x18C)) 1 := by
  have hblock := resetBlock_resetOf s link
  have hnoted := onlyIn_resetNoted (resetBlock s link) (cause + row * 2 ^ 8)
  have hreset := hblock.toResetOf.of_frame hnoted
  have hfull : FullResetOf s (resetNoted (resetBlock s link) (cause + row * 2 ^ 8)) :=
    { toResetOf := hreset
      rows := fun k hk => (congrArg Row.st (getRow_resetNoted ..)).trans (hblock.rows k hk)
      count := (congrArg Ftl.count (hnoted.2 .ftl (by decide))).trans hblock.count
      recs := (congrArg Rep.recs (hnoted.2 .rep (by decide))).trans hblock.recs }
  rw [fullReset_eq, getW_heldD3, getW_heldD3, devState_heldD3, getW_resetNoted_cause, getW_resetNoted_count, getW_resetBlock _ _ (by decide),
    getW_setDevState_other _ _ (by decide) (by decide)]
  exact ⟨hfull.heldD3 hold, rfl, devState_resetNoted .., rfl, rfl⟩

theorem trigger_proceeds {s : State} (hao : s.boot.aoOn = true) (h1 : devState s ≠ 1) (h4 : devState s ≠ 4) (h6 : devState s ≠ 6)
    (cause row : Nat) (hold : Bool) : trigger s cause row hold = fullReset s cause row (cause = 2) hold := by
  simp only [trigger, hao, Bool.not_true, Bool.false_eq_true, if_false, if_neg h6, h1, h4, or_self]

/-- A trigger that meets a reset or a start merges with it; the link is PERST_N's alone. -/
theorem trigger_merges {s : State} (hao : s.boot.aoOn = true) (h : devState s = 1 ∨ devState s = 4) {cause : Nat} (hc : cause ≠ 2)
    (row : Nat) (hold : Bool) : trigger s cause row hold = s := by
  have h6 : devState s ≠ 6 := by omega
  simp only [trigger, hao, Bool.not_true, Bool.false_eq_true, if_false, if_neg h6, if_pos h, hc, decide_false]

theorem rstCtrl_keyed {s : State} {v : Nat} (h : v % 2 ^ 16 = 0xA5C3) :
    rstCtrl s v = if bitAt v 31 then trigger s 4 0 false else s := if_neg (not_not.mpr h)

/-! ### Power (R511, R595) -/

/-- The sequencer as a start begins. -/
def begunBoot (s : State) : Boot :=
  { s.boot with
    running := [], halted := false, from_ := nowNs s, prevRet := getD64 s (bootReg 0x118), alts := [], memo := [], logOk := false
    memoClr := false }

theorem startBegun_boot (s : State) (full : Bool) : (startBegun s full).boot = begunBoot s := by
  unfold startBegun
  dsimp only
  split
  · rw [setD64_boot, setW_boot, setD64_boot]
    rfl
  · rw [setW_boot, setD64_boot]
    rfl

theorem beginStart_boot (s : State) (full : Bool) : (beginStart s full).boot =
    { begunBoot s with running := (beginStart s full).boot.running, alts := (beginStart s full).boot.alts } := by
  have h := (beginStart_startsRuns s full).boot
  rwa [core_boot (domsFollow_core _), (onlyIn_setDevState _ _).2 .boot (by decide), startBegun_boot] at h

theorem getW_startBegun (s : State) (full : Bool) {a : Nat} (h : a ∉ [bootReg 0x118, bootReg 0x11C, bootReg 0x124, bootReg 0x108, bootReg 0x10C]) :
    getW (startBegun s full) a = getW s a := by
  simp only [List.mem_cons, List.not_mem_nil, or_false, not_or] at h
  obtain ⟨hret, hret', hno, hdone, hdone'⟩ := h
  unfold startBegun
  dsimp only
  split
  · rw [getW_setD64_other _ _ hdone hdone', getW_setW_other _ _ hno, getW_setD64_other _ _ hret hret']
    rfl
  · rw [getW_setW_other _ _ hno, getW_setD64_other _ _ hret hret']
    rfl

/-- The block once its rails are valid: the cause is set. -/
def railsValid (s : State) : State :=
  let u := setW s (reg .gov 4 0x188) (BitVec.ofNat 32 (if s.boot.aoFresh then 0 else 1))
  { u with boot := { u.boot with aoFresh := false, pwrgdAt := nowNs u, perstAt := nowNs u } }

theorem powerUp_eq (s : State) : powerUp s = beginStart (railsValid s) false := rfl

theorem railsValid_boot (s : State) : (railsValid s).boot.pwrgd = s.boot.pwrgd ∧ (railsValid s).boot.railBad = s.boot.railBad := ⟨rfl, rfl⟩

theorem getW_railsValid (s : State) : getW (railsValid s) (reg .gov 4 0x188) = if s.boot.aoFresh then 0 else 1 := by
  refine (getW_setW_same s _ _).trans ?_
  split <;> rfl

theorem powerUp_spec (s : State) : devState (powerUp s) = 1 ∧ getW (powerUp s) (reg .gov 4 0x188) = (if s.boot.aoFresh then 0 else 1)
    ∧ (powerUp s).boot.pwrgd = s.boot.pwrgd ∧ (powerUp s).boot.railBad = s.boot.railBad := by
  obtain ⟨hpwrgd, hrail⟩ := railsValid_boot s
  have hboot := beginStart_boot (railsValid s) false
  rw [powerUp_eq]
  refine ⟨devState_beginStart .., ?_, (congrArg Boot.pwrgd hboot).trans hpwrgd, (congrArg Boot.railBad hboot).trans hrail⟩
  rw [(beginStart_startsRuns _ _).words _ (by decide), getW_congr (domsFollow_bus _), getW_setDevState_other _ _ (by decide) (by decide),
    getW_startBegun _ _ (by decide), getW_railsValid]

theorem ret_coldState (s : State) : getD64 (coldState s) (bootReg 0x118) = 0 :=
  (show getD64 (coldState s) (bootReg 0x118) = resetKey (bootReg 0x118 + 4) ++ resetKey (bootReg 0x118) from rfl).trans (by decide)

/-- The block with VDD_AO kept: RET stays. -/
theorem mainState_resetOf (s : State) : ResetOf s (mainState s) ∧ getD64 (mainState s) (bootReg 0x118) = getD64 s (bootReg 0x118) :=
  ⟨⟨rfl, rfl, rfl, rfl, rfl, rfl, rfl⟩, getD64_setD64_same ..⟩

/-- The offsets at which a context fault writes a page. -/
def faultOffsets : List Nat := [0x1A0, 0x1A4, 0x20, 0x1B8, 0x1BC]

theorem faultOffsets_mod : ∀ x ∈ faultOffsets, x % 0x1000 ∈ faultOffsets := by decide

theorem getW_ctxFault (s : State) (cid code eng step : Nat) (b : Block) (i : Nat) {o : Nat} (ho : o % 0x1000 ∉ faultOffsets) :
    getW (ctxFault s cid code eng step) (reg b i o) = getW s (reg b i o) := by
  have hne : ∀ {c : Block} {j x : Nat}, x ∈ faultOffsets → reg b i o ≠ reg c j x := fun {c j x} hx =>
    reg_ne_of_offset fun h => ho (h ▸ faultOffsets_mod x hx)
  by_cases hgone : mfind s.sched.ctxs cid = none ∨ (getCtx s cid).killed = true
  · rw [ctxFault_of_gone _ _ _ hgone]
  · obtain ⟨hnone, hk⟩ := not_or.mp hgone
    obtain ⟨c, hc⟩ := Option.ne_none_iff_exists'.mp hnone
    rw [getCtx_of_listed hc, Bool.not_eq_true] at hk
    have hplace : getW (placeFault s c.place code eng step) (reg b i o) = getW s (reg b i o) := by
      cases c.place with
      | saved => rfl
      | leaf site lf =>
        refine (wordsOnly_stopFaulted ..).1 _ ?_
        simp only [List.mem_cons, List.not_mem_nil, or_false, not_or]
        exact ⟨hne (by decide), hne (by decide), hne (by decide)⟩
    rw [ctxFault_eq _ _ _ hc hk, recordFault, partFault, getW_raiseInt, if_neg (hne (by decide)), getW_bump32_other _ _ (hne (by decide)),
      getW_setW_other _ _ (hne (by decide))]
    exact hplace

theorem getW_faultAll (s : State) (p : Ctx → Bool) (code eng step : Nat) (b : Block) (i : Nat) {o : Nat} (ho : o % 0x1000 ∉ faultOffsets) :
    getW (faultAll s p code eng step) (reg b i o) = getW s (reg b i o) :=
  foldl_keeps (getW · (reg b i o)) _ _ s fun s c => getW_ctxFault s c code eng step b i ho

/-- A lost device reserve is shown, and the device needs a reset. -/
theorem reserveLost_spec (s : State) : devState (reserveLost s) = 3 ∧ getF (reserveLost s) (reg .mem 0 0x14) 1 1 = 1 := by
  refine ⟨devState_setDevState _ (by decide), ?_⟩
  have hflag : getF (setF s (reg .mem 0 0x14) 1 1 1) (reg .mem 0 0x14) 1 1 = 1 := getF_setF_same _ _ 1 1 1 (by decide)
  unfold reserveLost requireReset
  dsimp only
  rw [getF, getW_setDevState_other _ _ (by decide) (by decide), getW_faultAll _ _ _ _ _ _ _ (by decide)]
  split
  · exact hflag
  · rw [getW_raiseInt, if_neg (by decide)]
    exact hflag

/-! ### The statement -/

theorem d0Return_boot (s : State) : (beginStart { s with boot := { s.boot with d3 := false } } true).boot.d3 = false :=
  congrArg Boot.d3 (beginStart_boot { s with boot := { s.boot with d3 := false } } true)

theorem settle_resetOf {s t : State} (h : ResetOf s t) : ResetOf s (settle t) := h.of_core (settle_core t)

theorem settle_fullResetOf {s t : State} (h : FullResetOf s t) (hd : devState t = 4) : FullResetOf s (settle t) where
  toResetOf := settle_resetOf h.toResetOf
  rows k hk := by
    have hdown : deviceUp t = false := by simp [deviceUp, hd]
    have hrow : getRow (settle t) k = getRow t k := by
      rw [settle, hdown, getRow, domsFollow_rows, getRow]
      rfl
    rw [hrow]
    exact h.rows k hk
  count := by rw [settle_ftl, h.count]
  recs := by rw [settle_rep, h.recs]

/-- The block that PERST_N meets. -/
def perstLow (s : State) : State := { s with boot := { s.boot with perst := false } }

theorem FullResetOf.from_perstLow {s t : State} (h : FullResetOf (perstLow s) t) : FullResetOf s t where
  toResetOf := ⟨h.pending, h.sched, h.sync, h.cells, h.mem, h.log, h.floorA⟩
  rows := h.rows
  count := h.count
  recs := h.recs

/-- What each trigger of a full reset comes to. -/
theorem fullReset_settled {s t : State} {cause row : Nat} {link hold : Bool} (hf : FullResetOf s (fullReset s cause row link hold) →
      FullResetOf t (fullReset s cause row link hold)) (hcount : getW s (reg .gov 4 0x18C) = getW t (reg .gov 4 0x18C)) :
    ∃ u, Host.Outcome.next (settle (fullReset s cause row link hold)) = (.next u : Res)
    ∧ getW u (reg .gov 4 0x188) = BitVec.ofNat 32 (cause + row * 2 ^ 8) ∧ getW u (reg .gov 4 0x18C) = satAdd32 (getW t (reg .gov 4 0x18C)) 1
    ∧ devState u = 4 ∧ u.boot.d3 = hold ∧ (∀ k : Nat, k < 16 → (getRow u k).st = .off)
    ∧ u.sched = State.reset.sched ∧ u.sync = State.reset.sync ∧ u.cells = [] ∧ u.mem.cells = t.mem.cells ∧ u.boot.log = t.boot.log
    ∧ u.sec.floorA = t.sec.floorA ∧ u.ftl.count = t.ftl.count ∧ u.rep.recs = t.rep.recs ∧ u.pending = t.pending := by
  obtain ⟨hfull, hd3, hdev, hcause, hcnt⟩ := fullReset_spec s cause row link hold
  have h := settle_fullResetOf (hf hfull) hdev
  exact ⟨_, rfl, (getW_settle ..).trans hcause, (getW_settle ..).trans (hcount ▸ hcnt), (devState_settle _).trans hdev,
    (congrArg Boot.d3 (settle_boot _)).trans hd3, h.rows, h.sched, h.sync, h.cells, h.mem, h.log, h.floorA, h.count, h.recs, h.pending⟩

/-- Settles O55: a trigger is a full reset or, during one or a start, nothing; power comes as a cold block, with `RET` where VDD_AO stays,
and a start begins once the rails are valid. -/
theorem resetsRestartTheBlockAndKeepWhatTheyMust : Obligations.ResetsRestartTheBlockAndKeepWhatTheyMust := by
  refine ⟨fun s r v hao => ⟨fun h1 h4 h6 c cause hold hc => ?_, fun hst c hc => ?_, fun hd3 h4 => ?_⟩,
    fun s => ⟨?_, ?_, fun hao => ?_, fun hao hlow hrail => ?_, fun hao c hc => ?_, ?_, fun c hc => ?_, fun hup g => ?_, fun hbad hp => ?_,
      fun h3 off => ?_, fun hh h38 => ?_⟩⟩
  · -- a reset proceeds
    have hproceeds : ∀ cause row hold, done (trigger s cause row hold) = .next (settle (fullReset s cause row (cause = 2) hold)) :=
      fun cause row hold => congrArg done (trigger_proceeds hao h1 h4 h6 cause row hold)
    obtain ⟨rfl, hkey, hgo, rfl, rfl⟩ | ⟨rfl, rfl, rfl⟩ | ⟨rfl, rfl, rfl⟩ | ⟨rfl, hrow, rfl, rfl⟩ | ⟨rfl, rfl, rfl⟩ := hc
    · have hexec : exec (.rstCtrlGo v) s = done (trigger s 4 0 false) := by
        refine congrArg done ((rstCtrl_keyed hkey).trans ?_)
        rw [hgo]
        rfl
      rw [hexec, hproceeds]
      exact fullReset_settled id rfl
    · have hexec : exec .perstNAssert s = done (trigger (perstLow s) 2 0 false) := rfl
      rw [hexec, trigger_proceeds (s := perstLow s) hao h1 h4 h6]
      exact fullReset_settled FullResetOf.from_perstLow rfl
    · have hexec : exec .cxlReset s = done (trigger s 3 0 false) := rfl
      rw [hexec, hproceeds]
      exact fullReset_settled id rfl
    · have hexec : exec (.rowUndervolt r) s = done (trigger s 5 r false) := congrArg done (if_neg hrow)
      rw [hexec, hproceeds]
      exact fullReset_settled id rfl
    · have hexec : exec .d3hotEntry s = done (trigger s 6 0 true) := rfl
      rw [hexec, hproceeds]
      exact fullReset_settled id rfl
  · -- a trigger that merges
    obtain ⟨rfl, hkey⟩ | rfl | rfl | rfl := hc
    · refine congrArg done ((rstCtrl_keyed hkey).trans ?_)
      rw [trigger_merges hao hst (by decide), ite_self]
    · exact congrArg done (trigger_merges hao hst (by decide) ..)
    · refine congrArg done (?_ : (if (getRow s r).st = .off then s else trigger s 5 r false) = s)
      rw [trigger_merges hao hst (by decide), ite_self]
    · exact congrArg done (trigger_merges hao hst (by decide) ..)
  · -- D0_RETURN
    refine ⟨_, congrArg done (if_pos ⟨hd3, h4⟩), (devState_settle _).trans (devState_beginStart ..), ?_⟩
    rw [settle_boot]
    exact d0Return_boot s
  · -- PERST_N rises
    exact ⟨_, rfl, settle_boot _, onlyIn_settle (onlyIn_boot ..)⟩
  · -- VDD_AO rises
    refine ⟨_, rfl, ?_⟩
    rw [settle_boot, getD64_settle, settle_mem, settle_sec, settle_sched, settle_ftl]
    exact ⟨rfl, rfl, rfl, ret_coldState s, rfl, rfl, rfl, rfl, rfl⟩
  · -- PWRGD falls
    obtain ⟨hreset, hret⟩ := mainState_resetOf s
    refine ⟨_, congrArg done (if_pos hao), ?_⟩
    rw [settle_boot, getD64_settle, settle_mem, settle_sched]
    exact ⟨rfl, hret, hreset.mem, hreset.sched⟩
  · -- PWRGD rises
    obtain ⟨hdev, hcause, hpwrgd, -⟩ := powerUp_spec { s with boot := { s.boot with pwrgd := true } }
    have hrise : pwrgdRise s = powerUp { s with boot := { s.boot with pwrgd := true } } := by
      simp only [pwrgdRise, hlow, hao, hrail, Bool.not_true, Bool.false_eq_true, or_self, if_false]
    exact ⟨_, congrArg done hrise, (congrArg Boot.pwrgd (settle_boot _)).trans hpwrgd, (devState_settle _).trans hdev,
      (getW_settle ..).trans hcause⟩
  · -- a core rail
    obtain ⟨hreset, hret⟩ := mainState_resetOf s
    have hfault : railFault s c = { mainState s with boot := { (mainState s).boot with railBad := true } } := by
      simp only [List.mem_cons, List.not_mem_nil, or_false] at hc
      obtain rfl | rfl | rfl := hc <;> exact if_pos hao
    refine ⟨_, congrArg done hfault, ?_⟩
    rw [settle_boot, getD64_settle, settle_mem, settle_sched]
    exact ⟨rfl, hret, hreset.mem, hreset.sched⟩
  · -- VDD_AO
    refine ⟨_, rfl, ?_⟩
    rw [settle_boot, settle_mem]
    exact ⟨rfl, rfl, rfl⟩
  · -- a rail of the mills
    simp only [List.mem_cons, List.not_mem_nil, or_false] at hc
    obtain rfl | rfl := hc <;> rfl
  · -- a rail of the GDDR7 devices
    obtain ⟨hdev, hflag⟩ := reserveLost_spec s
    exact ⟨_, congrArg done (if_pos hup), (devState_settle _).trans hdev, (getF_settle ..).trans hflag⟩
  · -- a rail recovers
    obtain ⟨hdev, -, -, hrail⟩ := powerUp_spec { s with boot := { s.boot with railBad := false, aoFresh := false } }
    have hrec : railRecovery s = powerUp { s with boot := { s.boot with railBad := false, aoFresh := false } } := by
      simp only [railRecovery, hbad, hp, Bool.not_true, Bool.false_eq_true, if_false, if_true]
    exact ⟨_, congrArg done hrec, (congrArg Boot.railBad (settle_boot _)).trans hrail, (devState_settle _).trans hdev⟩
  · -- I3C_B
    have hcond : (fromStep3 s || devState s = 4) = true := by rw [h3]; rfl
    exact ⟨_, congrArg done (if_pos hcond), settle_boot _, onlyIn_settle (onlyIn_boot ..)⟩
  · -- I3C_A
    have hcond : (s.boot.halted && !stepDone s 38) = true := by rw [hh, h38]; rfl
    exact ⟨_, congrArg done (if_pos hcond), settle_boot _, onlyIn_settle (onlyIn_boot ..)⟩

end Sys2Proof.Machine
end

section
/-! SUPPORT. Rates of fantail time: a new rate leaves T where it is (R471), and the servos follow (R474, R476 to R480). -/
namespace Sys2Proof.Machine

/-! ### Servos -/

/-- Two servos that differ in VIRT_OFS and the count at which it stood. -/
def VirtOnly (x y : Servo) : Prop := y = { x with virt := y.virt, virtAt := y.virtAt }

theorem VirtOnly.refl (x : Servo) : VirtOnly x x := rfl

theorem VirtOnly.trans {x y z : Servo} (h : VirtOnly x y) (k : VirtOnly y z) : VirtOnly x z := by
  rw [VirtOnly] at *
  rw [k, h]

@[simp] theorem getServo_setServo_same (s : State) (d : Nat) (x : Servo) : getServo (setServo s d x) d = x := mget_mset_same ..

theorem getServo_setServo_other (s : State) {d k : Nat} (x : Servo) (h : k ≠ d) : getServo (setServo s d x) k = getServo s k :=
  mget_mset_other _ _ _ _ h

theorem getServo_congr {s t : State} (h : t.ftl.servos = s.ftl.servos) (d : Nat) : getServo t d = getServo s d := by
  rw [getServo, h, getServo]

theorem onlyIn_setServo (s : State) (d : Nat) (x : Servo) : OnlyIn [.ftl] s (setServo s d x) := onlyIn_ftl s _

theorem settleVirt_servo (s : State) (d k : Nat) : VirtOnly (getServo s k) (getServo (settleVirt s d) k) := by
  by_cases h : k = d
  · subst h
    rw [settleVirt, getServo_setServo_same]
    rfl
  · rw [settleVirt, getServo_setServo_other _ _ h]
    exact .refl _

/-! ### RATE (R471) -/

/-- The offset that a new rate takes makes up for what the count is worth at it. -/
theorem offset_makes_up {t : Nat} (x : Nat) (ht : t < 2 ^ 96) : ((t + 2 ^ 96 - x % 2 ^ 96) % 2 ^ 96 + x) % 2 ^ 96 = t := by
  have hx : x % 2 ^ 96 < 2 ^ 96 := Nat.mod_lt _ (by decide)
  omega

theorem ftlT_lt (s : State) : ftlT s < 2 ^ 96 := Nat.mod_lt _ (by decide)

/-- RATE and the servos' offsets move; T, COUNT and everything else of the servos stay. -/
structure RateMoves (s t : State) : Prop where
  time : ftlT t = ftlT s
  count : t.ftl.count = s.ftl.count
  slewing : t.ftl.slewing = s.ftl.slewing
  servos : ∀ k, VirtOnly (getServo s k) (getServo t k)
  frame : OnlyIn [.ftl] s t

namespace RateMoves

theorem refl (s : State) : RateMoves s s := ⟨rfl, rfl, rfl, fun _ => .refl _, onlyIn_refl ..⟩

variable {s t u : State}

theorem trans (h : RateMoves s t) (k : RateMoves t u) : RateMoves s u :=
  ⟨k.time.trans h.time, k.count.trans h.count, k.slewing.trans h.slewing, fun d => (h.servos d).trans (k.servos d), onlyIn_trans h.frame k.frame⟩

theorem settleVirt (s : State) (d : Nat) : RateMoves s (settleVirt s d) :=
  ⟨rfl, rfl, rfl, settleVirt_servo s d, onlyIn_setServo ..⟩

/-- RATE and OFFSET of a state in which the virtual clocks are settled. -/
theorem newRate (s : State) (r : DWord) : RateMoves s { s with ftl := { s.ftl with
    rate := r, offset := (ftlT s + 2 ^ 96 - s.ftl.count.toNat * r.toNat / 2 ^ 16 % 2 ^ 96) % 2 ^ 96 } } :=
  ⟨offset_makes_up _ (ftlT_lt s), rfl, rfl, fun _ => .refl _, onlyIn_ftl ..⟩

theorem setRate (s : State) (r : DWord) : RateMoves s (setRate s r) :=
  ((settleVirt s 0).trans (settleVirt _ 1)).trans (newRate _ r)

theorem followRate (s : State) : RateMoves s (followRate s) := by
  unfold Machine.followRate
  dsimp only
  split
  · exact refl s
  · split
    · exact setRate ..
    · exact setRate ..

theorem bus (h : RateMoves s t) : t.bus = s.bus := h.frame.2 .bus (by decide)

end RateMoves

theorem rate_setRate (s : State) (r : DWord) : (setRate s r).ftl.rate = r := rfl

/-- Without a slew RATE follows the selected servo. -/
theorem rate_followRate {s : State} (hc : compatOn s = false) (hs : s.ftl.slewing = false) :
    (followRate s).ftl.rate = (getServo s (servoSel s)).rate := by
  simp only [followRate, hc, hs, Bool.false_eq_true, if_false, rate_setRate]

/-! ### References (R479) -/

/-- The selected servo follows no reference. -/
def refGone (s : State) (late : Bool) : Bool :=
  (getServo s (servoSel s)).st = 0 || ((getServo s (servoSel s)).st = 3 && (late || s.ftl.refLost))

/-- The state in which the loss or return of the reference is noted. -/
def refNoted (s : State) (late : Bool) : State := { s with ftl := { s.ftl with refLost := refGone s late } }

theorem refCheck_eq (s : State) (late : Bool) :
    refCheck s late = if refGone s late && !s.ftl.refLost then raiseInt (refNoted s late) .ftl 0 1 else refNoted s late := rfl

theorem refCheck_ftl (s : State) (late : Bool) : (refCheck s late).ftl = { s.ftl with refLost := refGone s late } := by
  rw [refCheck_eq]
  split
  · rw [raiseInt_ftl]
    rfl
  · rfl

theorem ftlT_refCheck (s : State) (late : Bool) : ftlT (refCheck s late) = ftlT s := by rw [ftlT, refCheck_ftl, ftlT]

theorem count_refCheck (s : State) (late : Bool) : (refCheck s late).ftl.count = s.ftl.count := by rw [refCheck_ftl]

theorem slewing_refCheck (s : State) (late : Bool) : (refCheck s late).ftl.slewing = s.ftl.slewing := by rw [refCheck_ftl]

theorem rate_refCheck (s : State) (late : Bool) : (refCheck s late).ftl.rate = s.ftl.rate := by rw [refCheck_ftl]

theorem getServo_refCheck (s : State) (late : Bool) (d : Nat) : getServo (refCheck s late) d = getServo s d :=
  getServo_congr (by rw [refCheck_ftl]) d

theorem wordsOnly_refCheck (s : State) (late : Bool) : WordsOnly [reg .ftl 0 0x20] s (refCheck s late) := by
  have hnoted : WordsOnly [reg .ftl 0 0x20] s (refNoted s late) := wordsOnly_of_bus rfl
  rw [refCheck_eq]
  split
  · exact wordsOnly_trans hnoted (wordsOnly_raiseInt ..)
  · exact hnoted

theorem getW_refCheck (s : State) (late : Bool) {a : Nat} (h : a ≠ reg .ftl 0 0x20) : getW (refCheck s late) a = getW s a :=
  (wordsOnly_refCheck s late).1 a (by simpa using h)

theorem onlyIn_refCheck (s : State) (late : Bool) : OnlyIn [.bus, .ftl] s (refCheck s late) := by
  have hnoted : OnlyIn [.bus, .ftl] s (refNoted s late) := onlyIn_mono (onlyIn_ftl s _) (by simp)
  rw [refCheck_eq]
  split
  · exact onlyIn_trans hnoted (onlyIn_mono (onlyIn_raiseInt ..) (by simp))
  · exact hnoted

/-- A cause that is set stays set when another is raised. -/
theorem bitAt_raiseInt_of_set {s : State} {b : Block} {i bit a : Nat} (c : Nat) (h : bitAt (getW s a).toNat bit = true) :
    bitAt (getW (raiseInt s b i c) a).toNat bit = true := by
  rw [getW_raiseInt]
  split
  · rw [bitAt_eq_testBit] at *
    rw [BitVec.toNat_or, Nat.testBit_or, h]
    rfl
  · exact h

theorem bitAt_refCheck_of_set {s : State} {bit a : Nat} (late : Bool) (h : bitAt (getW s a).toNat bit = true) :
    bitAt (getW (refCheck s late) a).toNat bit = true := by
  rw [refCheck_eq]
  split
  · exact bitAt_raiseInt_of_set (s := refNoted s late) 1 h
  · exact h

/-! ### The rate of a servo -/

/-- A servo with a new rate. -/
def withRate (s : State) (d : Nat) (r : DWord) : State := setServo (settleVirt s d) d { getServo (settleVirt s d) d with rate := r }

theorem servoRate_eq (s : State) (d : Nat) (r : DWord) :
    servoRate s d r = if servoSel (withRate s d r) = d then followRate (withRate s d r) else withRate s d r := rfl

theorem withRate_servo (s : State) (d : Nat) (r : DWord) : VirtOnly { getServo s d with rate := r } (getServo (withRate s d r) d) := by
  have h := settleVirt_servo s d d
  rw [withRate, getServo_setServo_same, VirtOnly, h]

theorem onlyIn_withRate (s : State) (d : Nat) (r : DWord) : OnlyIn [.ftl] s (withRate s d r) :=
  onlyIn_trans (onlyIn_setServo ..) (onlyIn_setServo ..)

theorem withRate_follows (s : State) (d : Nat) (r : DWord) : RateMoves (withRate s d r) (servoRate s d r) := by
  rw [servoRate_eq]
  split
  · exact .followRate _
  · exact .refl _

/-- What a servo's new rate changes. -/
theorem servoRate_spec (s : State) (d : Nat) (r : DWord) :
    ftlT (servoRate s d r) = ftlT s ∧ (servoRate s d r).ftl.count = s.ftl.count
    ∧ VirtOnly { getServo s d with rate := r } (getServo (servoRate s d r) d) ∧ OnlyIn [.ftl] s (servoRate s d r) := by
  have h := withRate_follows s d r
  exact ⟨h.time, h.count, (withRate_servo s d r).trans (h.servos d), onlyIn_trans (onlyIn_withRate ..) h.frame⟩

theorem servoSel_congr {s t : State} (h : t.bus = s.bus) : servoSel t = servoSel s := getF_congr h ..

theorem compatOn_congr {s t : State} (h : t.bus = s.bus) : compatOn t = compatOn s := by
  rw [compatOn, getF_congr h, compatOn]

/-- RATE is the selected servo's. -/
theorem rate_servoRate {s : State} {d : Nat} (r : DWord) (hd : servoSel s = d) (hc : compatOn s = false) (hs : s.ftl.slewing = false) :
    (servoRate s d r).ftl.rate = r := by
  have hbus : (withRate s d r).bus = s.bus := rfl
  have hsel : servoSel (withRate s d r) = d := (servoSel_congr hbus).trans hd
  have hslew : (withRate s d r).ftl.slewing = false := hs
  rw [servoRate_eq, if_pos hsel, rate_followRate ((compatOn_congr hbus).trans hc) hslew, hsel, withRate_servo s d r]

/-! ### An update (R476, R478) -/

/-- The registers of an update: UPDATES and the offset. -/
def updateNoted (s : State) (d : Nat) (o : Int) : State :=
  setW (bump64 s (reg .ftl (1 + d) 0x128) 1) (reg .ftl (1 + d) 0x118) (BitVec.ofInt 32 (clampInt (-2 ^ 31) (2 ^ 31 - 1) (o / 2 ^ 8)))

/-- The servo as the law of R476 leaves it, and the output register. -/
def updateSteered (s : State) (d : Nat) (o : Int) : State :=
  setServo (setW (updateNoted s d o) (reg .ftl (1 + d) 0x11C) (BitVec.ofInt 32 (servoLaw (updateNoted s d o) d o).2)) d
    { getServo s d with
      st := (servoNext s d o).1, good := (servoNext s d o).2, integ := (servoLaw (updateNoted s d o) d o).1
      hist := ((servoLaw (updateNoted s d o) d o).2 :: (getServo s d).hist).take 16 }

theorem servoUpdate_eq {s : State} {d : Nat} {inp : ServoIn} {o : Int} (hon : servoOn s d = true) (hin : servoInput s d inp = some o)
    (hst : (getServo s d).st ≠ 0) : servoUpdate s d inp =
      refCheck (servoRate (updateSteered s d o) d (rateOfPpb (servoLaw (updateNoted s d o) d o).2)) false := by
  simp only [servoUpdate, hon, hin, hst, Bool.not_true, Bool.false_eq_true, if_false, false_and]
  rfl

theorem getF_updateNoted (s : State) (d : Nat) (o : Int) {x lo len : Nat} {b : Block} {i : Nat} (h : x % 0x1000 ∉ ([0x128, 0x12C, 0x118] : List Nat)) :
    getF (updateNoted s d o) (reg b i x) lo len = getF s (reg b i x) lo len := by
  simp only [List.mem_cons, List.not_mem_nil, or_false, not_or] at h
  obtain ⟨h1, h2, h3⟩ := h
  rw [getF, updateNoted, getW_setW_other _ _ (reg_ne_of_offset h3), bump64,
    getW_setD64_other _ _ (reg_ne_of_offset h1) (show reg b i x ≠ reg .ftl (1 + d) 0x12C from reg_ne_of_offset h2), getF]

theorem servoLaw_updateNoted (s : State) (d : Nat) (o : Int) : servoLaw (updateNoted s d o) d o = servoLaw s d o := by
  have hservo : getServo (updateNoted s d o) d = getServo s d := rfl
  unfold servoLaw
  rw [hservo]
  simp only [getF_updateNoted s d o (x := 0x110) (by decide), getF_updateNoted s d o (x := 0x10C) (by decide)]

theorem getW_setServo (s : State) (d : Nat) (x : Servo) (a : Nat) : getW (setServo s d x) a = getW s a := rfl

theorem getW_updateSteered (s : State) (d : Nat) (o : Int) (a : Nat) : getW (updateSteered s d o) a =
    getW (setW (updateNoted s d o) (reg .ftl (1 + d) 0x11C) (BitVec.ofInt 32 (servoLaw (updateNoted s d o) d o).2)) a := getW_setServo ..

theorem onlyIn_setW_setServo (u : State) (a : Nat) (w : Word) (d : Nat) (x : Servo) : OnlyIn [.bus, .ftl] u (setServo (setW u a w) d x) :=
  onlyIn_trans (onlyIn_mono (onlyIn_setW u a w) (by simp)) (onlyIn_mono (onlyIn_setServo (setW u a w) d x) (by simp))

theorem onlyIn_updateNoted (s : State) (d : Nat) (o : Int) : OnlyIn [.bus] s (updateNoted s d o) :=
  onlyIn_trans (onlyIn_bump64 s (reg .ftl (1 + d) 0x128) 1) (onlyIn_setW (bump64 s (reg .ftl (1 + d) 0x128) 1) _ _)

theorem onlyIn_updateSteered (s : State) (d : Nat) (o : Int) : OnlyIn [.bus, .ftl] s (updateSteered s d o) :=
  onlyIn_trans (onlyIn_mono (onlyIn_updateNoted s d o) (by simp)) (onlyIn_setW_setServo (updateNoted s d o) _ _ _ _)

theorem servoControl_updateSteered (s : State) (d : Nat) (o : Int) :
    servoSel (updateSteered s d o) = servoSel s ∧ compatOn (updateSteered s d o) = compatOn s := by
  have hctrl : ∀ lo len, getF (updateSteered s d o) (reg .ftl 0 0x10) lo len = getF s (reg .ftl 0 0x10) lo len := fun lo len => by
    rw [getF, getW_updateSteered, getW_setW_other _ _ (reg_ne_of_offset (by decide)), ← getF]
    exact getF_updateNoted s d o (by decide)
  exact ⟨hctrl 1 1, by rw [compatOn, hctrl 0 1, compatOn]⟩

/-! ### HOLDOVER (R478), the end of a slew and a switch (R480) -/

/-- The servo in HOLDOVER. -/
def heldOver (s : State) (d : Nat) : State := setServo s d { getServo s d with st := 3, good := 0, since := nowNs s }

theorem servoHoldover_eq {s : State} {d : Nat} (hon : servoOn s d = true) (hst : (getServo s d).st = 1 ∨ (getServo s d).st = 2)
    (hauto : getF s (reg .ftl 0 0x10) 2 1 = 0) :
    servoHoldover s d = refCheck (servoRate (heldOver s d) d (rateOfPpb (meanInt (getServo s d).hist))) false := by
  have h0 : (getServo s d).st ≠ 0 := by omega
  have h3 : (getServo s d).st ≠ 3 := by omega
  have hframe := (servoRate_spec (heldOver s d) d (rateOfPpb (meanInt (getServo s d).hist))).2.2.2
  have hbus : (servoRate (heldOver s d) d (rateOfPpb (meanInt (getServo s d).hist))).bus = s.bus := hframe.2 .bus (by decide)
  have hoff : getF (servoRate (heldOver s d) d (rateOfPpb (meanInt (getServo s d).hist))) (reg .ftl 0 0x10) 2 1 ≠ 1 := by
    rw [getF_congr hbus, hauto]
    decide
  simp only [servoHoldover, hon, h0, h3, Bool.not_true, Bool.false_eq_true, or_self, if_false]
  exact if_neg fun h => hoff h.2.1

/-- The other servo selected, its offset to slew out. -/
def selected (s : State) (d : Nat) : State :=
  { setF s (reg .ftl 0 0x10) 1 1 d with ftl := { s.ftl with slewing := virtNow s d ≠ 0 } }

theorem switchTo_eq {s : State} {d : Nat} (h : servoSel s ≠ d) :
    switchTo s d = refCheck (raiseInt (followRate (selected s d)) .ftl 0 2) false := if_neg h

theorem onlyIn_selected (s : State) (d : Nat) : OnlyIn [.bus, .ftl] s (selected s d) :=
  onlyIn_trans (onlyIn_mono (onlyIn_setF s (reg .ftl 0 0x10) 1 1 d) (by simp)) (onlyIn_mono (onlyIn_ftl (setF s (reg .ftl 0 0x10) 1 1 d) _) (by simp))

theorem servoSel_selected (s : State) {d : Nat} (h : d < 2) : servoSel (selected s d) = d :=
  (getF_setF_same s _ 1 1 d (by decide)).trans (Nat.mod_eq_of_lt h)

/-- The slewed servo with no offset left. -/
def slewed (s : State) : State :=
  let u := setServo (settleVirt s (servoSel s)) (servoSel s) { getServo (settleVirt s (servoSel s)) (servoSel s) with virt := 0 }
  { u with ftl := { u.ftl with slewing := false } }

theorem slewDone_eq {s : State} (hs : s.ftl.slewing = true) (hv : virtNow s (servoSel s) = 0) : slewDone s = followRate (slewed s) := by
  unfold slewDone
  dsimp only
  rw [hs, hv, if_pos ⟨rfl, by split <;> exact le_refl _⟩]
  rfl

theorem onlyIn_slewed (s : State) : OnlyIn [.ftl] s (slewed s) :=
  onlyIn_trans (onlyIn_trans (onlyIn_setServo ..) (onlyIn_setServo ..)) (onlyIn_ftl _ _)

theorem rate_slewed (s : State) : (getServo (slewed s) (servoSel s)).rate = (getServo s (servoSel s)).rate := by
  refine (congrArg Servo.rate (getServo_setServo_same (settleVirt s (servoSel s)) (servoSel s) _)).trans ?_
  show (getServo (settleVirt s (servoSel s)) (servoSel s)).rate = _
  rw [settleVirt_servo s (servoSel s) (servoSel s)]

/-! ### The statement -/

/-- Settles O50: each of the commands ends in a new RATE, for which OFFSET makes up, and in a look at the reference. -/
theorem fantailTimeNeverJumpsUnderTheServos : Obligations.FantailTimeNeverJumpsUnderTheServos := by
  refine fun s => ⟨fun hcap hoff h0 h1 => ?_, fun on hcap hne hon => ?_, fun d inp o hon hin hst => ?_, fun d hon hst hauto => ?_,
    fun d hne hc => ?_, fun hs hv hc => ?_, fun hst hlate => ?_⟩
  · -- the compatibility clock begins
    have h : compatEn s true = compatRate (setF s (reg .ftl 0 0x10) 0 1 1) := by
      simp only [compatEn, hcap, hoff, h0, h1, Bool.not_true, Bool.false_eq_true, if_false, Bool.or_self, if_true, reduceCtorEq]
      rfl
    have hmoves := RateMoves.setRate (setF s (reg .ftl 0 0x10) 0 1 1) ((getD64 (setF s (reg .ftl 0 0x10) 0 1 1) (reg .ftl 0 0x130)) <<< 16)
    have hincr : getD64 (setF s (reg .ftl 0 0x10) 0 1 1) (reg .ftl 0 0x130) = getD64 s (reg .ftl 0 0x130) :=
      getD64_setW_other _ _ (by decide) (by decide)
    refine ⟨_, congrArg done h, ?_, ?_, (ftlT_settle _).trans hmoves.time, by rw [settle_ftl]; exact hmoves.count⟩
    · rw [compatOn_congr (settle_bus _), compatRate, compatOn_congr hmoves.bus, compatOn, getF_setF_same _ _ 0 1 1 (by decide)]
      rfl
    · rw [settle_ftl, compatRate, rate_setRate, hincr]
  · -- refused while a servo is enabled
    have h : compatEn s on = raiseErr s .ftl 0 9 := by
      have hne' : on ≠ compatOn s := by rw [hne]; cases on <;> decide
      simp only [compatEn, hcap, hon, Bool.not_true, Bool.false_eq_true, if_false, if_neg hne', if_true]
    exact ⟨_, congrArg done h, (getW_settle ..).trans (getW_raiseErr_same ..), onlyIn_settle (onlyIn_raiseErr ..),
      wordsOnly_settle (wordsOnly_raiseErr ..)⟩
  · -- an update
    obtain ⟨htime, hcount, hservo, hframe⟩ := servoRate_spec (updateSteered s d o) d (rateOfPpb (servoLaw (updateNoted s d o) d o).2)
    obtain ⟨hsel, hcompat⟩ := servoControl_updateSteered s d o
    rw [updateSteered, getServo_setServo_same, ← updateSteered] at hservo
    refine ⟨_, congrArg done (servoUpdate_eq hon hin hst), ?_, ?_, ?_, fun hd hc hs => ?_, ?_, ?_, ?_⟩
    · rw [getServo_congr (congrArg Ftl.servos (settle_ftl _)), getServo_refCheck, hservo, servoLaw_updateNoted]
    · rw [getServo_congr (congrArg Ftl.servos (settle_ftl _)), getServo_refCheck, hservo, servoLaw_updateNoted]
    · rw [getW_settle, getW_refCheck _ _ (reg_ne_of_offset (by decide)), getW_congr (hframe.2 .bus (by decide)), getW_updateSteered,
        getW_setW_same, servoLaw_updateNoted]
    · rw [settle_ftl, rate_refCheck, rate_servoRate _ (hsel.trans hd) (hcompat.trans hc) hs, servoLaw_updateNoted]
    · rw [ftlT_settle, ftlT_refCheck, htime]
      rfl
    · rw [settle_ftl, count_refCheck, hcount]
      rfl
    · exact onlyIn_settle (onlyIn_trans (onlyIn_trans (onlyIn_updateSteered ..) (onlyIn_mono hframe (by simp))) (onlyIn_refCheck ..))
  · -- HOLDOVER
    obtain ⟨htime, hcount, hservo, hframe⟩ := servoRate_spec (heldOver s d) d (rateOfPpb (meanInt (getServo s d).hist))
    rw [heldOver, getServo_setServo_same, ← heldOver] at hservo
    refine ⟨_, congrArg done (servoHoldover_eq hon hst hauto), ?_, ?_, ?_, ?_, onlyIn_settle (onlyIn_trans (onlyIn_trans
      (onlyIn_mono (onlyIn_setServo ..) (by simp)) (onlyIn_mono hframe (by simp))) (onlyIn_refCheck ..))⟩
    · rw [getServo_congr (congrArg Ftl.servos (settle_ftl _)), getServo_refCheck, hservo]
    · rw [getServo_congr (congrArg Ftl.servos (settle_ftl _)), getServo_refCheck, hservo]
    · rw [ftlT_settle, ftlT_refCheck, htime]
      rfl
    · rw [settle_ftl, count_refCheck, hcount]
      rfl
  · -- a switch
    have hmoves := RateMoves.followRate (selected s d)
    refine ⟨_, congrArg done (switchTo_eq hne), ?_, ?_, ?_, ?_, ?_, onlyIn_settle (onlyIn_trans (onlyIn_trans (onlyIn_trans (onlyIn_selected ..)
      (onlyIn_mono hmoves.frame (by simp))) (onlyIn_mono (onlyIn_raiseInt ..) (by simp))) (onlyIn_refCheck ..))⟩
    · rw [servoSel, getF_settle, getF, getW_refCheck _ _ (by decide), getW_raiseInt, if_neg (by decide), getW_congr hmoves.bus]
      exact servoSel_selected s d.isLt
    · rw [getW_settle]
      exact bitAt_refCheck_of_set _ (bitAt_raiseInt _ .ftl 0 (by decide))
    · rw [settle_ftl, slewing_refCheck, raiseInt_ftl, hmoves.slewing]
      exact decide_eq_true_iff
    · rw [ftlT_settle, ftlT_refCheck, ftlT, raiseInt_ftl, ← ftlT, hmoves.time]
      rfl
    · rw [settle_ftl, count_refCheck, raiseInt_ftl, hmoves.count]
      rfl
  · -- the end of a slew
    have hmoves := RateMoves.followRate (slewed s)
    have hbus : (slewed s).bus = s.bus := rfl
    refine ⟨_, congrArg done (slewDone_eq hs hv), ?_, ?_, (ftlT_settle _).trans hmoves.time, ?_,
      onlyIn_settle (onlyIn_trans (onlyIn_slewed s) hmoves.frame)⟩
    · rw [settle_ftl, hmoves.slewing]
      rfl
    · rw [settle_ftl, rate_followRate ((compatOn_congr hbus).trans hc) rfl, servoSel_congr hbus, rate_slewed]
    · rw [settle_ftl, hmoves.count]
      rfl
  · -- the reference is lost
    have h : refLost s = refCheck s true := if_pos ⟨hst, hlate⟩
    have hgone : refGone s true = true := by simp [refGone, hst]
    refine ⟨_, congrArg done h, ?_, fun hheld => ?_, onlyIn_settle (onlyIn_refCheck ..), wordsOnly_settle (wordsOnly_refCheck ..)⟩
    · rw [settle_ftl, refCheck_ftl, hgone]
    · rw [getW_settle, refCheck_eq, hgone, hheld, if_pos (by decide)]
      exact bitAt_raiseInt _ .ftl 0 (by decide)

end Sys2Proof.Machine
end

section
/-! SUPPORT. Tickers, captures and slot boundaries (R483 to R486). -/
namespace Sys2Proof.Machine

/-! ### The registers of a ticker -/

theorem tickReg_ne {k x y : Nat} (h : x ≠ y) : tickReg k x ≠ tickReg k y := by
  unfold tickReg winKey reg
  omega

theorem tickReg_ne_reg {k x : Nat} {b : Block} {i y : Nat} (h : x % 0x1000 ≠ y % 0x1000) : tickReg k x ≠ reg b i y := by
  have h4 := pageBase_mod .ftl 4
  have hb := pageBase_mod b i
  unfold tickReg winKey reg
  omega

theorem getD64_setF_other (s : State) {a b : Nat} (lo len v : Nat) (h : b ≠ a) (k : b + 4 ≠ a) :
    getD64 (setF s a lo len v) b = getD64 s b := getD64_setW_other s _ h k

theorem getD64_setF_tickReg (s : State) (k lo len v : Nat) {x : Nat} (h : x ≠ 0x104) (h' : x + 4 ≠ 0x104) :
    getD64 (setF s (tickReg k 0x104) lo len v) (tickReg k x) = getD64 s (tickReg k x) :=
  getD64_setF_other s _ _ _ (tickReg_ne h) (tickReg_ne (k := k) h')

/-! ### A write of T_CTRL (R483) -/

/-- The ticker's mode is ONESHOT. -/
def oneshot (s : State) (k : Nat) : State := setF s (tickReg k 0x104) 1 1 0

/-- The ticker stands armed at T_START. -/
def armed (s : State) (k : Nat) : State :=
  let u := setF (oneshot s k) (tickReg k 0x104) 0 1 1
  { u with ftl := { u.ftl with tickers := mput u.ftl.tickers k (getD64 u (tickReg k 0x108)).toNat } }

theorem tickerCtrl_enable {s : State} {k : Nat} {v : Word} (hv : bitAt v.toNat 0 = true) (hp : bitAt v.toNat 1 = false)
    (hoff : getF s (tickReg k 0x104) 0 1 = 0) : tickerCtrl s k v =
      if (getD64 s (tickReg k 0x110)).toNat ≤ (getW s (tickReg k 0x118)).toNat then raiseErr (oneshot s k) .ftl 5 8 else armed s k := by
  have hperiod : getD64 (oneshot s k) (tickReg k 0x110) = getD64 s (tickReg k 0x110) := getD64_setF_tickReg s k 1 1 0 (by decide) (by decide)
  have hwidth : getW (oneshot s k) (tickReg k 0x118) = getW s (tickReg k 0x118) := getW_setF_other s 1 1 0 (tickReg_ne (by decide))
  have hone : setF s (tickReg k 0x104) 1 1 (b2n false) = oneshot s k := rfl
  simp only [tickerCtrl, hoff, hv, hp, Nat.zero_ne_one, false_and, if_false, Bool.not_true, Bool.false_eq_true, or_false, hone, hperiod, hwidth]
  rfl

theorem tickers_armed (s : State) (k : Nat) : mfind (armed s k).ftl.tickers k = some (getD64 s (tickReg k 0x108)).toNat := by
  have hstart : getD64 (setF (oneshot s k) (tickReg k 0x104) 0 1 1) (tickReg k 0x108) = getD64 s (tickReg k 0x108) := by
    rw [getD64_setF_tickReg _ k 0 1 1 (by decide) (by decide), oneshot, getD64_setF_tickReg _ k 1 1 0 (by decide) (by decide)]
  exact (mfind_mput_same ..).trans (congrArg (fun v : DWord => some v.toNat) hstart)

theorem armed_bus (s : State) (k : Nat) : (armed s k).bus = (setF (oneshot s k) (tickReg k 0x104) 0 1 1).bus := rfl

theorem onlyIn_setF_ftl (s : State) (a lo len v : Nat) (f : Ftl) : OnlyIn [.bus, .ftl] s { setF s a lo len v with ftl := f } :=
  onlyIn_trans (onlyIn_mono (onlyIn_setF s a lo len v) (by simp)) (onlyIn_mono (onlyIn_ftl (setF s a lo len v) f) (by simp))

theorem onlyIn_armed (s : State) (k : Nat) : OnlyIn [.bus, .ftl] s (armed s k) :=
  onlyIn_trans (onlyIn_mono (onlyIn_setF s (tickReg k 0x104) 1 1 0) (by simp)) (onlyIn_setF_ftl (oneshot s k) (tickReg k 0x104) 0 1 1 _)

theorem wordsOnly_armed (s : State) (k : Nat) : WordsOnly [tickReg k 0x104] s (armed s k) :=
  wordsOnly_trans (wordsOnly_setF s (tickReg k 0x104) 1 1 0)
    (wordsOnly_trans (wordsOnly_setF (oneshot s k) (tickReg k 0x104) 0 1 1) (wordsOnly_of_bus (armed_bus s k)))

/-! ### A source of TIMED objects (R486) -/

theorem onlyIn_advanceTimed (s : State) (n : Nat) : OnlyIn [.sync, .sched, .hif] s (advanceTimed s n) := by
  unfold advanceTimed
  dsimp only
  split
  · exact onlyIn_setObj ..
  · exact onlyIn_refl ..

theorem onlyIn_timedSource (s : State) (src : Nat) (p : Option Nat) : OnlyIn [.sync, .sched, .hif] s (timedSource s src p) :=
  onlyIn_foldl onlyIn_advanceTimed _ _

theorem timedSource_bus (s : State) (src : Nat) (p : Option Nat) : (timedSource s src p).bus = s.bus :=
  (onlyIn_timedSource s src p).2 .bus (by decide)

theorem timedSource_ftl (s : State) (src : Nat) (p : Option Nat) : (timedSource s src p).ftl = s.ftl :=
  (onlyIn_timedSource s src p).2 .ftl (by decide)

theorem advanceTimed_parts (s : State) (n : Nat) : (advanceTimed s n).sched.parts = s.sched.parts := by
  unfold advanceTimed
  dsimp only
  split <;> rfl

theorem timedSource_parts (s : State) (src : Nat) (p : Option Nat) : (timedSource s src p).sched.parts = s.sched.parts :=
  foldl_keeps (fun u : State => u.sched.parts) advanceTimed _ s advanceTimed_parts

/-! ### An event of a ticker (R483, R484) -/

/-- The periods of a ticker that have passed since its target. -/
def periodsPast (s : State) (k target : Nat) : Nat :=
  (nowNs s + 2 ^ 64 - target) % 2 ^ 64 / max 1 (getD64 s (tickReg k 0x110)).toNat

/-- T_COUNT, and of a PERIODIC ticker T_MISSED, after the event. -/
def tickCounted (s : State) (k target : Nat) : State :=
  if getF s (tickReg k 0x104) 1 1 = 1 then bump32 (bump64 s (tickReg k 0x120) 1) (tickReg k 0x128) (periodsPast s k target)
  else bump64 s (tickReg k 0x120) 1

/-- The tickers after an event, with the next target of a PERIODIC one. -/
def tickersAfter (u : State) (k next : Nat) (periodic : Prop) [Decidable periodic] : KMap Nat :=
  if periodic then mput u.ftl.tickers k next else mdel u.ftl.tickers k

/-- The next target and the pulses of an event at `now`. -/
def tickMoved (u : State) (k now next : Nat) (periodic : Prop) [Decidable periodic] : State :=
  let width := max 8 (getW u (tickReg k 0x118)).toNat
  { u with ftl := { u.ftl with
    tickers := tickersAfter u k next periodic
    pulses := (outputsOf u k).foldl (fun m o => mput m o ((now + width) % 2 ^ 64)) u.ftl.pulses } }

/-- The time of day and the TIMED objects of an event at `now`. -/
def tickShown (u : State) (k now : Nat) : State :=
  timedSource (if k = 0 ∧ u.ftl.todArmed then
      { u with ftl := { u.ftl with todArmed := false, todSent := u.ftl.todSent ++ [((now + 10000) % 2 ^ 64, todBytes u)] } }
    else u) k none

/-- An event at `now`. -/
def tickFired (u : State) (k now next : Nat) (periodic : Prop) [Decidable periodic] : State :=
  tickShown (tickMoved u k now next periodic) k now

theorem tickerEvent_eq {s : State} {k target : Nat} (h : mfind s.ftl.tickers k = some target) (hat : reached (nowNs s) target = true) :
    tickerEvent s k = tickFired (tickCounted s k target) k (nowNs s)
      ((target + (periodsPast s k target + 1) * (getD64 s (tickReg k 0x110)).toNat) % 2 ^ 64) (getF s (tickReg k 0x104) 1 1 = 1) := by
  simp only [tickerEvent, h, hat, Bool.not_true, Bool.false_eq_true, if_false]
  rfl

/-- What an event keeps of the fantail, with `tk` the tickers after it: the registers and the time. -/
structure Ticked (s : State) (tk : KMap Nat) (u : State) : Prop where
  bus : u.bus = s.bus
  tickers : u.ftl.tickers = tk
  time : ftlT u = ftlT s

theorem Ticked.tod {s u : State} {tk : KMap Nat} (h : Ticked s tk u) (c : Prop) [Decidable c] (a : Bool) (l : List (Nat × List Byte)) :
    Ticked s tk (if c then { u with ftl := { u.ftl with todArmed := a, todSent := l } } else u) := by
  split
  · exact ⟨h.bus, h.tickers, h.time⟩
  · exact h

theorem Ticked.timed {s u : State} {tk : KMap Nat} (h : Ticked s tk u) (src : Nat) (p : Option Nat) : Ticked s tk (timedSource u src p) :=
  ⟨(timedSource_bus u src p).trans h.bus, (congrArg Ftl.tickers (timedSource_ftl u src p)).trans h.tickers,
    by rw [ftlT, timedSource_ftl, ← ftlT, h.time]⟩

theorem tickMoved_ticked (u : State) (k now next : Nat) (periodic : Prop) [Decidable periodic] :
    Ticked u (tickersAfter u k next periodic) (tickMoved u k now next periodic) := ⟨rfl, rfl, rfl⟩

theorem tickFired_ticked (u : State) (k now next : Nat) (periodic : Prop) [Decidable periodic] :
    Ticked u (tickersAfter u k next periodic) (tickFired u k now next periodic) := by
  unfold tickFired tickShown
  exact ((tickMoved_ticked u k now next periodic).tod ..).timed ..

theorem tickCounted_ftl (s : State) (k target : Nat) : (tickCounted s k target).ftl = s.ftl := by
  unfold tickCounted
  split
  · rw [bump32_ftl, bump64_ftl]
  · rw [bump64_ftl]

theorem getD64_tickCounted (s : State) (k target : Nat) :
    getD64 (tickCounted s k target) (tickReg k 0x120) = getD64 s (tickReg k 0x120) + 1 := by
  unfold tickCounted
  split
  · have h := getD64_setW_other (bump64 s (tickReg k 0x120) 1) (a := tickReg k 0x128) (b := tickReg k 0x120)
      (satAdd32 (getW (bump64 s (tickReg k 0x120) 1) (tickReg k 0x128)) (periodsPast s k target))
      (tickReg_ne (by decide)) (tickReg_ne (k := k) (x := 0x124) (by decide))
    exact h.trans (getD64_bump64_same ..)
  · exact getD64_bump64_same ..

/-! ### A capture (R484) -/

/-- Register of a capture. -/
def capReg (n : Nat) : Nat := reg .ftl 5 (0x120 + 16 * n)

/-- OVERRUN of a capture whose last time was not read. -/
def overrun (s : State) (n : Nat) : State := if mget false s.ftl.unread n then setF s (capReg n + 8) 31 1 1 else s

/-- The capture of a time: CAPn and the count of its edges. -/
def captured (u : State) (n : Nat) (t : DWord) : State :=
  setF (setD64 u (capReg n) t) (capReg n + 8) 0 16 (getF (setD64 u (capReg n) t) (capReg n + 8) 0 16 + 1)

/-- The capture stands unread, and its TIMED objects advance. -/
def captureGiven (u : State) (n : Nat) : State :=
  timedSource { u with ftl := { u.ftl with unread := mset false u.ftl.unread n true } } (17 + n) none

theorem overrun_ftl (s : State) (n : Nat) : (overrun s n).ftl = s.ftl := by
  unfold overrun
  split
  · exact (onlyIn_setF s (capReg n + 8) 31 1 1).2 .ftl (by decide)
  · rfl

theorem ppsEdge_eq (s : State) (n : Nat) : ppsEdge s n = captureGiven (captured (overrun s n) n (BitVec.ofNat 64 (nowNs s))) n := by
  rw [← nowNs_congr (overrun_ftl s n)]
  rfl

theorem captured_ftl (u : State) (n : Nat) (t : DWord) : (captured u n t).ftl = u.ftl := rfl

theorem getD64_captured (u : State) (n : Nat) (t : DWord) : getD64 (captured u n t) (capReg n) = t := by
  rw [captured, getD64_setF_other _ _ _ _ (by omega) (by omega), getD64_setD64_same]

theorem overrun_captured (u : State) (n : Nat) (t : DWord) :
    getF (captured u n t) (capReg n + 8) 31 1 = getF u (capReg n + 8) 31 1 := by
  rw [captured, getF_setF_field _ _ _ _ _ _ _ (by decide) (by decide), getF, getW_setD64_other _ _ (by omega) (by omega), getF]

theorem overrun_set {s : State} {n : Nat} (h : mget false s.ftl.unread n = true) : getF (overrun s n) (capReg n + 8) 31 1 = 1 := by
  exact (congrArg (fun u => getF u _ 31 1) (if_pos h)).trans (getF_setF_same s _ 31 1 1 (by decide))

theorem captureGiven_bus (u : State) (n : Nat) : (captureGiven u n).bus = u.bus := timedSource_bus ..

theorem captureGiven_unread (u : State) (n : Nat) : mget false (captureGiven u n).ftl.unread n = true := by
  rw [captureGiven, timedSource_ftl]
  exact mget_mset_same false u.ftl.unread n true

theorem ftlT_captureGiven (u : State) (n : Nat) : ftlT (captureGiven u n) = ftlT u := by
  rw [ftlT, captureGiven, timedSource_ftl]
  rfl

/-! ### A slot boundary (R486) -/

theorem slotBoundary_eq {s : State} {p : Nat} (hr : isRadio s p = true) (hat : reached (nowNs s) (getPart s p).slots = true) :
    slotBoundary s p = timedSource (setPart s p { getPart s p with slots := nextBoundary s p (nowNs s) }) 16 (some p) := by
  simp only [slotBoundary, hr, hat, Bool.not_true, Bool.false_eq_true, or_self, if_false]

/-! ### The statement -/

/-- Settles O51: each command by the registers, targets and captures it writes; a source of TIMED objects moves none of them. -/
theorem tickersAndCapturesGiveEvents : Obligations.TickersAndCapturesGiveEvents := by
  refine fun s => ⟨fun v k hready hv hp hk hoff => ?_, fun k target h hat => ?_, fun n e h hat => ?_, fun n => ?_, fun p hr hat => ?_⟩
  · -- T_CTRL enables a ticker
    have hexec : exec (.tickerEnable v) s = done (tickerCtrl s k v) := by
      rw [hk]
      exact congrArg done (if_pos hready)
    rw [hexec, tickerCtrl_enable hv hp hoff]
    refine ⟨fun hlt => ?_, fun hle => ?_⟩
    · rw [if_neg (by omega)]
      refine ⟨_, rfl, ?_, ?_, onlyIn_settle (onlyIn_armed s k), wordsOnly_settle (wordsOnly_armed s k)⟩
      · rw [settle_ftl, tickers_armed]
      · rw [getF_settle, getF_congr (armed_bus s k)]
        exact getF_setF_same _ _ 0 1 1 (by decide)
    · rw [if_pos hle]
      refine ⟨_, rfl, ?_, ?_, onlyIn_settle (onlyIn_trans (onlyIn_setF s (tickReg k 0x104) 1 1 0) (onlyIn_raiseErr (oneshot s k) .ftl 5 8))⟩
      · rw [getF_settle, getF, getW_raiseErr _ _ _ _ _ (tickReg_ne_reg (by decide)), if_neg (tickReg_ne_reg (by decide)), ← getF, oneshot,
          getF_setF_field _ _ _ _ _ _ _ (by decide) (by decide), hoff]
      · rw [getW_settle]
        exact bitAt_raiseErr _ _ _ (by decide)
  · -- the target of a ticker has come
    obtain ⟨hbus, htickers, htime⟩ := tickFired_ticked (tickCounted s k target) k (nowNs s)
      ((target + (periodsPast s k target + 1) * (getD64 s (tickReg k 0x110)).toNat) % 2 ^ 64) (getF s (tickReg k 0x104) 1 1 = 1)
    rw [tickersAfter, tickCounted_ftl] at htickers
    refine ⟨_, congrArg done (tickerEvent_eq h hat), ?_, fun hone => ?_, fun hper => ?_, ?_⟩
    · rw [getD64_settle, getD64_congr hbus, getD64_tickCounted]
    · rw [settle_ftl, htickers, if_neg (by omega), mfind_mdel_same]
    · rw [settle_ftl, htickers, if_pos hper, mfind_mput_same, periodsPast]
    · rw [ftlT_settle, htime, ftlT, tickCounted_ftl, ← ftlT]
  · -- a pulse ends
    have hend : pulseEnd s n = { s with ftl := { s.ftl with pulses := mdel s.ftl.pulses n } } := by
      simp only [pulseEnd, h, hat, if_true]
    exact ⟨_, congrArg done hend, (congrArg (fun f : Ftl => mfind f.pulses n) (settle_ftl _)).trans (mfind_mdel_same ..),
      fun m hm => (congrArg (fun f : Ftl => mfind f.pulses m) (settle_ftl _)).trans (mfind_mdel_other _ hm), onlyIn_settle (onlyIn_ftl ..)⟩
  · -- an edge on TIME_PPS_INn
    refine ⟨_, congrArg done (ppsEdge_eq s n), ?_, fun hun => ?_, ?_, ?_⟩
    · rw [getD64_settle, getD64_congr (captureGiven_bus ..)]
      exact getD64_captured ..
    · rw [getF_settle, getF_congr (captureGiven_bus ..)]
      exact (overrun_captured ..).trans (overrun_set hun)
    · rw [settle_ftl, captureGiven_unread]
    · rw [ftlT_settle, ftlT_captureGiven, ftlT, captured_ftl, overrun_ftl, ← ftlT]
  · -- a slot boundary
    refine ⟨_, congrArg done (slotBoundary_eq hr hat), ?_, ?_⟩
    · rw [getPart, settle_sched, timedSource_parts, ← getPart, getPart_setPart_same]
    · rw [ftlT_settle, ftlT, timedSource_ftl]
      rfl

end Sys2Proof.Machine
end

section
/-! SUPPORT. Commands of the ownership table (R345, R350 to R353, R557): the entries they read, mark and write, and the memory they zero. -/
namespace Sys2Proof.Machine

/-! ### A fold over items with keys of their own -/

/-- What an item's turn sets stays set: no other item's turn disturbs it, or what it needs beforehand. -/
theorem foldl_reaches {α β : Type} {f : β → α → β} {key : α → Nat} {P Q : α → β → Prop} (hset : ∀ s x, Q x s → P x (f s x))
    (hP : ∀ s x y, key x ≠ key y → P x s → P x (f s y)) (hQ : ∀ s x y, key x ≠ key y → Q x s → Q x (f s y)) (l : List α)
    (hd : (l.map key).Nodup) {x : α} (hx : x ∈ l) (s : β) (hq : Q x s) : P x (l.foldl f s) := by
  induction l generalizing s with
  | nil => cases hx
  | cons y r ih =>
    rw [List.map_cons, List.nodup_cons] at hd
    obtain ⟨hy, hd⟩ := hd
    rw [List.foldl_cons]
    rcases List.mem_cons.mp hx with rfl | hx
    · have hkeep : ∀ (l : List α) (s : β), (∀ z ∈ l, key x ≠ key z) → P x s → P x (l.foldl f s) := fun l s hl h =>
        List.foldlRecOn l f h fun s hs z hz => hP s x z (hl z hz) hs
      exact hkeep r _ (fun z hz h => hy (h ▸ List.mem_map_of_mem hz)) (hset s x hq)
    · exact ih hd hx _ (hQ s x y (fun h => hy (h ▸ List.mem_map_of_mem hx)) hq)

theorem mem_granules {first n g : Nat} : g ∈ granules first n ↔ first ≤ g ∧ g < first + n := by
  simp only [granules, List.mem_map, List.mem_range]
  refine ⟨fun ⟨i, hi, h⟩ => by omega, fun h => ⟨g - first, by omega, by omega⟩⟩

theorem length_granules (first n : Nat) : (granules first n).length = n := by simp [granules]

section
variable {first n : Nat} {old : List Word} (h : old.length = n)
include h

theorem keys_granules_zip : ((granules first n).zip old).map Prod.fst = granules first n :=
  List.map_fst_zip (by rw [length_granules, h])

theorem nodup_granules_zip : (((granules first n).zip old).map Prod.fst).Nodup := by
  rw [keys_granules_zip h, granules]
  exact List.nodup_range.map fun i j hij => by omega

theorem mem_granules_zip {i : Nat} (hi : i < n) : (first + i, old.getD i 0) ∈ (granules first n).zip old := by
  refine List.mem_iff_getElem.mpr ⟨i, by simp [length_granules]; omega, ?_⟩
  rw [List.getElem_zip]
  simp [granules, h, hi]

theorem granules_of_mem_zip {x : Nat × Word} (hx : x ∈ (granules first n).zip old) : x.1 ∈ granules first n := by
  rw [← keys_granules_zip h]
  exact List.mem_map_of_mem hx

end

/-! ### Entries -/

theorem ownA_putEntry_same (s : State) (g : Nat) (w : Word) : ownA (putEntry s g w) g = w := mget_mset_same ..

theorem ownB_putEntry_same (s : State) (g : Nat) (w : Word) : ownB (putEntry s g w) g = w := mget_mset_same ..

theorem ownA_putEntry_other (s : State) {g h : Nat} (w : Word) (hne : h ≠ g) : ownA (putEntry s g w) h = ownA s h := mget_mset_other _ _ _ _ hne

theorem ownB_putEntry_other (s : State) {g h : Nat} (w : Word) (hne : h ≠ g) : ownB (putEntry s g w) h = ownB s h := mget_mset_other _ _ _ _ hne

theorem onlyIn_putEntry (s : State) (g : Nat) (w : Word) : OnlyIn [.mem] s (putEntry s g w) := onlyIn_mem s _

theorem entState_withState (w : Word) {st : Nat} (h : st < 4) : entState (withState w st) = st := by
  have hb := putBits_lt (v := st) (lo := 6) (len := 2) w.isLt (by decide)
  rw [entState, withState, BitVec.toNat_ofNat, Nat.mod_eq_of_lt hb, bitsAt_putBits_same]
  exact Nat.mod_eq_of_lt h

/-! ### Reading the entries of a command (R347) -/

/-- The offsets at which a look into the ownership table may write a page. -/
def lookupOffsets : List Nat := [0x108, 0x10C, 0x18, 0x14, 0x180, 0x12C, 0x130, 0x134] ++ faultOffsets

theorem lookupOffsets_mod : ∀ x ∈ lookupOffsets, x % 0x1000 ∈ lookupOffsets := by decide

section
variable {b : Block} {i o : Nat} (ho : o % 0x1000 ∉ lookupOffsets)
include ho

theorem reg_ne_lookup {c : Block} {j x : Nat} (hx : x ∈ lookupOffsets) : reg b i o ≠ reg c j x :=
  reg_ne_of_offset fun h => ho (h ▸ lookupOffsets_mod x hx)

theorem not_fault_of_lookup : o % 0x1000 ∉ faultOffsets := fun h => ho (List.mem_append_right _ h)

theorem not_record_of_lookup : reg b i o ∉ recordWords := by
  simp only [recordWords, List.mem_cons, List.not_mem_nil, or_false, not_or]
  exact ⟨reg_ne_lookup ho (by decide), reg_ne_lookup ho (by decide), reg_ne_lookup ho (by decide), reg_ne_lookup ho (by decide)⟩

theorem getW_ownConflict (s : State) (g : Nat) : getW (ownConflict s g) (reg b i o) = getW s (reg b i o) := by
  unfold ownConflict
  dsimp only
  rw [getW_raiseInt, if_neg (reg_ne_lookup ho (by decide)), getW_errRecord _ _ _ _ _ _ _ _ (not_record_of_lookup ho),
    getW_faultAll _ _ _ _ _ _ _ (not_fault_of_lookup ho)]
  rfl

theorem getW_tableCopy (s : State) (g : Nat) : getW (tableCopy s g) (reg b i o) = getW s (reg b i o) := by
  rw [tableCopy, getW_errRecord _ _ _ _ _ _ _ _ (not_record_of_lookup ho), getW_raiseErr _ _ _ _ _ (reg_ne_lookup ho (by decide)),
    if_neg (reg_ne_lookup ho (by decide))]

theorem getW_reserveLost (s : State) : getW (reserveLost s) (reg b i o) = getW s (reg b i o) := by
  unfold reserveLost requireReset
  dsimp only
  rw [getW_setDevState_other _ _ (reg_ne_lookup ho (by decide)) (reg_ne_lookup ho (by decide)),
    getW_faultAll _ _ _ _ _ _ _ (not_fault_of_lookup ho)]
  split
  · exact getW_setF_other _ _ _ _ (reg_ne_lookup ho (by decide))
  · rw [getW_raiseInt, if_neg (reg_ne_lookup ho (by decide))]
    exact getW_setF_other _ _ _ _ (reg_ne_lookup ho (by decide))

theorem getW_ownLookup (s : State) (g : Nat) : getW (ownLookup s g).2 (reg b i o) = getW s (reg b i o) := by
  have hcount : getW (bump64 s (reg .own 3 0x108) 1) (reg b i o) = getW s (reg b i o) :=
    getW_setD64_other _ _ (reg_ne_lookup ho (by decide)) (reg_ne_lookup ho (c := .own) (j := 3) (x := 0x10C) (by decide))
  unfold ownLookup
  split
  · rfl
  · split
    · rfl
    · dsimp only
      split
      · split
        · exact hcount
        · exact (getW_ownConflict ho _ g).trans hcount
      · exact (getW_tableCopy ho _ g).trans hcount
      · exact (getW_tableCopy ho _ g).trans hcount
      · exact (getW_reserveLost ho _).trans hcount

theorem getW_readEntries (gs : List Nat) (s : State) : getW (readEntries gs s).2 (reg b i o) = getW s (reg b i o) := by
  induction gs generalizing s with
  | nil => rfl
  | cons g r ih =>
    have hlook := getW_ownLookup (b := b) (i := i) ho s g
    unfold readEntries
    dsimp only
    split
    · exact hlook
    · have hrest := (ih (ownLookup s g).2).trans hlook
      split
      next hr => rwa [hr] at hrest
      next => exact hrest

end

theorem length_readEntries {gs : List Nat} {s u : State} {old : List Word} (h : readEntries gs s = (some old, u)) : old.length = gs.length := by
  induction gs generalizing s u old with
  | nil =>
    cases h
    rfl
  | cons g r ih =>
    unfold readEntries at h
    dsimp only at h
    split at h
    · cases h
    · split at h
      next l v hr =>
        cases h
        rw [List.length_cons, ih hr, List.length_cons]
      next hr => exact absurd h (hr _ _)

/-! ### A command that begins (R351 step 2) -/

/-- The granules of a command in transfer. -/
def marked (op first count : Nat) (old : List Word) (u : State) : State := ((granules first count).zip old).foldl (inTransfer op) u

theorem inTransfer_keeps (op : Nat) (s : State) (x : Nat × Word) : OnlyIn [.mem] s (inTransfer op s x)
    ∧ (inTransfer op s x).mem.fenced = s.mem.fenced
    ∧ ∀ g, g ≠ x.1 → ownA (inTransfer op s x) g = ownA s g ∧ ownB (inTransfer op s x) g = ownB s g := by
  unfold inTransfer
  split
  · exact ⟨onlyIn_refl .., rfl, fun _ _ => ⟨rfl, rfl⟩⟩
  · exact ⟨onlyIn_putEntry .., rfl, fun g hg => ⟨ownA_putEntry_other _ _ hg, ownB_putEntry_other _ _ hg⟩⟩

theorem inTransfer_marks {op : Nat} {s : State} {x : Nat × Word} (h : ¬ (op = 3 ∧ mget false s.mem.fenced x.1 = true)) :
    entState (ownA (inTransfer op s x) x.1) = 3 ∧ entState (ownB (inTransfer op s x) x.1) = 3 := by
  rw [inTransfer, if_neg h, ownA_putEntry_same, ownB_putEntry_same]
  exact ⟨entState_withState _ (by decide), entState_withState _ (by decide)⟩

theorem onlyIn_marked (op first count : Nat) (old : List Word) (u : State) : OnlyIn [.mem] u (marked op first count old u) :=
  onlyIn_foldl (fun s x => (inTransfer_keeps op s x).1) _ u

theorem marked_entries {op first count : Nat} {old : List Word} (u : State) (h : old.length = count) {g : Nat} (hg : g ∈ granules first count)
    (hf : ¬ (op = 3 ∧ mget false u.mem.fenced g = true)) :
    entState (ownA (marked op first count old u) g) = 3 ∧ entState (ownB (marked op first count old u) g) = 3 := by
  obtain ⟨hlo, hhi⟩ := mem_granules.mp hg
  have hx := mem_granules_zip (first := first) h (show g - first < count by omega)
  rw [show first + (g - first) = g by omega] at hx
  refine foldl_reaches (f := inTransfer op) (key := Prod.fst) (P := fun x s => entState (ownA s x.1) = 3 ∧ entState (ownB s x.1) = 3)
    (Q := fun x s => ¬ (op = 3 ∧ mget false s.mem.fenced x.1 = true)) (fun s x => inTransfer_marks) (fun s x y hne hP => ?_)
    (fun s x y hne hQ => ?_) _ (nodup_granules_zip h) hx u hf
  · obtain ⟨hA, hB⟩ := (inTransfer_keeps op s y).2.2 x.1 hne
    rwa [hA, hB]
  · rwa [(inTransfer_keeps op s y).2.1]

theorem marked_other {op first count : Nat} {old : List Word} (u : State) (h : old.length = count) {g : Nat} (hg : g ∉ granules first count) :
    ownA (marked op first count old u) g = ownA u g ∧ ownB (marked op first count old u) g = ownB u g :=
  List.foldlRecOn (motive := fun t => ownA t g = ownA u g ∧ ownB t g = ownB u g) _ _ ⟨rfl, rfl⟩ fun s ⟨hA, hB⟩ x hx => by
    obtain ⟨hA', hB'⟩ := (inTransfer_keeps op s x).2.2 g fun e => hg (e ▸ granules_of_mem_zip h hx)
    exact ⟨hA'.trans hA, hB'.trans hB⟩

/-- The command in progress. -/
def inProgress (t : State) (c : OwnCmd) : State := { t with mem := { t.mem with cmd := some c } }

theorem inProgress_spec (t : State) (c : OwnCmd) : OnlyIn [.mem] t (inProgress t c) ∧ (inProgress t c).mem.cmd = some c
    ∧ ∀ g, ownA (inProgress t c) g = ownA t g ∧ ownB (inProgress t c) g = ownB t g :=
  ⟨onlyIn_mem t _, rfl, fun _ => ⟨rfl, rfl⟩⟩

section
variable {s : State} {op first count : Nat} {w : Word} (sig : Bool) (hready : pageReady s .own 0 = true) (hidle : s.mem.cmd = none)
  (hfirst : first = getF s (reg .own 0 0x104) 0 24) (hcount : count = getF s (reg .own 0 0x108) 0 17) (hw : w = getW s (reg .own 0 0x10C))
include hready hidle hfirst hcount hw

/-- The checks of a command, in their order (R352). -/
theorem ownCommand_eq : ownCommand s op sig =
    if count = 0 ∨ 65536 < count ∨ 16777216 < first + count then ownEnd s 4 0
    else if op ≠ 3 ∧ badEntry w then ownEnd s 1 0
    else if op ≠ 3 ∧ (granules first count).any (keyRefused s op w) then ownEnd s 2 0
    else if (granules first count).any ownFixed then ownEnd s 3 0
    else match readEntries (granules first count) s with
      | (none, s) => ownEnd s 5 0
      | (some old, s) => inProgress (marked op first count old s)
          ⟨op, first, count, w, if sig then some (getF (marked op first count old s) (reg .own 0 0x110) 0 16) else none, old⟩ := by
  subst hfirst hcount hw
  unfold ownCommand gated
  rw [if_pos hready]
  beta_reduce
  rw [hidle, Option.isSome_none, if_neg Bool.false_ne_true]
  rfl

theorem ownCommand_begins {old : List Word} {u : State} (hone : 1 ≤ count) (hmax : count ≤ 65536) (hrange : first + count ≤ 16777216)
    (hentry : op ≠ 3 → badEntry w = false ∧ ∀ g ∈ granules first count, keyRefused s op w g = false)
    (hfixed : ∀ g ∈ granules first count, ownFixed g = false) (hread : readEntries (granules first count) s = (some old, u)) :
    ownCommand s op sig = inProgress (marked op first count old u)
      ⟨op, first, count, w, if sig then some (getF s (reg .own 0 0x110) 0 16) else none, old⟩ := by
  have hbus : getF (marked op first count old u) (reg .own 0 0x110) 0 16 = getF s (reg .own 0 0x110) 0 16 := by
    have h := getW_readEntries (b := .own) (i := 0) (o := 0x110) (by decide) (granules first count) s
    rw [hread] at h
    rw [getF_congr ((onlyIn_marked op first count old u).2 .bus (by decide)), getF, h, getF]
  have hkey : op ≠ 3 → (granules first count).any (keyRefused s op w) = false := fun h => List.any_eq_false.mpr fun g hg => by
    simp [(hentry h).2 g hg]
  have hfix : (granules first count).any ownFixed = false := List.any_eq_false.mpr fun g hg => by simp [hfixed g hg]
  rw [ownCommand_eq sig hready hidle hfirst hcount hw, if_neg (by omega), if_neg fun h => by simp [(hentry h.1).1] at h,
    if_neg fun h => by simp [hkey h.1] at h, if_neg (by simp [hfix]), hread]
  dsimp only
  rw [hbus]

theorem ownCommand_refused {code : Nat} (h : (count = 0 ∨ 65536 < count ∨ 16777216 < first + count) ∧ code = 4
    ∨ 1 ≤ count ∧ count ≤ 65536 ∧ first + count ≤ 16777216 ∧
      (op ≠ 3 ∧ badEntry w = true ∧ code = 1
      ∨ op ≠ 3 ∧ badEntry w = false ∧ (∃ g ∈ granules first count, keyRefused s op w g = true) ∧ code = 2
      ∨ (op ≠ 3 → badEntry w = false ∧ ∀ g ∈ granules first count, keyRefused s op w g = false)
        ∧ (∃ g ∈ granules first count, ownFixed g = true) ∧ code = 3)) : ownCommand s op sig = ownEnd s code 0 := by
  rw [ownCommand_eq sig hready hidle hfirst hcount hw]
  obtain ⟨hbad, rfl⟩ | ⟨hone, hmax, hrange, h⟩ := h
  · rw [if_pos hbad]
  rw [if_neg (by omega)]
  obtain ⟨hop, hbad, rfl⟩ | ⟨hop, hgood, hkey, rfl⟩ | ⟨hentry, hfix, rfl⟩ := h
  · rw [if_pos ⟨hop, hbad⟩]
  · rw [if_neg (by simp [hgood]), if_pos ⟨hop, List.any_eq_true.mpr hkey⟩]
  · have hkey : op ≠ 3 → (granules first count).any (keyRefused s op w) = false := fun h => List.any_eq_false.mpr fun g hg => by
      simp [(hentry h).2 g hg]
    rw [if_neg fun h => by simp [(hentry h.1).1] at h, if_neg fun h => by simp [hkey h.1] at h, if_pos (List.any_eq_true.mpr hfix)]

end

/-! ### A command that ends (R351, R359) -/

theorem ownEnd_spec (s : State) (code n : Nat) : getW (ownEnd s code n) (reg .own 0 0x114) = BitVec.ofNat 32 code
    ∧ getW (ownEnd s code n) (reg .own 0 0x118) = BitVec.ofNat 32 n ∧ bitAt (getW (ownEnd s code n) (reg .own 0 0x20)).toNat 1 = true
    ∧ OnlyIn [.bus] s (ownEnd s code n) ∧ WordsOnly [reg .own 0 0x114, reg .own 0 0x118, reg .own 0 0x20] s (ownEnd s code n) := by
  refine ⟨?_, ?_, bitAt_raiseInt _ .own 0 (by decide), onlyIn_trans (onlyIn_trans (onlyIn_setW s _ _) (onlyIn_setW (setW s _ _) _ _)) (onlyIn_raiseInt ..),
    wordsOnly_trans (wordsOnly_trans (wordsOnly_mono (wordsOnly_setW s _ _) (by simp)) (wordsOnly_mono (wordsOnly_setW (setW s _ _) _ _) (by simp)))
      (wordsOnly_mono (wordsOnly_raiseInt ..) (by simp))⟩
  · rw [ownEnd, getW_raiseInt, if_neg (by decide), getW_setW_other _ _ (by decide), getW_setW_same]
  · rw [ownEnd, getW_raiseInt, if_neg (by decide), getW_setW_same]

/-! ### Memory of one granule -/

theorem onlyIn_grn (s : State) (g : Granary) : OnlyIn [.grn] s { s with grn := g } := by
  refine ⟨rfl, fun c hc => ?_⟩
  cases c <;> first | rfl | exact absurd List.mem_cons_self hc

theorem length_freeBlock (s : State) : (freeBlock s).1.length = 16 := by simp [freeBlock]

/-- What emptying a granule changes: the cells, keys and errors of its lines, beside the granary, the registers and the free values. -/
structure InGranule (g : Nat) (s t : State) : Prop where
  frame : OnlyIn [.mem, .grn, .bus, .fresh] s t
  mem : t.mem = { s.mem with cells := t.mem.cells, lineKey := t.mem.lineKey, errs := t.mem.errs }
  cells : ∀ a, a / 16384 ≠ g → mget 0 t.mem.cells a = mget 0 s.mem.cells a

theorem InGranule.refl (g : Nat) (s : State) : InGranule g s s := ⟨onlyIn_refl .., rfl, fun _ _ => rfl⟩

theorem InGranule.trans {g : Nat} {s t u : State} (h : InGranule g s t) (k : InGranule g t u) : InGranule g s u :=
  ⟨onlyIn_trans h.frame k.frame, by rw [k.mem, h.mem], fun a ha => (k.cells a ha).trans (h.cells a ha)⟩

theorem InGranule.foldl {α : Type} {g : Nat} {f : State → α → State} (l : List α) (h : ∀ s, ∀ x ∈ l, InGranule g s (f s x)) (s : State) :
    InGranule g s (l.foldl f s) :=
  List.foldlRecOn (motive := InGranule g s) l f (.refl g s) fun t ht x hx => ht.trans (h t x hx)

theorem InGranule.of_mem_eq {g : Nat} {s t : State} (h : OnlyIn [.mem, .grn, .bus, .fresh] s t) (hm : t.mem = s.mem) : InGranule g s t :=
  ⟨h, by rw [hm], fun _ _ => by rw [hm]⟩

theorem InGranule.errsClear (g : Nat) (s : State) (ln : Nat) : InGranule g s (errsClear s ln) :=
  ⟨onlyIn_mono (onlyIn_mem s _) (by simp), rfl, fun _ _ => rfl⟩

theorem InGranule.linePut (s : State) {g ln : Nat} (key : Nat) (l : List Byte) (h : ln / 256 = g) : InGranule g s (linePut s ln key l) :=
  ⟨onlyIn_mono (onlyIn_mem s _) (by simp), rfl, fun a ha => mget_linePut_other s ln key l a (by omega)⟩

theorem InGranule.cellsWrite (s : State) {g ln b n : Nat} {l : List Byte} (hl : l.length = 16) (hb : b < 4) (h : ln / 256 = g) :
    InGranule g s { s with freshNo := n, mem := { s.mem with cells := cellsWrite s.mem.cells (ln * 64 + 16 * b) l } } := by
  refine ⟨⟨rfl, fun c hc => ?_⟩, rfl, fun a ha => ?_⟩
  · cases c
    case fresh | mem => exact absurd hc (by decide)
    all_goals rfl
  · exact (mget_cellsWrite ..).trans (if_neg (by omega))

theorem InGranule.garble (s : State) {g ln : Nat} (hit : Nat → Bool) (h : ln / 256 = g) : InGranule g s (garble s ln hit) := by
  refine InGranule.foldl _ (fun s b hb => ?_) s
  have hb4 : b < 4 := by
    simp only [List.mem_cons, List.not_mem_nil, or_false] at hb
    omega
  dsimp only
  split
  · exact InGranule.cellsWrite s (length_freeBlock s) hb4 h
  · exact .refl ..

theorem InGranule.grnDrop (s : State) {g key : Nat} (h : key / 64 / 256 = g) : InGranule g s (grnDrop s key) := by
  unfold Machine.grnDrop
  split
  next => exact .refl ..
  next x _ =>
    have hgone : InGranule g s { s with grn := { s.grn with lines := mdel s.grn.lines key } } :=
      .of_mem_eq (onlyIn_mono (onlyIn_grn s _) (by simp)) rfl
    refine hgone.trans ?_
    generalize { s with grn := { s.grn with lines := mdel s.grn.lines key } } = u
    dsimp only
    split
    · exact (InGranule.of_mem_eq (onlyIn_mono (onlyIn_setF u _ _ _ _) (by simp)) rfl).trans (.garble _ _ h)
    · split
      · exact (InGranule.errsClear g u (key / 64)).trans (.of_mem_eq (onlyIn_mono (onlyIn_bump64 ..) (by simp)) rfl)
      · exact .refl ..

theorem InGranule.grnDropAll (g : Nat) (s : State) : InGranule g s (grnDropAll s fun k _ => k / 64 / 256 = g) := by
  refine InGranule.foldl _ (fun s k hk => .grnDrop s ?_) s
  obtain ⟨e, he, rfl⟩ := List.mem_map.mp hk
  exact of_decide_eq_true (List.mem_filter.mp he).2

theorem InGranule.zeroGranule (s : State) (g k : Nat) : InGranule g s (zeroGranule s g k) :=
  InGranule.foldl _ (fun s i hi => (InGranule.linePut s _ _ (by rw [List.mem_range] at hi; omega)).trans (.errsClear ..)) s

/-! A granule without lost lines is emptied without a change of memory. -/

/-- No line of the granary is LOST. -/
def NoLost (s : State) : Prop := ∀ e ∈ s.grn.lines, e.2.lost = false

theorem NoLost.congr {s t : State} (h : NoLost s) (hg : t.grn = s.grn) : NoLost t := fun e he => h e (hg ▸ he)

theorem grnDrop_noLost {s : State} (h : NoLost s) (key : Nat) : NoLost (grnDrop s key) ∧ (grnDrop s key).mem.cells = s.mem.cells := by
  unfold grnDrop
  split
  next => exact ⟨h, rfl⟩
  next x hx =>
    have hnot : x.lost = false := h _ (mem_of_mfind hx)
    have hgone : NoLost { s with grn := { s.grn with lines := mdel s.grn.lines key } } := fun e he => h e (List.mem_of_mem_filter he)
    dsimp only
    rw [hnot, if_neg Bool.false_ne_true]
    split
    · exact ⟨hgone.congr rfl, rfl⟩
    · exact ⟨hgone, rfl⟩

theorem grnDropAll_noLost {s : State} (h : NoLost s) (p : Nat → GLine → Bool) :
    NoLost (grnDropAll s p) ∧ (grnDropAll s p).mem.cells = s.mem.cells :=
  List.foldlRecOn (motive := fun t => NoLost t ∧ t.mem.cells = s.mem.cells) _ _ ⟨h, rfl⟩ fun t ⟨ht, hc⟩ k _ => by
    obtain ⟨hn, he⟩ := grnDrop_noLost ht k
    exact ⟨hn, he.trans hc⟩

/-! A zeroed granule. -/

theorem errsClear_cells (s : State) (ln : Nat) : (errsClear s ln).mem.cells = s.mem.cells := rfl

theorem mget_zeroLine (s : State) (ln key : Nat) {a : Nat} (h : a / 64 = ln ∨ mget 0 s.mem.cells a = 0) :
    mget 0 (errsClear (linePut s ln key []) ln).mem.cells a = 0 := by
  have hzero : sliceB ([] : List Byte) 0 64 = List.replicate 64 0 := rfl
  rw [errsClear_cells]
  simp only [linePut, mget_cellsWrite, hzero, List.length_replicate]
  split
  · exact List.getD_replicate _ (by omega)
  · exact h.resolve_left (by omega)

theorem zeroGranule_zero (s : State) {g a : Nat} (k : Nat) (h : a / 16384 = g) : mget 0 (zeroGranule s g k).mem.cells a = 0 := by
  have hi : a / 64 - g * 256 ∈ List.range 256 := List.mem_range.mpr (by omega)
  have hd : ((List.range 256).map id).Nodup := by simpa using List.nodup_range
  unfold zeroGranule
  generalize List.range 256 = l at hi hd
  exact foldl_reaches (f := fun s i => errsClear (linePut s (g * 256 + i) ((slotKey _ k).getD 0) []) (g * 256 + i)) (key := id)
    (P := fun i t => a / 64 = g * 256 + i → mget 0 t.mem.cells a = 0) (Q := fun _ _ => True)
    (fun t i _ hai => mget_zeroLine t _ _ (.inl hai)) (fun t i j _ hP hai => mget_zeroLine t _ _ (.inr (hP hai)))
    (fun _ _ _ _ h => h) l hd hi s trivial (by omega)

/-! ### The end of a command (R351 steps 4 to 6) -/

/-- A granule whose entry is written: its memory first emptied, zeroed for SET_ZERO, and its fence lifted. -/
def finished (c : OwnCmd) (u : State) (x : Nat × Word) : State :=
  let w := newEntry c.op x.2 c.entry
  let v := if c.op = 2 ∧ x.1 < 8781824 then zeroGranule u x.1 (entKey w) else u
  putEntry { v with mem := { v.mem with fenced := mset false v.mem.fenced x.1 false } } x.1 w

theorem finishGranule_eq (c : OwnCmd) (s : State) (x : Nat × Word) : finishGranule c s x =
    if c.op = 3 ∧ mget false s.mem.fenced x.1 = true then grnDropAll s (fun k _ => k / 64 / 256 = x.1)
    else finished c (grnDropAll s (fun k _ => k / 64 / 256 = x.1)) x := by
  have hf : (grnDropAll s (fun k _ => k / 64 / 256 = x.1)).mem.fenced = s.mem.fenced := by
    rw [(InGranule.grnDropAll x.1 s).mem]
  rw [← hf]
  rfl

/-- What the turn of one granule leaves: the others' entries, fences and bytes. -/
structure OneGranule (g : Nat) (s t : State) : Prop where
  frame : OnlyIn [.mem, .grn, .bus, .fresh] s t
  cmd : t.mem.cmd = s.mem.cmd
  ownA : ∀ k, k ≠ g → ownA t k = ownA s k
  ownB : ∀ k, k ≠ g → ownB t k = ownB s k
  fenced : ∀ k, k ≠ g → mget false t.mem.fenced k = mget false s.mem.fenced k
  cells : ∀ a, a / 16384 ≠ g → mget 0 t.mem.cells a = mget 0 s.mem.cells a

theorem InGranule.one {g : Nat} {s t : State} (h : InGranule g s t) : OneGranule g s t where
  frame := h.frame
  cmd := by rw [h.mem]
  ownA k _ := by rw [Machine.ownA, h.mem, Machine.ownA]
  ownB k _ := by rw [Machine.ownB, h.mem, Machine.ownB]
  fenced k _ := by rw [h.mem]
  cells := h.cells

theorem OneGranule.trans {g : Nat} {s t u : State} (h : OneGranule g s t) (k : OneGranule g t u) : OneGranule g s u :=
  ⟨onlyIn_trans h.frame k.frame, k.cmd.trans h.cmd, fun n hn => (k.ownA n hn).trans (h.ownA n hn), fun n hn => (k.ownB n hn).trans (h.ownB n hn),
    fun n hn => (k.fenced n hn).trans (h.fenced n hn), fun a ha => (k.cells a ha).trans (h.cells a ha)⟩

/-- The zeroing of a SET_ZERO. -/
theorem zeroed_inGranule (c : OwnCmd) (u : State) (x : Nat × Word) (k : Nat) :
    InGranule x.1 u (if c.op = 2 ∧ x.1 < 8781824 then zeroGranule u x.1 k else u) := by
  split
  · exact .zeroGranule ..
  · exact .refl ..

theorem putEntry_one (v : State) (g : Nat) (w : Word) :
    OneGranule g v (putEntry { v with mem := { v.mem with fenced := mset false v.mem.fenced g false } } g w) where
  frame := onlyIn_mono (onlyIn_trans (onlyIn_mem v _) (onlyIn_putEntry { v with mem := { v.mem with fenced := mset false v.mem.fenced g false } } g w)) (by simp)
  cmd := rfl
  ownA _ hk := ownA_putEntry_other _ w hk
  ownB _ hk := ownB_putEntry_other _ w hk
  fenced _ hk := mget_mset_other false false v.mem.fenced false hk
  cells _ _ := rfl

theorem finishGranule_one (c : OwnCmd) (s : State) (x : Nat × Word) : OneGranule x.1 s (finishGranule c s x) := by
  rw [finishGranule_eq]
  have hdrop := (InGranule.grnDropAll x.1 s).one
  split
  · exact hdrop
  · exact hdrop.trans ((zeroed_inGranule c _ x _).one.trans (putEntry_one ..))

theorem cells_finished (c : OwnCmd) (u : State) (x : Nat × Word) : (finished c u x).mem.cells =
    (if c.op = 2 ∧ x.1 < 8781824 then zeroGranule u x.1 (entKey (newEntry c.op x.2 c.entry)) else u).mem.cells := rfl

theorem grn_finished (c : OwnCmd) (u : State) (x : Nat × Word) : (finished c u x).grn =
    (if c.op = 2 ∧ x.1 < 8781824 then zeroGranule u x.1 (entKey (newEntry c.op x.2 c.entry)) else u).grn := rfl

theorem fenced_finished (c : OwnCmd) (u : State) (x : Nat × Word) : mget false (finished c u x).mem.fenced x.1 = false :=
  mget_mset_same false _ x.1 false

section
variable {c : OwnCmd} {s : State} {x : Nat × Word}

theorem finishGranule_sets (h : ¬ (c.op = 3 ∧ mget false s.mem.fenced x.1 = true)) :
    ownA (finishGranule c s x) x.1 = newEntry c.op x.2 c.entry ∧ ownB (finishGranule c s x) x.1 = newEntry c.op x.2 c.entry
    ∧ mget false (finishGranule c s x).mem.fenced x.1 = false := by
  rw [finishGranule_eq, if_neg h]
  exact ⟨ownA_putEntry_same .., ownB_putEntry_same .., fenced_finished ..⟩

theorem finishGranule_zero (hop : c.op = 2) (hx : x.1 < 8781824) {a : Nat} (ha : a / 16384 = x.1) :
    mget 0 (finishGranule c s x).mem.cells a = 0 := by
  have hnot : ¬ (c.op = 3 ∧ mget false s.mem.fenced x.1 = true) := fun h => absurd (hop.symm.trans h.1) (by decide)
  rw [finishGranule_eq, if_neg hnot, cells_finished, if_pos ⟨hop, hx⟩]
  exact zeroGranule_zero _ _ ha

theorem finishGranule_cells (hop : c.op ≠ 2) (h : NoLost s) :
    NoLost (finishGranule c s x) ∧ (finishGranule c s x).mem.cells = s.mem.cells := by
  have hdrop := grnDropAll_noLost h (fun k _ => k / 64 / 256 = x.1)
  rw [finishGranule_eq]
  split
  · exact hdrop
  · rw [cells_finished, if_neg fun h => hop h.1]
    exact ⟨hdrop.1.congr (by rw [grn_finished, if_neg fun h => hop h.1]), hdrop.2⟩

end

/-- The entries of a command, all written. -/
def allFinished (c : OwnCmd) (s : State) : State :=
  ((granules c.first c.count).zip c.old).foldl (finishGranule c) { s with mem := { s.mem with cmd := none } }

/-- The signal that a command was given for its end (R351). -/
def signalled (s : State) : Option Nat → State
  | some n => signalExt s n false 1
  | none => s

theorem ownDone_eq {s : State} {c : OwnCmd} (h : s.mem.cmd = some c) : ownDone s = signalled (ownEnd (allFinished c s) 0 c.count) c.sig := by
  rw [ownDone, h]
  rfl

theorem onlyIn_signalExt (s : State) (n : Nat) (set : Bool) (v : Word) : OnlyIn [.sync, .sched, .hif, .bus] s (signalExt s n set v) := by
  unfold signalExt
  split
  · exact onlyIn_mono (onlyIn_setObj ..) (by simp)
  · exact onlyIn_mono (onlyIn_trans (onlyIn_bump32 ..) (onlyIn_raiseErr ..)) (by simp)

theorem wordsOnly_signalExt (s : State) (n : Nat) (set : Bool) (v : Word) :
    WordsOnly [reg .syn 0 0x114, reg .syn 0 0x18, reg .syn 0 0x20] s (signalExt s n set v) := by
  unfold signalExt
  split
  · exact wordsOnly_of_bus rfl
  · exact wordsOnly_trans (wordsOnly_mono (wordsOnly_setW s _ _) (by simp)) (wordsOnly_mono (wordsOnly_raiseErr ..) (by simp))

theorem signalled_keeps (s : State) (x : Option Nat) : OnlyIn [.sync, .sched, .hif, .bus] s (signalled s x) := by
  cases x with
  | none => exact onlyIn_refl ..
  | some n => exact onlyIn_signalExt ..

theorem getW_signalled (s : State) (x : Option Nat) {a : Nat} (h : a ∉ [reg .syn 0 0x114, reg .syn 0 0x18, reg .syn 0 0x20]) :
    getW (signalled s x) a = getW s a := by
  cases x with
  | none => rfl
  | some n => exact (wordsOnly_signalExt s n false 1).1 a h

theorem cmdCleared_frame (s : State) : OnlyIn [.mem, .grn, .bus, .fresh] s { s with mem := { s.mem with cmd := none } } :=
  onlyIn_mono (onlyIn_mem s _) (by simp)

theorem onlyIn_allFinished (c : OwnCmd) (s : State) : OnlyIn [.mem, .grn, .bus, .fresh] s (allFinished c s) :=
  onlyIn_trans (cmdCleared_frame s) (onlyIn_foldl (fun s x => (finishGranule_one c s x).frame) _ _)

theorem cmd_allFinished (c : OwnCmd) (s : State) : (allFinished c s).mem.cmd = none :=
  foldl_keeps (fun t : State => t.mem.cmd) _ _ _ fun s x => (finishGranule_one c s x).cmd

section
variable {c : OwnCmd} (s : State) (hlen : c.old.length = c.count)
include hlen

theorem allFinished_entry {i : Nat} (hi : i < c.count) (hf : ¬ (c.op = 3 ∧ mget false s.mem.fenced (c.first + i) = true)) :
    ownA (allFinished c s) (c.first + i) = newEntry c.op (c.old.getD i 0) c.entry
    ∧ ownB (allFinished c s) (c.first + i) = newEntry c.op (c.old.getD i 0) c.entry
    ∧ mget false (allFinished c s).mem.fenced (c.first + i) = false := by
  refine foldl_reaches (f := finishGranule c) (key := Prod.fst)
    (P := fun x t => ownA t x.1 = newEntry c.op x.2 c.entry ∧ ownB t x.1 = newEntry c.op x.2 c.entry ∧ mget false t.mem.fenced x.1 = false)
    (Q := fun x t => ¬ (c.op = 3 ∧ mget false t.mem.fenced x.1 = true)) (fun _ _ => finishGranule_sets) (fun t x y hne hP => ?_)
    (fun t x y hne hQ => ?_) _ (nodup_granules_zip hlen) (mem_granules_zip hlen hi) { s with mem := { s.mem with cmd := none } } hf
  · have hy := finishGranule_one c t y
    rwa [hy.ownA _ hne, hy.ownB _ hne, hy.fenced _ hne]
  · rwa [(finishGranule_one c t y).fenced _ hne]

theorem allFinished_other {g : Nat} (hg : g ∉ granules c.first c.count) :
    ownA (allFinished c s) g = ownA s g ∧ ownB (allFinished c s) g = ownB s g :=
  List.foldlRecOn (motive := fun t => ownA t g = ownA s g ∧ ownB t g = ownB s g) _ _ ⟨rfl, rfl⟩ fun t ⟨hA, hB⟩ x hx => by
    have hne : g ≠ x.1 := fun e => hg (e ▸ granules_of_mem_zip hlen hx)
    have hy := finishGranule_one c t x
    exact ⟨(hy.ownA g hne).trans hA, (hy.ownB g hne).trans hB⟩

theorem allFinished_zero (hop : c.op = 2) {i j : Nat} (hi : i < c.count) (hlow : c.first + i < 8781824) (hj : j < 16384) :
    mget 0 (allFinished c s).mem.cells ((c.first + i) * 16384 + j) = 0 := by
  refine foldl_reaches (f := finishGranule c) (key := Prod.fst) (P := fun x t => x.1 < 8781824 → mget 0 t.mem.cells (x.1 * 16384 + j) = 0)
    (Q := fun _ _ => True) (fun t x _ hx => finishGranule_zero hop hx (by omega)) (fun t x y hne hP hx => ?_) (fun _ _ _ _ h => h)
    _ (nodup_granules_zip hlen) (mem_granules_zip hlen hi) { s with mem := { s.mem with cmd := none } } trivial hlow
  rw [(finishGranule_one c t y).cells _ (by omega), hP hx]

end

theorem allFinished_cells {c : OwnCmd} {s : State} (hop : c.op ≠ 2) (h : NoLost s) : (allFinished c s).mem.cells = s.mem.cells :=
  (List.foldlRecOn (motive := fun t => NoLost t ∧ t.mem.cells = s.mem.cells) ((granules c.first c.count).zip c.old) (finishGranule c)
    (b := { s with mem := { s.mem with cmd := none } }) ⟨h.congr rfl, rfl⟩ fun t ⟨ht, hc⟩ x _ => by
      obtain ⟨hn, he⟩ := finishGranule_cells (x := x) hop ht
      exact ⟨hn, he.trans hc⟩).2

/-! ### The statement -/

/-- Settles O37: the checks in their order, then a turn of each granule that disturbs no other granule. -/
theorem ownershipCommandsCheckThenRewriteEntries : Obligations.OwnershipCommandsCheckThenRewriteEntries := by
  refine ⟨fun s sig first count w hready hidle hfirst hcount hw c op hc => ?_, fun s c hcmd hlen _ => ?_⟩
  · have hexec : exec c s = done (ownCommand s op sig) := by
      simp only [List.mem_cons, List.not_mem_nil, or_false] at hc
      obtain ⟨rfl, rfl⟩ | ⟨rfl, rfl⟩ | ⟨rfl, rfl⟩ := hc <;> rfl
    refine ⟨fun old u hone hmax hrange hentry hfixed hread => ?_, fun code h => ?_⟩
    · -- the command stands in progress
      have hl : old.length = count := (length_readEntries hread).trans (length_granules ..)
      obtain ⟨hframe, hstands, hent⟩ := inProgress_spec (marked op first count old u)
        ⟨op, first, count, w, if sig then some (getF s (reg .own 0 0x110) 0 16) else none, old⟩
      refine ⟨_, hexec.trans (congrArg done (ownCommand_begins sig hready hidle hfirst hcount hw hone hmax hrange hentry hfixed hread)), ?_,
        fun g hg hf => ?_, fun g hg => ?_, onlyIn_settle (onlyIn_trans (onlyIn_marked ..) hframe)⟩
      · rw [settle_mem, hstands]
      · rw [ownA, ownB, settle_mem, ← ownA, ← ownB, (hent g).1, (hent g).2]
        exact marked_entries u hl hg hf
      · rw [ownA, ownB, settle_mem, ← ownA, ← ownB, (hent g).1, (hent g).2]
        exact marked_other u hl hg
    · -- the command is refused
      obtain ⟨hcode, hcnt, hint, hframe, hwords⟩ := ownEnd_spec s code 0
      exact ⟨_, hexec.trans (congrArg done (ownCommand_refused sig hready hidle hfirst hcount hw h)), (getW_settle ..).trans hcode,
        (getW_settle ..).trans hcnt, by rwa [getW_settle], onlyIn_settle hframe, wordsOnly_settle hwords⟩
  · -- the command ends
    obtain ⟨hcode, hcnt, hint, hend, -⟩ := ownEnd_spec (allFinished c s) 0 c.count
    have hsig := signalled_keeps (ownEnd (allFinished c s) 0 c.count) c.sig
    have hmem : (settle (signalled (ownEnd (allFinished c s) 0 c.count) c.sig)).mem = (allFinished c s).mem := by
      rw [settle_mem, hsig.2 .mem (by decide), hend.2 .mem (by decide)]
    have hA (g : Nat) : ownA (settle (signalled (ownEnd (allFinished c s) 0 c.count) c.sig)) g = ownA (allFinished c s) g := by
      rw [ownA, hmem, ownA]
    have hB (g : Nat) : ownB (settle (signalled (ownEnd (allFinished c s) 0 c.count) c.sig)) g = ownB (allFinished c s) g := by
      rw [ownB, hmem, ownB]
    refine ⟨_, congrArg done (ownDone_eq hcmd), ?_, fun i hi hf => ?_, fun g hg => ?_, fun hop i j hi hlow hj => ?_, fun hop hl => ?_, ?_, ?_, ?_,
      fun hnone => ?_, fun n o hn ho => ?_⟩
    · rw [hmem, cmd_allFinished]
    · rw [hA, hB, hmem]
      exact allFinished_entry s hlen hi hf
    · rw [hA, hB]
      exact allFinished_other s hlen hg
    · rw [hmem]
      exact allFinished_zero s hlen hop hi hlow hj
    · rw [hmem]
      exact allFinished_cells hop hl
    · exact (getW_settle ..).trans ((getW_signalled _ _ (by decide)).trans hcode)
    · exact (getW_settle ..).trans ((getW_signalled _ _ (by decide)).trans hcnt)
    · exact (congrArg (fun w : Word => bitAt w.toNat 1) ((getW_settle ..).trans (getW_signalled _ _ (by decide)))).trans hint
    · rw [hnone]
      exact onlyIn_settle (onlyIn_trans (onlyIn_allFinished c s) (onlyIn_mono hend (by simp)))
    · have hsync : (ownEnd (allFinished c s) 0 c.count).sync = s.sync :=
        (hend.2 .sync (by decide)).trans ((onlyIn_allFinished c s).2 .sync (by decide))
      rw [getObj_congr (settle_sync _), hn, signalled, signalExt_of_done ((congrArg (sigObj · false 1) (getObj_congr hsync n)).trans ho),
        getObj_setObj_same]

end Sys2Proof.Machine
end

section
/-! SUPPORT. Host accesses to device memory, and what the scrub finds (R341, R349, R354, R357, R378, R557 to R559). -/
namespace Sys2Proof.Machine

/-! ### Faults and error records leave memory alone -/

theorem onlyIn_recordFault (s : State) (cid : Nat) (c : Ctx) (code eng step : Nat) : OnlyIn [.sched, .bus] s (recordFault s cid c code eng step) :=
  onlyIn_trans (onlyIn_mono (onlyIn_sched s _) (by simp)) (onlyIn_mono (onlyIn_trans (onlyIn_trans (onlyIn_setW { s with sched := _ } _ _)
    (onlyIn_bump32 ..)) (onlyIn_raiseInt ..)) (by simp))

theorem onlyIn_ctxFault (s : State) (cid code eng step : Nat) : OnlyIn [.sched, .mills, .bus, .gov] s (ctxFault s cid code eng step) := by
  by_cases hgone : mfind s.sched.ctxs cid = none ∨ (getCtx s cid).killed = true
  · rw [ctxFault_of_gone _ _ _ hgone]
    exact onlyIn_refl ..
  · obtain ⟨hne, hk⟩ := not_or.mp hgone
    obtain ⟨c, hc⟩ := Option.ne_none_iff_exists'.mp hne
    rw [getCtx_of_listed hc, Bool.not_eq_true] at hk
    rw [ctxFault_eq _ _ _ hc hk]
    exact onlyIn_trans (placeFault_charge ..).2 (onlyIn_mono (onlyIn_recordFault ..) (by simp))

theorem onlyIn_faultAll (s : State) (p : Ctx → Bool) (code eng step : Nat) : OnlyIn [.sched, .mills, .bus, .gov] s (faultAll s p code eng step) :=
  onlyIn_foldl (fun s c => onlyIn_ctxFault s c code eng step) _ s

theorem onlyIn_rep (s : State) (r : Rep) : OnlyIn [.rep] s { s with rep := r } := by
  refine ⟨rfl, fun c hc => ?_⟩
  cases c <;> first | rfl | exact absurd List.mem_cons_self hc

/-- A record held; the oldest of 1,024 leaves. -/
def recHeld (s : State) (r : ErrRec) : State :=
  { s with rep := { s.rep with recs := (if 1024 ≤ s.rep.recs.length then s.rep.recs.drop 1 else s.rep.recs) ++ [r], nextSeq := s.rep.nextSeq + 1 } }

/-- A record counted, and the one it overwrote. -/
def recCounted (s : State) (full : Prop) [Decidable full] : State :=
  raiseInt (bump64 (if full then bump32 s (reg .rep 1 0x12C) 1 else s) (reg .rep 1 0x130) 1) .rep 0 1

theorem onlyIn_recCounted (s : State) (full : Prop) [Decidable full] : OnlyIn [.bus] s (recCounted s full) :=
  onlyIn_trans (onlyIn_trans (onlyIn_ite (onlyIn_bump32 s _ _) (onlyIn_refl _ s)) (onlyIn_bump64 (if full then _ else s) _ _)) (onlyIn_raiseInt ..)

theorem errRecord_eq (s : State) (b : Block) (inst kind sev part addr detail : Nat) : errRecord s b inst kind sev part addr detail =
    recCounted (recHeld s ⟨nowNs s, s.rep.nextSeq % 2 ^ 32, b.code, inst, kind, sev, part, addr, detail⟩) (1024 ≤ s.rep.recs.length) := rfl

/-- A record is noted; of the repair state only the records and their number change. -/
theorem errRecord_spec (s : State) (b : Block) (inst kind sev part addr detail : Nat) :
    OnlyIn [.rep, .bus] s (errRecord s b inst kind sev part addr detail) ∧ (errRecord s b inst kind sev part addr detail).rep =
      { s.rep with recs := (errRecord s b inst kind sev part addr detail).rep.recs, nextSeq := s.rep.nextSeq + 1 } := by
  have hcount (u : State) (full : Prop) [Decidable full] : (recCounted u full).rep = u.rep := (onlyIn_recCounted u full).2 .rep (by decide)
  rw [errRecord_eq, hcount]
  exact ⟨onlyIn_trans (onlyIn_mono (onlyIn_rep s _) (by simp)) (onlyIn_mono (onlyIn_recCounted (recHeld s _) _) (by simp)), rfl⟩

/-! ### A table conflict (R557 to R559) -/

/-- A conflict of a table: the contexts it names fault, and it is recorded and raised. -/
def conflictNoted (s : State) (p : Ctx → Bool) (part addr detail : Nat) : State :=
  raiseInt (errRecord (faultAll s p cfTableConflict 0 0) .rep 0 5 1 part addr detail) .rep 0 4

section
variable (s : State) (p : Ctx → Bool) (part addr detail : Nat)

theorem onlyIn_conflictNoted : OnlyIn [.sched, .mills, .bus, .gov, .rep] s (conflictNoted s p part addr detail) :=
  onlyIn_trans (onlyIn_mono (onlyIn_faultAll s p ..) (by simp)) (onlyIn_trans (onlyIn_mono (errRecord_spec ..).1 (by simp))
    (onlyIn_mono (onlyIn_raiseInt ..) (by simp)))

theorem conflictNoted_rep : (conflictNoted s p part addr detail).rep =
    { s.rep with recs := (conflictNoted s p part addr detail).rep.recs, nextSeq := s.rep.nextSeq + 1 } := by
  have hint : (conflictNoted s p part addr detail).rep = (errRecord (faultAll s p cfTableConflict 0 0) .rep 0 5 1 part addr detail).rep :=
    raiseInt_rep ..
  have hfault : (faultAll s p cfTableConflict 0 0).rep = s.rep := (onlyIn_faultAll s p ..).2 .rep (by decide)
  rw [hint, ← hfault]
  exact (errRecord_spec ..).2

theorem conflictNoted_int : bitAt (getW (conflictNoted s p part addr detail) (reg .rep 0 0x20)).toNat 4 = true :=
  bitAt_raiseInt _ .rep 0 (by decide)

theorem conflictNoted_killed {k : Nat} {c : Ctx} (hc : mfind s.sched.ctxs k = some c) (hp : p c = true) :
    (getCtx (conflictNoted s p part addr detail) k).killed = true := by
  have hsched : (conflictNoted s p part addr detail).sched = (faultAll s p cfTableConflict 0 0).sched :=
    (raiseInt_sched ..).trans ((errRecord_spec ..).1.2 .sched (by decide))
  have hfaulted : mfind (conflictNoted s p part addr detail).sched.ctxs k = some c.faulted := by
    rw [hsched]
    exact mfind_faultAll _ _ _ hc hp
  rw [getCtx_of_listed hfaulted]
  exact killed_faulted c

end

/-! ### Host accesses (R341, R349, R378) -/

/-- The line with the bit errors that an access meets. -/
def withUpset (s : State) (ln upset : Nat) : State := if upset = 0 then s else errsAdd s ln upset

section
variable {s u w : State} {ln upset : Nat}

theorem hostMemRead_of_readable (h : hostReaches (withUpset s ln upset) ln = (true, u)) (hd : dramLine u ln 63 = (.ok, w)) :
    hostMemRead s ln upset = answer w (some (linePlain w ln (lineTerms w ln).2.1)) := by
  rw [withUpset] at h
  simp only [hostMemRead, h, hd]

theorem hostMemRead_of_bad (h : hostReaches (withUpset s ln upset) ln = (true, u)) (hd : dramLine u ln 63 = (.bad, w)) :
    hostMemRead s ln upset = answer (hostUe w ln) (some onesLine) := by
  rw [withUpset] at h
  simp only [hostMemRead, h, hd]

theorem hostMemRead_of_refused (h : hostReaches (withUpset s ln upset) ln = (false, u)) :
    hostMemRead s ln upset = answer (ownFail u (ln / 256) 63 2) (some onesLine) := by
  rw [withUpset] at h
  simp only [hostMemRead, h]

theorem hostMemWrite_of_refused (mask : Nat) (data : Line) (h : hostReaches (withUpset s ln upset) ln = (false, u)) :
    hostMemWrite s ln mask data upset = ownFail u (ln / 256) 63 2 := by
  rw [withUpset] at h
  simp only [hostMemWrite, h]

theorem hostMemWrite_whole {mask : Nat} (data : Line) (hm : mask = 2 ^ 64 - 1) (h : hostReaches (withUpset s ln upset) ln = (true, u)) :
    hostMemWrite s ln mask data upset = linePut (errsClear u ln) ln (lineTerms u ln).2.1 (lineBytes data) := by
  rw [withUpset] at h
  simp only [hostMemWrite, h, if_pos hm]

theorem hostMemWrite_part {mask : Nat} (data : Line) (hm : mask ≠ 2 ^ 64 - 1) (h : hostReaches (withUpset s ln upset) ln = (true, u))
    (hd : dramLine u ln 63 = (.ok, w)) : hostMemWrite s ln mask data upset =
      linePut (errsClear w ln) ln (lineTerms u ln).2.1 (maskBytes mask (linePlain w ln (lineTerms u ln).2.1) (lineBytes data)) := by
  rw [withUpset] at h
  simp only [hostMemWrite, h, hd, if_neg hm]

end

/-- A line that is put: it reads as it was put, and every other byte stays. -/
theorem linePut_spec (s : State) (ln key : Nat) {l : List Byte} (h : l.length = 64) :
    lineCells (settle (linePut (errsClear s ln) ln key l)) ln = l
    ∧ (∀ a : Nat, a / 64 ≠ ln → mget 0 (settle (linePut (errsClear s ln) ln key l)).mem.cells a = mget 0 s.mem.cells a)
    ∧ OnlyIn [.mem] s (settle (linePut (errsClear s ln) ln key l)) := by
  refine ⟨?_, fun a ha => ?_, onlyIn_settle (onlyIn_trans (onlyIn_mem s _) (onlyIn_mem (errsClear s ln) _))⟩
  · rw [lineCells, settle_mem, ← lineCells, lineCells_linePut _ _ _ _ h]
  · rw [settle_mem, mget_linePut_other _ _ _ _ _ (by omega), errsClear_cells]

theorem ownFail_spec (s : State) (g agent kind : Nat) : getW (ownFail s g agent kind) (reg .own 3 0x100) = satAdd32 (getW s (reg .own 3 0x100)) 1
    ∧ OnlyIn [.bus] s (ownFail s g agent kind) :=
  ⟨(getW_setW_other _ _ (by decide)).trans (getW_bump32_same ..), onlyIn_trans (onlyIn_bump32 s _ _) (onlyIn_setW (bump32 s _ _) _ _)⟩

theorem getW_answer (s : State) (x : Option (List Byte)) (a : Nat) : getW (settle (answer s x)) a = getW s a :=
  (getW_settle ..).trans (getW_congr rfl a)

theorem answer_answers (s : State) (a : Option (List Byte)) : (settle (answer s a)).hif.answers = s.hif.answers ++ [a] :=
  congrArg Hif.answers (settle_hif _)

theorem hostUe_spec (s : State) (ln : Nat) : (hostUe s ln).hif = { s.hif with ras := some (ln * 64) }
    ∧ bitAt (getW (hostUe s ln) (reg .hif 0 0x20)).toNat 1 = true ∧ OnlyIn [.hif, .bus] s (hostUe s ln) := by
  refine ⟨?_, bitAt_raiseInt s .hif 0 (by decide), onlyIn_trans (onlyIn_mono (onlyIn_raiseInt s .hif 0 1) (by simp))
    (onlyIn_mono (onlyIn_hif (raiseInt s .hif 0 1) _) (by simp))⟩
  unfold hostUe
  dsimp only
  rw [raiseInt_hif]

/-! ### The scrub (R342, R557 to R559) -/

theorem scrubRead_running {s : State} (x : ScrubItem) (hrate : getF s (reg .mem 0 0x108) 0 8 ≠ 0) (hup : deviceUp s = true) :
    scrubRead s x = match x with
      | .line ln pat => scrubLine s ln.toNat pat.toNat
      | .own g diff ue => scrubOwn s g.toNat diff ue.toNat
      | .part p a b => scrubPart s p a.toNat b.toNat
      | .dutchman i b => scrubDutchman s i b := by
  unfold scrubRead
  exact if_neg (by simp [hrate, hup])

/-- The last line, whose errors the read takes away. -/
theorem scrubLine_last {s : State} {ln pat : Nat} (hp : mget 0 s.mem.errs ln = pat) (hln : ln = lastLine) :
    scrubLine s ln pat = bump32 (errsAdd s ln pat) (reg .mem 0 0x10C) 1 := by
  have hclean : mget 0 (errsAdd s ln pat).mem.errs ln = 0 := by
    refine (mget_mset_same ..).trans ?_
    rw [hp, Nat.xor_self, Nat.zero_mod]
  have hread : eccRead (errsAdd s ln pat) ln = (.clean, errsAdd s ln pat) := by
    unfold eccRead
    dsimp only
    rw [hclean, if_pos rfl]
  unfold scrubLine
  dsimp only
  rw [hread, if_pos hln]

theorem errsAdd_same {s : State} {ln pat : Nat} (hp : mget 0 s.mem.errs ln = pat) : mget 0 (errsAdd s ln pat).mem.errs ln = 0 := by
  refine (mget_mset_same ..).trans ?_
  rw [hp, Nat.xor_self, Nat.zero_mod]

/-- The entry as the scrub reads it: its second copy differs in `diff`. -/
def entryRead (s : State) (g : Nat) (diff : Word) : State :=
  let u := setOwnB s g (ownB s g ^^^ diff)
  ownUncache { u with mem := { u.mem with tblUe := mset 0 u.mem.tblUe g 0 } } g

theorem entryRead_copies (s : State) (g : Nat) (diff : Word) : ownA (entryRead s g diff) g = ownA s g
    ∧ ownB (entryRead s g diff) g = ownB s g ^^^ diff :=
  ⟨rfl, mget_mset_same (ownDefault g) s.mem.ownB g (ownB s g ^^^ diff)⟩

/-- A granule fenced for a conflict. -/
def fenced (s : State) (g : Nat) : State := { s with mem := { s.mem with fenced := mset false s.mem.fenced g true } }

theorem ownConflict_eq (s : State) (g : Nat) : ownConflict s g = conflictNoted (fenced s g)
    (fun c => c.part = entOwner (ownA s g) ∨ c.part = entOwner (ownB s g)) 62 g ((ownA s g ^^^ ownB s g).toNat % 2 ^ 24 * 2 ^ 8) := rfl

theorem scrubOwn_conflict {s : State} {g : Nat} {d : Word} (hfix : ownFixed g = false) (hfen : mget false s.mem.fenced g = false)
    (hne : ownA s g ≠ ownB s g ^^^ d) : scrubOwn s g d 0 = ownConflict (entryRead s g d) g := by
  have hcopies : ownB (setOwnB s g (ownB s g ^^^ d)) g = ownB s g ^^^ d := mget_mset_same ..
  unfold scrubOwn
  rw [hfix, hfen, if_neg (by simp)]
  dsimp only
  exact if_neg fun h => hne (h.trans hcopies)

theorem scrubOwn_conflict_spec {s : State} {g : Nat} {d : Word} (hfix : ownFixed g = false) (hfen : mget false s.mem.fenced g = false)
    (hne : ownA s g ≠ ownB s g ^^^ d) : mget false (scrubOwn s g d 0).mem.fenced g = true
      ∧ bitAt (getW (scrubOwn s g d 0) (reg .rep 0 0x20)).toNat 4 = true
      ∧ ownA (scrubOwn s g d 0) g = ownA s g ∧ ownB (scrubOwn s g d 0) g = ownB s g ^^^ d := by
  obtain ⟨hA, hB⟩ := entryRead_copies s g d
  rw [scrubOwn_conflict hfix hfen hne, ownConflict_eq]
  have hmem := (onlyIn_conflictNoted (fenced (entryRead s g d) g)
    (fun c => c.part = entOwner (ownA (entryRead s g d) g) ∨ c.part = entOwner (ownB (entryRead s g d) g)) 62 g
    ((ownA (entryRead s g d) g ^^^ ownB (entryRead s g d) g).toNat % 2 ^ 24 * 2 ^ 8)).2 .mem (by decide)
  refine ⟨?_, conflictNoted_int .., ?_, ?_⟩
  · rw [hmem]
    exact mget_mset_same false (entryRead s g d).mem.fenced g true
  · rw [ownA, hmem]
    exact hA
  · rw [ownB, hmem]
    exact hB

/-- The other partitions that a copy names (R558). -/
def namedToo (s : State) (p a b : Nat) : List Nat := mkeys (fun q x => q ≠ p && (x.mills &&& (a ||| b)) ≠ 0) s.sched.parts

/-- The conflicts noted: that of the partition, and those of the ones it names. -/
def conflictsWith (s : State) (p a b : Nat) : KMap (Nat × Nat) :=
  (namedToo s p a b).foldl (fun m q => mput m q ((mfind m q).getD ((getPart s q).mills, (getPart s q).mills))) (mput s.rep.partConf p (a, b))

theorem mfind_conflictsWith (s : State) (p a b : Nat) : mfind (conflictsWith s p a b) p = some (a, b) :=
  List.foldlRecOn (motive := fun m => mfind m p = some (a, b)) _ _ (mfind_mput_same ..) fun m hm q hq => by
    obtain ⟨e, he, rfl⟩ := List.mem_map.mp hq
    have hne : e.1 ≠ p := by
      have h := (List.mem_filter.mp he).2
      simp only [Bool.and_eq_true, decide_eq_true_eq] at h
      exact h.1
    rw [mfind_mput_other _ _ hne.symm, hm]

theorem scrubPart_conflict {s : State} {p a b : Nat} (hne : a ≠ b) (hp : (getPart s p).st ≠ .free) : scrubPart s p a b =
    conflictNoted { s with rep := { s.rep with partConf := conflictsWith s p a b } }
      (fun c => c.part = p || (namedToo s p a b).contains c.part) p p 1 := by
  rw [scrubPart, if_neg (by simp [hne, hp])]
  rfl

theorem scrubDutchman_conflict {s : State} {i : Nat} {b : DtEntry} (hi : i < s.rep.dtB.length) (hne : s.rep.dtB[i]? ≠ some b)
    (hc : dtConflict s i = false) : ∃ p, scrubDutchman s i b =
      conflictNoted { s with rep := { s.rep with dtB := s.rep.dtB.set i b } } p 62 i 2 := by
  rw [scrubDutchman, if_neg (by simp [hc, hne]; omega)]
  exact ⟨_, rfl⟩

/-! ### The statement -/

/-- Settles O38: host accesses by whether they reach their line, events by the register they count in, and the scrub by the item it reads. -/
theorem hostAccessesAndMemoryEventsKeepToTheirLines : Obligations.HostAccessesAndMemoryEventsKeepToTheirLines := by
  refine ⟨fun s v ln upset hv => ?_, fun s => ⟨fun d => ?_, fun p n hr => ?_, fun hready w hw => ⟨fun hfree => ?_, fun hheld => ?_⟩, fun hrate hup =>
    ⟨fun l pat hp hl => ?_, fun g d hfix hfen hne => ?_, fun p a b hne hst => ?_, fun i b hi hne hc => ?_⟩⟩⟩
  · obtain rfl : v = withUpset s ln.toNat upset.toNat := hv
    refine ⟨fun u w h hd => ⟨?_, fun mask data hm => ?_⟩, fun u data h => ?_, fun u mask data h => ⟨?_, ?_⟩, fun u w h hd => ?_⟩
    · exact ⟨_, congrArg done (hostMemRead_of_readable h hd), answer_settle ..⟩
    · exact ⟨_, congrArg done (hostMemWrite_part data hm h hd), linePut_spec _ _ _ (by simp [maskBytes])⟩
    · exact ⟨_, congrArg done (hostMemWrite_whole data BitVec.toNat_allOnes h), linePut_spec _ _ _ (length_toLE ..)⟩
    · obtain ⟨hcount, hframe⟩ := ownFail_spec u (ln.toNat / 256) 63 2
      refine ⟨_, congrArg done (hostMemRead_of_refused h), (answer_answers ..).trans ?_, (getW_answer ..).trans hcount,
        onlyIn_trans (onlyIn_mono hframe (by simp)) (onlyIn_mono (answer_settle (ownFail u (ln.toNat / 256) 63 2) _).2 (by simp))⟩
      rw [hframe.2 .hif (by decide)]
      rfl
    · obtain ⟨hcount, hframe⟩ := ownFail_spec u (ln.toNat / 256) 63 2
      exact ⟨_, congrArg done (hostMemWrite_of_refused _ data h), (settle_mem _).trans (hframe.2 .mem (by decide)),
        (getW_settle ..).trans hcount, onlyIn_settle hframe⟩
    · obtain ⟨hhif, hint, hframe⟩ := hostUe_spec w ln.toNat
      refine ⟨_, congrArg done (hostMemRead_of_bad h hd), (answer_answers ..).trans ?_, ?_, ?_,
        onlyIn_trans hframe (onlyIn_mono (answer_settle (hostUe w ln.toNat) _).2 (by simp))⟩
      · rw [hhif]
        rfl
      · exact (congrArg Hif.ras (settle_hif _)).trans (congrArg Hif.ras hhif)
      · rw [getW_answer]
        exact hint
  · exact ⟨_, rfl, (getW_settle ..).trans (getW_bump32_same ..), onlyIn_settle (onlyIn_bump32 s _ _), wordsOnly_settle (wordsOnly_setW s _ _)⟩
  · exact ⟨_, congrArg done (if_pos hr), (getW_settle ..).trans (getW_bump32_same ..), onlyIn_settle (onlyIn_bump32 s _ _),
      wordsOnly_settle (wordsOnly_setW s _ _)⟩
  · -- ECC_CTRL takes a mode
    have hnone : s.sched.parts.any (fun e => e.2.st ≠ .free) = false := List.any_eq_false.mpr fun e he => by simp [hfree e he]
    have h : eccModeWrite s w = setF s (reg .mem 0 0x104) 0 2 w.toNat := by
      simp only [eccModeWrite, gated, hready, hnone, if_true, if_neg hw, Bool.false_eq_true, if_false]
    exact ⟨_, congrArg done h, (getF_settle ..).trans (getF_setF_same s _ 0 2 _ (by decide)), onlyIn_settle (onlyIn_setF s _ _ _ _),
      wordsOnly_settle (wordsOnly_setF s _ _ _ _)⟩
  · -- ECC_CTRL while a partition exists
    obtain ⟨e, he, hst⟩ := hheld
    have hsome : s.sched.parts.any (fun e => e.2.st ≠ .free) = true := List.any_eq_true.mpr ⟨e, he, by simp [hst]⟩
    have h : eccModeWrite s w = raiseErr s .mem 0 11 := by
      simp only [eccModeWrite, gated, hready, hsome, if_true]
    refine ⟨_, congrArg done h, (getW_settle ..).trans (getW_raiseErr_same ..), (getW_settle ..).trans ?_, onlyIn_settle (onlyIn_raiseErr ..)⟩
    exact (wordsOnly_raiseErr s .mem 0 11).1 _ (by decide)
  · -- the scrub's last line
    refine ⟨_, congrArg done ((scrubRead_running (.line l pat) hrate hup).trans (scrubLine_last hp hl)), ?_,
      (getW_settle ..).trans (getW_bump32_same ..), onlyIn_settle (onlyIn_trans (onlyIn_mono (onlyIn_mem s _) (by simp))
        (onlyIn_mono (onlyIn_bump32 (errsAdd s l.toNat pat.toNat) _ _) (by simp))),
      wordsOnly_settle (wordsOnly_trans (wordsOnly_of_bus rfl) (wordsOnly_setW (errsAdd s l.toNat pat.toNat) _ _))⟩
    rw [settle_mem]
    exact errsAdd_same hp
  · -- an entry whose copies differ
    obtain ⟨hfence, hint, hA, hB⟩ := scrubOwn_conflict_spec hfix hfen hne
    refine ⟨_, congrArg done (scrubRead_running (.own g d 0) hrate hup), ?_, ?_, ?_, ?_⟩
    · rw [settle_mem]
      exact hfence
    · rw [getW_settle]
      exact hint
    · rw [ownA, settle_mem]
      exact hA
    · rw [ownB, settle_mem]
      exact hB
  · -- a partition whose copies differ
    refine ⟨_, congrArg done ((scrubRead_running (.part p a b) hrate hup).trans
      (scrubPart_conflict (fun h => hne (BitVec.eq_of_toNat_eq h)) hst)), ?_, ?_, fun k c hc hp => ?_⟩
    · rw [settle_rep, conflictNoted_rep]
      exact mfind_conflictsWith ..
    · rw [getW_settle]
      exact conflictNoted_int ..
    · rw [getCtx_settle]
      exact conflictNoted_killed { s with rep := _ } _ _ _ _ hc (by simp [hp])
  · -- a dutchman entry whose copies differ
    obtain ⟨p, h⟩ := scrubDutchman_conflict hi hne hc
    refine ⟨_, congrArg done ((scrubRead_running (.dutchman i b) hrate hup).trans h), ?_, ?_, ?_⟩
    · rw [settle_rep, conflictNoted_rep]
    · rw [settle_rep, conflictNoted_rep]
    · rw [getW_settle]
      exact conflictNoted_int ..

end Sys2Proof.Machine
end

section
/-! SUPPORT. The rings of the host interface (R363 to R372, R376): enabling, doorbells, fetches and completion entries. -/
namespace Sys2Proof.Machine

/-! ### Rings and their registers -/

theorem getRing_setRing_other (s : State) {n k : Nat} (r : Ring) (h : k ≠ n) : getRing (setRing s n r) k = getRing s k :=
  mget_mset_other _ _ _ _ h

theorem getRing_congr {s t : State} (h : t.hif.rings = s.hif.rings) (n : Nat) : getRing t n = getRing s n := by
  rw [getRing, h, getRing]

theorem ringReg_ge (n o : Nat) : 2 ^ 26 ≤ ringReg n o := by
  unfold ringReg winKey
  omega

theorem satAdd32_zero (w : Word) : satAdd32 w 0 = w := by
  apply BitVec.eq_of_toNat_eq
  rw [satAdd32, BitVec.toNat_ofNat]
  omega

/-! ### What a read of host memory leaves alone (R374, R376) -/

/-- The offsets of the counters of HIF page 0 that a read of host memory raises. -/
def hostOffsets : List Nat := [0x108, 0x118, 0x11C, 0x120, 0x124]

/-- Rings, the registers that stand for a slice, and those at other offsets stay. -/
structure KeepsRings (s t : State) : Prop where
  frame : OnlyIn [.hif, .bus] s t
  rings : t.hif.rings = s.hif.rings
  words : ∀ a, 2 ^ 26 ≤ a ∨ a % 0x1000 ∉ hostOffsets → getW t a = getW s a

theorem KeepsRings.refl (s : State) : KeepsRings s s := ⟨onlyIn_refl .., rfl, fun _ _ => rfl⟩

theorem KeepsRings.trans {s t u : State} (h : KeepsRings s t) (k : KeepsRings t u) : KeepsRings s u :=
  ⟨onlyIn_trans h.frame k.frame, k.rings.trans h.rings, fun a ha => (k.words a ha).trans (h.words a ha)⟩

theorem KeepsRings.of_hif {s : State} {h : Hif} (hr : h.rings = s.hif.rings) : KeepsRings s { s with hif := h } :=
  ⟨onlyIn_mono (onlyIn_hif s h) (by simp), hr, fun _ _ => rfl⟩

/-- A counter of HIF page 0 is neither a register of a slice nor at another offset. -/
theorem ne_hostReg {a b : Nat} (h : a < 2 ^ 26 ∧ a % 0x1000 ∈ hostOffsets) (hb : 2 ^ 26 ≤ b ∨ b % 0x1000 ∉ hostOffsets) : b ≠ a := by
  rintro rfl
  exact hb.elim (fun hb => Nat.not_lt.mpr hb h.1) fun hb => hb h.2

theorem KeepsRings.bump64 (s : State) {a : Nat} (n : Nat) (h : a < 2 ^ 26 ∧ a % 0x1000 ∈ hostOffsets)
    (h' : a + 4 < 2 ^ 26 ∧ (a + 4) % 0x1000 ∈ hostOffsets) : KeepsRings s (bump64 s a n) :=
  ⟨onlyIn_mono (onlyIn_bump64 ..) (by simp), rfl, fun _ hb => getW_setD64_other _ _ (ne_hostReg h hb) (ne_hostReg h' hb)⟩

theorem KeepsRings.bump32 (s : State) {a : Nat} (n : Nat) (h : a < 2 ^ 26 ∧ a % 0x1000 ∈ hostOffsets) : KeepsRings s (bump32 s a n) :=
  ⟨onlyIn_mono (onlyIn_bump32 ..) (by simp), rfl, fun _ hb => getW_bump32_other _ _ (ne_hostReg h hb)⟩

theorem keepsRings_translate (s : State) (pasid va : Nat) (wr : Bool) (ats : List (Option AtsAns)) :
    KeepsRings s (translate s pasid va wr ats).2.2 := by
  unfold translate
  split
  · exact .refl s
  · split
    · exact .of_hif rfl
    · exact .refl s
    · exact .refl s

theorem keepsRings_hlcRead {s u : State} {ln : Nat} {data rest : List Byte} {l : Line} (h : hlcRead s ln data = some (l, rest, u)) :
    KeepsRings s u := by
  unfold hlcRead at h
  split at h
  · have hu : _ = u := congrArg (fun x : Line × List Byte × State => x.2.2) (Option.some.inj h)
    exact hu ▸ (KeepsRings.bump64 s (a := reg .hif 0 0x118) 1 (by decide) (by decide)).trans (.of_hif rfl)
  · split at h
    · cases h
    · have hu : _ = u := congrArg (fun x : Line × List Byte × State => x.2.2) (Option.some.inj h)
      exact hu ▸ (KeepsRings.bump64 s (a := reg .hif 0 0x120) 1 (by decide) (by decide)).trans (.of_hif rfl)

theorem keepsRings_hostLines (pasid : Nat) (lns : List Nat) (ats : List (Option AtsAns)) (data : List Byte) (s : State) :
    KeepsRings s (hostLines pasid lns ats data s).2 := by
  induction lns generalizing ats data s with
  | nil => exact .refl s
  | cons ln r ih =>
    have htr := keepsRings_translate s pasid (ln * 64) false ats
    unfold hostLines
    split
    next h => rwa [h] at htr
    next hpa rest u h =>
      rw [h] at htr
      split
      · exact htr
      next l d w hl =>
        have hrest := (htr.trans (keepsRings_hlcRead hl)).trans (ih rest d w)
        split
        next h => rwa [h] at hrest
        next => exact hrest

theorem keepsRings_hostRead (s : State) (pasid va n : Nat) (ats : List (Option AtsAns)) (data : List Byte) :
    KeepsRings s (hostRead s pasid va n ats data).2 := by
  have h := keepsRings_hostLines pasid (piecesOf 64 va n) ats data s
  unfold hostRead
  split
  next hl => rwa [hl] at h
  next hl =>
    rw [hl] at h
    exact h.trans (.bump32 _ 1 (by decide))
  next => exact .refl s

theorem KeepsRings.sqSize {s t : State} (h : KeepsRings s t) (n : Nat) : sqSize t n = sqSize s n := by
  rw [Machine.sqSize, getF, h.words _ (.inl (ringReg_ge ..)), ← getF, ← Machine.sqSize]

/-! ### RING_ENABLE and RING_DISABLE (R363) -/

theorem ringDisable_eq {s : State} {n : Nat} (h : (getRing s n).enabled = true) : ringDisable s n =
    setRing (if (getRing s n).held.isEmpty then s else cqDrop s n (getRing s n).held.length) n
      { getRing s n with enabled := false, held := [], entry := none } := by
  simp only [ringDisable, h, Bool.not_true, Bool.false_eq_true, if_false]

theorem onlyIn_cqDrop (s : State) (n k : Nat) : OnlyIn [.bus] s (cqDrop s n k) := onlyIn_bump32 ..

/-- The held entries counted as they are dropped. -/
theorem heldDropped_spec (s : State) (n : Nat) (l : List HeldCpl) :
    getW (if l.isEmpty then s else cqDrop s n l.length) (ringReg n 0x128) = satAdd32 (getW s (ringReg n 0x128)) l.length
    ∧ (if l.isEmpty then s else cqDrop s n l.length).hif = s.hif ∧ OnlyIn [.bus] s (if l.isEmpty then s else cqDrop s n l.length)
    ∧ WordsOnly [ringReg n 0x128] s (if l.isEmpty then s else cqDrop s n l.length) := by
  cases l with
  | nil => exact ⟨(satAdd32_zero _).symm, rfl, onlyIn_refl .., wordsOnly_refl ..⟩
  | cons e r => exact ⟨getW_bump32_same .., bump32_hif .., onlyIn_cqDrop .., wordsOnly_setW ..⟩

/-! ### ENTRY_FETCH (R365, R367) -/

/-- A ring with its entry fetched. -/
def fetched (u : State) (n head : Nat) (e : Option Line) : State := setRing u n { getRing u n with sqHead := head, entry := e }

section
variable {s u : State} {n : Nat} {env : XferEnv} (hmay : mayFetch s n = true)
include hmay

theorem entryFetch_of_ok {l : List Byte}
    (h : hostRead s (getSlice s n).pasid ((getD64 s (ringReg n 0x108)).toNat + 64 * (getRing s n).sqHead) 64 env.ats env.data = (.ok l, u)) :
    entryFetch s n env =
      if entBad (bytesLine l) then completeEntry (fetched u n (((getRing s n).sqHead + 1) % sqSize u n) none) n (entF (bytesLine l) 8 8) 3 0
      else fetched u n (((getRing s n).sqHead + 1) % sqSize u n) (some (bytesLine l)) := by
  simp only [entryFetch, hmay, h, Bool.not_true, Bool.false_eq_true, if_false, fetched]
  split <;> rfl

theorem entryFetch_of_refused
    (h : hostRead s (getSlice s n).pasid ((getD64 s (ringReg n 0x108)).toNat + 64 * (getRing s n).sqHead) 64 env.ats env.data = (.refused, u)) :
    entryFetch s n env = ringXlate u n := by
  simp only [entryFetch, hmay, h, Bool.not_true, Bool.false_eq_true, if_false]

theorem entry_of_mayFetch : (getRing s n).entry = none := by
  unfold mayFetch at hmay
  simp only [Bool.and_eq_true, Option.isNone_iff_eq_none] at hmay
  exact hmay.1.1.1.1.2

end

/-! ### GLOBAL_OBSERVATION_RESPONSE (R371) -/

/-- The oldest write made visible. -/
def madeVisible (u : State) (n : Nat) (w : HostWr) (rest : List HostWr) : State :=
  hostPut (setRing u n { getRing u n with awaiting := rest }) w

/-- The message of a completion entry. -/
def entryMessage (u : State) (n : Nat) (w : HostWr) : State :=
  if w.data.length = 32 ∧ getF u (ringReg n 0x11C) 16 1 = 1 then msixRequest u (getF u (ringReg n 0x11C) 0 11) else u

theorem observed_eq {s u : State} {n : Nat} {w : HostWr} {rest : List HostWr} {ats : List (Option AtsAns)}
    (hw : (getRing s n).awaiting = w :: rest) (hlink : s.hif.linkUp = true)
    (hl : hostWriteLines (getSlice s n).pasid (piecesOf 64 w.addr w.data.length) ats s = (true, u)) :
    observed s n ats = entryMessage (madeVisible u n w rest) n w := by
  simp only [observed, hw, hlink, hl, Bool.not_true, Bool.false_eq_true, if_false]
  rfl

theorem entryMessage_keeps (u : State) (n : Nat) (w : HostWr) : OnlyIn [.bus] u (entryMessage u n w) ∧ WordsOnly [] u (entryMessage u n w) := by
  unfold entryMessage
  split
  · exact ⟨onlyIn_msixRequest .., wordsOnly_msixRequest ..⟩
  · exact ⟨onlyIn_refl .., wordsOnly_refl ..⟩

theorem onlyIn_madeVisible (u : State) (n : Nat) (w : HostWr) (rest : List HostWr) : OnlyIn [.hif] u (madeVisible u n w rest) :=
  onlyIn_trans (onlyIn_setRing u n _) (onlyIn_hif (setRing u n _) _)

/-! ### The statement -/

/-- Settles O39: each command by the ring that it leaves; a read of host memory changes neither the rings nor their registers. -/
theorem ringsFetchEntriesAndPostCompletions : Obligations.RingsFetchEntriesAndPostCompletions := by
  refine ⟨?_, ?_⟩
  · rintro s n v r rfl
    refine ⟨fun hready hsel => ⟨fun hact hoff => ?_, fun hnot => ?_, fun hon => ?_⟩, fun hon => ⟨fun hlt => ?_, fun hge => ?_, fun hheld hfree => ?_⟩,
      fun hmay env u => ⟨fun l hread => ⟨fun hgood => ?_, fun hbad => ?_⟩, fun hread => ?_⟩, fun w hw => ?_, fun h hh => ?_,
      fun w rest ats u hw hlink hl => ?_⟩
    · -- RING_ENABLE
      have h : gated s .hif 1 (fun s => ringEnable s (ringSel s)) =
          setRing s n.toNat { Ring.off with enabled := true, awaiting := (getRing s n.toNat).awaiting } := by
        simp only [gated, hready, if_true, hsel, ringEnable, hact, hoff, ne_eq, not_true_eq_false, if_false, Bool.false_eq_true]
      refine ⟨_, congrArg done h, ?_, fun k hk => ?_, onlyIn_settle (onlyIn_setRing ..)⟩
      · rw [getRing_settle, getRing_setRing_same]
      · rw [getRing_settle, getRing_setRing_other _ _ hk]
    · -- RING_ENABLE of a slice that is not active
      have h : gated s .hif 1 (fun s => ringEnable s (ringSel s)) = raiseErr s .hif 1 9 := by
        simp only [gated, hready, if_true, hsel, ringEnable, ne_eq, hnot, not_false_eq_true]
      exact ⟨_, congrArg done h, (getW_settle ..).trans (getW_raiseErr_same ..), onlyIn_settle (onlyIn_raiseErr ..)⟩
    · -- RING_DISABLE
      have h : gated s .hif 1 (fun s => ringDisable s (ringSel s)) = ringDisable s n.toNat := by
        simp only [gated, hready, if_true, hsel]
      obtain ⟨hcount, hhif, hframe, hwords⟩ := heldDropped_spec s n.toNat (getRing s n.toNat).held
      refine ⟨_, congrArg done (h.trans (ringDisable_eq hon)), ?_, ?_, fun k hk => ?_,
        onlyIn_settle (onlyIn_trans (onlyIn_mono hframe (by simp)) (onlyIn_mono (onlyIn_setRing ..) (by simp))),
        wordsOnly_settle (wordsOnly_trans hwords (wordsOnly_of_bus rfl))⟩
      · rw [getRing_settle, getRing_setRing_same]
      · exact (getW_settle ..).trans ((getW_congr rfl _).trans hcount)
      · rw [getRing_settle, getRing_setRing_other _ _ hk, getRing, hhif, getRing]
    · -- SQ_TAIL
      have h : sqTail s n.toNat (v.toNat % 2 ^ 16) = setRing s n.toNat { getRing s n.toNat with sqTail := v.toNat % 2 ^ 16 } := by
        simp only [sqTail, hon, Bool.not_true, Bool.false_eq_true, if_false, if_neg (Nat.not_le.mpr hlt)]
      refine ⟨_, congrArg done h, ?_, fun k hk => ?_, onlyIn_settle (onlyIn_setRing ..)⟩
      · rw [getRing_settle, getRing_setRing_same]
      · rw [getRing_settle, getRing_setRing_other _ _ hk]
    · -- SQ_TAIL out of range
      have h : sqTail s n.toNat (v.toNat % 2 ^ 16) = setRing s n.toNat { getRing s n.toNat with sqErr := true } := by
        simp only [sqTail, hon, Bool.not_true, Bool.false_eq_true, if_false, if_pos hge]
      exact ⟨_, congrArg done h, by rw [getRing_settle, getRing_setRing_same], onlyIn_settle (onlyIn_setRing ..)⟩
    · -- CQ_HEAD
      have h : cqHead s n.toNat (v.toNat % 2 ^ 16) =
          setRing s n.toNat { getRing s n.toNat with cqHead := v.toNat % 2 ^ 16 % cqSize s n.toNat } := by
        simp only [cqHead, hon, Bool.not_true, Bool.false_eq_true, if_false, if_neg (Nat.not_lt.mpr hfree), cplFlush, getRing_setRing_same, hheld]
      exact ⟨_, congrArg done h, by rw [getRing_settle, getRing_setRing_same], onlyIn_settle (onlyIn_setRing ..)⟩
    · -- a good entry
      have hk := keepsRings_hostRead s (getSlice s n.toNat).pasid
        ((getD64 s (ringReg n.toNat 0x108)).toNat + 64 * (getRing s n.toNat).sqHead) 64 env.ats env.data
      rw [hread] at hk
      have h := entryFetch_of_ok hmay hread
      rw [hgood, if_neg Bool.false_ne_true, hk.sqSize] at h
      refine ⟨_, congrArg done h, ?_, onlyIn_settle (onlyIn_setRing ..)⟩
      rw [getRing_settle, fetched, getRing_setRing_same, getRing_congr hk.rings]
    · -- a bad entry
      have hk := keepsRings_hostRead s (getSlice s n.toNat).pasid
        ((getD64 s (ringReg n.toNat 0x108)).toNat + 64 * (getRing s n.toNat).sqHead) 64 env.ats env.data
      rw [hread] at hk
      have h := entryFetch_of_ok hmay hread
      rw [hbad, if_pos rfl, hk.sqSize] at h
      refine ⟨_, congrArg done h, ?_, onlyIn_setRing ..⟩
      rw [fetched, getRing_setRing_same, getRing_congr hk.rings, ← entry_of_mayFetch hmay]
    · -- a refused translation
      have hk := keepsRings_hostRead s (getSlice s n.toNat).pasid
        ((getD64 s (ringReg n.toNat 0x108)).toNat + 64 * (getRing s n.toNat).sqHead) 64 env.ats env.data
      rw [hread] at hk
      refine ⟨_, congrArg done (entryFetch_of_refused hmay hread), ?_, onlyIn_settle (onlyIn_setRing ..)⟩
      rw [getRing_settle, ringXlate, getRing_setRing_same, getRing_congr hk.rings]
    · -- WATCH_SATISFIED
      have h : watchDone s n.toNat =
          completeEntry { s with hif := { s.hif with watches := s.hif.watches.erase w } } n.toNat w.tag 0 0 := by
        unfold watchDone
        rw [hw]
      exact congrArg done h
    · -- HELD_FAULT_DROP
      have hd : heldDrop s n.toNat =
          cqDrop (setRing s n.toNat { getRing s n.toNat with held := (getRing s n.toNat).held.erase h }) n.toNat 1 := by
        unfold heldDrop
        dsimp only
        rw [hh]
      refine ⟨_, congrArg done hd, ?_, ?_, onlyIn_settle (onlyIn_trans (onlyIn_mono (onlyIn_setRing ..) (by simp))
        (onlyIn_mono (onlyIn_cqDrop ..) (by simp)))⟩
      · rw [getRing_settle, cqDrop, getRing_congr (congrArg Hif.rings (bump32_hif ..)), getRing_setRing_same]
      · exact (getW_settle ..).trans ((getW_bump32_same ..).trans (congrArg (satAdd32 · 1) (getW_congr rfl _)))
    · -- a write becomes visible
      obtain ⟨hframe, hwords⟩ := entryMessage_keeps (madeVisible u n.toNat w rest) n.toNat w
      have hhif : (entryMessage (madeVisible u n.toNat w rest) n.toNat w).hif = (madeVisible u n.toNat w rest).hif := hframe.2 .hif (by decide)
      refine ⟨_, congrArg done (observed_eq hw hlink hl), ?_, ?_,
        onlyIn_settle (onlyIn_trans (onlyIn_mono (onlyIn_madeVisible ..) (by simp)) (onlyIn_mono hframe (by simp))),
        wordsOnly_settle (wordsOnly_trans (wordsOnly_of_bus rfl) hwords)⟩
      · rw [getRing_settle, getRing_congr (congrArg Hif.rings hhif)]
        exact getRing_setRing_same ..
      · rw [settle_hif, hhif]
        rfl
  · rintro s sl e r rfl
    refine ⟨fun hon hroom hheld => ?_, fun hon hfull hlen => ?_, fun hoff => ?_⟩
    · -- issued
      have h : complete s sl e = cplIssue s sl e := by
        simp only [complete, hon, hroom, hheld, Bool.not_true, Bool.false_eq_true, if_false, List.isEmpty_nil, Bool.or_self]
      rw [h]
      exact ⟨_, getRing_setRing_same .., rfl, rfl, rfl⟩
    · -- held
      have hwait : (cqFull s sl || !(getRing s sl).held.isEmpty) = true := by
        rcases hfull with h | h
        · rw [h, Bool.true_or]
        · simp [h]
      have h : complete s sl e = setRing s sl { getRing s sl with held := (getRing s sl).held ++ [{ e with since := nowNs s }] } := by
        simp only [complete, hon, hwait, Bool.not_true, Bool.false_eq_true, if_false, if_true, if_neg (Nat.not_le.mpr hlen)]
      rw [h, getRing_setRing_same]
    · -- dropped
      have h : complete s sl e = cqDrop s sl 1 := by
        simp only [complete, hoff, Bool.not_false, if_true]
      rw [h]
      exact ⟨getW_bump32_same .., getRing_congr (congrArg Hif.rings (bump32_hif ..)) sl⟩

end Sys2Proof.Machine
end

section
/-! SUPPORT. Cells: their configuration, removal and status records (R387 to R391, R405, R406). -/
namespace Sys2Proof.Machine

/-! ### Cells -/

theorem getCell_setCell_same (s : State) (n : Nat) (c : Cell) : getCell (setCell s n c) n = c := by
  rw [getCell, mget, setCell, mfind_mput_same]

theorem getCell_setCell_other (s : State) {n k : Nat} (c : Cell) (h : k ≠ n) : getCell (setCell s n c) k = getCell s k := by
  rw [getCell, mget, setCell, mfind_mput_other _ _ h, ← mget, ← getCell]

theorem cellBound_setCell (s : State) (n : Nat) (c : Cell) : cellBound (setCell s n c) n = true := by
  rw [cellBound, setCell, mfind_mput_same]
  rfl

theorem getCell_congr {s t : State} (h : t.cells = s.cells) (n : Nat) : getCell t n = getCell s n := by rw [getCell, h, getCell]

theorem cellBound_congr {s t : State} (h : t.cells = s.cells) (n : Nat) : cellBound t n = cellBound s n := by rw [cellBound, h, cellBound]

theorem slot_setSlot_same (c : Cell) (k : Nat) (x : CellSlot) : (c.setSlot k x).slot k = x := mget_mset_same ..

theorem slot_setSlot_other (c : Cell) {k j : Nat} (x : CellSlot) (h : j ≠ k) : (c.setSlot k x).slot j = c.slot j := mget_mset_other _ _ _ _ h

/-! ### Entries of TYPE SLOT_LIST (R388) -/

theorem onSlotEntry_of_kind {s : State} {sl kind : Nat} {e : Line} (act : State → Line → State) (he : (getRing s sl).entry = some e)
    (ht : entB e 0 = 4) (hk : entB e 16 = kind) : onSlotEntry s sl kind act = act s e := by
  simp only [onSlotEntry, he, ht, hk, and_self, if_true]

theorem onlyIn_completeEntry (s : State) (sl tag status code : Nat) : OnlyIn [.hif, .bus] s (completeEntry s sl tag status code) :=
  onlyIn_complete ..

/-! ### Objects that a fold sets -/

/-- Setting objects to one value: each of them holds it, and the others stay. -/
theorem getObj_foldl_setObj (l : List Nat) (x : SyncObj) (s : State) (n : Nat) :
    getObj (l.foldl (fun s o => setObj s o x) s) n = if n ∈ l then x else getObj s n := by
  induction l generalizing s with
  | nil => rfl
  | cons o r ih =>
    rw [List.foldl_cons, ih]
    by_cases hr : n ∈ r
    · rw [if_pos hr, if_pos (List.mem_cons_of_mem _ hr)]
    · rw [if_neg hr]
      by_cases ho : n = o
      · rw [ho, if_pos List.mem_cons_self, getObj_setObj_same]
      · rw [if_neg (by simp [ho, hr]), getObj_setObj_other _ _ ho]

theorem onlyIn_foldl_setObj (l : List Nat) (x : SyncObj) (s : State) :
    OnlyIn [.sync, .sched, .hif] s (l.foldl (fun s o => setObj s o x) s) :=
  onlyIn_foldl (fun s o => onlyIn_setObj s o x) l s

theorem onlyIn_foldl_freeObj (l : List Nat) (s : State) : OnlyIn [.sync, .sched, .hif] s (l.foldl freeObj s) := onlyIn_foldl_setObj l _ s

theorem getObj_foldl_freeObj {l : List Nat} (s : State) {n : Nat} (h : n ∈ l) : getObj (l.foldl freeObj s) n = SyncObj.blank :=
  (getObj_foldl_setObj l SyncObj.blank s n).trans (if_pos h)

/-! ### Flows and counts (R408, R437, R451) -/

theorem onlyIn_net (s : State) (x : Net) : OnlyIn [.net] s { s with net := x } := by
  refine ⟨rfl, fun c hc => ?_⟩
  cases c <;> first | rfl | exact absurd List.mem_cons_self hc

theorem onlyIn_setW_setW (s : State) (a b : Nat) (v w : Word) : OnlyIn [.bus] s (setW (setW s a v) b w) :=
  onlyIn_trans (onlyIn_setW s a v) (onlyIn_setW (setW s a v) b w)

theorem onlyIn_sluCounts (s : State) : OnlyIn [.bus] s (sluCounts s) := onlyIn_setW_setW ..

theorem onlyIn_radioCounts (s : State) (p : Nat) : OnlyIn [.bus] s (radioCounts s p) := onlyIn_setW_setW ..

theorem onlyIn_flowRestart (s : State) (f : Nat) : OnlyIn [.bus] s (flowRestart s f) := onlyIn_foldl (fun s _ => onlyIn_setW s _ 0) _ s

theorem onlyIn_flowBind (s : State) (n f : Nat) : OnlyIn [.net, .bus] s (flowBind s n f) :=
  onlyIn_trans (onlyIn_mono (onlyIn_net s _) (by simp)) (onlyIn_mono (onlyIn_flowRestart { s with net := _ } f) (by simp))

/-- The flows of other cells. -/
def withoutFlows (s : State) (n : Nat) : State := { s with net := { s.net with flows := s.net.flows.filter (fun e => e.2.cell ≠ n) } }

theorem flowUnbind_spec (s : State) (n : Nat) : OnlyIn [.net, .bus] s (flowUnbind s n) ∧ (flowUnbind s n).net = (withoutFlows s n).net :=
  have h : OnlyIn [.bus] (withoutFlows s n) (flowUnbind s n) := onlyIn_sluCounts _
  ⟨onlyIn_trans (onlyIn_mono (onlyIn_net s _) (by simp)) (onlyIn_mono h (by simp)), h.2 .net (by decide)⟩

theorem onlyIn_recount (s0 s : State) : OnlyIn [.sched] s (recount s0 s) := onlyIn_foldl (fun s k => onlyIn_setCtx s k _) _ s

/-! ### CONFIGURE_CELL (R389, R390) -/

/-- The objects of a new cell. -/
def objectsBound (s : State) (g : CellCfg) : State :=
  g.flags.foldl (fun s o => setObj s o ⟨.flag, 0, 0, 0⟩) (g.barriers.foldl (fun s o => setObj s o ⟨.barrier, 0, 1, 0⟩) s)

theorem onlyIn_objectsBound (s : State) (g : CellCfg) : OnlyIn [.sync, .sched, .hif] s (objectsBound s g) :=
  onlyIn_trans (onlyIn_foldl_setObj ..) (onlyIn_foldl_setObj ..)

/-- The cell that a configuration binds. -/
def newCell (s : State) (sl : Nat) (g : CellCfg) (cid : Nat) : Cell :=
  { part := (getSlice s sl).part, slice := sl, launch := (getCtx (objectsBound s g) cid).launch, ctx := some cid, cfg := g, slots := [],
    stop := none, raised := 0, reported := 0 }

/-- What is left to note once the cell is bound: the first slot of its context, its flow and the counts. -/
def cellNoted (u : State) (n : Nat) (g : CellCfg) (cid p : Nat) (x : Ctx) : State :=
  radioCounts (sluCounts (flowBind (setCtx u cid x) n g.flow)) p

theorem onlyIn_cellNoted (u : State) (n : Nat) (g : CellCfg) (cid p : Nat) (x : Ctx) : OnlyIn [.sched, .net, .bus] u (cellNoted u n g cid p x) :=
  onlyIn_trans (onlyIn_mono (onlyIn_setCtx u cid x) (by simp)) (onlyIn_trans (onlyIn_mono (onlyIn_flowBind (setCtx u cid x) n g.flow) (by simp))
    (onlyIn_mono (onlyIn_trans (onlyIn_sluCounts ..) (onlyIn_radioCounts ..)) (by simp)))

theorem cellBind_eq (s : State) (sl n : Nat) (g : CellCfg) (cid : Nat) : ∃ x, cellBind s sl n g cid =
    cellNoted (setCell (flowUnbind (objectsBound s g) n) n { newCell s sl g cid with launch := (getCtx (flowUnbind (objectsBound s g) n) cid).launch })
      n g cid (getSlice s sl).part x := ⟨_, rfl⟩

/-- A cell that is bound: the cell, its objects, and the other cells. -/
theorem cellBind_spec (s : State) (sl n : Nat) (g : CellCfg) (cid : Nat) :
    (∃ la, (cellBind s sl n g cid).cells = (setCell s n { newCell s sl g cid with launch := la }).cells)
    ∧ (cellBind s sl n g cid).sync = (objectsBound s g).sync := by
  obtain ⟨x, hx⟩ := cellBind_eq s sl n g cid
  have hnoted := onlyIn_cellNoted (setCell (flowUnbind (objectsBound s g) n) n
    { newCell s sl g cid with launch := (getCtx (flowUnbind (objectsBound s g) n) cid).launch }) n g cid (getSlice s sl).part x
  have hset := onlyIn_setCell (flowUnbind (objectsBound s g) n) n
    { newCell s sl g cid with launch := (getCtx (flowUnbind (objectsBound s g) n) cid).launch }
  have hunbind := (flowUnbind_spec (objectsBound s g) n).1
  have hcells : (flowUnbind (objectsBound s g) n).cells = s.cells :=
    (hunbind.2 .cells (by decide)).trans ((onlyIn_objectsBound s g).2 .cells (by decide))
  rw [hx]
  refine ⟨⟨(getCtx (flowUnbind (objectsBound s g) n) cid).launch, (hnoted.2 .cells (by decide)).trans ?_⟩,
    (hnoted.2 .sync (by decide)).trans ((hset.2 .sync (by decide)).trans (hunbind.2 .sync (by decide)))⟩
  exact congrArg (fun m : KMap Cell => mput m n _) hcells

theorem getObj_objectsBound (s : State) (g : CellCfg) (o : Nat) : getObj (objectsBound s g) o =
    if o ∈ g.flags then ⟨.flag, 0, 0, 0⟩ else if o ∈ g.barriers then ⟨.barrier, 0, 1, 0⟩ else getObj s o := by
  rw [objectsBound, getObj_foldl_setObj, getObj_foldl_setObj]

section
variable {s u : State} {sl n : Nat} {e : Line} {env : XferEnv} {l : List Byte} (he : (getRing s sl).entry = some e) (ht : entB e 0 = 4)
  (hk : entB e 16 = 1) (hn : n = entF e 18 2) (hlt : n < 512) (hlen : entF e 20 4 = 128) (hzero : entF e 32 8 = 0)
  (hread : hostRead s (slPasid s sl) (entF e 24 8) 128 env.ats env.data = (.ok l, u))
include he ht hk hn hlt hlen hzero hread

theorem configureCell_accepted {cid : Nat} (hv : cfgVerdict u sl n l = (0, 0)) (hc : servingCtx u sl (cfgOf l) = some cid) :
    configureCell s sl env = slotEnd (cellBind u sl n (cfgOf l) cid) sl e 0 0 := by
  subst hn
  simp only [configureCell, onSlotEntry_of_kind _ he ht hk, hlen, hzero, hread, hv, hc, ne_eq, not_true_eq_false, or_false,
    if_neg (Nat.not_le.mpr hlt)]

theorem configureCell_refused (hv : (cfgVerdict u sl n l).1 ≠ 0) :
    configureCell s sl env = slotEnd u sl e (cfgVerdict u sl n l).1 (cfgVerdict u sl n l).2 := by
  subst hn
  simp only [configureCell, onSlotEntry_of_kind _ he ht hk, hlen, hzero, hread, ne_eq, not_true_eq_false, or_false, if_neg (Nat.not_le.mpr hlt)]
  split
  next h _ => exact absurd h hv
  next => rfl

end

/-! ### REMOVE_CELL and CELL_REMOVE_APPLY (R391) -/

/-- The cell gone from its table. -/
def cellGone (s0 : State) (n : Nat) : State :=
  let u := flowUnbind (((getCell s0 n).cfg.barriers ++ (getCell s0 n).cfg.flags).foldl freeObj s0) n
  { u with cells := mdel u.cells n }

theorem onlyIn_cells (s : State) (m : KMap Cell) : OnlyIn [.cells] s { s with cells := m } := by
  refine ⟨rfl, fun c hc => ?_⟩
  cases c <;> first | rfl | exact absurd List.mem_cons_self hc

theorem cellFree_eq (s : State) (n : Nat) : cellFree s n = recount s (radioCounts (cellGone s n) (getCell s n).part) := rfl

theorem cellFree_keeps (s : State) (n : Nat) : OnlyIn [.sched, .bus] (cellGone s n) (cellFree s n) := by
  rw [cellFree_eq]
  exact onlyIn_trans (onlyIn_mono (onlyIn_radioCounts ..) (by simp)) (onlyIn_mono (onlyIn_recount s _) (by simp))

theorem cellFree_spec (s : State) (n : Nat) : (cellFree s n).cells = mdel s.cells n
    ∧ (∀ o ∈ (getCell s n).cfg.barriers ++ (getCell s n).cfg.flags, getObj (cellFree s n) o = SyncObj.blank)
    ∧ ∀ e ∈ (cellFree s n).net.flows, e.2.cell ≠ n := by
  have hfreed := onlyIn_foldl_freeObj ((getCell s n).cfg.barriers ++ (getCell s n).cfg.flags) s
  obtain ⟨hunbind, hnet⟩ := flowUnbind_spec (((getCell s n).cfg.barriers ++ (getCell s n).cfg.flags).foldl freeObj s) n
  have hgone := onlyIn_cells (flowUnbind (((getCell s n).cfg.barriers ++ (getCell s n).cfg.flags).foldl freeObj s) n)
    (mdel (flowUnbind (((getCell s n).cfg.barriers ++ (getCell s n).cfg.flags).foldl freeObj s) n).cells n)
  have hkeep := cellFree_keeps s n
  refine ⟨?_, fun o ho => ?_, fun e he => ?_⟩
  · refine (hkeep.2 .cells (by decide)).trans ?_
    exact congrArg (fun m : KMap Cell => mdel m n) ((hunbind.2 .cells (by decide)).trans (hfreed.2 .cells (by decide)))
  · rw [getObj_congr ((hkeep.2 .sync (by decide)).trans ((hgone.2 .sync (by decide)).trans (hunbind.2 .sync (by decide))))]
    exact getObj_foldl_freeObj s ho
  · have hflows : (cellFree s n).net = (withoutFlows (((getCell s n).cfg.barriers ++ (getCell s n).cfg.flags).foldl freeObj s) n).net :=
      (hkeep.2 .net (by decide)).trans ((hgone.2 .net (by decide)).trans hnet)
    rw [hflows] at he
    exact of_decide_eq_true (List.mem_filter.mp he).2

theorem getCell_cellFree (s : State) {n j : Nat} (h : j ≠ n) : getCell (cellFree s n) j = getCell s j := by
  rw [getCell, (cellFree_spec s n).1, mget, mfind_mdel_other _ h, ← mget, ← getCell]

theorem cellBound_cellFree (s : State) (n : Nat) : cellBound (cellFree s n) n = false := by
  rw [cellBound, (cellFree_spec s n).1, mfind_mdel_same]
  rfl

theorem onlyIn_dropLater (s : State) (n k : Nat) :
    OnlyIn [.hif, .bus] (setCell s n { getCell s n with slots := (getCell s n).slots.filter (fun e => e.1 < k) }) (dropLater s n k) := by
  refine onlyIn_foldl (fun s e => ?_) _ _
  split
  · exact onlyIn_completeEntry ..
  · exact onlyIn_refl ..

/-- A cell that stops at a slot. -/
def stopAt (s : State) (n k : Nat) : State := dropLater (setCell s n { getCell s n with stop := some k }) n k

theorem stopAt_spec (s : State) (n k : Nat) : OnlyIn [.cells, .hif, .bus] s (stopAt s n k)
    ∧ getCell (stopAt s n k) n = { getCell s n with stop := some k, slots := (getCell s n).slots.filter (fun x => x.1 < k) }
    ∧ ∀ j, j ≠ n → getCell (stopAt s n k) j = getCell s j := by
  have hdrop := onlyIn_dropLater (setCell s n { getCell s n with stop := some k }) n k
  rw [getCell_setCell_same] at hdrop
  refine ⟨onlyIn_trans (onlyIn_mono (onlyIn_setCell s n _) (by simp)) (onlyIn_trans (onlyIn_mono (onlyIn_setCell (setCell s n _) n _) (by simp))
    (onlyIn_mono hdrop (by simp))), ?_, fun j hj => ?_⟩
  · rw [stopAt, getCell_congr (hdrop.2 .cells (by decide)), getCell_setCell_same]
  · rw [stopAt, getCell_congr (hdrop.2 .cells (by decide)), getCell_setCell_other _ _ hj, getCell_setCell_other _ _ hj]

section
variable {s : State} {sl n : Nat} {e : Line} (he : (getRing s sl).entry = some e) (ht : entB e 0 = 4) (hk : entB e 16 = 2)
  (hn : n = entF e 18 2) (hlt : n < 512) (hb : cellBound s n = true) (hs : (getCell s n).slice = sl)
include he ht hk hn hlt hb hs

theorem removeCell_later {k : Nat} (hr : reached (nowNs s) (entF e 32 8) = false) (hst : stopSlot (getCell s n) (entF e 32 8) = some k) :
    removeCell s sl = slotEnd (stopAt s n k) sl e 0 0 := by
  subst hn
  simp only [removeCell, onSlotEntry_of_kind _ he ht hk, hb, hs, hr, hst, if_neg (Nat.not_le.mpr hlt), Bool.not_true, Bool.false_eq_true, ne_eq,
    not_true_eq_false, or_self, if_false, stopAt]

theorem removeCell_orphan (hr : reached (nowNs s) (entF e 32 8) = true) (hc : (getCell s n).ctx = none) :
    removeCell s sl = slotEnd (cellFree s n) sl e 0 0 := by
  subst hn
  simp only [removeCell, onSlotEntry_of_kind _ he ht hk, hb, hs, hr, hc, if_neg (Nat.not_le.mpr hlt), Bool.not_true, Bool.false_eq_true, ne_eq,
    not_true_eq_false, or_self, if_false, if_true, Option.isNone_none]

end

theorem cellRemove_due {s : State} {n k : Nat} (hst : (getCell s n).stop = some k) (hr : reached (nowNs s) ((getCell s n).slotAt k) = true)
    (hall : ∀ e ∈ (getCell s n).slots, e.1 < k → slotComplete (getCell s n) e.2 = true) : cellRemove s n = cellFree s n := by
  have hdone : ((getCell s n).slots.filter (fun e => e.1 < k)).all (fun e => slotComplete (getCell s n) e.2) = true := by
    refine List.all_eq_true.mpr fun e he => ?_
    obtain ⟨hmem, hlt⟩ := List.mem_filter.mp he
    exact hall e hmem (of_decide_eq_true hlt)
  simp only [cellRemove, hst, hr, hdone, and_self, if_true]

/-! ### SLOT_STATUS_WRITE (R405, R406) -/

/-- The write of a status record. -/
def statusWrite (s : State) (n k addr done : Nat) (lost : Bool) : HostWr :=
  ⟨some (getSlice s (getCell s n).slice).pasid, addr, statusBytes n (getCell s n) k ((getCell s n).slot k) lost done⟩

/-- A slot whose record is queued, and its cell. -/
def statusQueued (s : State) (n k : Nat) (w : HostWr) : State :=
  setCell (setRing s (getCell s n).slice { getRing s (getCell s n).slice with awaiting := (getRing s (getCell s n).slice).awaiting ++ [w] }) n
    { (getCell s n).setSlot k { (getCell s n).slot k with aux := none } with reported := (getCell s n).reported + 1 }

theorem reportSlot_eq {s : State} {n k tag addr : Nat} (lost : Bool) (done : Nat) (ha : ((getCell s n).slot k).aux = some (tag, addr)) :
    reportSlot s n k lost done = completeEntry (countStatus (statusQueued s n k (statusWrite s n k addr done lost)) (getCell s n).part
      ((getCell s n).slot k) lost) (getCell s n).slice tag 0 0 := by
  unfold reportSlot
  dsimp only
  rw [ha]
  rfl

theorem onlyIn_statusQueued (s : State) (n k : Nat) (w : HostWr) : OnlyIn [.cells, .hif] s (statusQueued s n k w) :=
  onlyIn_trans (onlyIn_mono (onlyIn_setRing s _ _) (by simp)) (onlyIn_mono (onlyIn_setCell (setRing s _ _) n _) (by simp))

/-! ### The statement -/

/-- Settles O42: an accepted configuration by what it binds, a removal by the cell it stops or frees, a status record by the slot it ends. -/
theorem cellsAreConfiguredReportedAndRemoved : Obligations.CellsAreConfiguredReportedAndRemoved := by
  refine ⟨fun s u sl e env l n he ht hk hn hlt hlen hzero hread => ⟨fun cid hv hc => ?_, fun hv => ?_⟩,
    fun s sl e n he ht hk hn hlt hb hs => ⟨fun k hr hst => ?_, fun hr hc => ?_⟩, fun s n k hst hr hall => ?_,
    fun s n k tag addr hb hctx hstaged haux hph hleft hflags => ?_⟩
  · -- a configuration that is accepted
    obtain ⟨⟨la, hcells⟩, hsync⟩ := cellBind_spec u sl.toNat n (cfgOf l) cid
    have hdone := onlyIn_entryDone (cellBind u sl.toNat n (cfgOf l) cid) sl.toNat
    have hcells' := (hdone.2 .cells (by decide)).trans hcells
    have hcell : getCell (entryDone (cellBind u sl.toNat n (cfgOf l) cid) sl.toNat) n = { newCell u sl.toNat (cfgOf l) cid with launch := la } :=
      (getCell_congr hcells' n).trans (getCell_setCell_same ..)
    have hobj (o : Nat) : getObj (entryDone (cellBind u sl.toNat n (cfgOf l) cid) sl.toNat) o = getObj (objectsBound u (cfgOf l)) o :=
      getObj_congr ((hdone.2 .sync (by decide)).trans hsync) o
    refine ⟨entryDone (cellBind u sl.toNat n (cfgOf l) cid) sl.toNat,
      congrArg done (configureCell_accepted he ht hk hn hlt hlen hzero hread hv hc), (cellBound_congr hcells' n).trans (cellBound_setCell ..),
      by rw [hcell]; rfl, by rw [hcell]; rfl, by rw [hcell]; rfl, by rw [hcell]; rfl, by rw [hcell]; rfl, by rw [hcell]; rfl, by rw [hcell]; rfl,
      fun j hj => (getCell_congr hcells' j).trans (getCell_setCell_other _ _ hj), entry_entryDone .., fun o ho => ?_, fun o ho hno => ?_⟩
    · rw [hobj, getObj_objectsBound, if_pos ho]
    · rw [hobj, getObj_objectsBound, if_neg hno, if_pos ho]
  · -- a configuration that is refused
    exact ⟨entryDone u sl.toNat, congrArg done (configureCell_refused he ht hk hn hlt hlen hzero hread hv), onlyIn_entryDone ..⟩
  · -- a removal at a later slot
    obtain ⟨hframe, hcell, hother⟩ := stopAt_spec s n k
    have hdone := onlyIn_entryDone (stopAt s n k) sl.toNat
    refine ⟨entryDone (stopAt s n k) sl.toNat, congrArg done (removeCell_later he ht hk hn hlt hb hs hr hst), ?_, fun j hj => ?_,
      onlyIn_trans hframe (onlyIn_mono hdone (by simp))⟩
    · rw [getCell_congr (hdone.2 .cells (by decide)), hcell]
    · rw [getCell_congr (hdone.2 .cells (by decide)), hother j hj]
  · -- a removal of an orphaned cell
    have hdone := onlyIn_entryDone (cellFree s n) sl.toNat
    refine ⟨entryDone (cellFree s n) sl.toNat, congrArg done (removeCell_orphan he ht hk hn hlt hb hs hr hc), ?_, fun o ho => ?_⟩
    · rw [cellBound_congr (hdone.2 .cells (by decide)), cellBound_cellFree]
    · rw [getObj_congr (hdone.2 .sync (by decide)), (cellFree_spec s n).2.1 o ho]
  · -- a removal takes effect
    obtain ⟨-, hobj, hflows⟩ := cellFree_spec s n
    refine ⟨_, congrArg done (cellRemove_due hst hr hall), ?_, fun j hj => ?_, fun o ho => ?_, ?_⟩
    · rw [cellBound_congr (settle_cells _), cellBound_cellFree]
    · rw [getCell_congr (settle_cells _), getCell_cellFree s hj]
    · rw [getObj_congr (settle_sync _), hobj o ho]
    · rw [settle_net]
      exact hflows
  · -- a status record
    have hstatus : slotStatus s n k.toNat = reportSlot s n k.toNat false ((getCell s n).slot k.toNat).doneNs := by
      simp only [slotStatus, hb, hctx, hstaged, haux, hph, hleft, hflags, Option.isSome_some, Bool.and_self, decide_true, if_true]
    have hcount := onlyIn_countStatus (statusQueued s n k.toNat (statusWrite s n k.toNat addr ((getCell s n).slot k.toNat).doneNs false))
      (getCell s n).part ((getCell s n).slot k.toNat) false
    have hcell : getCell (countStatus (statusQueued s n k.toNat (statusWrite s n k.toNat addr ((getCell s n).slot k.toNat).doneNs false))
        (getCell s n).part ((getCell s n).slot k.toNat) false) n = { (getCell s n).setSlot k.toNat { (getCell s n).slot k.toNat with aux := none }
          with reported := (getCell s n).reported + 1 } :=
      (getCell_congr (hcount.2 .cells (by decide)) n).trans (getCell_setCell_same ..)
    refine ⟨_, statusWrite s n k.toNat addr ((getCell s n).slot k.toNat).doneNs false,
      congrArg done (hstatus.trans (reportSlot_eq false _ haux)), ?_, rfl, rfl, ?_, ?_,
      onlyIn_trans (onlyIn_mono (onlyIn_statusQueued ..) (by simp)) (onlyIn_mono hcount (by simp))⟩
    · rw [getRing_congr (congrArg Hif.rings (hcount.2 .hif (by decide)))]
      exact congrArg Ring.awaiting (getRing_setRing_same s _ _)
    · rw [hcell]
      exact slot_setSlot_same ..
    · rw [hcell]

end Sys2Proof.Machine
end

section
/-! SUPPORT. What an access to device memory leaves alone (R269 to R275, R339 to R348, R356 to R358): it changes memory, the granary,
registers and records, and the contexts that it faults. -/
namespace Sys2Proof.Machine

/-- The components that an access to device memory may change. -/
def memComps : List Comp := [.fresh, .bus, .mem, .grn, .sched, .mills, .gov, .rep]

/-- Two states that agree outside the components of an access to memory. -/
def MemOnly (s t : State) : Prop := OnlyIn memComps s t

theorem MemOnly.refl (s : State) : MemOnly s s := onlyIn_refl ..

theorem MemOnly.trans {s t u : State} (h : MemOnly s t) (k : MemOnly t u) : MemOnly s u := onlyIn_trans h k

theorem MemOnly.of {l : List Comp} {s t : State} (h : OnlyIn l s t) (hl : l ⊆ memComps) : MemOnly s t := onlyIn_mono h hl

theorem MemOnly.bus {s t : State} (h : OnlyIn [.bus] s t) : MemOnly s t := .of h (by simp [memComps])

theorem MemOnly.foldl {α : Type} {f : State → α → State} (h : ∀ s x, MemOnly s (f s x)) (l : List α) (s : State) : MemOnly s (l.foldl f s) :=
  onlyIn_foldl h l s

/-! ### Records and faults -/

theorem memOnly_errRecord (s : State) (b : Block) (inst kind sev part addr detail : Nat) : MemOnly s (errRecord s b inst kind sev part addr detail) :=
  .of (errRecord_spec ..).1 (by simp [memComps])

theorem memOnly_faultAll (s : State) (p : Ctx → Bool) (code eng step : Nat) : MemOnly s (faultAll s p code eng step) :=
  .of (onlyIn_faultAll ..) (by simp [memComps])

theorem memOnly_requireReset (s : State) (code : Nat) : MemOnly s (requireReset s code) :=
  (memOnly_faultAll ..).trans (.bus (onlyIn_setDevState ..))

theorem memOnly_reserveLost (s : State) : MemOnly s (reserveLost s) := by
  unfold reserveLost
  dsimp only
  refine MemOnly.trans ?_ (memOnly_requireReset ..)
  exact MemOnly.bus (onlyIn_trans (onlyIn_setF ..) (onlyIn_ite (onlyIn_refl ..) (onlyIn_raiseInt ..)))

/-! ### The ownership table (R345 to R348, R557) -/

theorem memOnly_ownConflict (s : State) (g : Nat) : MemOnly s (ownConflict s g) := by
  rw [ownConflict_eq]
  exact (MemOnly.of (onlyIn_mem s _) (by simp [memComps])).trans (.of (onlyIn_conflictNoted (fenced s g) ..) (by simp [memComps]))

theorem memOnly_tableCopy (s : State) (g : Nat) : MemOnly s (tableCopy s g) := (MemOnly.bus (onlyIn_raiseErr ..)).trans (memOnly_errRecord ..)

theorem memOnly_mem (s : State) (m : Mem) : MemOnly s { s with mem := m } := .of (onlyIn_mem s m) (by simp [memComps])

theorem memOnly_ownCache (s : State) (g : Nat) (w : Word) : MemOnly s (ownCache s g w) := memOnly_mem s _

theorem memOnly_setOwnA (s : State) (g : Nat) (w : Word) : MemOnly s (setOwnA s g w) := memOnly_mem s _

theorem memOnly_setOwnB (s : State) (g : Nat) (w : Word) : MemOnly s (setOwnB s g w) := memOnly_mem s _

theorem memOnly_ownLookup (s : State) (g : Nat) : MemOnly s (ownLookup s g).2 := by
  have hcount : MemOnly s (bump64 s (reg .own 3 0x108) 1) := .bus (onlyIn_bump64 ..)
  unfold ownLookup
  split
  · exact .refl s
  · split
    · exact .refl s
    · dsimp only
      refine hcount.trans ?_
      generalize bump64 s (reg .own 3 0x108) 1 = u
      split
      · split
        · exact memOnly_ownCache ..
        · exact memOnly_ownConflict ..
      · exact ((memOnly_setOwnA ..).trans (memOnly_tableCopy ..)).trans (memOnly_ownCache ..)
      · exact ((memOnly_setOwnB ..).trans (memOnly_tableCopy ..)).trans (memOnly_ownCache ..)
      · exact memOnly_reserveLost u

theorem memOnly_ownFail (s : State) (g agent kind : Nat) : MemOnly s (ownFail s g agent kind) := .bus (ownFail_spec ..).2

theorem memOnly_ownCheckList (p : Nat) (wr : Bool) (gs : List Nat) (s : State) : MemOnly s (ownCheckList p wr gs s).2 := by
  induction gs generalizing s with
  | nil => exact .refl s
  | cons g r ih =>
    unfold ownCheckList
    split
    · exact memOnly_ownFail ..
    · have hlook := memOnly_ownLookup s g
      split
      next h =>
        rw [h] at hlook
        split
        · exact hlook.trans (ih _)
        · exact hlook.trans (memOnly_ownFail ..)
      next h =>
        rw [h] at hlook
        exact hlook.trans (memOnly_ownFail ..)

/-! ### GDDR7 and the granary (R271 to R275, R339 to R342, R356) -/

theorem memOnly_garble (s : State) (ln : Nat) (hit : Nat → Bool) : MemOnly s (garble s ln hit) :=
  .of (InGranule.garble (g := ln / 256) s hit rfl).frame (by simp [memComps])

theorem memOnly_grnDrop (s : State) (key : Nat) : MemOnly s (grnDrop s key) :=
  .of (InGranule.grnDrop (g := key / 64 / 256) s rfl).frame (by simp [memComps])

theorem memOnly_errsClear (s : State) (ln : Nat) : MemOnly s (errsClear s ln) := memOnly_mem s _

theorem memOnly_countCe (s : State) (ln : Nat) : MemOnly s (countCe s ln) :=
  .bus (onlyIn_trans (onlyIn_trans (onlyIn_bump32 s (reg .mem 0 0x110) 1) (onlyIn_bump32 (bump32 s (reg .mem 0 0x110) 1) _ 1)) (onlyIn_raiseErr ..))

/-- The registers of an uncorrectable line. -/
def ueNoted (s : State) (ln agent : Nat) : State :=
  setF (setD64 (bump32 (bump32 s (reg .mem 0 0x114) 1) (reg .mem (1 + lineDevice (ln * 64)) 0x104) 1) (reg .mem 0 0x118) (BitVec.ofNat 64 (ln * 64)))
    (reg .mem 0 0x120) 0 6 agent

theorem onlyIn_ueNoted (s : State) (ln agent : Nat) : OnlyIn [.bus] s (ueNoted s ln agent) :=
  onlyIn_trans (onlyIn_bump32 s (reg .mem 0 0x114) 1) (onlyIn_trans (onlyIn_bump32 (bump32 s (reg .mem 0 0x114) 1) _ 1)
    (onlyIn_trans (onlyIn_setD64 (bump32 (bump32 s _ 1) _ 1) _ _) (onlyIn_setF (setD64 (bump32 (bump32 s _ 1) _ 1) _ _) _ _ _ _)))

theorem countUe_eq (s : State) (ln agent : Nat) : countUe s ln agent =
    errRecord (raiseInt (raiseErr (ueNoted s ln agent) .mem 0 9) .mem 0 1) .mem (1 + lineDevice (ln * 64)) 1 1 agent (ln * 64) 0 := rfl

theorem memOnly_countUe (s : State) (ln agent : Nat) : MemOnly s (countUe s ln agent) := by
  rw [countUe_eq]
  exact (MemOnly.bus (onlyIn_trans (onlyIn_ueNoted ..) (onlyIn_trans (onlyIn_raiseErr ..) (onlyIn_raiseInt ..)))).trans (memOnly_errRecord ..)

theorem memOnly_eccRead (s : State) (ln : Nat) : MemOnly s (eccRead s ln).2 := by
  unfold eccRead
  dsimp only
  split
  · exact .refl s
  · split
    · exact .refl s
    · have h : ∀ hit, MemOnly s (garble (errsClear s ln) ln hit) := fun hit => (memOnly_errsClear s ln).trans (memOnly_garble ..)
      split
      · exact h _
      · exact (h _).trans (memOnly_countCe ..)

theorem memOnly_dramLine (s : State) (ln agent : Nat) : MemOnly s (dramLine s ln agent).2 := by
  have h := memOnly_eccRead s ln
  unfold dramLine
  split
  next he =>
    rw [he] at h
    exact h.trans (memOnly_countUe ..)
  next he => rwa [he] at h

theorem memOnly_grnTouch (s : State) (ln sl : Nat) (g : GLine) (wr : Bool) : MemOnly s (grnTouch s ln sl g wr) :=
  .of (onlyIn_trans (onlyIn_grn s _) (onlyIn_grn { s with grn := _ } _)) (by simp [memComps])

theorem memOnly_grnAlloc (s : State) (owner ln sl set : Nat) (wr : Bool) : MemOnly s (grnAlloc s owner ln sl set wr) := by
  unfold grnAlloc
  dsimp only
  split
  · exact memOnly_grnTouch ..
  · split
    · exact .refl s
    · exact (memOnly_grnDrop ..).trans (memOnly_grnTouch ..)

theorem memOnly_grnLose (s : State) (ln sl : Nat) (g : GLine) : MemOnly s (grnLose s ln sl g) := by
  have hline : MemOnly s (grnSetLine s ln sl { g with lost := true }) := .of (onlyIn_grn s _) (by simp [memComps])
  unfold grnLose
  dsimp only
  refine hline.trans ?_
  generalize grnSetLine s ln sl { g with lost := true } = u
  exact (MemOnly.bus (onlyIn_trans (onlyIn_setF u _ _ _ _) (onlyIn_trans (onlyIn_raiseErr ..) (onlyIn_raiseInt ..)))).trans (memOnly_errRecord ..)

/-- A line fetched, unless it is about to be written whole. -/
theorem memOnly_fetchLine (whole : Bool) (s : State) (ln agent : Nat) : MemOnly s (if whole then (LineRes.ok, s) else dramLine s ln agent).2 := by
  split
  · exact .refl s
  · exact memOnly_dramLine ..

theorem memOnly_clearWritten (wr : Bool) (s : State) (ln : Nat) : MemOnly s (if wr then errsClear s ln else s) := by
  split
  · exact memOnly_errsClear ..
  · exact .refl s

theorem memOnly_direct (s : State) (ln agent : Nat) (whole wr : Bool) :
    MemOnly s (if whole then (LineRes.ok, errsClear s ln)
      else match dramLine s ln agent with
        | (.ok, s) => (.ok, if wr then errsClear s ln else s)
        | r => r).2 := by
  split
  · exact memOnly_errsClear ..
  · have h := memOnly_dramLine s ln agent
    split
    next hd =>
      rw [hd] at h
      exact h.trans (memOnly_clearWritten ..)
    next => exact h

theorem memOnly_grnLine (s : State) (agent owner ln : Nat) (alloc whole wr : Bool) (err : Option Bool) :
    MemOnly s (grnLine s agent owner ln alloc whole wr err).2 := by
  unfold grnLine
  split
  · split
    · exact memOnly_errsClear ..
    · have h := memOnly_dramLine s ln agent
      split
      next hd =>
        rw [hd] at h
        exact h.trans (memOnly_clearWritten ..)
      next => exact h
  next sl set _ =>
    split
    next g _ =>
      refine MemOnly.trans (t := bump64 s (reg .grn sl 0x118) 1) (.bus (onlyIn_bump64 ..)) ?_
      dsimp only
      generalize bump64 s (reg .grn sl 0x118) 1 = u
      split
      · exact .refl u
      · split
        · split
          · exact memOnly_grnLose ..
          · have hdrop : MemOnly u (raiseErr (grnDrop u (grnKey ln sl)) .grn sl 9) := (memOnly_grnDrop ..).trans (.bus (onlyIn_raiseErr ..))
            have h := hdrop.trans (memOnly_fetchLine whole _ ln agent)
            split
            next hd =>
              rw [hd] at h
              exact h.trans (memOnly_grnAlloc ..)
            next => exact h
        · exact (MemOnly.bus (onlyIn_trans (onlyIn_raiseErr ..) (onlyIn_bump32 ..))).trans (memOnly_grnTouch ..)
        · exact memOnly_grnTouch ..
    next =>
      refine MemOnly.trans (t := bump64 s (reg .grn sl 0x120) 1) (.bus (onlyIn_bump64 ..)) ?_
      dsimp only
      generalize bump64 s (reg .grn sl 0x120) 1 = u
      have h := memOnly_fetchLine whole u ln agent
      split
      next hd =>
        rw [hd] at h
        split
        · exact h.trans (memOnly_grnAlloc ..)
        · exact h.trans (memOnly_clearWritten ..)
      next => exact h

theorem memOnly_reachLine (s : State) (agent ln : Nat) (alloc whole wr : Bool) (err : Option Bool) :
    MemOnly s (reachLine s agent ln alloc whole wr err).2 := by
  unfold reachLine
  dsimp only
  split
  · exact memOnly_direct ..
  · exact memOnly_grnLine ..

/-! ### Reads and writes for a partition (R348, R357, R358) -/

theorem memOnly_countBytes (s : State) (p n : Nat) : MemOnly s (countBytes s p n) := by
  unfold countBytes
  split
  · exact .bus (onlyIn_bump64 ..)
  · exact .refl s

theorem memOnly_readLines (agent : Nat) (alloc : Bool) (lns : List Nat) (err : Option Bool) (s : State) :
    MemOnly s (readLines agent alloc lns err s).2 := by
  induction lns generalizing err s with
  | nil => exact .refl s
  | cons ln r ih =>
    have h := memOnly_reachLine s agent ln alloc false false err
    unfold readLines
    split
    next hl => rwa [hl] at h
    next u hl =>
      rw [hl] at h
      have hrest := h.trans (ih none u)
      dsimp only
      split
      next hr => rwa [hr] at hrest
      next hr => rwa [hr] at hrest

theorem memOnly_readPassed (s : State) (p a n : Nat) (alloc : Bool) (err : Option Bool) : MemOnly s (readPassed s p a n alloc err).2 := by
  have h := memOnly_readLines p alloc (piecesOf 64 a n) err s
  unfold readPassed
  split
  next hl =>
    rw [hl] at h
    exact h.trans (memOnly_countBytes ..)
  next hl => rwa [hl] at h

theorem memOnly_writeLine (s : State) (agent ln lo : Nat) (l : List Byte) (alloc : Bool) (err : Option Bool) :
    MemOnly s (writeLine s agent ln lo l alloc err).2 := by
  have h := memOnly_reachLine s agent ln alloc (lo = 0 && l.length = 64) true err
  unfold writeLine
  dsimp only
  split
  next hl => rwa [hl] at h
  next hl =>
    rw [hl] at h
    exact h.trans (memOnly_mem _ _)

theorem memOnly_writeLines (agent a : Nat) (l : List Byte) (alloc : Bool) (lns : List Nat) (err : Option Bool) (s : State) :
    MemOnly s (writeLines agent a l alloc lns err s).2 := by
  induction lns generalizing err s with
  | nil => exact .refl s
  | cons ln r ih =>
    have h := memOnly_writeLine s agent ln (if a / 64 = ln then a % 64 else 0)
      (sliceB l (ln * 64 + (if a / 64 = ln then a % 64 else 0) - a) (min 64 (a + l.length - ln * 64) - (if a / 64 = ln then a % 64 else 0))) alloc err
    unfold writeLines
    dsimp only
    split
    next hl => rwa [hl] at h
    next hl =>
      rw [hl] at h
      exact h.trans (ih _ _)

theorem memOnly_writePassed (s : State) (p a : Nat) (l : List Byte) (alloc : Bool) (err : Option Bool) :
    MemOnly s (writePassed s p a l alloc err).2 := by
  have h := memOnly_writeLines p a l alloc (piecesOf 64 a l.length) err s
  unfold writePassed
  split
  next hl =>
    rw [hl] at h
    exact h.trans (memOnly_countBytes ..)
  next => exact h

theorem memOnly_devRead (s : State) (p a n : Nat) (alloc : Bool) (err : Option Bool) : MemOnly s (devRead s p a n alloc err).2 := by
  have hcheck : MemOnly s (ownCheck s p a n false).2 := memOnly_ownCheckList ..
  unfold devRead
  split
  next hc => rwa [hc] at hcheck
  next u hc =>
    rw [hc] at hcheck
    have h := hcheck.trans (memOnly_readPassed u p a n alloc err)
    split
    next hr => rwa [hr] at h
    next hr => rwa [hr] at h

theorem memOnly_devWrite (s : State) (p a : Nat) (l : List Byte) (alloc : Bool) (err : Option Bool) : MemOnly s (devWrite s p a l alloc err).2 := by
  have hcheck : MemOnly s (ownCheck s p a l.length true).2 := memOnly_ownCheckList ..
  unfold devWrite
  split
  next hc => rwa [hc] at hcheck
  next u hc =>
    rw [hc] at hcheck
    have h := hcheck.trans (memOnly_writePassed u p a l alloc err)
    split
    next hr => rwa [hr] at h
    next hr => rwa [hr] at h

end Sys2Proof.Machine
end

section
/-! SUPPORT. Slot work lists: how a list is staged, and what a missing one leaves (R392 to R396). -/
namespace Sys2Proof.Machine

/-! ### What a read of host memory keeps of a cell's times -/

theorem KeepsRings.getW_reg {s t : State} (h : KeepsRings s t) {b : Block} {i o : Nat} (ho : o % 0x1000 ∉ hostOffsets) :
    getW t (reg b i o) = getW s (reg b i o) := by
  have hmod : reg b i o % 0x1000 = o % 0x1000 := by
    have hb := pageBase_mod b i
    unfold reg
    omega
  exact h.words _ (.inr (by rwa [hmod]))

theorem KeepsRings.cells {s t : State} (h : KeepsRings s t) : t.cells = s.cells := h.frame.2 .cells (by decide)

theorem KeepsRings.now {s t : State} (h : KeepsRings s t) : nowNs t = nowNs s := nowNs_congr (h.frame.2 .ftl (by decide))

theorem KeepsRings.slotsSince {s t : State} (h : KeepsRings s t) (c : Cell) : slotsSince t c = slotsSince s c := by
  rw [Machine.slotsSince, h.now, ← Machine.slotsSince]

theorem KeepsRings.listDeadline {s t : State} (h : KeepsRings s t) (c : Cell) (k : Nat) : listDeadline t c k = listDeadline s c k := by
  rw [Machine.listDeadline, schReg, getF, h.getW_reg (by decide), ← getF, ← schReg, ← Machine.listDeadline]

theorem keepsRings_readTbs (pasid addr : Nat) (rs : List SlotRec) (envs : List XferEnv) (s : State) :
    KeepsRings s (readTbs pasid addr rs envs s).2 := by
  induction rs generalizing envs s with
  | nil => exact .refl s
  | cons r rs ih =>
    unfold readTbs
    split
    · exact ih envs s
    · have hread := keepsRings_hostRead s pasid (addr + r.tbOff) (ceilDiv r.tbs 8) (envs.head?.getD ⟨[], [], [], none⟩).ats
        (envs.head?.getD ⟨[], [], [], none⟩).data
      dsimp only
      split
      next l u h =>
        rw [h] at hread
        have hrest := hread.trans (ih (envs.drop 1) u)
        split
        next h => rwa [h] at hrest
        next => exact hrest
      next h => rwa [h] at hread
      next h => rwa [h] at hread

/-! ### The list object rises in slot order (R392) -/

/-- What raising lists leaves: the slots and configuration of the cell, the other cells and the rings. -/
structure RaisesLists (n : Nat) (s t : State) : Prop where
  slots : (getCell t n).slots = (getCell s n).slots
  cfg : (getCell t n).cfg = (getCell s n).cfg
  rings : t.hif.rings = s.hif.rings

theorem RaisesLists.refl (n : Nat) (s : State) : RaisesLists n s s := ⟨rfl, rfl, rfl⟩

theorem RaisesLists.trans {n : Nat} {s t u : State} (h : RaisesLists n s t) (k : RaisesLists n t u) : RaisesLists n s u :=
  ⟨k.slots.trans h.slots, k.cfg.trans h.cfg, k.rings.trans h.rings⟩

theorem RaisesLists.slot {n : Nat} {s t : State} (h : RaisesLists n s t) (k : Nat) : (getCell t n).slot k = (getCell s n).slot k := by
  rw [Cell.slot, h.slots, ← Cell.slot]

theorem signalExt_keeps (s : State) (n : Nat) (set : Bool) (v : Word) : (signalExt s n set v).cells = s.cells
    ∧ (signalExt s n set v).hif.rings = s.hif.rings := by
  refine ⟨(onlyIn_signalExt ..).2 .cells (by decide), ?_⟩
  unfold signalExt
  split
  · rfl
  · exact congrArg Hif.rings ((onlyIn_trans (onlyIn_bump32 ..) (onlyIn_raiseErr ..)).2 .hif (by decide))

/-- One signal of the list object. -/
def listRaised (s : State) (n : Nat) : State :=
  signalExt (setCell s n { getCell s n with raised := (getCell s n).raised + 1 }) (getCell s n).cfg.listObj false 1

theorem getCell_listRaised (s : State) (n : Nat) : getCell (listRaised s n) n = { getCell s n with raised := (getCell s n).raised + 1 } :=
  (getCell_congr (signalExt_keeps ..).1 n).trans (getCell_setCell_same ..)

theorem listRaised_raises (s : State) (n : Nat) : RaisesLists n s (listRaised s n) :=
  ⟨by rw [getCell_listRaised], by rw [getCell_listRaised], (signalExt_keeps ..).2⟩

theorem raiseLists_succ (fuel n : Nat) (s : State) : raiseLists (fuel + 1) n s =
    if ((getCell s n).slot (getCell s n).raised).staged then raiseLists fuel n (listRaised s n) else s := rfl

theorem raiseLists_raises (fuel n : Nat) (s : State) : RaisesLists n s (raiseLists fuel n s) := by
  induction fuel generalizing s with
  | zero => exact .refl n s
  | succ fuel ih =>
    rw [raiseLists_succ]
    split
    · exact (listRaised_raises s n).trans (ih _)
    · exact .refl n s

/-- The next slot is staged and the one after it is not: one signal. -/
theorem raiseLists_once {fuel n : Nat} {s : State} (h : ((getCell s n).slot (getCell s n).raised).staged = true)
    (hnext : ((getCell s n).slot ((getCell s n).raised + 1)).staged = false) : raiseLists (fuel + 1) n s = listRaised s n := by
  have hcell := getCell_listRaised s n
  rw [raiseLists_succ, if_pos h]
  cases fuel with
  | zero => rfl
  | succ fuel =>
    rw [raiseLists_succ, hcell]
    exact if_neg (ne_true_of_eq_false hnext)

theorem getObj_listRaised {s : State} {n : Nat} {o : SyncObj} (h : sigObj (getObj s (getCell s n).cfg.listObj) false 1 = .done o) :
    getObj (listRaised s n) (getCell s n).cfg.listObj = o := by
  have hsig : sigObj (getObj (setCell s n { getCell s n with raised := (getCell s n).raised + 1 }) (getCell s n).cfg.listObj) false 1 = .done o := h
  rw [listRaised, signalExt_of_done hsig, getObj_setObj_same]

/-! ### A slot that is staged -/

/-- A slot noted. -/
def slotNoted (s : State) (n k : Nat) (x : CellSlot) : State := setCell s n ((getCell s n).setSlot k x)

theorem slot_slotNoted (s : State) (n k : Nat) (x : CellSlot) : (getCell (slotNoted s n k x) n).slot k = x := by
  rw [slotNoted, getCell_setCell_same, slot_setSlot_same]

theorem slot_stageSlot (s : State) (n k : Nat) (x : CellSlot) : (getCell (stageSlot s n k x) n).slot k = x :=
  ((raiseLists_raises _ n (slotNoted s n k x)).slot k).trans (slot_slotNoted s n k x)

theorem rings_stageSlot (s : State) (n k : Nat) (x : CellSlot) : (stageSlot s n k x).hif.rings = s.hif.rings :=
  (raiseLists_raises _ n (slotNoted s n k x)).rings

/-- The slot is the next to raise, and the one after it is not staged. -/
theorem stageSlot_raises {s : State} {n k : Nat} {x : CellSlot} {o : SyncObj} (hk : (getCell s n).raised = k) (hx : x.staged = true)
    (hnext : ((getCell s n).slot (k + 1)).staged = false) (ho : sigObj (getObj s (getCell s n).cfg.listObj) false 1 = .done o) :
    getObj (stageSlot s n k x) (getCell s n).cfg.listObj = o ∧ (getCell (stageSlot s n k x) n).raised = k + 1 := by
  have hcell : getCell (slotNoted s n k x) n = (getCell s n).setSlot k x := getCell_setCell_same ..
  have hraised : (getCell (slotNoted s n k x) n).raised = k := (congrArg Cell.raised hcell).trans hk
  have hlist : (getCell (slotNoted s n k x) n).cfg.listObj = (getCell s n).cfg.listObj := congrArg (fun c => c.cfg.listObj) hcell
  have hone : stageSlot s n k x = listRaised (slotNoted s n k x) n := by
    have hone : stageSlot s n k x = raiseLists ((getCell s n).slots.length + 1) n (slotNoted s n k x) := rfl
    rw [hone]
    refine raiseLists_once ?_ ?_
    · rw [hraised, slot_slotNoted, hx]
    · rw [hraised, hcell, slot_setSlot_other _ _ (by omega), hnext]
  have hobj : sigObj (getObj (slotNoted s n k x) (getCell (slotNoted s n k x) n).cfg.listObj) false 1 = .done o := by rwa [hlist]
  rw [hone, getCell_listRaised, ← hlist]
  exact ⟨getObj_listRaised hobj, congrArg (· + 1) hraised⟩

/-! ### The list and its blocks (R392) -/

/-- The list and its transport blocks staged. -/
def listStaged (v : State) (c : Cell) (k : Nat) (l : List Byte) (blocks : List (Nat × List Byte)) : State :=
  blocks.foldl (fun s b => stagePut s c (stageOf c k + 65536 + b.1) b.2) (stagePut v c (stageOf c k) l)

theorem memOnly_stagePut (s : State) (c : Cell) (a : Nat) (l : List Byte) : MemOnly s (stagePut s c a l) := by
  unfold stagePut
  exact memOnly_devWrite ..

theorem memOnly_listStaged (v : State) (c : Cell) (k : Nat) (l : List Byte) (blocks : List (Nat × List Byte)) :
    MemOnly v (listStaged v c k l blocks) :=
  (memOnly_stagePut ..).trans (MemOnly.foldl (fun _ _ => memOnly_stagePut ..) _ _)

theorem MemOnly.cells {s t : State} (h : MemOnly s t) : t.cells = s.cells := h.2 .cells (by decide)

theorem MemOnly.sync {s t : State} (h : MemOnly s t) : t.sync = s.sync := h.2 .sync (by decide)

section
variable {s u : State} {sl n : Nat} {e : Line} {env : XferEnv} {tbs : List XferEnv} {l : List Byte} (he : (getRing s sl).entry = some e)
  (ht : entB e 0 = 4) (hk : entB e 16 = 0) (hn : n = entF e 18 2) (hlt : n < 512) (hmin : 64 ≤ entF e 20 4) (hmax : entF e 20 4 ≤ 64 + 32 * 1024)
  (hmod : entF e 20 4 % 32 = 0) (hb : cellBound s n = true) (hs : (getCell s n).slice = sl) (hc : (getCell s n).ctx ≠ none)
  (hread : hostRead s (slPasid s sl) (entF e 24 8) (entF e 20 4) env.ats env.data = (.ok l, u))
include he ht hk hn hlt hmin hmax hmod hb hs hc hread

theorem slotList_read : slotList s sl env tbs = takeList u sl e n l tbs := by
  subst hn
  have hsize : ¬ (512 ≤ entF e 18 2 ∨ entF e 20 4 < 64 ∨ 64 + 32 * 1024 < entF e 20 4 ∨ entF e 20 4 % 32 ≠ 0) := by omega
  have hctx : (getCell s (entF e 18 2)).ctx.isNone = false := Option.isNone_eq_false_iff.mpr (Option.isSome_iff_ne_none.mpr hc)
  simp only [slotList, onSlotEntry_of_kind _ he ht hk, if_neg hsize, hb, hs, hctx, hread, Bool.not_true, Bool.false_eq_true, ne_eq,
    not_true_eq_false, or_self, if_false]

end

theorem takeList_bad {u : State} {sl n : Nat} {e : Line} {l : List Byte} (tbs : List XferEnv)
    (h : headOk n (getCell u n).cfg l.length (l.take 64) = false) : takeList u sl e n l tbs = slotEnd u sl e 3 0 := by
  unfold takeList
  dsimp only
  rw [if_neg fun hh => Bool.false_ne_true (h.symm.trans hh.1)]

/-- Whether a slot lies past the stop of its cell, if that has one (R391). -/
def pastStop (stop : Option Nat) (k : Nat) : Bool := match stop with | some z => decide (z ≤ k) | none => false

theorem not_pastStop {stop : Option Nat} {k : Nat} (h : ∀ z, stop = some z → k < z) : ¬ pastStop stop k = true := by
  cases stop with
  | none => exact Bool.false_ne_true
  | some z => exact fun hz => absurd (h z rfl) (Nat.not_lt.mpr (of_decide_eq_true hz))

/-- The slot of a list. -/
def listSlot (x : CellSlot) (e : Line) (l : List Byte) : CellSlot :=
  { x with
    staged := true, sfn := leAt l 8 2, slotNo := leAt l 10 1, recs := (chunksOf 32 1024 (l.drop 64)).map recOf, aux := some (entF e 8 8, entF e 32 8) }

theorem takeList_good {u v : State} {sl n k : Nat} {e : Line} {l : List Byte} {tbs : List XferEnv} {blocks : List (Nat × List Byte)}
    (hhead : headOk n (getCell u n).cfg l.length (l.take 64) = true)
    (hrecs : ∀ r ∈ chunksOf 32 1024 (l.drop 64), recOk (getCell u n).cfg (leAt l 24 4) r = true) (hslot : (getCell u n).slotOf (leAt l 16 8) = some k)
    (hstop : ∀ z, (getCell u n).stop = some z → k < z) (hahead : (k : Int) ≤ slotsSince u (getCell u n) + 4)
    (hnew : ((getCell u n).slot k).staged = false) (hin : reached (listDeadline u (getCell u n) k) (nowNs u) = true)
    (htbs : readTbs (slPasid u sl) (leAt l 32 8) ((chunksOf 32 1024 (l.drop 64)).map recOf) tbs u = (some (some blocks), v)) :
    takeList u sl e n l tbs = stageSlot (entryDone (listStaged v (getCell u n) k l blocks) sl) n k
      (listSlot ((getCell (listStaged v (getCell u n) k l blocks) n).slot k) e l) := by
  have hall : (chunksOf 32 1024 (l.drop 64)).all (recOk (getCell u n).cfg (leAt l 24 4)) = true := List.all_eq_true.mpr hrecs
  unfold takeList
  dsimp only
  rw [if_pos ⟨hhead, hall⟩, hslot]
  dsimp only
  refine (if_neg (c := pastStop (getCell u n).stop k = true) (not_pastStop hstop)).trans ?_
  rw [if_neg (by rw [hnew, hin]; simp; omega), htbs]
  rfl

/-! ### A list that is missing (R396) -/

/-- The header of a missing list staged, and the miss counted. -/
def missStaged (s : State) (n k : Nat) : State :=
  bump32 (stagePut (missHeader s n k).2 (getCell s n) (stageOf (getCell s n) k) (missHeader s n k).1) (schReg (getCell s n).part 0x220) 1

theorem onlyIn_fresh (s : State) (n : Nat) : OnlyIn [.fresh] s { s with freshNo := n } := by
  refine ⟨rfl, fun c hc => ?_⟩
  cases c <;> first | rfl | exact absurd List.mem_cons_self hc

theorem missHeader_state (s : State) (n k : Nat) : (missHeader s n k).2 = { s with freshNo := s.freshNo + 1 + 1 + 1 } := by
  unfold missHeader freshId
  dsimp only

theorem memOnly_missStaged (s : State) (n k : Nat) : MemOnly s (missStaged s n k) := by
  have hfresh : MemOnly s (missHeader s n k).2 := by
    rw [missHeader_state]
    exact .of (onlyIn_fresh s _) (by simp [memComps])
  exact (hfresh.trans (memOnly_stagePut ..)).trans (.bus (onlyIn_bump32 ..))

theorem listMissing_eq {s : State} {n k : Nat} (hb : cellBound s n = true) (hstop : ∀ z, (getCell s n).stop = some z → k < z)
    (hnew : ((getCell s n).slot k).staged = false) (hat : reached (nowNs s) (listDeadline s (getCell s n) k) = true) :
    listMissing s n k = stageSlot (missStaged s n k) n k
      { (getCell (missStaged s n k) n).slot k with staged := true, missing := true } := by
  unfold listMissing
  dsimp only
  refine (if_neg (c := (!cellBound s n || pastStop (getCell s n).stop k || ((getCell s n).slot k).staged
    || !reached (nowNs s) (listDeadline s (getCell s n) k)) = true) fun h => ?_).trans rfl
  rw [hb, hnew, hat, Bool.not_true, Bool.false_or, Bool.or_false, Bool.or_false] at h
  exact not_pastStop hstop h

/-! ### The statement -/

/-- Settles O43: a list by what its staging leaves of the cell, which memory and the host line cache do not hold. -/
theorem slotListsAreStagedForTheirSlot : Obligations.SlotListsAreStagedForTheirSlot := by
  refine ⟨fun s u sl e env tbs l n he ht hk hn hlt hmin hmax hmod hb hs hc hread => ?_, fun s n k hb hstop hnew hat => ?_⟩
  · have hkeep := keepsRings_hostRead s (slPasid s sl.toNat) (entF e 24 8) (entF e 20 4) env.ats env.data
    rw [hread] at hkeep
    have hcell : getCell u n = getCell s n := getCell_congr hkeep.cells n
    have hlist := slotList_read (tbs := tbs) he ht hk hn hlt hmin hmax hmod hb hs hc hread
    refine ⟨fun k v blocks hhead hrecs hslot hstop hahead hnew hin htbs => ?_, fun hbad => ?_⟩
    · -- a list that is staged
      have htb := keepsRings_readTbs (slPasid u sl.toNat) (leAt l 32 8) ((chunksOf 32 1024 (l.drop 64)).map recOf) tbs u
      rw [htbs] at htb
      have hmem := memOnly_listStaged v (getCell s n) k l blocks
      have hready := onlyIn_entryDone (listStaged v (getCell s n) k l blocks) sl.toNat
      have hcells : (entryDone (listStaged v (getCell s n) k l blocks) sl.toNat).cells = s.cells :=
        (hready.2 .cells (by decide)).trans (hmem.cells.trans (htb.cells.trans hkeep.cells))
      have hsync : (entryDone (listStaged v (getCell s n) k l blocks) sl.toNat).sync = s.sync :=
        (hready.2 .sync (by decide)).trans (hmem.sync.trans ((htb.frame.2 .sync (by decide)).trans (hkeep.frame.2 .sync (by decide))))
      have htake : takeList u sl.toNat e n l tbs = stageSlot (entryDone (listStaged v (getCell s n) k l blocks) sl.toNat) n k
          (listSlot ((getCell (listStaged v (getCell s n) k l blocks) n).slot k) e l) := by
        rw [← hcell] at hhead hrecs hslot hstop hahead hnew hin ⊢
        exact takeList_good hhead hrecs hslot hstop (by rwa [hkeep.slotsSince]) hnew (by rwa [hkeep.listDeadline, hkeep.now]) htbs
      have hslotk := slot_stageSlot (entryDone (listStaged v (getCell s n) k l blocks) sl.toNat) n k
        (listSlot ((getCell (listStaged v (getCell s n) k l blocks) n).slot k) e l)
      rw [← getCell_congr (settle_cells _)] at hslotk
      refine ⟨_, congrArg done (hlist.trans htake), by rw [hslotk]; rfl, by rw [hslotk]; rfl, by rw [hslotk]; rfl, by rw [hslotk]; rfl,
        by rw [hslotk]; rfl, ?_, fun o hr hnext ho => ?_⟩
      · rw [getRing_settle, getRing_congr (rings_stageSlot ..), entry_entryDone]
      · have hcell' : getCell (entryDone (listStaged v (getCell s n) k l blocks) sl.toNat) n = getCell s n := getCell_congr hcells n
        have h := stageSlot_raises (s := entryDone (listStaged v (getCell s n) k l blocks) sl.toNat) (n := n) (k := k) (o := o)
          (x := listSlot ((getCell (listStaged v (getCell s n) k l blocks) n).slot k) e l) (by rw [hcell', hr]) rfl (by rw [hcell', hnext])
          (by rw [hcell', getObj_congr hsync, ho])
        rw [hcell'] at h
        rw [getObj_congr (settle_sync _), getCell_congr (settle_cells _)]
        exact h
    · -- a list whose header breaks the rules
      refine ⟨entryDone u sl.toNat, congrArg done (hlist.trans (takeList_bad tbs (by rwa [hcell]))), onlyIn_entryDone ..⟩
  · -- a list that is missing
    have hslotk := slot_stageSlot (missStaged s n k.toNat) n k.toNat
      { (getCell (missStaged s n k.toNat) n).slot k.toNat with staged := true, missing := true }
    rw [← getCell_congr (settle_cells _), getCell_congr (memOnly_missStaged s n k.toNat).cells] at hslotk
    have heq := listMissing_eq hb hstop hnew hat
    rw [getCell_congr (memOnly_missStaged s n k.toNat).cells] at heq
    refine ⟨_, congrArg done heq, by rw [hslotk], by rw [hslotk], by rw [hslotk]⟩

end Sys2Proof.Machine
end

section
/-! SUPPORT. The sluice: messages, the downlink latch, C-plane release and the close of an uplink window (R397, R398, R438, R440, R445, R447). -/
namespace Sys2Proof.Machine

/-! ### Messages (R433, R438) -/

theorem onlyIn_pushFrame (s : State) (q : Nat) (f : Frame) : OnlyIn [.net] s (pushFrame s q f) := onlyIn_net s _

theorem onlyIn_sendMsg (s : State) (f typ : Nat) (dl : Bool) (ax : Nat) (body : List Byte) (win : Nat × Nat) (sym : Option (Nat × Nat × Nat)) :
    OnlyIn [.net, .bus] s (sendMsg s f typ dl ax body win sym) := by
  unfold sendMsg
  split
  · exact onlyIn_refl ..
  · exact onlyIn_trans (onlyIn_trans (onlyIn_mono (onlyIn_net s _) (by simp)) (onlyIn_mono (onlyIn_bump64 { s with net := _ } _ 1) (by simp)))
      (onlyIn_mono (onlyIn_foldl (fun s p => onlyIn_pushFrame s _ _) _ _) (by simp))

theorem getQueue_pushFrame_same (s : State) (q : Nat) (f : Frame) :
    getQueue (pushFrame s q f) q = { getQueue s q with frames := (getQueue s q).frames ++ [f] } := mget_mset_same ..

theorem getQueue_pushFrame_other (s : State) {q j : Nat} (f : Frame) (h : j ≠ q) : getQueue (pushFrame s q f) j = getQueue s j :=
  mget_mset_other _ _ _ _ h

/-- A flow whose next message has gone. -/
def nextMsg (s : State) (f : Nat) (x : Flow) (key : Nat) (typ : Nat) : State :=
  bump64 { s with net := { s.net with flows := mput s.net.flows f { x with txSeq := mset 0 x.txSeq key ((mget 0 x.txSeq key + 1) % 256) } } }
    (sluReg f (if typ = 0 then 0x130 else 0x138)) 1

theorem nextMsg_net (s : State) (f : Nat) (x : Flow) (key typ : Nat) : (nextMsg s f x key typ).net =
    { s.net with flows := mput s.net.flows f { x with txSeq := mset 0 x.txSeq key ((mget 0 x.txSeq key + 1) % 256) } } := bump64_net ..

theorem onlyIn_nextMsg (s : State) (f : Nat) (x : Flow) (key typ : Nat) : OnlyIn [.net, .bus] s (nextMsg s f x key typ) :=
  onlyIn_trans (onlyIn_mono (onlyIn_net s _) (by simp)) (onlyIn_mono (onlyIn_bump64 { s with net := _ } _ 1) (by simp))

theorem sluReg_ne {f o : Nat} {b : Block} {i x : Nat} (h : x % 0x1000 ≠ o % 0x1000) : reg b i x ≠ sluReg f o := by
  have h2 := pageBase_mod .slu 2
  have hb := pageBase_mod b i
  unfold sluReg winKey reg
  omega

theorem portMac_nextMsg (s : State) (f : Nat) (x : Flow) (key typ p : Nat) : portMac (nextMsg s f x key typ) p = portMac s p := by
  have hreg : getD64 (nextMsg s f x key typ) (reg .eth p 0x108) = getD64 s (reg .eth p 0x108) := by
    have hlow : getW (nextMsg s f x key typ) (reg .eth p 0x108) = getW s (reg .eth p 0x108) :=
      (getW_setD64_other _ _ (sluReg_ne (by split <;> decide)) (by split <;> exact sluReg_ne (o := _ + 4) (by decide))).trans (getW_congr rfl _)
    have hhigh : getW (nextMsg s f x key typ) (reg .eth p 0x10C) = getW s (reg .eth p 0x10C) :=
      (getW_setD64_other _ _ (sluReg_ne (by split <;> decide)) (by split <;> exact sluReg_ne (o := _ + 4) (by decide))).trans (getW_congr rfl _)
    show getW _ (reg .eth p 0x10C) ++ getW _ (reg .eth p 0x108) = getW _ (reg .eth p 0x10C) ++ getW _ (reg .eth p 0x108)
    rw [hhigh, hlow]
  rw [portMac, hreg, ← portMac]

theorem flowFrame_nextMsg (s : State) (f : Nat) (x : Flow) (key typ : Nat) (d : FlowDesc) (p : Nat) (rtag : Option Nat) (msg : List Byte) :
    flowFrame (nextMsg s f x key typ) d p rtag msg = flowFrame s d p rtag msg := by
  unfold flowFrame
  rw [portMac_nextMsg]

theorem pushFrame_flows (s : State) (q : Nat) (f : Frame) : (pushFrame s q f).net.flows = s.net.flows := rfl

theorem sendMsg_eq {s : State} {f p : Nat} {x : Flow} (hx : mfind s.net.flows f = some x) (hp : (flowDesc s f).ports = [p])
    (hf : (flowDesc s f).frer = false) (typ : Nat) (dl : Bool) (ax : Nat) (body : List Byte) (win : Nat × Nat) (sym : Option (Nat × Nat × Nat)) :
    ∃ q, sendMsg s f typ dl ax body win sym = pushFrame (nextMsg s f x (2 * ax + b2n dl) typ) q
      ⟨flowFrame (nextMsg s f x (2 * ax + b2n dl) typ) (flowDesc s f) p none
        (ecpriBytes typ ((flowDesc s f).eaxc + ax) (mget 0 x.txSeq (2 * ax + b2n dl)) body), some win,
        nowNs (nextMsg s f x (2 * ax + b2n dl) typ), sym, none⟩ := by
  unfold sendMsg
  rw [hx]
  dsimp only
  rw [hp, hf, if_neg Bool.false_ne_true, if_neg Bool.false_ne_true]
  exact ⟨_, rfl⟩

/-! ### What the sends of a latched symbol keep (R397) -/

theorem upsetLines_eq (s : State) (l : List (Nat × Nat)) : ∃ m, upsetLines s l = { s with mem := m } := by
  unfold upsetLines
  induction l generalizing s with
  | nil => exact ⟨s.mem, rfl⟩
  | cons p r ih =>
    obtain ⟨m, hm⟩ := ih (errsAdd s (p.1 / 64) p.2)
    exact ⟨m, hm⟩

/-- What the sends of a symbol leave of its slot. -/
structure KeepsLatch (n k : Nat) (s t : State) : Prop where
  latched : ((getCell t n).slot k).latched = ((getCell s n).slot k).latched
  ready : ((getCell t n).slot k).ready = ((getCell s n).slot k).ready
  left : ((getCell t n).slot k).left = ((getCell s n).slot k).left
  dlFill : ((getCell t n).slot k).dlFill = ((getCell s n).slot k).dlFill

theorem KeepsLatch.refl (n k : Nat) (s : State) : KeepsLatch n k s s := ⟨rfl, rfl, rfl, rfl⟩

theorem KeepsLatch.trans {n k : Nat} {s t u : State} (h : KeepsLatch n k s t) (g : KeepsLatch n k t u) : KeepsLatch n k s u :=
  ⟨g.latched.trans h.latched, g.ready.trans h.ready, g.left.trans h.left, g.dlFill.trans h.dlFill⟩

theorem KeepsLatch.of_cells {n k : Nat} {s t : State} (h : t.cells = s.cells) : KeepsLatch n k s t := by
  have hc := getCell_congr h n
  exact ⟨by rw [hc], by rw [hc], by rw [hc], by rw [hc]⟩

theorem KeepsLatch.foldl {α : Type} {n k : Nat} {f : State → α → State} (h : ∀ s x, KeepsLatch n k s (f s x)) (l : List α) (s : State) :
    KeepsLatch n k s (l.foldl f s) :=
  List.foldlRecOn (motive := KeepsLatch n k s) l f (.refl n k s) fun t ht x _ => ht.trans (h t x)

theorem KeepsLatch.damaged (n k : Nat) (s : State) :
    KeepsLatch n k s (setCell s n ((getCell s n).setSlot k { (getCell s n).slot k with damaged := true })) := by
  have hslot : (getCell (setCell s n ((getCell s n).setSlot k { (getCell s n).slot k with damaged := true })) n).slot k =
      { (getCell s n).slot k with damaged := true } := by rw [getCell_setCell_same, slot_setSlot_same]
  exact ⟨by rw [hslot], by rw [hslot], by rw [hslot], by rw [hslot]⟩

theorem memOnly_dlRead (s : State) (c : Cell) (d : FlowDesc) (j a start n : Nat) (err : Option Bool) :
    MemOnly s (dlRead s c d j a start n err).2.2 := by
  have h := memOnly_devRead s c.part (d.dlBase + j % d.dlDepth * dlEntry c.cfg + a * c.cfg.prb * 72 + 72 * start) (72 * n) true err
  unfold dlRead
  dsimp only
  split
  next hr => rwa [hr] at h
  next hr => rwa [hr] at h
  next hr => rwa [hr] at h

theorem uSend_keepsLatch (s : State) (n k sym a id : Nat) (ready : Bool) (m : Nat × Nat × Nat) :
    KeepsLatch n k s (uSend s n k sym a id ready m) := by
  have hread : MemOnly s (if ready then dlRead s (getCell s n) (flowDesc s (getCell s n).cfg.flow) (14 * k + sym) a m.1 m.2.1 none
      else (none, false, s)).2.2 := by
    split
    · exact memOnly_dlRead ..
    · exact .refl s
  unfold uSend
  dsimp only
  generalize (if ready then dlRead s (getCell s n) (flowDesc s (getCell s n).cfg.flow) (14 * k + sym) a m.1 m.2.1 none
    else (none, false, s)) = r at hread ⊢
  obtain ⟨data, bad, u⟩ := r
  dsimp only at hread ⊢
  refine (KeepsLatch.of_cells hread.cells).trans ((?_ : KeepsLatch n k u _).trans (.of_cells ((onlyIn_sendMsg ..).2 .cells (by decide))))
  split
  · exact .damaged n k u
  · exact .refl n k u

/-- The slot as the latch leaves it. -/
def latchedSlot (s : State) (c : Cell) (k sym : Nat) : CellSlot :=
  let x := c.slot k
  let ready := dlReady s c (14 * k + sym)
  let secs := dlSections x sym
  { x with
    latched := x.latched ||| 2 ^ sym
    ready := if ready then x.ready ||| 2 ^ sym else x.ready
    left := if secs.isEmpty then x.left ||| 2 ^ sym else x.left
    dlFill := if !ready && !secs.isEmpty then x.dlFill + 1 else x.dlFill }

/-- The fill counted. -/
def fillCounted (s : State) (p : Nat) (fill : Bool) : State := if fill then bump64 s (schReg p 0x238) 1 else s

theorem fillCounted_cells (s : State) (p : Nat) (fill : Bool) : (fillCounted s p fill).cells = s.cells := by
  unfold fillCounted
  split
  · exact bump64_cells ..
  · rfl

/-- The packets of a symbol. -/
def symbolSent (u : State) (n k sym : Nat) (c : Cell) (ready : Bool) (secs : List (SlotRec × Nat)) : State :=
  let d := flowDesc u c.cfg.flow
  secs.foldl (fun s p =>
    (recPieces c.cfg.prb p.1).foldl (fun s q =>
      (List.range c.cfg.tx).foldl (fun s a =>
        (uSplit (prbsPerMsg d.dlW) q.2.2.1 c.cfg.prb 16 q.2.1 q.2.2.1).foldl (fun s m =>
          uSend s n k sym a (2 * p.2 + q.1) ready m) s) s) s) u

theorem symbolSent_keepsLatch (u : State) (n k sym : Nat) (c : Cell) (ready : Bool) (secs : List (SlotRec × Nat)) :
    KeepsLatch n k u (symbolSent u n k sym c ready secs) :=
  .foldl (fun s _ => .foldl (fun s _ => .foldl (fun s _ => .foldl (fun _ _ => uSend_keepsLatch ..) _ s) _ s) _ s) _ u

theorem dlLatch_eq {s : State} {n k sym : Nat} (hb : cellBound s n = true) (hs : ((getCell s n).slot k).staged = true)
    (hl : bitAt ((getCell s n).slot k).latched sym = false) (hat : reached (nowNs s) (latchTime s (getCell s n) k sym) = true) :
    dlLatch s n k sym = symbolSent (fillCounted (setCell s n ((getCell s n).setSlot k (latchedSlot s (getCell s n) k sym))) (getCell s n).part
      (!dlReady s (getCell s n) (14 * k + sym) && !(dlSections ((getCell s n).slot k) sym).isEmpty)) n k sym (getCell s n) (dlReady s (getCell s n) (14 * k + sym)) (dlSections ((getCell s n).slot k) sym) := by
  unfold dlLatch
  dsimp only
  refine (if_neg ?_).trans rfl
  rw [hb, hs, hl, hat]
  simp

theorem slot_dlLatch {s : State} {n k sym : Nat} (hb : cellBound s n = true) (hs : ((getCell s n).slot k).staged = true)
    (hl : bitAt ((getCell s n).slot k).latched sym = false) (hat : reached (nowNs s) (latchTime s (getCell s n) k sym) = true) :
    KeepsLatch n k (setCell s n ((getCell s n).setSlot k (latchedSlot s (getCell s n) k sym))) (dlLatch s n k sym) := by
  rw [dlLatch_eq hb hs hl hat]
  exact (KeepsLatch.of_cells (fillCounted_cells ..)).trans (symbolSent_keepsLatch ..)

/-! ### CPLANE_RELEASE (R440) -/

theorem cplaneRelease_eq {s : State} {n k i : Nat} {r : SlotRec} (hb : cellBound s n = true) (hs : ((getCell s n).slot k).staged = true)
    (hr : ((getCell s n).slot k).recs[i]? = some r) (hc : bitAt ((getCell s n).slot k).cplane i = false)
    (hopen : ∃ dl ∈ recDirs r, reached (nowNs s) (cWindow s (getCell s n) (flowDesc s (getCell s n).cfg.flow) k r.symStart dl).1 = true) :
    cplaneRelease s n k i = (recDirs r).foldl (fun s' dl => cSend s' (getCell s n) k i r dl)
      (setCell s n ((getCell s n).setSlot k { (getCell s n).slot k with cplane := ((getCell s n).slot k).cplane ||| 2 ^ i })) := by
  have hany : (recDirs r).any (fun dl => reached (nowNs s) (cWindow s (getCell s n) (flowDesc s (getCell s n).cfg.flow) k r.symStart dl).1) = true :=
    List.any_eq_true.mpr hopen
  unfold cplaneRelease
  dsimp only
  rw [hr]
  dsimp only
  rw [hb, hs, hc, hany, if_neg (by simp)]

/-! ### UL_WINDOW_CLOSE (R398, R447) -/

/-- What the zeros of a closed window leave: the cells and the objects. -/
structure KeepsCells (s t : State) : Prop where
  cells : t.cells = s.cells
  sync : t.sync = s.sync

theorem KeepsCells.refl (s : State) : KeepsCells s s := ⟨rfl, rfl⟩

theorem KeepsCells.trans {s t u : State} (h : KeepsCells s t) (k : KeepsCells t u) : KeepsCells s u :=
  ⟨k.cells.trans h.cells, k.sync.trans h.sync⟩

theorem KeepsCells.foldl {α : Type} {f : State → α → State} (h : ∀ s x, KeepsCells s (f s x)) (l : List α) (s : State) :
    KeepsCells s (l.foldl f s) :=
  List.foldlRecOn (motive := KeepsCells s) l f (.refl s) fun t ht x _ => ht.trans (h t x)

theorem ulWrite_keeps (s : State) (c : Cell) (a : Nat) (l : List Byte) : KeepsCells s (ulWrite s c a l) := by
  unfold ulWrite
  split
  · exact ⟨rfl, rfl⟩
  · exact .refl s

theorem eraseStream_keeps (s : State) (n k sym a : Nat) : KeepsCells s (eraseStream s n k sym a).2 := by
  unfold eraseStream
  exact (KeepsCells.foldl (fun s _ => ulWrite_keeps ..) _ _).trans (ulWrite_keeps ..)

theorem devWrite_keeps (s : State) (p a : Nat) (l : List Byte) (alloc : Bool) (err : Option Bool) : KeepsCells s (devWrite s p a l alloc err).2 :=
  have h := memOnly_devWrite s p a l alloc err
  ⟨h.cells, h.sync⟩

theorem erasePrach_keeps (s : State) (n k sym : Nat) : KeepsCells s (erasePrach s n k sym).2 := by
  unfold erasePrach
  dsimp only
  exact KeepsCells.foldl (fun s _ => devWrite_keeps ..) _ _

/-- The zeros of the streams of a symbol. -/
def streamsErased (s : State) (n k sym rx : Nat) : Nat × State :=
  (List.range rx).foldl (fun (acc : Nat × State) a => (acc.1 + (eraseStream acc.2 n k sym a).1, (eraseStream acc.2 n k sym a).2)) (0, s)

theorem streamsErased_keeps (s : State) (n k sym rx : Nat) : KeepsCells s (streamsErased s n k sym rx).2 :=
  List.foldlRecOn (motive := fun acc : Nat × State => KeepsCells s acc.2) _ _ (.refl s) fun _ h _ _ => h.trans (eraseStream_keeps ..)

/-- What the close of a window erases, and how much: in the uplink ring, then in the PRACH sections. -/
def windowErased (s : State) (n k sym : Nat) : Nat × State :=
  let c := getCell s n
  let r := if c.ctx.isSome = true ∧ ulReleased s c (14 * k + sym) = true then streamsErased s n k sym c.cfg.rx else (0, s)
  let q := if c.ctx.isSome = true then erasePrach r.2 n k sym else (0, r.2)
  (r.1 + q.1, q.2)

theorem windowErased_keeps (s : State) (n k sym : Nat) : KeepsCells s (windowErased s n k sym).2 := by
  unfold windowErased
  dsimp only
  generalize hr : (if (getCell s n).ctx.isSome = true ∧ ulReleased s (getCell s n) (14 * k + sym) = true
    then streamsErased s n k sym (getCell s n).cfg.rx else (0, s)) = r
  have h : KeepsCells s r.2 := by
    rw [← hr]
    split
    · exact streamsErased_keeps ..
    · exact .refl s
  split
  · exact h.trans (erasePrach_keeps ..)
  · exact h

theorem windowErased_orphan {s : State} {n : Nat} (k sym : Nat) (h : (getCell s n).ctx = none) : windowErased s n k sym = (0, s) := by
  unfold windowErased
  dsimp only
  rw [h]
  rfl

/-- The slot with its window closed, `lost` PRBs erased. -/
def closedSlot (x : CellSlot) (sym lost : Nat) (hurt : Bool) : CellSlot :=
  { x with flags := x.flags ||| 2 ^ sym, erased := x.erased + lost, damaged := x.damaged || hurt }

/-- The close noted in a state that holds the zeros. -/
def windowNoted (u : State) (n k sym lost p : Nat) (hurt : Bool) : State :=
  bump64 (setCell u n ((getCell u n).setSlot k (closedSlot ((getCell u n).slot k) sym lost hurt))) (schReg p 0x230) lost

theorem windowNoted_sync (u : State) (n k sym lost p : Nat) (hurt : Bool) : (windowNoted u n k sym lost p hurt).sync = u.sync := bump64_sync ..

theorem ulClose_eq {s : State} {n k sym : Nat} (hb : cellBound s n = true) (hs : ((getCell s n).slot k).staged = true)
    (hf : bitAt ((getCell s n).slot k).flags sym = false)
    (hat : reached (nowNs s) (symTime s (getCell s n) k sym + (flowDesc s (getCell s n).cfg.flow).ta4Max) = true) :
    ∃ hurt, ulClose s n k sym =
      raiseFlag (windowNoted (windowErased s n k sym).2 n k sym (windowErased s n k sym).1 (getCell s n).part hurt) (getCell s n) k sym := by
  unfold ulClose
  dsimp only
  rw [if_neg (by rw [hb, hs, hf, hat]; simp)]
  refine ⟨(getCell s n).ctx.isSome && !ulReleased s (getCell s n) (14 * k + sym) && ((getCell s n).slot k).recs.any (fun r => r.ul && r.covers sym), ?_⟩
  simp only [windowNoted, closedSlot, windowErased, streamsErased, Nat.add_assoc]

theorem raiseFlag_cells (s : State) (c : Cell) (k sym : Nat) : (raiseFlag s c k sym).cells = s.cells := (signalExt_keeps ..).1

theorem getObj_raiseFlag {s : State} {c : Cell} {sym : Nat} {o : SyncObj} (k : Nat) (ho : o = getObj s (c.cfg.flagObj + sym)) (ht : o.typ = .flag) :
    getObj (raiseFlag s c k sym) (c.cfg.flagObj + sym) =
      { o with value := (o.value ||| BitVec.ofNat 32 (2 ^ (k % 32))) &&& ~~~ BitVec.ofNat 32 (2 ^ ((k + 16) % 32)) } := by
  subst ho
  have hsig (v : Word) : sigObj (getObj s (c.cfg.flagObj + sym)) true v = .done { getObj s (c.cfg.flagObj + sym) with value := v } := by
    simp only [sigObj, ht, if_true]
  unfold raiseFlag
  dsimp only
  rw [signalExt_of_done (hsig _), getObj_setObj_same]

/-! ### The statement -/

/-- Settles O44: a latch, a release and a close by the slot they leave, a message by its flow and its queue. -/
theorem sluiceMovesSymbolsInTheirWindows : Obligations.SluiceMovesSymbolsInTheirWindows := by
  refine ⟨?_, ?_, ?_, ?_⟩
  · -- DL_LATCH
    rintro s n k sym upset x rfl hb hs hl hat
    obtain ⟨m, hm⟩ := upsetLines_eq s upset
    have hkeep := slot_dlLatch (s := { s with mem := m }) (n := n) (k := k.toNat) (sym := sym) hb hs hl hat
    have hslot : (getCell (setCell { s with mem := m } n ((getCell s n).setSlot k.toNat (latchedSlot s (getCell s n) k.toNat sym))) n).slot k.toNat =
        latchedSlot s (getCell s n) k.toNat sym := by rw [getCell_setCell_same, slot_setSlot_same]
    obtain ⟨hlatched, hready, hleft, hfill⟩ := hkeep
    refine ⟨settle (dlLatch { s with mem := m } n k.toNat sym), by rw [← hm]; rfl, ?_, ?_, ?_, ?_⟩
    all_goals rw [getCell_congr (settle_cells _)]
    · exact hlatched.trans (congrArg CellSlot.latched hslot)
    · exact hready.trans (congrArg CellSlot.ready hslot)
    · refine (hleft.trans (congrArg CellSlot.left hslot)).trans ?_
      simp only [latchedSlot, List.isEmpty_iff]
    · refine (hfill.trans (congrArg CellSlot.dlFill hslot)).trans ?_
      simp only [latchedSlot, Bool.and_eq_true, Bool.not_eq_true', ne_eq, List.isEmpty_eq_false_iff]
  · -- CPLANE_RELEASE
    rintro s n k i x r rfl hb hs hr hc hopen
    refine ⟨_, congrArg done (cplaneRelease_eq hb hs hr hc hopen), ?_, onlyIn_setCell ..⟩
    rw [getCell_setCell_same, slot_setSlot_same]
  · -- UL_WINDOW_CLOSE
    rintro s n k sym x rfl hb hs hf hat
    obtain ⟨hurt, h⟩ := ulClose_eq hb hs hf hat
    have hkeep := windowErased_keeps s n k.toNat sym
    have hcell := getCell_congr hkeep.cells n
    have hslot : (getCell (settle (raiseFlag (windowNoted (windowErased s n k.toNat sym).2 n k.toNat sym (windowErased s n k.toNat sym).1
        (getCell s n).part hurt) (getCell s n) k.toNat sym)) n).slot k.toNat =
        closedSlot ((getCell s n).slot k.toNat) sym (windowErased s n k.toNat sym).1 hurt := by
      rw [getCell_congr (settle_cells _), getCell_congr (raiseFlag_cells ..), windowNoted, getCell_congr (bump64_cells ..), getCell_setCell_same,
        slot_setSlot_same, hcell]
    refine ⟨_, congrArg done h, by rw [hslot]; rfl, by rw [hslot]; exact Nat.le_add_right .., fun horphan => ?_, fun o ho ht => ?_⟩
    · rw [hslot, windowErased_orphan _ _ horphan]
      rfl
    · rw [getObj_congr (settle_sync _)]
      exact getObj_raiseFlag k.toNat (ho.trans (getObj_congr ((windowNoted_sync ..).trans hkeep.sync) _).symm) ht
  · -- a message
    intro s f typ ax p dl body win sym x hx hp hf
    obtain ⟨q, h⟩ := sendMsg_eq hx hp hf typ dl ax body win sym
    have hnet := nextMsg_net s f x (2 * ax + b2n dl) typ
    have hqueue (j : Nat) : getQueue (nextMsg s f x (2 * ax + b2n dl) typ) j = getQueue s j := by rw [getQueue, hnet, getQueue]
    rw [h]
    refine ⟨⟨{ x with txSeq := mset 0 x.txSeq (2 * ax + b2n dl) ((mget 0 x.txSeq (2 * ax + b2n dl) + 1) % 256) }, ?_, rfl, mget_mset_same ..,
      fun j hj => mget_mset_other _ _ _ _ hj⟩, q, ?_, fun j hj => ?_⟩
    · rw [pushFrame_flows, hnet]
      exact mfind_mput_same ..
    · rw [getQueue_pushFrame_same, hqueue, nowNs_congr ((onlyIn_nextMsg ..).2 .ftl (by decide)), flowFrame_nextMsg]
    · rw [getQueue_pushFrame_other _ _ hj, hqueue]

end Sys2Proof.Machine
end

section
/-! SUPPORT. The Ethernet ports: modes, lanes, links, recovered clocks and ESMC frames (R427 to R432, R449, R450). -/
namespace Sys2Proof.Machine

/-! ### Ports and queues -/

@[simp] theorem getPort_setPort_same (s : State) (p : Nat) (x : Port) : getPort (setPort s p x) p = x := mget_mset_same ..

theorem getPort_setPort_other (s : State) {p q : Nat} (x : Port) (h : q ≠ p) : getPort (setPort s p x) q = getPort s q :=
  mget_mset_other _ _ _ _ h

theorem getPort_congr {s t : State} (h : t.net = s.net) (p : Nat) : getPort t p = getPort s p := by
  unfold getPort
  rw [h]

theorem onlyIn_setPort (s : State) (p : Nat) (x : Port) : OnlyIn [.net] s (setPort s p x) := onlyIn_net s _

theorem setPort_bus (s : State) (p : Nat) (x : Port) : (setPort s p x).bus = s.bus := rfl

theorem gated_of_ready {s : State} {b : Block} {i : Nat} (h : pageReady s b i = true) (f : State → State) : gated s b i f = f s :=
  if_pos h

theorem onlyIn_domsFollow (s : State) : OnlyIn [.gov] s (domsFollow s) :=
  onlyIn_of_core _ (domsFollow_core s)

/-! ### The link of a port (R429, R450) -/

/-- A link that changed: a loss is counted, and the interrupt raised. -/
def linkNoted (s : State) (p : Nat) (up : Bool) : State := raiseInt (if up then s else bump32 s (reg .eth p 0x138) 1) .eth p 1

theorem setUp_of_same {s : State} {p : Nat} {up : Bool} (training : Bool) (h : (getPort s p).up = up) :
    setUp s p up training = setPort s p { getPort s p with up := up, training := training } := if_pos h

theorem setUp_of_change {s : State} {p : Nat} {up : Bool} (training : Bool) (h : (getPort s p).up ≠ up) :
    setUp s p up training = linkNoted (setPort s p { getPort s p with up := up, training := training }) p up := if_neg h

theorem linkNoted_net (s : State) (p : Nat) (up : Bool) : (linkNoted s p up).net = s.net := by
  unfold linkNoted
  rw [raiseInt_net]
  split
  · rfl
  · rfl

theorem onlyIn_linkNoted (s : State) (p : Nat) (up : Bool) : OnlyIn [.bus] s (linkNoted s p up) := by
  unfold linkNoted
  refine onlyIn_trans ?_ (onlyIn_raiseInt ..)
  exact onlyIn_ite (onlyIn_refl ..) (onlyIn_bump32 ..)

theorem wordsOnly_linkNoted (s : State) (p : Nat) (up : Bool) : WordsOnly [reg .eth p 0x20, reg .eth p 0x138] s (linkNoted s p up) := by
  unfold linkNoted
  refine wordsOnly_trans ?_ (wordsOnly_mono (wordsOnly_raiseInt ..) (by simp))
  split
  · exact wordsOnly_refl ..
  · exact wordsOnly_mono (wordsOnly_setW ..) (by simp)

theorem setUp_net (s : State) (p : Nat) (up training : Bool) :
    (setUp s p up training).net = (setPort s p { getPort s p with up := up, training := training }).net := by
  by_cases h : (getPort s p).up = up
  · rw [setUp_of_same _ h]
  · rw [setUp_of_change _ h, linkNoted_net]

theorem getPort_setUp_same (s : State) (p : Nat) (up training : Bool) :
    getPort (setUp s p up training) p = { getPort s p with up := up, training := training } :=
  (getPort_congr (setUp_net ..) p).trans (getPort_setPort_same ..)

theorem getPort_setUp_other (s : State) {p q : Nat} (up training : Bool) (h : q ≠ p) : getPort (setUp s p up training) q = getPort s q :=
  (getPort_congr (setUp_net ..) q).trans (getPort_setPort_other _ _ h)

theorem onlyIn_setUp (s : State) (p : Nat) (up training : Bool) : OnlyIn [.net, .bus] s (setUp s p up training) := by
  have hport := onlyIn_mono (onlyIn_setPort s p { getPort s p with up := up, training := training }) (m := [.net, .bus]) (by simp)
  by_cases h : (getPort s p).up = up
  · rwa [setUp_of_same _ h]
  · rw [setUp_of_change _ h]
    exact onlyIn_trans hport (onlyIn_mono (onlyIn_linkNoted ..) (by simp))

theorem wordsOnly_setUp (s : State) (p : Nat) (up training : Bool) :
    WordsOnly [reg .eth p 0x20, reg .eth p 0x138] s (setUp s p up training) := by
  by_cases h : (getPort s p).up = up
  · rw [setUp_of_same _ h]
    exact wordsOnly_of_bus (setPort_bus ..)
  · rw [setUp_of_change _ h]
    exact wordsOnly_trans (wordsOnly_of_bus (setPort_bus ..)) (wordsOnly_linkNoted ..)

theorem getW_setUp (s : State) (p : Nat) (up training : Bool) {o : Nat} (h : o ≠ 0x20) (h' : o ≠ 0x138) :
    getW (setUp s p up training) (reg .eth p o) = getW s (reg .eth p o) :=
  (wordsOnly_setUp s p up training).1 _ (by simp [reg, h, h'])

theorem bitAt_setUp {s : State} {p : Nat} {up : Bool} (training : Bool) (h : (getPort s p).up ≠ up) :
    bitAt (getW (setUp s p up training) (reg .eth p 0x20)).toNat 1 = true := by
  rw [setUp_of_change _ h]
  exact bitAt_raiseInt _ _ _ (by decide)

theorem wordsOnly_setUp_up (s : State) (p : Nat) (training : Bool) : WordsOnly [reg .eth p 0x20] s (setUp s p true training) := by
  by_cases h : (getPort s p).up = true
  · rw [setUp_of_same _ h]
    exact wordsOnly_of_bus (setPort_bus ..)
  · rw [setUp_of_change _ h]
    exact wordsOnly_trans (wordsOnly_of_bus (setPort_bus ..)) (wordsOnly_raiseInt ..)

theorem getW_setUp_lost {s : State} {p : Nat} (training : Bool) (h : (getPort s p).up = true) :
    getW (setUp s p false training) (reg .eth p 0x138) = satAdd32 (getW s (reg .eth p 0x138)) 1 := by
  rw [setUp_of_change _ (by rw [h]; simp)]
  exact (getW_raiseInt ..).trans ((if_neg (reg_ne _ _ (by decide))).trans ((getW_bump32_same ..).trans rfl))

theorem portMode_congr {s t : State} {p : Nat} (h : getW t (reg .eth p 0x10) = getW s (reg .eth p 0x10)) : portMode t p = portMode s p := by
  unfold portMode getF
  rw [h]

theorem portMode_setUp (s : State) (p : Nat) (up training : Bool) : portMode (setUp s p up training) p = portMode s p :=
  portMode_congr (getW_setUp _ _ _ _ (by decide) (by decide))

theorem portMode_setMode (s : State) (p : Nat) (m : Fin 4) : portMode (setF s (reg .eth p 0x10) 0 2 m) p = m :=
  (getF_setF_same _ _ 0 2 m (by decide)).trans (Nat.mod_eq_of_lt m.isLt)

/-! ### MODE and LANE_MAP (R427, R428) -/

theorem modeWrite_of_conflict {s : State} {p m : Nat} (h : modeConflict s p m = true) : modeWrite s p m = raiseErr s .eth p 8 := if_pos h

theorem modeWrite_of_free {s : State} {p m : Nat} (h : modeConflict s p m = false) :
    modeWrite s p m = domsFollow (retrain (setF s (reg .eth p 0x10) 0 2 m) p) := if_neg (by simp [h])

theorem getPort_domsFollow (s : State) (p : Nat) : getPort (domsFollow s) p = getPort s p :=
  getPort_congr ((onlyIn_domsFollow s).2 .net (by decide)) p

theorem onlyIn_retrain (s : State) (p : Nat) : OnlyIn [.net, .bus] s (retrain s p) := onlyIn_setUp ..

/-- The lanes that the other ports bind. -/
def otherLanes (s : State) (p : Nat) : List Nat :=
  ((List.range 16).filter (fun q => q ≠ p)).flatMap (fun q => lanesOf (getW s (reg .eth q 0x100)).toNat)

theorem mem_otherLanes {s : State} {p l : Nat} :
    l ∈ otherLanes s p ↔ ∃ q : Nat, q < 16 ∧ q ≠ p ∧ l ∈ lanesOf (getW s (reg .eth q 0x100)).toNat := by
  simp [otherLanes, and_assoc]

/-- A map stored. -/
def mapStored (s : State) (p : Nat) (v : Word) : State := domsFollow (setW s (reg .eth p 0x100) (v &&& 0x1F1F1F1F))

theorem laneMapWrite_of_bad {s : State} {p : Nat} {v : Word} (hready : pageReady s .eth p = true) (h : ∃ l ∈ lanesOf v.toNat, 18 ≤ l) :
    laneMapWrite s p v = invalidWrite s .eth p :=
  (gated_of_ready hready _).trans (if_pos (by simpa using h))

theorem laneMapWrite_of_good {s : State} {p : Nat} {v : Word} (hready : pageReady s .eth p = true) (hl : ∀ l ∈ lanesOf v.toNat, l < 18)
    (hd : (lanesOf v.toNat).eraseDups = lanesOf v.toNat)
    (ho : ∀ l ∈ lanesOf v.toNat, ∀ q : Nat, q < 16 → q ≠ p → l ∉ lanesOf (getW s (reg .eth q 0x100)).toNat) :
    laneMapWrite s p v = if portMode (mapStored s p v) p = 0 then mapStored s p v else retrain (mapStored s p v) p := by
  have hrange : ¬ (lanesOf v.toNat).any (fun l => 18 ≤ l) = true := by simpa using hl
  have hfree : ¬ ((lanesOf v.toNat).eraseDups ≠ lanesOf v.toNat ∨ (lanesOf v.toNat).any (fun l => (otherLanes s p).contains l) = true) := by
    rintro (h | h)
    · exact h hd
    · obtain ⟨l, hl, hc⟩ := List.any_eq_true.mp h
      obtain ⟨q, hq, hne, hm⟩ := mem_otherLanes.mp (List.contains_iff_mem.mp hc)
      exact ho l hl q hq hne hm
  exact (gated_of_ready hready _).trans ((if_neg hrange).trans (if_neg hfree))

theorem getW_mapStored (s : State) (p : Nat) (v : Word) (a : Nat) :
    getW (mapStored s p v) a = getW (setW s (reg .eth p 0x100) (v &&& 0x1F1F1F1F)) a := getW_congr ((onlyIn_domsFollow _).2 .bus (by decide)) a

theorem onlyIn_mapStored (s : State) (p : Nat) (v : Word) : OnlyIn [.bus, .gov] s (mapStored s p v) :=
  onlyIn_trans (onlyIn_mono (onlyIn_setW ..) (by simp)) (onlyIn_mono (onlyIn_domsFollow _) (by simp))

theorem portMode_mapStored (s : State) (p : Nat) (v : Word) : portMode (mapStored s p v) p = portMode s p :=
  portMode_congr ((getW_mapStored ..).trans (getW_setW_other _ _ (reg_ne _ _ (by decide))))

/-! ### SYNCE_TX_SRC (R431) -/

theorem synceSrc_of_off {s : State} (src : Bool) (hready : pageReady s .eth 0 = true) (h : ∀ q : Nat, q < 16 → portMode s q = 0) :
    synceSrc s src = setF s (reg .eth 0 0x308) 0 1 (b2n src) :=
  (gated_of_ready hready _).trans (if_neg (by simpa using h))

theorem synceSrc_of_on {s : State} (src : Bool) (hready : pageReady s .eth 0 = true) (h : ∃ q : Nat, q < 16 ∧ portMode s q ≠ 0) :
    synceSrc s src = raiseErr s .eth 0 10 :=
  (gated_of_ready hready _).trans (if_pos (by simpa using h))

/-! ### ESMC frames (R432, R450) -/

/-- The frame held in `ESMC_TX`. -/
def esmcHeld (s : State) (port n : Nat) : Frame :=
  ⟨padFrame (((List.range 32).flatMap (fun i => toLE 4 (getW s (reg .eth port (0x280 + 4 * i))).toNat)).take n), none, nowNs s, none, none⟩

theorem esmcSend_eq {s : State} {port n : Nat} (hready : pageReady s .eth port = true) (h1 : 1 ≤ n) (h2 : n ≤ 128) :
    esmcSend s port n = pushFrame s (96 * port + 65) (esmcHeld s port n) :=
  (gated_of_ready hready _).trans (if_neg (by omega))

theorem esmcPop_eq {s : State} {port : Nat} (hready : pageReady s .eth port = true) :
    esmcPop s port = setPort s port { getPort s port with esmc := (getPort s port).esmc.drop 1 } := gated_of_ready hready _

theorem getPort_settle (s : State) (p : Nat) : getPort (settle s) p = getPort s p := getPort_congr (settle_net s) p

theorem getQueue_settle (s : State) (q : Nat) : getQueue (settle s) q = getQueue s q := by
  unfold getQueue
  rw [settle_net]

theorem portMode_settle (s : State) (p : Nat) : portMode (settle s) p = portMode s p := getF_settle ..

theorem onlyIn_setSignal (s : State) (l : Nat) (b : Bool) : OnlyIn [.net] s (setSignal s l b) := onlyIn_net s _

theorem signal_setSignal_same (s : State) (l : Nat) (b : Bool) : mget false (settle (setSignal s l b)).net.signal l = b := by
  rw [settle_net, setSignal, mget_mset_same]

theorem signal_setSignal_other (s : State) {l k : Nat} (b : Bool) (h : k ≠ l) :
    mget false (settle (setSignal s l b)).net.signal k = mget false s.net.signal k := by
  rw [settle_net, setSignal, mget_mset_other _ _ _ _ h]

theorem getW_raiseErr_keep (s : State) (b : Block) (i bit : Nat) {o : Nat} (h : o ≠ 0x18) (h' : o ≠ 0x20) :
    getW (raiseErr s b i bit) (reg b i o) = getW s (reg b i o) :=
  (wordsOnly_raiseErr s b i bit).1 _ (by simp [reg, h, h'])

theorem b2n_mod_two (b : Bool) : b2n b % 2 ^ 1 = b2n b := by
  cases b
  · rfl
  · rfl

/-! ### The statement -/

/-- Settles O45. Each write is one change of the port, its registers or its queue; the link's changes are `setUp`, whose frame serves the mode,
the lanes, and the link. -/
theorem portsTakeTheirModeLanesAndLinks : Obligations.PortsTakeTheirModeLanesAndLinks := by
  unfold Obligations.PortsTakeTheirModeLanesAndLinks
  intro s p
  refine ⟨fun m => ⟨fun hm => ?_, fun hm => ?_⟩, fun v hready => ⟨fun hl hd ho => ?_, fun hbad => ?_⟩, fun hmode hcons => ?_, fun hup => ?_,
    fun l => ⟨?_, ?_⟩, fun b hready => ⟨fun hoff => ?_, fun hon => ?_⟩, fun hready => ⟨fun n h1 h2 => ?_, ?_⟩⟩
  · have hport : ∀ q, getPort (settle (domsFollow (retrain (setF s (reg .eth p 0x10) 0 2 m) p))) q =
        getPort (retrain (setF s (reg .eth p 0x10) 0 2 m) p) q := fun q => (getPort_settle ..).trans (getPort_domsFollow ..)
    refine ⟨_, congrArg done (modeWrite_of_free hm), ?_, ?_, ?_, fun q hq => ?_, ?_⟩
    · rw [portMode_settle]
      exact (portMode_congr (getW_congr ((onlyIn_domsFollow _).2 .bus (by decide)) _)).trans ((portMode_setUp ..).trans (portMode_setMode ..))
    · rw [hport, retrain, getPort_setUp_same]
    · rw [hport, retrain, getPort_setUp_same, portMode_setMode]
    · rw [hport, retrain, getPort_setUp_other _ _ _ hq]
      exact getPort_congr ((onlyIn_setF ..).2 .net (by decide)) q
    · exact onlyIn_settle (onlyIn_trans (onlyIn_mono (onlyIn_setF ..) (by simp))
        (onlyIn_trans (onlyIn_mono (onlyIn_retrain ..) (by simp)) (onlyIn_mono (onlyIn_domsFollow _) (by simp))))
  · refine ⟨_, congrArg done (modeWrite_of_conflict hm), ?_, ?_, onlyIn_settle (onlyIn_raiseErr ..)⟩
    · exact (getW_settle ..).trans (getW_raiseErr_same ..)
    · exact (getW_settle ..).trans (getW_raiseErr_keep _ _ _ _ (by decide) (by decide))
  · refine ⟨_, congrArg done (laneMapWrite_of_good hready hl hd ho), ?_, fun hmode => ?_, onlyIn_settle ?_⟩
    · have hmap : getW (mapStored s p v) (reg .eth p 0x100) = v &&& 0x1F1F1F1F := (getW_mapStored ..).trans (getW_setW_same ..)
      rw [getW_settle]
      split
      · exact hmap
      · exact (getW_setUp _ _ _ _ (by decide) (by decide)).trans hmap
    · rw [getPort_settle, portMode_mapStored, if_neg hmode, retrain, getPort_setUp_same, portMode_mapStored]
      exact ⟨rfl, decide_eq_true hmode⟩
    · have hmap := onlyIn_mono (onlyIn_mapStored s p v) (m := [.net, .bus, .gov]) (by simp)
      exact onlyIn_ite hmap (onlyIn_trans hmap (onlyIn_mono (onlyIn_retrain ..) (by simp)))
  · refine ⟨_, congrArg done (laneMapWrite_of_bad hready hbad), ?_, ?_, onlyIn_settle (onlyIn_raiseErr ..)⟩
    · exact (getW_settle ..).trans (getW_raiseErr_same ..)
    · exact (getW_settle ..).trans (getW_raiseErr_keep _ _ _ _ (by decide) (by decide))
  · refine ⟨_, congrArg done (if_neg (by simp [hmode, hcons])), ?_, ?_, fun hdown => ?_, onlyIn_settle (onlyIn_setUp ..),
      wordsOnly_settle (wordsOnly_setUp_up ..)⟩
    · rw [getPort_settle, getPort_setUp_same]
    · rw [getPort_settle, getPort_setUp_same]
    · rw [getW_settle]
      exact bitAt_setUp false (by rw [hdown]; simp)
  · refine ⟨_, congrArg done (if_pos hup), ?_, ?_, ?_, onlyIn_settle (onlyIn_setUp ..), wordsOnly_settle (wordsOnly_setUp ..)⟩
    · rw [getPort_settle, getPort_setUp_same]
    · exact (getW_settle ..).trans (getW_setUp_lost _ hup)
    · rw [getW_settle]
      exact bitAt_setUp false (by rw [hup]; simp)
  · exact ⟨_, rfl, signal_setSignal_same .., fun k hk => signal_setSignal_other _ _ hk, onlyIn_settle (onlyIn_setSignal ..)⟩
  · exact ⟨_, rfl, signal_setSignal_same .., fun k hk => signal_setSignal_other _ _ hk, onlyIn_settle (onlyIn_setSignal ..)⟩
  · refine ⟨_, congrArg done (synceSrc_of_off b hready hoff), ?_, onlyIn_settle (onlyIn_setF ..), wordsOnly_settle (wordsOnly_setF ..)⟩
    exact (getF_settle ..).trans ((getF_setF_same _ _ 0 1 (b2n b) (by decide)).trans (b2n_mod_two b))
  · refine ⟨_, congrArg done (synceSrc_of_on b hready hon), ?_, ?_, onlyIn_settle (onlyIn_raiseErr ..)⟩
    · exact (getW_settle ..).trans (getW_raiseErr_same ..)
    · exact (getW_settle ..).trans (getW_raiseErr_keep _ _ _ _ (by decide) (by decide))
  · refine ⟨_, esmcHeld s p n.toNat, congrArg done (esmcSend_eq hready h1 h2), ?_, rfl, rfl, onlyIn_settle (onlyIn_pushFrame ..)⟩
    exact (getQueue_settle ..).trans (getQueue_pushFrame_same ..)
  · refine ⟨_, congrArg done (esmcPop_eq hready), ?_, fun q hq => ?_, onlyIn_settle (onlyIn_setPort ..)⟩
    · rw [getPort_settle, getPort_setPort_same]
    · rw [getPort_settle, getPort_setPort_other _ _ hq]

end Sys2Proof.Machine
end

section
/-! SUPPORT. The weir's egress: the frame that starts, the frame that has left, the late packet, tenant queues and depths (R406, R412, R429, R452,
R454, R455, R458, R466). -/
namespace Sys2Proof.Machine

/-! ### Windowed registers (R452) -/

/-- Registers at different offsets of their pages are different, seen through a window or not. -/
theorem winKey_ne_of_offset {k i j x y : Nat} {b c : Block} (h : x % 0x1000 ≠ y % 0x1000) : winKey k (reg b i x) ≠ reg c j y := by
  have hb := pageBase_mod b i
  have hc := pageBase_mod c j
  unfold winKey reg
  omega

theorem qReg_ne_reg {q o x i : Nat} {b : Block} (h : o % 0x1000 ≠ x % 0x1000) : qReg q o ≠ reg b i x := winKey_ne_of_offset h

theorem qReg_ne {q o x : Nat} (h : o ≠ x) : qReg q o ≠ qReg q x := by
  unfold qReg winKey reg
  omega

theorem qReg_ne_of_offset {q k o x : Nat} (h : o % 0x1000 ≠ x % 0x1000) : qReg q o ≠ qReg k x := by
  unfold qReg winKey reg
  omega

theorem qReg_ne_of_queue {q k o : Nat} (h : q ≠ k) : qReg q o ≠ qReg k o := by
  unfold qReg winKey
  omega

/-- A register of the host's map is below every windowed key. -/
theorem winKey_ne_own {k a o : Nat} (h : o < 32) : winKey k a ≠ reg .own 1 (0x100 + 4 * o) := by
  have hb : pageBase .own 1 < 2 ^ 25 := by decide
  unfold winKey reg
  omega

theorem WordsOnly.getW {l : List Nat} {s t : State} (h : WordsOnly l s t) {a : Nat} (ha : a ∉ l) : getW t a = Machine.getW s a := h.1 a ha

theorem WordsOnly.getD64 {l : List Nat} {s t : State} (h : WordsOnly l s t) {a : Nat} (ha : a ∉ l) (hb : a + 4 ∉ l) :
    getD64 t a = Machine.getD64 s a := by
  unfold Machine.getD64
  rw [h.getW ha, h.getW hb]

/-! ### Queues -/

@[simp] theorem getQueue_setQueue_same (s : State) (q : Nat) (x : TxQueue) : getQueue (setQueue s q x) q = x := mget_mset_same ..

theorem getQueue_setQueue_other (s : State) {q j : Nat} (x : TxQueue) (h : j ≠ q) : getQueue (setQueue s q x) j = getQueue s j :=
  mget_mset_other _ _ _ _ h

theorem getQueue_congr {s t : State} (h : t.net.queues = s.net.queues) (q : Nat) : getQueue t q = getQueue s q := by
  unfold getQueue
  rw [h]

theorem onlyIn_setQueue (s : State) (q : Nat) (x : TxQueue) : OnlyIn [.net] s (setQueue s q x) := onlyIn_net s _

theorem setQueue_bus (s : State) (q : Nat) (x : TxQueue) : (setQueue s q x).bus = s.bus := rfl

theorem setQueue_ports (s : State) (q : Nat) (x : TxQueue) : (setQueue s q x).net.ports = s.net.ports := rfl

theorem setQueue_sent (s : State) (q : Nat) (x : TxQueue) : (setQueue s q x).net.sent = s.net.sent := rfl

theorem setPort_queues (s : State) (p : Nat) (x : Port) : (setPort s p x).net.queues = s.net.queues := rfl

/-! ### A frame starts (R454, R466, R482) -/

/-- The delay of a frame, stored, with its maximum. -/
def delayed (s : State) (q : Nat) (d : Word) : State :=
  if (getW (setW s (qReg q 0x15C) d) (qReg q 0x160)).toNat < d.toNat then setW (setW s (qReg q 0x15C) d) (qReg q 0x160) d
  else setW s (qReg q 0x15C) d

theorem noteDelay_eq (s : State) (q : Nat) (f : Frame) : ∃ d, noteDelay s q f = delayed s q d := ⟨_, rfl⟩

theorem wordsOnly_ite {l : List Nat} {s t u : State} {p : Prop} [Decidable p] (ht : WordsOnly l s t) (hu : WordsOnly l s u) :
    WordsOnly l s (if p then t else u) := by
  split
  · exact ht
  · exact hu

theorem onlyIn_noteDelay (s : State) (q : Nat) (f : Frame) : OnlyIn [.bus] s (noteDelay s q f) := by
  obtain ⟨d, h⟩ := noteDelay_eq s q f
  rw [h]
  exact onlyIn_ite (onlyIn_trans (onlyIn_setW ..) (onlyIn_setW ..)) (onlyIn_setW ..)

theorem wordsOnly_noteDelay (s : State) (q : Nat) (f : Frame) : WordsOnly [qReg q 0x15C, qReg q 0x160] s (noteDelay s q f) := by
  obtain ⟨d, h⟩ := noteDelay_eq s q f
  have hset := wordsOnly_mono (wordsOnly_setW s (qReg q 0x15C) d) (m := [qReg q 0x15C, qReg q 0x160]) (by simp)
  have hmax := wordsOnly_mono (wordsOnly_setW (setW s (qReg q 0x15C) d) (qReg q 0x160) d) (m := [qReg q 0x15C, qReg q 0x160]) (by simp)
  rw [h]
  exact wordsOnly_ite (wordsOnly_trans hset hmax) hset

theorem onlyIn_ptpLeaves (s : State) (p : Nat) (l : List Byte) : OnlyIn [.ftl, .bus] s (ptpLeaves s p l).2 := by
  unfold ptpLeaves
  dsimp only
  split
  · exact onlyIn_refl ..
  · split
    · exact onlyIn_refl ..
    · split
      · exact onlyIn_mono (onlyIn_bump32 ..) (by simp)
      · exact onlyIn_mono (onlyIn_ftl s _) (by simp)

/-- What the MAC writes into a PTP frame depends on fantail time and two registers only. -/
theorem ptpLeaves_congr {s t : State} {p : Nat} (hf : t.ftl = s.ftl) (ha : getW t (reg .ftl 3 (0x180 + 8 * p)) = getW s (reg .ftl 3 (0x180 + 8 * p)))
    (hb : getW t (reg .ftl 3 0x100) = getW s (reg .ftl 3 0x100)) (l : List Byte) : (ptpLeaves t p l).1 = (ptpLeaves s p l).1 := by
  have hstamp : stampT t (getW t (reg .ftl 3 (0x180 + 8 * p))) = stampT s (getW s (reg .ftl 3 (0x180 + 8 * p))) := by
    rw [ha, stampT, stampT, ftlT, ftlT, hf]
  have hone : getF t (reg .ftl 3 0x100) p 1 = getF s (reg .ftl 3 0x100) p 1 := by rw [getF, getF, hb]
  unfold ptpLeaves
  dsimp only
  rw [hstamp, hone, hf]
  split
  · rfl
  · split
    · rfl
    · split
      · rfl
      · rfl

/-- A frame taken off its queue, its delay noted. -/
def frameTaken (s : State) (q : Nat) (f : Frame) (r : List Frame) : State :=
  noteDelay (setQueue s q { getQueue s q with frames := r }) q f

theorem popFrame_eq {s : State} {q : Nat} {f : Frame} {r : List Frame} (h : (getQueue s q).frames = f :: r) :
    popFrame s q = (some f, setQueue s q { getQueue s q with frames := r }) := by
  unfold popFrame
  dsimp only
  rw [h]

/-- A frame on the wire. -/
def portSends (s : State) (p q : Nat) (f : Frame) (l : List Byte) : State :=
  setPort s p { getPort s p with sending := some (q, { f with bytes := l }) }

theorem startFrame_eq {s : State} {q : Nat} {f : Frame} {r : List Frame} (h : (getQueue s q).frames = f :: r) (p : Nat) :
    startFrame s p q = portSends (ptpLeaves (frameTaken s q f r) p f.bytes).2 p q f (ptpLeaves (frameTaken s q f r) p f.bytes).1 := by
  unfold startFrame
  rw [popFrame_eq h]
  rfl

theorem getQueue_portSends (s : State) (p q : Nat) (f : Frame) (l : List Byte) (j : Nat) : getQueue (portSends s p q f l) j = getQueue s j :=
  getQueue_congr (setPort_queues ..) j

theorem onlyIn_frameTaken (s : State) (q : Nat) (f : Frame) (r : List Frame) : OnlyIn [.net, .bus] s (frameTaken s q f r) :=
  onlyIn_trans (onlyIn_mono (onlyIn_setQueue ..) (by simp)) (onlyIn_mono (onlyIn_noteDelay ..) (by simp))

theorem getW_frameTaken (s : State) (q : Nat) (f : Frame) (r : List Frame) {b : Block} {i o : Nat} (h : o % 0x1000 ≠ 0x15C) (h' : o % 0x1000 ≠ 0x160) :
    getW (frameTaken s q f r) (reg b i o) = getW s (reg b i o) := by
  refine ((wordsOnly_noteDelay ..).getW ?_).trans (getW_congr (setQueue_bus ..) _)
  simp only [List.mem_cons, List.not_mem_nil, or_false, not_or]
  exact ⟨fun e => qReg_ne_reg (Ne.symm h) e.symm, fun e => qReg_ne_reg (Ne.symm h') e.symm⟩

theorem ptpLeaves_frameTaken (s : State) (q : Nat) (f : Frame) (r : List Frame) {p : Nat} (hp : p < 16) (l : List Byte) :
    (ptpLeaves (frameTaken s q f r) p l).1 = (ptpLeaves s p l).1 :=
  ptpLeaves_congr ((onlyIn_frameTaken ..).2 .ftl (by decide)) (getW_frameTaken _ _ _ _ (by omega) (by omega))
    (getW_frameTaken _ _ _ _ (by decide) (by decide)) l

theorem getQueue_startFrame {s : State} {q : Nat} {f : Frame} {r : List Frame} (h : (getQueue s q).frames = f :: r) (p j : Nat) :
    getQueue (startFrame s p q) j = getQueue (setQueue s q { getQueue s q with frames := r }) j := by
  have hptp : getQueue (ptpLeaves (frameTaken s q f r) p f.bytes).2 j = getQueue (frameTaken s q f r) j :=
    getQueue_congr (congrArg Net.queues ((onlyIn_ptpLeaves ..).2 .net (by decide))) j
  rw [startFrame_eq h, getQueue_portSends, hptp]
  exact getQueue_congr (congrArg Net.queues ((onlyIn_noteDelay ..).2 .net (by decide))) j

theorem onlyIn_startFrame {s : State} {q : Nat} {f : Frame} {r : List Frame} (h : (getQueue s q).frames = f :: r) (p : Nat) :
    OnlyIn [.net, .bus, .ftl] s (startFrame s p q) := by
  rw [startFrame_eq h]
  exact onlyIn_trans (onlyIn_mono (onlyIn_frameTaken ..) (by simp))
    (onlyIn_trans (onlyIn_mono (onlyIn_ptpLeaves ..) (by simp)) (onlyIn_mono (onlyIn_setPort ..) (by simp)))

/-! ### TX_START (R454) -/

/-- A port after the tenant rings that it sends from have fetched. -/
def tenantsFetched (s : State) (p : Nat) : State := ((tenantQueues p).filter (queueOn s)).foldl (fun s q => refill (fetchQueue 4096 q s) q) s

/-- A timing frame takes its credit. -/
def creditTaken (s : State) (p q : Nat) : State :=
  setPort s p { getPort s p with ptpCredit := ptpCredit s p - headLen s q * 8000, ptpAt := nowNs s }

section
variable {s : State} {p : Nat} (hmode : portMode s p ≠ 0) (hup : (getPort s p).up = true) (hidle : (getPort s p).sending = none)
include hmode hup hidle

theorem txStart_ptp {q : Nat} (h : pickPtp (tenantsFetched s p) p = some q) :
    txStart s p = startFrame (creditTaken (tenantsFetched s p) p q) p q := by
  unfold txStart
  rw [if_neg hmode, hup, hidle]
  refine (if_neg Bool.false_ne_true).trans ((if_neg Bool.false_ne_true).trans ?_)
  dsimp only
  rw [← tenantsFetched, h]
  rfl

theorem txStart_front {q : Nat} (h : pickPtp (tenantsFetched s p) p = none) (hf : pickFront (tenantsFetched s p) p = some q) :
    txStart s p = startFrame (tenantsFetched s p) p q := by
  unfold txStart
  rw [if_neg hmode, hup, hidle]
  refine (if_neg Bool.false_ne_true).trans ((if_neg Bool.false_ne_true).trans ?_)
  dsimp only
  rw [← tenantsFetched, h]
  dsimp only
  rw [hf]

theorem txStart_tenant (h : pickPtp (tenantsFetched s p) p = none) (hf : pickFront (tenantsFetched s p) p = none) :
    txStart s p = startTenant p [3, 4, 5, 6, 7] (tenantsFetched s p) := by
  unfold txStart
  rw [if_neg hmode, hup, hidle]
  refine (if_neg Bool.false_ne_true).trans ((if_neg Bool.false_ne_true).trans ?_)
  dsimp only
  rw [← tenantsFetched, h]
  dsimp only
  rw [hf]

end

/-- A frame that started: it is on the wire, off its queue, and nothing else of the queues moved. -/
structure FrameStarted (u : State) (p q : Nat) (f : Frame) (r : List Frame) (g : Frame) (t : State) : Prop where
  sending : (getPort t p).sending = some (q, g)
  window : g.window = f.window
  symbol : g.symbol = f.symbol
  tenant : g.tenant = f.tenant
  bytes : g.bytes = (ptpLeaves u p f.bytes).1
  queue : getQueue t q = { getQueue u q with frames := r }
  others : ∀ j : Nat, j ≠ q → getQueue t j = getQueue u j
  frame : OnlyIn [.net, .bus, .ftl] u t

theorem startFrame_started {s : State} {q p : Nat} {f : Frame} {r : List Frame} (hp : p < 16) (h : (getQueue s q).frames = f :: r) :
    FrameStarted s p q f r { f with bytes := (ptpLeaves (frameTaken s q f r) p f.bytes).1 } (settle (startFrame s p q)) where
  sending := by rw [getPort_settle, startFrame_eq h, portSends, getPort_setPort_same]
  window := rfl
  symbol := rfl
  tenant := rfl
  bytes := ptpLeaves_frameTaken s q f r hp f.bytes
  queue := by rw [getQueue_settle, getQueue_startFrame h, getQueue_setQueue_same]
  others := fun j hj => by rw [getQueue_settle, getQueue_startFrame h, getQueue_setQueue_other _ _ hj]
  frame := onlyIn_settle (onlyIn_startFrame h p)

theorem creditTaken_bus (s : State) (p q : Nat) : (creditTaken s p q).bus = s.bus := rfl

theorem creditTaken_ftl (s : State) (p q : Nat) : (creditTaken s p q).ftl = s.ftl := rfl

theorem getQueue_creditTaken (s : State) (p q j : Nat) : getQueue (creditTaken s p q) j = getQueue s j := getQueue_congr (setPort_queues ..) j

theorem FrameStarted.of_credit {u t : State} {p q : Nat} {f : Frame} {r : List Frame} {g : Frame} (h : FrameStarted (creditTaken u p q) p q f r g t) :
    FrameStarted u p q f r g t where
  sending := h.sending
  window := h.window
  symbol := h.symbol
  tenant := h.tenant
  bytes := h.bytes.trans (ptpLeaves_congr (creditTaken_ftl ..) (getW_congr (creditTaken_bus ..) _) (getW_congr (creditTaken_bus ..) _) _)
  queue := h.queue.trans (by rw [getQueue_creditTaken])
  others := fun j hj => (h.others j hj).trans (getQueue_creditTaken ..)
  frame := onlyIn_trans (onlyIn_mono (onlyIn_setPort ..) (by simp)) h.frame

theorem txStart_started {s : State} {p q : Nat} {f : Frame} {r : List Frame} (hp : p < 16) (hmode : portMode s p ≠ 0)
    (hup : (getPort s p).up = true) (hidle : (getPort s p).sending = none) (h : (getQueue (tenantsFetched s p) q).frames = f :: r)
    (hpick : pickPtp (tenantsFetched s p) p = some q ∨ pickPtp (tenantsFetched s p) p = none ∧ pickFront (tenantsFetched s p) p = some q) :
    ∃ g, FrameStarted (tenantsFetched s p) p q f r g (settle (txStart s p)) := by
  obtain hptp | ⟨hnone, hfront⟩ := hpick
  · rw [txStart_ptp hmode hup hidle hptp]
    exact ⟨_, (startFrame_started hp (by rw [getQueue_creditTaken]; exact h)).of_credit⟩
  · rw [txStart_front hmode hup hidle hnone hfront]
    exact ⟨_, startFrame_started hp h⟩

/-! ### FRAME_SENT (R406, R412, R466) -/

/-- What follows a departure leaves: the ports, the frames handed out, and every register but the discard counter's. -/
structure KeepsSent (s t : State) : Prop where
  ports : t.net.ports = s.net.ports
  sent : t.net.sent = s.net.sent
  words : WordsOnly [reg .syn 0 0x114, reg .syn 0 0x18, reg .syn 0 0x20] s t

theorem KeepsSent.refl (s : State) : KeepsSent s s := ⟨rfl, rfl, wordsOnly_refl ..⟩

theorem KeepsSent.trans {s t u : State} (h : KeepsSent s t) (k : KeepsSent t u) : KeepsSent s u :=
  ⟨k.ports.trans h.ports, k.sent.trans h.sent, wordsOnly_trans h.words k.words⟩

theorem KeepsSent.setQueue (s : State) (q : Nat) (x : TxQueue) : KeepsSent s (setQueue s q x) :=
  ⟨setQueue_ports .., setQueue_sent .., wordsOnly_of_bus (setQueue_bus ..)⟩

theorem queueDone_keeps (s : State) (q : Nat) : KeepsSent s (queueDone s q) := by
  unfold queueDone
  split
  · have hnet := (onlyIn_signalExt s (getF s (qReg q 0x11C) 16 16) false 1).2 .net (by decide)
    exact ⟨congrArg Net.ports hnet, congrArg Net.sent hnet, wordsOnly_signalExt ..⟩
  · exact .refl s

theorem flushDrops_keeps (fuel q : Nat) (s : State) : KeepsSent s (flushDrops fuel q s) := by
  induction fuel generalizing s with
  | zero => exact .refl s
  | succ fuel ih =>
    unfold flushDrops
    dsimp only
    split
    · split
      · exact (KeepsSent.setQueue s q _).trans ((queueDone_keeps ..).trans (ih _))
      · exact .refl s
    · exact .refl s

theorem onlyIn_symbolLeft (s : State) (f : Frame) : OnlyIn [.cells] s (symbolLeft s f) := by
  unfold symbolLeft
  split
  · exact onlyIn_refl ..
  · dsimp only
    exact onlyIn_ite (onlyIn_refl ..) (onlyIn_setCell ..)

theorem symbolLeft_keeps (s : State) (f : Frame) : KeepsSent s (symbolLeft s f) :=
  have hnet := (onlyIn_symbolLeft s f).2 .net (by decide)
  ⟨congrArg Net.ports hnet, congrArg Net.sent hnet, wordsOnly_of_bus ((onlyIn_symbolLeft s f).2 .bus (by decide))⟩

/-- What follows a departure: the symbol, then the done object of a tenant frame. -/
def departed (s : State) (q : Nat) (f : Frame) : State :=
  if f.tenant.isSome then flushDrops 4096 q (queueDone (symbolLeft s f) q) else symbolLeft s f

theorem departed_keeps (s : State) (q : Nat) (f : Frame) : KeepsSent s (departed s q f) := by
  unfold departed
  split
  · exact (symbolLeft_keeps s f).trans ((queueDone_keeps ..).trans (flushDrops_keeps ..))
  · exact symbolLeft_keeps s f

/-- The port freed, the bytes handed out. -/
def handedOut (s : State) (p : Nat) (f : Frame) : State :=
  let t := setPort s p { getPort s p with sending := none }
  { t with net := { t.net with sent := t.net.sent ++ [(p, f.bytes)] } }

theorem handedOut_bus (s : State) (p : Nat) (f : Frame) : (handedOut s p f).bus = s.bus := rfl

theorem handedOut_sent (s : State) (p : Nat) (f : Frame) : (handedOut s p f).net.sent = s.net.sent ++ [(p, f.bytes)] := rfl

theorem getPort_handedOut (s : State) (p : Nat) (f : Frame) : getPort (handedOut s p f) p = { getPort s p with sending := none } :=
  getPort_setPort_same ..

/-- The frame and its bytes counted, in the port and the queue. -/
def sentCounted (s : State) (p q : Nat) (f : Frame) : State :=
  bump64 (bump64 (bump64 s (reg .eth p 0x118) 1) (qReg q 0x138) 1) (qReg q 0x140) f.len

theorem sentCounted_net (s : State) (p q : Nat) (f : Frame) : (sentCounted s p q f).net = s.net := by
  rw [sentCounted, bump64_net, bump64_net, bump64_net]

theorem frameSent_eq {s : State} {p q : Nat} {f : Frame} (h : (getPort s p).sending = some (q, f)) :
    frameSent s p = departed (sentCounted (handedOut s p f) p q f) q f := by
  unfold frameSent
  dsimp only
  rw [h]
  rfl

theorem getD64_bump64_other (s : State) {a b : Nat} (n : Nat) (h : b ≠ a) (h1 : b ≠ a + 4) (h2 : b + 4 ≠ a) :
    getD64 (bump64 s a n) b = getD64 s b :=
  (wordsOnly_bump64 s a n).getD64 (by simp [h, h1]) (by simp [h, h2])

theorem getD64_bump64_qReg (s : State) (q n : Nat) {o x : Nat} (h : o ≠ x) (h1 : o ≠ x + 4) (h2 : o + 4 ≠ x) :
    getD64 (bump64 s (qReg q x) n) (qReg q o) = getD64 s (qReg q o) :=
  getD64_bump64_other _ _ (qReg_ne h) (qReg_ne (x := x + 4) h1) (qReg_ne (o := o + 4) h2)

theorem getD64_bump64_qReg_reg (s : State) (q n : Nat) {b : Block} {i o x : Nat} (h : x % 0x1000 ≠ o % 0x1000)
    (h1 : (x + 4) % 0x1000 ≠ o % 0x1000) (h2 : x % 0x1000 ≠ (o + 4) % 0x1000) :
    getD64 (bump64 s (qReg q x) n) (reg b i o) = getD64 s (reg b i o) :=
  getD64_bump64_other _ _ (qReg_ne_reg h).symm (qReg_ne_reg (o := x + 4) h1).symm (qReg_ne_reg (x := o + 4) h2).symm

theorem getD64_bump64_reg_qReg (s : State) (q n : Nat) {b : Block} {i o x : Nat} (h : o % 0x1000 ≠ x % 0x1000)
    (h1 : o % 0x1000 ≠ (x + 4) % 0x1000) (h2 : (o + 4) % 0x1000 ≠ x % 0x1000) :
    getD64 (bump64 s (reg b i x) n) (qReg q o) = getD64 s (qReg q o) :=
  getD64_bump64_other _ _ (qReg_ne_reg h) (qReg_ne_reg (x := x + 4) h1) (qReg_ne_reg (o := o + 4) h2)

theorem getD64_sentCounted_port (s : State) (p q : Nat) (f : Frame) :
    getD64 (sentCounted s p q f) (reg .eth p 0x118) = getD64 s (reg .eth p 0x118) + 1 := by
  rw [sentCounted, getD64_bump64_qReg_reg _ _ _ (by decide) (by decide) (by decide), getD64_bump64_qReg_reg _ _ _ (by decide) (by decide) (by decide)]
  exact getD64_bump64_same ..

theorem getD64_sentCounted_frames (s : State) (p q : Nat) (f : Frame) :
    getD64 (sentCounted s p q f) (qReg q 0x138) = getD64 s (qReg q 0x138) + 1 := by
  rw [sentCounted, getD64_bump64_qReg _ _ _ (by decide) (by decide) (by decide), getD64_bump64_same,
    getD64_bump64_reg_qReg _ _ _ (by decide) (by decide) (by decide)]
  exact congrArg _ (show BitVec.ofNat 64 1 = 1 by decide)

theorem getD64_sentCounted_bytes (s : State) (p q : Nat) (f : Frame) :
    getD64 (sentCounted s p q f) (qReg q 0x140) = getD64 s (qReg q 0x140) + BitVec.ofNat 64 f.len := by
  rw [sentCounted, getD64_bump64_same, getD64_bump64_qReg _ _ _ (by decide) (by decide) (by decide),
    getD64_bump64_reg_qReg _ _ _ (by decide) (by decide) (by decide)]

/-- A counter that a departure raised stays: the discard counter's registers lie elsewhere. -/
theorem KeepsSent.getD64_queue {s t : State} (h : KeepsSent s t) (q : Nat) {o : Nat} (ho : o % 0x1000 ∉ [0x114, 0x18, 0x20])
    (ho4 : (o + 4) % 0x1000 ∉ [0x114, 0x18, 0x20]) : getD64 t (qReg q o) = getD64 s (qReg q o) := by
  simp only [List.mem_cons, List.not_mem_nil, or_false, not_or] at ho ho4
  obtain ⟨h1, h2, h3⟩ := ho
  obtain ⟨k1, k2, k3⟩ := ho4
  refine h.words.getD64 ?_ ?_
  · simp only [List.mem_cons, List.not_mem_nil, or_false, not_or]
    exact ⟨qReg_ne_reg h1, qReg_ne_reg h2, qReg_ne_reg h3⟩
  · simp only [List.mem_cons, List.not_mem_nil, or_false, not_or]
    exact ⟨qReg_ne_reg (o := o + 4) k1, qReg_ne_reg (o := o + 4) k2, qReg_ne_reg (o := o + 4) k3⟩

theorem KeepsSent.getD64_port {s t : State} (h : KeepsSent s t) (p : Nat) : getD64 t (reg .eth p 0x118) = getD64 s (reg .eth p 0x118) := by
  refine h.words.getD64 ?_ ?_
  · simp only [List.mem_cons, List.not_mem_nil, or_false, not_or]
    exact ⟨reg_ne_of_offset (by decide), reg_ne_of_offset (by decide), reg_ne_of_offset (by decide)⟩
  · simp only [List.mem_cons, List.not_mem_nil, or_false, not_or]
    exact ⟨reg_ne_of_offset (x := 0x118 + 4) (by decide), reg_ne_of_offset (x := 0x118 + 4) (by decide), reg_ne_of_offset (x := 0x118 + 4) (by decide)⟩

/-! ### LATE_DROP (R429, R455) -/

/-- A late packet counted: at its queue with the interrupt while the port is up, else at the port. -/
def lateCounted (s : State) (q : Nat) : State :=
  if (getPort s (queuePort q)).up then raiseInt (bump32 s (qReg q 0x148) 1) .weir 0 1 else bump32 s (reg .eth (queuePort q) 0x134) 1

theorem lateDrop_eq {s : State} {q : Nat} {f : Frame} {r : List Frame} {w : Nat × Nat} (hf : (getQueue s q).frames = f :: r)
    (hw : f.window = some w) (hr : reached w.2 (nowNs s) = false) :
    lateDrop s q = symbolLeft (lateCounted (setQueue s q { getQueue s q with frames := r }) q) f := by
  unfold lateDrop
  rw [popFrame_eq hf, hf]
  dsimp only
  rw [hw]
  exact if_neg (by simp [hr])

theorem onlyIn_lateCounted (s : State) (q : Nat) : OnlyIn [.bus] s (lateCounted s q) :=
  onlyIn_ite (onlyIn_raiseInt_bump32 ..) (onlyIn_bump32 ..)

theorem lateCounted_of_up {s : State} {q : Nat} (h : (getPort s (queuePort q)).up = true) :
    lateCounted s q = raiseInt (bump32 s (qReg q 0x148) 1) .weir 0 1 := if_pos h

theorem lateCounted_of_down {s : State} {q : Nat} (h : (getPort s (queuePort q)).up = false) :
    lateCounted s q = bump32 s (reg .eth (queuePort q) 0x134) 1 := if_neg (by simp [h])

theorem getPort_setQueue (s : State) (q : Nat) (x : TxQueue) (p : Nat) : getPort (setQueue s q x) p = getPort s p := rfl

theorem getQueue_lateDrop (s : State) (q : Nat) (x : TxQueue) (f : Frame) : getQueue (symbolLeft (lateCounted (setQueue s q x) q) f) q = x := by
  refine (getQueue_congr ?_ q).trans (getQueue_setQueue_same s q x)
  exact congrArg Net.queues (((onlyIn_symbolLeft ..).2 .net (by decide)).trans ((onlyIn_lateCounted ..).2 .net (by decide)))

theorem getW_symbolLeft (s : State) (f : Frame) (a : Nat) : getW (symbolLeft s f) a = getW s a :=
  getW_congr ((onlyIn_symbolLeft s f).2 .bus (by decide)) a

/-! ### QUEUE_ENABLE (R458) -/

theorem ownAdmits_congr {s t : State} (hm : t.mem = s.mem) (hs : t.sched = s.sched)
    (hread : ∀ o < 32, getW t (reg .own 1 (0x100 + 4 * o)) = getW s (reg .own 1 (0x100 + 4 * o))) (p : Nat) (w : Word) (wr : Bool) :
    ownAdmits t p w wr = ownAdmits s p w wr := by
  have hradio : ∀ i, isRadio t i = isRadio s i := fun i => by rw [isRadio, isRadio, getPart, getPart, hs]
  unfold ownAdmits slotKey slotOwner
  dsimp only
  rw [hm, hradio, hradio]
  by_cases ho : entOwner w < 32
  · rw [hread _ ho]
  · simp only [decide_eq_false ho, Bool.false_and]

theorem ownNow_congr {s t : State} (hm : t.mem = s.mem) (g : Nat) : ownNow t g = ownNow s g := by
  unfold ownNow ownA ownB
  rw [hm]

theorem granulesAdmit_congr {s t : State} (hm : t.mem = s.mem) (hs : t.sched = s.sched)
    (hread : ∀ o < 32, getW t (reg .own 1 (0x100 + 4 * o)) = getW s (reg .own 1 (0x100 + 4 * o))) (p x n : Nat) (wr : Bool) :
    granulesAdmit t p x n wr = granulesAdmit s p x n wr := by
  unfold granulesAdmit
  refine congrArg (fun f => (piecesOf 16384 x n).all f) (funext fun g => ?_)
  rw [ownAdmits_congr hm hs hread, ownNow_congr hm, hm]

theorem granulesAdmit_setW (s : State) (k a : Nat) (v : Word) (p x n : Nat) (wr : Bool) :
    granulesAdmit (setW s (winKey k a) v) p x n wr = granulesAdmit s p x n wr :=
  granulesAdmit_congr (setW_mem ..) (setW_sched ..) (fun _ ho => getW_setW_other s v (winKey_ne_own ho).symm) p x n wr

theorem granulesAdmit_setF (s : State) (k a lo len v p x n : Nat) (wr : Bool) :
    granulesAdmit (setF s (winKey k a) lo len v) p x n wr = granulesAdmit s p x n wr := granulesAdmit_setW ..

theorem queuePart_congr {s t : State} (h : t.sched = s.sched) (q : Nat) : queuePart t q = queuePart s q := by
  unfold queuePart
  rw [h]

theorem counterOf_congr {s t : State} (h : t.sync = s.sync) (p n : Nat) : counterOf t p n = counterOf s p n := by
  unfold counterOf objOwner
  rw [getObj_congr h, h]

/-- A queue with the address check of its write taken. -/
def queueMarked (s : State) (q : Nat) (v : Word) : State := setF s (qReg q 0x104) 1 1 (b2n (bitAt v.toNat 1))

theorem queueOn_marked (s : State) (q : Nat) (v : Word) : queueOn (queueMarked s q v) q = queueOn s q := by
  unfold queueOn
  rw [queueMarked, getF_setF_field _ _ 1 1 _ 0 1 (by decide) (by decide)]

theorem getW_marked (s : State) (q : Nat) (v : Word) {o : Nat} (h : o ≠ 0x104) : getW (queueMarked s q v) (qReg q o) = getW s (qReg q o) :=
  getW_setF_other s 1 1 _ (qReg_ne h)

theorem obj_marked (s : State) (q : Nat) (v : Word) : getW (queueMarked s q v) (qReg q 0x11C) = getW s (qReg q 0x11C) :=
  getW_marked _ _ _ (by decide)

theorem base_marked (s : State) (q : Nat) (v : Word) : getD64 (queueMarked s q v) (qReg q 0x110) = getD64 s (qReg q 0x110) :=
  getD64_setF_other s 1 1 _ (qReg_ne (by decide)) (qReg_ne (o := 0x110 + 4) (by decide))

theorem size_marked (s : State) (q : Nat) (v : Word) : getF (queueMarked s q v) (qReg q 0x118) 0 4 = getF s (qReg q 0x118) 0 4 :=
  getF_setF_other s 1 1 _ 0 4 (qReg_ne (by decide))

theorem part_marked (s : State) (q : Nat) (v : Word) (k : Nat) : queuePart (queueMarked s q v) k = queuePart s k :=
  queuePart_congr ((onlyIn_setF ..).2 .sched (by decide)) k

theorem counter_marked (s : State) (q : Nat) (v : Word) (p n : Nat) : counterOf (queueMarked s q v) p n = counterOf s p n :=
  counterOf_congr ((onlyIn_setF ..).2 .sync (by decide)) p n

theorem granules_marked (s : State) (q : Nat) (v : Word) (p x n : Nat) (wr : Bool) :
    granulesAdmit (queueMarked s q v) p x n wr = granulesAdmit s p x n wr := granulesAdmit_setF ..

/-- A queue that starts. -/
def queueStarted (s : State) (q : Nat) : State :=
  setQueue (queueRestart (setF s (qReg q 0x104) 0 1 1) q) q { getQueue (queueRestart (setF s (qReg q 0x104) 0 1 1) q) q with
    next := (getObj (queueRestart (setF s (qReg q 0x104) 0 1 1) q) ((getW s (qReg q 0x11C)).toNat / 2 ^ 16)).value.toNat
    stopped := false
    credit := (getW s (qReg q 0x130)).toNat % 2 ^ 24 * 8000
    creditAt := nowNs (queueRestart (setF s (qReg q 0x104) 0 1 1) q)
    deficit := 0 }

theorem queueCtrl_off {s : State} {q : Nat} {v : Word} (h : bitAt v.toNat 0 = false) :
    queueCtrl s q v = setF (queueMarked s q v) (qReg q 0x104) 0 1 0 := if_pos (by simp [h])

section
variable {s : State} {q p : Nat} {v : Word} (hv : bitAt v.toNat 0 = true) (hoff : queueOn s q = false) (hpart : queuePart s q = some p)
include hv hoff hpart

theorem queueCtrl_started (ht : counterOf s p ((getW s (qReg q 0x11C)).toNat % 2 ^ 16) = true)
    (hd : counterOf s p ((getW s (qReg q 0x11C)).toNat / 2 ^ 16) = true)
    (hg : granulesAdmit s p (getD64 s (qReg q 0x110)).toNat (16 * 2 ^ getF s (qReg q 0x118) 0 4) false = true) :
    queueCtrl s q v = queueStarted (queueMarked s q v) q := by
  unfold queueCtrl
  dsimp only
  rw [← queueMarked, queueOn_marked, hv, hoff, obj_marked, base_marked, size_marked, part_marked, hpart]
  refine (if_neg (by decide)).trans ((if_neg (by decide)).trans ?_)
  dsimp only
  refine (if_neg ?_).trans (by rw [queueStarted, obj_marked])
  rw [granules_marked, hg, counter_marked, ht, counter_marked, hd]
  decide

theorem queueCtrl_refused (h : counterOf s p ((getW s (qReg q 0x11C)).toNat % 2 ^ 16) = false
      ∨ counterOf s p ((getW s (qReg q 0x11C)).toNat / 2 ^ 16) = false) :
    queueCtrl s q v = raiseErr (queueMarked s q v) .weir 1 8 := by
  unfold queueCtrl
  dsimp only
  rw [← queueMarked, queueOn_marked, hv, hoff, obj_marked, part_marked, hpart]
  refine (if_neg (by decide)).trans ((if_neg (by decide)).trans ?_)
  dsimp only
  refine if_pos ?_
  rw [counter_marked, counter_marked]
  obtain h | h := h
  · rw [h]
    exact .inl rfl
  · rw [h]
    exact .inr (.inl rfl)

end

/-- The counters of a queue that restart at ENABLE. -/
def queueCounters : List Nat := [0x138, 0x13C, 0x140, 0x144, 0x148, 0x14C, 0x150, 0x154, 0x158, 0x15C, 0x160]

theorem queueRestart_eq (s : State) (q : Nat) : queueRestart s q = queueCounters.foldl (fun s o => setW s (qReg q o) 0) s := rfl

theorem onlyIn_queueRestart (s : State) (q : Nat) : OnlyIn [.bus] s (queueRestart s q) :=
  onlyIn_foldl (f := fun s o => setW s (qReg q o) 0) (fun s _ => onlyIn_setW s _ _) queueCounters s

theorem getW_queueRestart (s : State) (q : Nat) {o : Nat} (h : o ∉ queueCounters) : getW (queueRestart s q) (qReg q o) = getW s (qReg q o) :=
  List.foldlRecOn (motive := fun t => getW t (qReg q o) = getW s (qReg q o)) queueCounters _ rfl fun t ht x hx =>
    (getW_setW_other t _ (qReg_ne fun e : o = x => h (e ▸ hx))).trans ht

theorem onlyIn_queueStarted (s : State) (q : Nat) : OnlyIn [.net, .bus] s (queueStarted s q) :=
  onlyIn_trans (onlyIn_mono (onlyIn_trans (onlyIn_setF s _ 0 1 1) (onlyIn_queueRestart _ q)) (by simp)) (onlyIn_mono (onlyIn_setQueue _ q _) (by simp))

theorem getF_queueStarted (s : State) (q lo len : Nat) :
    getF (queueStarted s q) (qReg q 0x104) lo len = getF (setF s (qReg q 0x104) 0 1 1) (qReg q 0x104) lo len := by
  refine (getF_congr (setQueue_bus ..) _ lo len).trans ?_
  rw [getF, getF, getW_queueRestart _ _ (by decide)]

theorem getQueue_queueStarted (s : State) (q : Nat) : ∃ n, getQueue (queueStarted s q) q = { getQueue s q with
    next := (getObj s ((getW s (qReg q 0x11C)).toNat / 2 ^ 16)).value.toNat
    stopped := false
    credit := (getW s (qReg q 0x130)).toNat % 2 ^ 24 * 8000
    creditAt := n
    deficit := 0 } := by
  have hbus : OnlyIn [.bus] s (queueRestart (setF s (qReg q 0x104) 0 1 1) q) := onlyIn_trans (onlyIn_setF ..) (onlyIn_queueRestart ..)
  have hqueue := getQueue_congr (congrArg Net.queues (hbus.2 .net (by decide))) q
  have hobj := getObj_congr (hbus.2 .sync (by decide)) ((getW s (qReg q 0x11C)).toNat / 2 ^ 16)
  refine ⟨nowNs (queueRestart (setF s (qReg q 0x104) 0 1 1) q), ?_⟩
  rw [queueStarted, getQueue_setQueue_same, hqueue, hobj]

/-! ### DEPTH_SAMPLE (R466) -/

/-- The depth of a queue. -/
def queueDepth (s : State) (q : Nat) : Word := BitVec.ofNat 32 (min 0xFFFFFF (((getQueue s q).frames.map Frame.len).foldl (· + ·) 0))

/-- The depth of a queue latched, with its maximum. -/
def depthLatched (s : State) (q : Nat) : State :=
  let t := setW s (qReg q 0x154) (queueDepth s q)
  if (getW t (qReg q 0x158)).toNat < (queueDepth s q).toNat then setW t (qReg q 0x158) (queueDepth s q) else t

theorem depthSample_eq (s : State) : depthSample s = (depthQueues s).foldl depthLatched s := rfl

theorem onlyIn_depthLatched (s : State) (q : Nat) : OnlyIn [.bus] s (depthLatched s q) :=
  onlyIn_ite (onlyIn_trans (onlyIn_setW s _ _) (onlyIn_setW ..)) (onlyIn_setW s _ _)

theorem getW_depthLatched_same (s : State) (q : Nat) : getW (depthLatched s q) (qReg q 0x154) = queueDepth s q := by
  unfold depthLatched
  dsimp only
  split
  · exact (getW_setW_other _ _ (qReg_ne (by decide))).trans (getW_setW_same ..)
  · exact getW_setW_same ..

theorem getW_depthLatched_other (s : State) {q k : Nat} (h : q ≠ k) : getW (depthLatched s k) (qReg q 0x154) = getW s (qReg q 0x154) := by
  have hset := getW_setW_other s (queueDepth s k) (qReg_ne_of_queue (o := 0x154) h)
  unfold depthLatched
  dsimp only
  split
  · exact (getW_setW_other _ _ (qReg_ne_of_offset (by decide))).trans hset
  · exact hset

/-- A queue of the list shows its depth in the end, since the queues themselves stay. -/
theorem getW_foldl_depthLatched {s : State} {q : Nat} {l : List Nat} {t : State} (hn : t.net = s.net)
    (h : q ∈ l ∨ getW t (qReg q 0x154) = queueDepth s q) : getW (l.foldl depthLatched t) (qReg q 0x154) = queueDepth s q := by
  induction l generalizing t with
  | nil => exact h.resolve_left List.not_mem_nil
  | cons k l ih =>
    refine ih (((onlyIn_depthLatched t k).2 .net (by decide)).trans hn) ?_
    obtain rfl | hk := eq_or_ne q k
    · have hdepth : queueDepth t q = queueDepth s q := by rw [queueDepth, getQueue_congr (congrArg Net.queues hn), ← queueDepth]
      exact .inr ((getW_depthLatched_same t q).trans hdepth)
    · refine h.imp (fun hm => (List.mem_cons.mp hm).resolve_left hk) fun hd => (getW_depthLatched_other t hk).trans hd

theorem mem_depthQueues {s : State} {e : Nat × TxQueue} (h : e ∈ s.net.queues) : e.1 ∈ depthQueues s := by
  rw [depthQueues, List.mem_eraseDups, List.mem_append]
  exact .inl (List.mem_map.mpr ⟨e, h, rfl⟩)

/-! ### The statement -/

/-- Settles O46. Each command has one equation; what a departure raised survives the symbol and the done object after it (`KeepsSent`), and a
depth once latched stays through the rest of the fold. -/
theorem portsSendInTheEgressOrder : Obligations.PortsSendInTheEgressOrder := by
  unfold Obligations.PortsSendInTheEgressOrder
  refine ⟨fun s u p hmode hup hidle hu => ⟨fun q f r hq hpick => ?_, fun hp hf => ?_⟩, fun s p q f hf => ?_, fun s q f r w hf hw hr => ?_,
    fun s v q hready hq => ⟨fun hv => ?_, fun p obj hv hoff hpart hobj => ⟨fun ht hd hg => ?_, fun h => ?_⟩⟩, fun s => ?_⟩
  · subst hu
    obtain ⟨g, h⟩ := txStart_started p.isLt hmode hup hidle hq hpick
    exact ⟨_, g, rfl, h.sending, h.window, h.symbol, h.tenant, h.bytes, h.queue, h.others, h.frame⟩
  · subst hu
    exact congrArg done (txStart_tenant hmode hup hidle hp hf)
  · have hkeep := departed_keeps (sentCounted (handedOut s p f) p q f) q f
    have hbus : (handedOut s p f).bus = s.bus := handedOut_bus ..
    refine ⟨_, congrArg done (frameSent_eq hf), ?_, ?_, ?_, ?_, ?_⟩
    · rw [getPort_settle, getPort, hkeep.ports, sentCounted_net, ← getPort, getPort_handedOut]
    · rw [settle_net, hkeep.sent, sentCounted_net, handedOut_sent]
    · rw [getD64_settle, hkeep.getD64_port, getD64_sentCounted_port, getD64_congr hbus]
    · rw [getD64_settle, hkeep.getD64_queue q (by decide) (by decide), getD64_sentCounted_frames, getD64_congr hbus]
    · rw [getD64_settle, hkeep.getD64_queue q (by decide) (by decide), getD64_sentCounted_bytes, getD64_congr hbus]
  · refine ⟨_, congrArg done (lateDrop_eq hf hw hr), ?_, fun hup => ⟨?_, ?_⟩, fun hdown => ?_, onlyIn_settle ?_⟩
    · rw [getQueue_settle, getQueue_lateDrop]
    · rw [getW_settle, getW_symbolLeft, lateCounted_of_up ((getPort_setQueue ..).symm ▸ hup), getW_raiseInt, if_neg (qReg_ne_reg (by decide)),
        getW_bump32_same, getW_congr (setQueue_bus ..)]
    · rw [getW_settle, getW_symbolLeft, lateCounted_of_up ((getPort_setQueue ..).symm ▸ hup)]
      exact bitAt_raiseInt _ _ _ (by decide)
    · rw [getW_settle, getW_symbolLeft, lateCounted_of_down ((getPort_setQueue ..).symm ▸ hdown), getW_bump32_same, getW_congr (setQueue_bus ..)]
    · exact onlyIn_trans (onlyIn_mono (onlyIn_setQueue ..) (by simp)) (onlyIn_trans (onlyIn_mono (onlyIn_lateCounted ..) (by simp))
        (onlyIn_mono (onlyIn_symbolLeft ..) (by simp)))
  · subst hq
    refine ⟨_, congrArg done ((gated_of_ready hready _).trans (queueCtrl_off hv)), ?_, onlyIn_settle (onlyIn_trans (onlyIn_setF ..) (onlyIn_setF ..)),
      wordsOnly_settle (wordsOnly_trans (wordsOnly_setF ..) (wordsOnly_setF ..))⟩
    rw [queueOn, getF_settle, getF_setF_same _ _ 0 1 0 (by decide), Bool.and_eq_false_iff]
    exact .inr rfl
  · subst hobj hq
    refine ⟨_, congrArg done ((gated_of_ready hready _).trans (queueCtrl_started hv hoff hpart ht hd hg)), ?_⟩
    obtain ⟨n, hqueue⟩ := getQueue_queueStarted (queueMarked s _ v) (getF s (reg .weir 1 0x100) 0 12)
    have hmarked : OnlyIn [.bus] s (queueMarked s (getF s (reg .weir 1 0x100) 0 12) v) := onlyIn_setF ..
    rw [getF_settle, getF_settle, getQueue_settle, getF_queueStarted, getF_queueStarted, hqueue]
    refine ⟨getF_setF_same _ _ 0 1 1 (by decide), ?_, ?_, rfl, rfl, ?_, ?_,
      onlyIn_settle (onlyIn_trans (onlyIn_mono hmarked (by simp)) (onlyIn_queueStarted ..))⟩
    · rw [getF_setF_field _ _ 0 1 1 1 1 (by decide) (by decide), queueMarked, getF_setF_same _ _ 1 1 _ (by decide), b2n_mod_two]
    · rw [obj_marked, getObj_congr (hmarked.2 .sync (by decide))]
    · dsimp only
      rw [getW_marked _ _ _ (by decide)]
    · rw [getQueue_congr (congrArg Net.queues (hmarked.2 .net (by decide)))]
  · subst hobj hq
    refine ⟨_, congrArg done ((gated_of_ready hready _).trans (queueCtrl_refused hv hoff hpart h)), ?_,
      onlyIn_settle (onlyIn_trans (onlyIn_setF ..) (onlyIn_raiseErr ..))⟩
    rw [getW_settle, getW_raiseErr_same, queueMarked, getW_setF_other _ _ _ _ (qReg_ne_reg (by decide)).symm]
    rfl
  · exact ⟨_, rfl, onlyIn_settle (onlyIn_foldl onlyIn_depthLatched ..), fun e he =>
      (getW_settle ..).trans (getW_foldl_depthLatched rfl (.inl (mem_depthQueues he)))⟩

end Sys2Proof.Machine
end

section
/-! SUPPORT. Received frames: their ways through the port, and the steering rings (R426, R432, R433, R439, R462 to R464, R482). -/
namespace Sys2Proof.Machine

/-! ### FRAME_RECEIVE (R432, R439, R462) -/

/-- A frame counted at its port. -/
def frameCounted (s : State) (p : Nat) : State := bump64 s (reg .eth p 0x110) 1

section
variable {s : State} {p : Nat} {l : List Byte} (hup : (getPort s p).up = true)
include hup

theorem frameReceive_bad : frameReceive s p l false = bump32 (frameCounted s p) (reg .eth p 0x12C) 1 := by
  unfold frameReceive
  rw [hup]
  rfl

theorem frameReceive_ptp (h : (parseEth l).etype = 0x88F7) : frameReceive s p l true = ptpArrives (frameCounted s p) p l := by
  unfold frameReceive
  rw [hup]
  exact (if_neg (by decide)).trans ((if_neg (by decide)).trans (if_pos h))

theorem frameReceive_esmc (h : (parseEth l).etype = 0x8809) (hs : leAt (parseEth l).body 0 1 = 0x0A) :
    frameReceive s p l true = esmcIn (frameCounted s p) p l := by
  unfold frameReceive
  rw [hup]
  exact (if_neg (by decide)).trans ((if_neg (by decide)).trans ((if_neg (by rw [h]; decide)).trans (if_pos ⟨h, hs⟩)))

section
variable (h : (parseEth l).etype ≠ 0x88F7) (hs : (parseEth l).etype ≠ 0x8809)
include h hs

theorem frameReceive_flow {f ax : Nat} {m : List Byte} {v : State} (hf : flowMatch (frameCounted s p) p (parseEth l) = some (f, m, ax, true))
    (hv : frerPass (frameCounted s p) f (parseEth l) = (true, v)) : frameReceive s p l true = sluiceIn v p f ax m := by
  unfold frameReceive
  rw [hup]
  refine (if_neg (by decide)).trans ((if_neg (by decide)).trans ((if_neg h).trans ((if_neg fun e => hs e.1).trans ?_)))
  rw [← frameCounted, hf]
  dsimp only
  rw [hv]
  rfl

theorem frameReceive_steer {e : Nat} (hf : flowMatch (frameCounted s p) p (parseEth l) = none)
    (he : steerMatch (frameCounted s p) (parseEth l) = some e) : frameReceive s p l true = steerFrame (frameCounted s p) e p (parseEth l) l := by
  unfold frameReceive
  rw [hup]
  refine (if_neg (by decide)).trans ((if_neg (by decide)).trans ((if_neg h).trans ((if_neg fun e => hs e.1).trans ?_)))
  rw [← frameCounted, hf]
  dsimp only
  rw [he]

theorem frameReceive_nowhere (hf : flowMatch (frameCounted s p) p (parseEth l) = none)
    (he : steerMatch (frameCounted s p) (parseEth l) = none) : frameReceive s p l true = bump32 (frameCounted s p) (reg .eth p 0x130) 1 := by
  unfold frameReceive
  rw [hup]
  refine (if_neg (by decide)).trans ((if_neg (by decide)).trans ((if_neg h).trans ((if_neg fun e => hs e.1).trans ?_)))
  rw [← frameCounted, hf]
  dsimp only
  rw [he]

end
end

theorem frameCounted_ftl (s : State) (p : Nat) : (frameCounted s p).ftl = s.ftl := bump64_ftl ..

theorem frameCounted_net (s : State) (p : Nat) : (frameCounted s p).net = s.net := bump64_net ..

theorem onlyIn_frameCounted (s : State) (p : Nat) : OnlyIn [.bus] s (frameCounted s p) := onlyIn_bump64 ..

theorem getW_frameCounted (s : State) (p : Nat) {o : Nat} (h : o ≠ 0x110) (h' : o ≠ 0x114) :
    getW (frameCounted s p) (reg .eth p o) = getW s (reg .eth p o) :=
  getW_setD64_other _ _ (reg_ne _ _ h) (reg_ne (y := 0x110 + 4) _ _ h')

theorem getW_bump32_counted (s : State) (p : Nat) {o : Nat} (h : o ≠ 0x110) (h' : o ≠ 0x114) :
    getW (settle (bump32 (frameCounted s p) (reg .eth p o) 1)) (reg .eth p o) = satAdd32 (getW s (reg .eth p o)) 1 := by
  rw [getW_settle, getW_bump32_same, getW_frameCounted _ _ h h']

theorem onlyIn_bump32_counted (s : State) (p a : Nat) : OnlyIn [.bus] s (settle (bump32 (frameCounted s p) a 1)) :=
  onlyIn_settle (onlyIn_trans (onlyIn_frameCounted ..) (onlyIn_bump32 ..))

theorem onlyIn_ptpArrives (s : State) (p : Nat) (l : List Byte) : OnlyIn [.ftl] s (ptpArrives s p l) := onlyIn_ftl s _

theorem ptpArrives_ftl (s : State) (p : Nat) (l : List Byte) : ∃ k, (ptpArrives s p l).ftl = { s.ftl with ptpRx := s.ftl.ptpRx ++ [(p, k, l)] } :=
  ⟨stampT s (getW s (reg .ftl 3 (0x184 + 8 * p))), rfl⟩

/-- An ESMC frame taken. -/
def esmcTaken (s : State) (p : Nat) (l : List Byte) : State :=
  raiseInt (setPort s p { getPort s p with esmc := (getPort s p).esmc ++ [l] }) .eth p 2

theorem esmcIn_of_room {s : State} {p : Nat} {l : List Byte} (h : (getPort s p).esmc.length < 8) (hl : l.length ≤ 128) :
    esmcIn s p l = esmcTaken s p l := if_neg (by omega)

theorem getPort_esmcTaken (s : State) (p : Nat) (l : List Byte) :
    getPort (esmcTaken s p l) p = { getPort s p with esmc := (getPort s p).esmc ++ [l] } :=
  (getPort_congr (raiseInt_net ..) p).trans (getPort_setPort_same ..)

theorem onlyIn_esmcTaken (s : State) (p : Nat) (l : List Byte) : OnlyIn [.net, .bus] s (esmcTaken s p l) :=
  onlyIn_trans (onlyIn_mono (onlyIn_setPort ..) (by simp)) (onlyIn_mono (onlyIn_raiseInt ..) (by simp))

/-! ### Steering entries (R463) -/

@[simp] theorem getSteer_setSteer_same (s : State) (e : Nat) (x : Steer) : getSteer (setSteer s e x) e = x := mget_mset_same ..

theorem getSteer_setSteer_other (s : State) {e k : Nat} (x : Steer) (h : k ≠ e) : getSteer (setSteer s e x) k = getSteer s k :=
  mget_mset_other _ _ _ _ h

theorem getSteer_congr {s t : State} (h : t.net = s.net) (e : Nat) : getSteer t e = getSteer s e := by
  unfold getSteer
  rw [h]

theorem getSteer_settle (s : State) (e : Nat) : getSteer (settle s) e = getSteer s e := getSteer_congr (settle_net s) e

theorem onlyIn_setSteer (s : State) (e : Nat) (x : Steer) : OnlyIn [.net] s (setSteer s e x) := onlyIn_net s _

theorem setSteer_bus (s : State) (e : Nat) (x : Steer) : (setSteer s e x).bus = s.bus := rfl

theorem stReg_ne_reg {e o x i : Nat} {b : Block} (h : o % 0x1000 ≠ x % 0x1000) : stReg e o ≠ reg b i x := winKey_ne_of_offset h

theorem stReg_ne {e o x : Nat} (h : o ≠ x) : stReg e o ≠ stReg e x := by
  unfold stReg winKey reg
  omega

theorem steerRoom_setSteer (s : State) (e : Nat) : steerRoom (setSteer s e (getSteer s e)) e = steerRoom s e := by
  unfold steerRoom
  rw [getSteer_setSteer_same, getF_congr (setSteer_bus ..), getF_congr (setSteer_bus ..)]
  rfl

theorem steerFrame_unpoliced {s : State} {e : Nat} (hoff : getF s (stReg e 0x110) 24 1 ≠ 1) (hroom : 1 ≤ steerRoom s e) (port : Nat) (x : RxEth)
    (l : List Byte) : steerFrame s e port x l = steerPut (setSteer s e (getSteer s e)) e port 0 l := by
  unfold steerFrame
  dsimp only
  rw [if_neg hoff]
  dsimp only
  rw [decide_eq_false hoff, if_pos (c := (!false) = true) rfl, steerRoom_setSteer]
  refine (if_neg (by decide)).trans ((if_neg ?_).trans rfl)
  rintro (h | ⟨h, -⟩)
  · omega
  · exact absurd h (by decide)

/-- A frame delivered: counted in the entry, and ARRIVE signalled. -/
def steerArrived (w : State) (e n : Nat) : State :=
  signalExt (setSteer w e { getSteer w e with written := n }) (getF (setSteer w e { getSteer w e with written := n }) (stReg e 0x120) 0 16) false 1

theorem steerPut_eq {u v w : State} {e port colour : Nat} {l bs cs : List Byte}
    (hv : devWrite u (getF u (stReg e 0x110) 8 5) ((getD64 u (stReg e 0x118)).toNat + (getSteer u e).written % 2 ^ getF u (stReg e 0x110) 16 4 * 16384)
      (toLE 2 l.length ++ toLE 1 colour ++ toLE 1 port ++ toLE 4 0 ++ toLE 8 (nowNs u)) true none = (.ok bs, v))
    (hw : devWrite v (getF u (stReg e 0x110) 8 5)
      ((getD64 u (stReg e 0x118)).toNat + (getSteer u e).written % 2 ^ getF u (stReg e 0x110) 16 4 * 16384 + 64) l true none = (.ok cs, w)) :
    steerPut u e port colour l = steerArrived w e (((getSteer u e).written + 1) % 2 ^ 32) := by
  unfold steerPut
  dsimp only
  rw [hv]
  dsimp only
  rw [hw]
  rfl

theorem steerArrived_eq {w : State} {e : Nat} {o : SyncObj} (n : Nat) (h : sigObj (getObj w (getF w (stReg e 0x120) 0 16)) false 1 = .done o) :
    steerArrived w e n = setObj (setSteer w e { getSteer w e with written := n }) (getF w (stReg e 0x120) 0 16) o := by
  have hobj : ∀ k, getObj (setSteer w e { getSteer w e with written := n }) k = getObj w k := fun _ => rfl
  unfold steerArrived
  rw [getF_congr (setSteer_bus ..), signalExt, hobj, h]

theorem getSteer_setObj (s : State) (n : Nat) (o : SyncObj) (e : Nat) : getSteer (setObj s n o) e = getSteer s e :=
  getSteer_congr ((onlyIn_setObj s n o).2 .net (by decide)) e

/-! ### STEER_ENABLE (R463, R464) -/

/-- A steering entry with its parameters stored. -/
def steerStored (s : State) (e : Nat) (v : Word) : State := setW s (stReg e 0x110) (v &&& 0x070F1F00)

/-- The counters of an entry that restart at ENABLE. -/
def steerCounters : List Nat := [0x138, 0x13C, 0x140, 0x144, 0x148, 0x14C]

/-- An entry on, its counters at zero. -/
def steerZeroed (s : State) (e : Nat) : State := steerCounters.foldl (fun s o => setW s (stReg e o) 0) (setF s (stReg e 0x110) 0 1 1)

/-- An entry that starts, at the ARRIVE value and with full buckets. -/
def steerStarted (s : State) (e : Nat) : State :=
  setSteer (steerZeroed s e) e ⟨(getObj (steerZeroed s e) ((getW s (stReg e 0x120)).toNat % 2 ^ 16)).value.toNat,
    (getW (steerZeroed s e) (stReg e 0x12C)).toNat % 2 ^ 24 * 65536, (getW (steerZeroed s e) (stReg e 0x130)).toNat % 2 ^ 24 * 65536, nowNs (steerZeroed s e)⟩

theorem onlyIn_steerStored (s : State) (e : Nat) (v : Word) : OnlyIn [.bus] s (steerStored s e v) := onlyIn_setW ..

theorem onlyIn_steerZeroed (s : State) (e : Nat) : OnlyIn [.bus] s (steerZeroed s e) :=
  onlyIn_trans (onlyIn_setF s (stReg e 0x110) 0 1 1) (onlyIn_foldl (f := fun s o => setW s (stReg e o) 0) (fun s _ => onlyIn_setW s _ _) steerCounters _)

theorem onlyIn_steerStarted (s : State) (e : Nat) : OnlyIn [.net, .bus] s (steerStarted s e) :=
  onlyIn_trans (onlyIn_mono (onlyIn_steerZeroed s e) (by simp)) (onlyIn_mono (onlyIn_setSteer (steerZeroed s e) e _) (by simp))

theorem getW_steerStored (s : State) (e : Nat) (v : Word) {o : Nat} (h : o ≠ 0x110) : getW (steerStored s e v) (stReg e o) = getW s (stReg e o) :=
  getW_setW_other _ _ (stReg_ne h)

theorem getW_steerZeroed (s : State) (e : Nat) {o : Nat} (h : o ∉ steerCounters) :
    getW (steerZeroed s e) (stReg e o) = getW (setF s (stReg e 0x110) 0 1 1) (stReg e o) :=
  List.foldlRecOn (motive := fun t => getW t (stReg e o) = getW (setF s (stReg e 0x110) 0 1 1) (stReg e o)) steerCounters _ rfl fun t ht x hx =>
    (getW_setW_other t _ (stReg_ne fun e : o = x => h (e ▸ hx))).trans ht

theorem getW_steerZeroed_kept (s : State) (e : Nat) {o : Nat} (h : o ∉ steerCounters) (h' : o ≠ 0x110) :
    getW (steerZeroed s e) (stReg e o) = getW s (stReg e o) :=
  (getW_steerZeroed s e h).trans (getW_setF_other s 0 1 1 (stReg_ne h'))

theorem getW_steerStarted (s : State) (e a : Nat) : getW (steerStarted s e) a = getW (steerZeroed s e) a := getW_congr (setSteer_bus ..) a

/-- `S_CTRL` stores no ENABLE of its own: the mask leaves bit 0 clear. -/
theorem sctrl_even (v : Word) : (v &&& 0x070F1F00).toNat % 2 = 0 := by
  rw [BitVec.toNat_and, Nat.mod_two_eq_zero_iff_testBit_zero, Nat.testBit_and]
  exact Bool.and_eq_false_iff.mpr (.inr (by decide))

theorem ofNat_putBits_one {w : Word} (h : w.toNat % 2 = 0) : BitVec.ofNat 32 (putBits w.toNat 0 1 1) = w ||| 1 := by
  have hput : putBits w.toNat 0 1 1 = 2 ^ 1 * (w.toNat / 2) + 1 := by
    rw [putBits_eq]
    omega
  have hval : w.toNat = 2 ^ 1 * (w.toNat / 2) := by omega
  have hor := Nat.two_pow_add_eq_or_of_lt (i := 1) (b := 1) (by decide) (w.toNat / 2)
  refine BitVec.eq_of_toNat_eq ?_
  rw [hput, hor, BitVec.toNat_or, ← hval, BitVec.toNat_ofNat]
  exact Nat.mod_eq_of_lt (Nat.or_lt_two_pow w.isLt (by decide))

theorem getW_steerStarted_ctrl (s : State) (e : Nat) (v : Word) :
    getW (steerStarted (steerStored s e v) e) (stReg e 0x110) = v &&& 0x070F1F00 ||| 1 := by
  have hstored : getW (steerStored s e v) (stReg e 0x110) = v &&& 0x070F1F00 := getW_setW_same ..
  rw [getW_steerStarted, getW_steerZeroed _ _ (by decide), setF, getW_setW_same, hstored, ofNat_putBits_one (sctrl_even v)]

theorem steerOn_started (s : State) (e : Nat) : steerOn (steerStarted s e) e = true := by
  rw [steerOn, getF, getW_steerStarted, getW_steerZeroed _ _ (by decide), ← getF, getF_setF_same _ _ 0 1 1 (by decide)]
  rfl

theorem steerOn_stored (s : State) (e : Nat) (v : Word) : steerOn (steerStored s e v) e = false := by
  have hstored : getW (steerStored s e v) (stReg e 0x110) = v &&& 0x070F1F00 := getW_setW_same ..
  rw [steerOn, getF, hstored, bitsAt, Nat.pow_zero, Nat.div_one, Nat.pow_one, sctrl_even]
  rfl

theorem policeOk_stored (s : State) (e : Nat) (v w : Word) : policeOk (steerStored s e v) e w = policeOk s e w := by
  have hkeep := fun o (h : o ≠ 0x110) => getW_steerStored s e v h
  unfold policeOk
  simp only [hkeep 0x12C (by decide), hkeep 0x130 (by decide), hkeep 0x124 (by decide), hkeep 0x128 (by decide)]

theorem ring_stored (s : State) (e : Nat) (v : Word) : getD64 (steerStored s e v) (stReg e 0x118) = getD64 s (stReg e 0x118) :=
  getD64_setW_other s _ (stReg_ne (by decide)) (stReg_ne (o := 0x118 + 4) (by decide))

theorem steerCounter_stored (s : State) (e : Nat) (v : Word) (p n : Nat) : counterOf (steerStored s e v) p n = counterOf s p n :=
  counterOf_congr ((onlyIn_steerStored ..).2 .sync (by decide)) p n

theorem steerGranules_stored (s : State) (e : Nat) (v : Word) (p x n : Nat) (wr : Bool) :
    granulesAdmit (steerStored s e v) p x n wr = granulesAdmit s p x n wr := granulesAdmit_setW ..

theorem steerPart_stored (s : State) (e : Nat) (v : Word) (p : Nat) : getPart (steerStored s e v) p = getPart s p := by
  rw [getPart, (onlyIn_steerStored s e v).2 .sched (by decide), ← getPart]

section
variable {s : State} {e : Nat} {v : Word} (hoff : steerOn s e = false) (h4 : 4 ≤ bitsAt v.toNat 16 4) (h12 : bitsAt v.toNat 16 4 ≤ 12)
  (hv : bitAt v.toNat 0 = true)
include hoff h4 h12 hv

theorem steerCtrl_started (hp : (getPart s (bitsAt v.toNat 8 5)).st ≠ .free)
    (ha : counterOf s (bitsAt v.toNat 8 5) ((getW s (stReg e 0x120)).toNat % 2 ^ 16) = true)
    (hr : counterOf s (bitsAt v.toNat 8 5) ((getW s (stReg e 0x120)).toNat / 2 ^ 16) = true) (hpol : policeOk s e v = true)
    (hg : granulesAdmit s (bitsAt v.toNat 8 5) (getD64 s (stReg e 0x118)).toNat (16384 * 2 ^ bitsAt v.toNat 16 4) true = true) :
    steerCtrl s e v = steerStarted (steerStored s e v) e := by
  unfold steerCtrl
  dsimp only
  rw [hoff, hv]
  refine (if_neg (by decide)).trans ((if_neg (by omega)).trans ((if_neg (by decide)).trans ((if_neg ?_).trans rfl)))
  rw [← steerStored, getW_steerStored _ _ _ (by decide), steerPart_stored, steerCounter_stored, steerCounter_stored, policeOk_stored, ring_stored,
    steerGranules_stored, ha, hr, hpol, hg]
  simpa using hp

theorem steerCtrl_refused (hp : (getPart s (bitsAt v.toNat 8 5)).st = .free) : steerCtrl s e v = raiseErr (steerStored s e v) .weir 2 8 := by
  unfold steerCtrl
  dsimp only
  rw [hoff, hv]
  refine (if_neg (by decide)).trans ((if_neg (by omega)).trans ((if_neg (by decide)).trans (if_pos ?_)))
  exact .inl ((congrArg Part.st (steerPart_stored ..)).trans hp)

end

theorem getSteer_steerStarted (s : State) (e : Nat) (v : Word) : getSteer (steerStarted (steerStored s e v) e) e =
    ⟨(getObj s ((getW s (stReg e 0x120)).toNat % 2 ^ 16)).value.toNat, (getW s (stReg e 0x12C)).toNat % 2 ^ 24 * 65536,
      (getW s (stReg e 0x130)).toNat % 2 ^ 24 * 65536, nowNs s⟩ := by
  have hbus : OnlyIn [.bus] s (steerZeroed (steerStored s e v) e) := onlyIn_trans (onlyIn_steerStored s e v) (onlyIn_steerZeroed _ e)
  rw [steerStarted, getSteer_setSteer_same, getObj_congr (hbus.2 .sync (by decide)), getW_steerZeroed_kept _ _ (by decide) (by decide),
    getW_steerZeroed_kept _ _ (by decide) (by decide), getW_steerStored _ _ _ (by decide), getW_steerStored _ _ _ (by decide),
    getW_steerStored _ _ _ (by decide), nowNs_congr (hbus.2 .ftl (by decide))]

theorem getSteer_steerStarted_other (s : State) (e : Nat) (v : Word) {k : Nat} (h : k ≠ e) :
    getSteer (steerStarted (steerStored s e v) e) k = getSteer s k := by
  have hbus : OnlyIn [.bus] s (steerZeroed (steerStored s e v) e) := onlyIn_trans (onlyIn_steerStored s e v) (onlyIn_steerZeroed _ e)
  rw [steerStarted, getSteer_setSteer_other _ _ h, getSteer_congr (hbus.2 .net (by decide))]

/-! ### The statement -/

/-- Settles O47. A frame takes one way through `frameReceive`; a delivery is `steerArrived`, which moves one entry's count and one object. -/
theorem receivedFramesReachTheirDestination : Obligations.ReceivedFramesReachTheirDestination := by
  unfold Obligations.ReceivedFramesReachTheirDestination
  refine ⟨fun s u p l hup hu => ⟨?_, fun h => ?_, fun h hs hroom hl => ?_, fun h hs => ⟨fun f ax m v hf hv => ?_, fun e hf he => ?_, fun hf he => ?_⟩⟩,
    fun s u v w e port a x l bs cs o hoff hroom ha hu hv hw ho => ?_,
    fun s v e p obj hready he hoff h4 h12 hv hp hobj => ⟨fun hpart hca hcr hpol hg => ?_, fun hpart => ?_⟩⟩
  · refine ⟨_, congrArg done (frameReceive_bad hup), ?_, getW_bump32_counted _ _ (by decide) (by decide), onlyIn_bump32_counted ..⟩
    have hnext : reg .eth p 0x110 + 4 ≠ reg .eth p 0x12C := reg_ne _ _ (x := 0x110 + 4) (by decide)
    rw [getD64_settle]
    exact (getD64_setW_other _ _ (reg_ne _ _ (by decide)) hnext).trans (getD64_bump64_same ..)
  · obtain ⟨k, hk⟩ := ptpArrives_ftl (frameCounted s p) p l
    refine ⟨_, k, congrArg done (frameReceive_ptp hup h), ?_,
      onlyIn_settle (onlyIn_trans (onlyIn_mono (onlyIn_frameCounted ..) (by simp)) (onlyIn_mono (onlyIn_ptpArrives ..) (by simp)))⟩
    rw [settle_ftl, hk, frameCounted_ftl]
  · have hport : getPort (frameCounted s p) p = getPort s p := getPort_congr (frameCounted_net ..) p
    refine ⟨_, congrArg done ((frameReceive_esmc hup h hs).trans (esmcIn_of_room (by rwa [hport]) hl)), ?_, ?_,
      onlyIn_settle (onlyIn_trans (onlyIn_mono (onlyIn_frameCounted ..) (by simp)) (onlyIn_esmcTaken ..))⟩
    · rw [getPort_settle, getPort_esmcTaken, hport]
    · rw [getW_settle]
      exact bitAt_raiseInt _ _ _ (by decide)
  · subst hu
    exact congrArg done (frameReceive_flow hup h hs hf hv)
  · subst hu
    exact congrArg done (frameReceive_steer hup h hs hf he)
  · subst hu
    exact ⟨_, congrArg done (frameReceive_nowhere hup h hs hf he), getW_bump32_counted _ _ (by decide) (by decide), onlyIn_bump32_counted ..⟩
  · have hbus : u.bus = s.bus := hu ▸ setSteer_bus ..
    have hsteer : getSteer u e = getSteer s e := by rw [hu, getSteer_setSteer_same]
    have hnow : nowNs u = nowNs s := by rw [hu]; rfl
    subst ha
    rw [← getF_congr hbus, ← getF_congr hbus, ← getD64_congr hbus, ← hsteer, ← hnow] at hv
    rw [← getF_congr hbus, ← getF_congr hbus, ← getD64_congr hbus, ← hsteer] at hw
    rw [steerFrame_unpoliced hoff hroom, ← hu, steerPut_eq hv hw, steerArrived_eq _ ho, hsteer]
    refine ⟨?_, getObj_setObj_same .., fun k hk => (getObj_setObj_other _ _ hk).trans rfl⟩
    rw [getSteer_setObj, getSteer_setSteer_same]
  · subst he hp hobj
    refine ⟨_, congrArg done ((gated_of_ready hready _).trans (steerCtrl_started hoff h4 h12 hv hpart hca hcr hpol hg)), ?_, ?_, ?_, fun k hk => ?_,
      onlyIn_settle (onlyIn_trans (onlyIn_mono (onlyIn_steerStored s _ v) (by simp)) (onlyIn_steerStarted ..))⟩
    · exact (congrArg (decide <| · = 1) (getF_settle ..)).trans (steerOn_started ..)
    · rw [getW_settle, getW_steerStarted_ctrl]
    · rw [getSteer_settle, getSteer_steerStarted]
    · rw [getSteer_settle, getSteer_steerStarted_other _ _ _ hk]
  · subst he hp hobj
    refine ⟨_, congrArg done ((gated_of_ready hready _).trans (steerCtrl_refused hoff h4 h12 hv hpart)), ?_, ?_,
      onlyIn_settle (onlyIn_trans (onlyIn_steerStored s _ v) (onlyIn_raiseErr ..))⟩
    · rw [steerOn, getF_settle, getF, (wordsOnly_raiseErr ..).getW (by simp [stReg_ne_reg]), ← getF, ← steerOn, steerOn_stored]
    · rw [getW_settle, getW_raiseErr_same, steerStored, getW_setW_other _ _ (stReg_ne_reg (by decide)).symm]
      rfl

end Sys2Proof.Machine
end

section
/-! SUPPORT. The bolters: ring sets, descriptors, units, completion and parity errors (R411 to R416, R422, R424, R554). -/
namespace Sys2Proof.Machine

/-! ### Ring sets -/

theorem onlyIn_bol (s : State) (x : Bolters) : OnlyIn [.bol] s { s with bol := x } := by
  refine ⟨rfl, fun c hc => ?_⟩
  cases c <;> first | rfl | exact absurd (by simp) hc

@[simp] theorem getSet_setSet_same (s : State) (i : Nat) (x : BolSet) : getSet (setSet s i x) i = x := mget_mset_same ..

theorem getSet_setSet_other (s : State) {i k : Nat} (x : BolSet) (h : k ≠ i) : getSet (setSet s i x) k = getSet s k :=
  mget_mset_other _ _ _ _ h

theorem getSet_congr {s t : State} (h : t.bol.sets = s.bol.sets) (i : Nat) : getSet t i = getSet s i := by
  unfold getSet
  rw [h]

theorem onlyIn_setSet (s : State) (i : Nat) (x : BolSet) : OnlyIn [.bol] s (setSet s i x) := onlyIn_bol s _

theorem setSet_bus (s : State) (i : Nat) (x : BolSet) : (setSet s i x).bus = s.bus := rfl

theorem setSet_units (s : State) (i : Nat) (x : BolSet) : (setSet s i x).bol.units = s.bol.units := rfl

theorem getSet_settle (s : State) (i : Nat) : getSet (settle s) i = getSet s i := getSet_congr (congrArg Bolters.sets (settle_bol s)) i

theorem ringOn_settle (s : State) (i r : Nat) : ringOn (settle s) i r = ringOn s i r := by rw [ringOn, getF_settle, ringOn]

theorem ringOn_congr {s t : State} (h : t.bus = s.bus) (i r : Nat) : ringOn t i r = ringOn s i r := by rw [ringOn, getF_congr h, ringOn]

theorem next_setNext (x : BolSet) (r j : Nat) : (x.setNext r j).next r = j := by
  unfold BolSet.setNext BolSet.next
  split
  · rfl
  · rfl

theorem descs_setNext (x : BolSet) (r j : Nat) : (x.setNext r j).descs = x.descs := by
  unfold BolSet.setNext
  split
  · rfl
  · rfl

theorem bitAt_putBits (n r v : Nat) : bitAt (putBits n r 1 v) r = decide (v % 2 = 1) :=
  congrArg (fun m => decide (m = 1)) (bitsAt_putBits_same n r 1 v)

/-! ### BOLTER_RING_ENABLE, BOLTER_RING_DISABLE (R411, R424) -/

/-- A set whose ring starts at descriptor `j`. -/
def BolSet.started (x : BolSet) (r j : Nat) : BolSet := { x.setNext r j with stop := putBits (x.setNext r j).stop r 1 0 }

theorem next_started (x : BolSet) (r j : Nat) : (x.started r j).next r = j := next_setNext x r j

theorem stop_started (x : BolSet) (r j : Nat) : bitAt (x.started r j).stop r = false := bitAt_putBits ..

theorem descs_started (x : BolSet) (r j : Nat) : (x.started r j).descs = x.descs := descs_setNext x r j

/-- A ring enabled. -/
def ringStarted (s : State) (i r : Nat) : State :=
  domsFollow (setF (setSet s i ((getSet s i).started r (getObj s (ringDone s i r)).value.toNat)) (bolReg i 0x224) r 1 1)

theorem bolterEnable_started {s : State} {i r p : Nat} (hoff : ringOn s i r = false) (hp : setPartOf s i = some p) (hr : isRadio s p = true)
    (ht : counterOf s p (ringTail s i r) = true) (hd : counterOf s p (ringDone s i r) = true)
    (hg : granulesAdmit s p (ringBase s i r) (64 * ringSize s i r) true = true) : bolterEnable s i r = ringStarted s i r := by
  unfold bolterEnable
  rw [hoff, hp]
  refine (if_neg (by decide)).trans ?_
  dsimp only
  refine (if_neg ?_).trans rfl
  rw [hr, ht, hd, hg]
  decide

theorem bolterEnable_unbound {s : State} {i r : Nat} (hoff : ringOn s i r = false) (hp : setPartOf s i = none) :
    bolterEnable s i r = raiseErr s .bol 0 8 := by
  unfold bolterEnable
  rw [hoff, hp]
  exact if_neg (by decide)

theorem getSet_ringStarted (s : State) (i r : Nat) :
    getSet (ringStarted s i r) i = (getSet s i).started r (getObj s (ringDone s i r)).value.toNat := by
  unfold ringStarted
  rw [getSet_congr (congrArg Bolters.sets ((onlyIn_domsFollow _).2 .bol (by decide))),
    getSet_congr (congrArg Bolters.sets ((onlyIn_setF ..).2 .bol (by decide))), getSet_setSet_same]

theorem ringOn_ringStarted (s : State) (i : Nat) {r : Nat} (hr : r < 2) : ringOn (ringStarted s i r) i r = true := by
  rw [ringOn, ringStarted, getF_congr (domsFollow_bus _), getF_setF_same _ _ r 1 1 (by omega)]
  rfl

theorem onlyIn_ringStarted (s : State) (i r : Nat) : OnlyIn [.bol, .bus, .gov] s (ringStarted s i r) :=
  onlyIn_trans (onlyIn_mono (onlyIn_setSet s i _) (by simp)) (onlyIn_trans (onlyIn_mono (onlyIn_setF (setSet s i _) _ r 1 1) (by simp))
    (onlyIn_mono (onlyIn_domsFollow _) (by simp)))

theorem wordsOnly_ringStarted (s : State) (i r : Nat) : WordsOnly [reg .bol i 0x224] s (ringStarted s i r) :=
  wordsOnly_trans (wordsOnly_of_bus (setSet_bus ..)) (wordsOnly_trans (wordsOnly_setF _ (reg .bol i 0x224) r 1 1) (wordsOnly_of_bus (domsFollow_bus _)))

/-- Contexts keep all but the time from which they count as stalled. -/
structure StallOnly (s t : State) : Prop where
  frame : OnlyIn [.sched] s t
  ctxs : ∀ k : Nat, getCtx t k = { getCtx s k with lastMove := (getCtx t k).lastMove }

theorem StallOnly.refl (s : State) : StallOnly s s := ⟨onlyIn_refl .., fun _ => rfl⟩

theorem StallOnly.trans {s t u : State} (h : StallOnly s t) (k : StallOnly t u) : StallOnly s u :=
  ⟨onlyIn_trans h.frame k.frame, fun j => by rw [k.ctxs j, h.ctxs j]⟩

theorem StallOnly.setCtx (s : State) (c m : Nat) : StallOnly s (setCtx s c { getCtx s c with lastMove := m }) := by
  refine ⟨onlyIn_setCtx .., fun k => ?_⟩
  obtain rfl | hk := eq_or_ne k c
  · rw [getCtx_setCtx_same]
  · rw [getCtx_setCtx_other _ _ hk]

theorem recount_stallOnly (s0 s : State) : StallOnly s (recount s0 s) :=
  List.foldlRecOn (motive := StallOnly s) _ _ (.refl s) fun t ht _ _ => ht.trans (.setCtx t _ _)

/-- A ring disabled, before its set is emptied. -/
def ringStopped (s : State) (i r : Nat) : State := recount s (domsFollow (setF s (bolReg i 0x224) r 1 0))

/-- A set whose ring holds nothing. -/
def BolSet.emptied (x : BolSet) (r : Nat) : BolSet :=
  ({ x with descs := x.descs.filter (fun d => d.ring ≠ r), stop := putBits x.stop r 1 0 }).setNext r 0

/-- The units of other rings go on. -/
def unitsStopped (s : State) (i r : Nat) : State :=
  { s with bol := { s.bol with units := s.bol.units.filter (fun u => u.2.set ≠ i || u.2.ring ≠ r) } }

theorem bolterDisable_eq (s : State) (i r : Nat) :
    bolterDisable s i r = setSet (unitsStopped (ringStopped s i r) i r) i ((getSet (ringStopped s i r) i).emptied r) := by
  unfold bolterDisable ringStopped unitsStopped BolSet.emptied
  rfl

theorem onlyIn_ringStopped (s : State) (i r : Nat) : OnlyIn [.bus, .gov, .sched] s (ringStopped s i r) :=
  onlyIn_trans (onlyIn_mono (onlyIn_setF s (bolReg i 0x224) r 1 0) (by simp))
    (onlyIn_trans (onlyIn_mono (onlyIn_domsFollow _) (by simp)) (onlyIn_mono (onlyIn_recount s _) (by simp)))

theorem getCtx_ringStopped (s : State) (i r k : Nat) :
    getCtx (ringStopped s i r) k = { getCtx s k with lastMove := (getCtx (ringStopped s i r) k).lastMove } := by
  have hsched : (domsFollow (setF s (bolReg i 0x224) r 1 0)).sched = s.sched :=
    ((onlyIn_domsFollow _).2 .sched (by decide)).trans ((onlyIn_setF s (bolReg i 0x224) r 1 0).2 .sched (by decide))
  have hctx : getCtx (domsFollow (setF s (bolReg i 0x224) r 1 0)) k = getCtx s k := by rw [getCtx, hsched, ← getCtx]
  have hstall := (recount_stallOnly s (domsFollow (setF s (bolReg i 0x224) r 1 0))).ctxs k
  rw [hctx] at hstall
  exact hstall

theorem ringStopped_bus (s : State) (i r : Nat) : (ringStopped s i r).bus = (setF s (bolReg i 0x224) r 1 0).bus :=
  ((onlyIn_recount s _).2 .bus (by decide)).trans (domsFollow_bus _)

theorem unitsStopped_bus (s : State) (i r : Nat) : (unitsStopped s i r).bus = s.bus := rfl

theorem unitsStopped_units (s : State) (i r : Nat) :
    (unitsStopped s i r).bol.units = s.bol.units.filter (fun u => u.2.set ≠ i || u.2.ring ≠ r) := rfl

theorem bolterDisable_bus (s : State) (i r : Nat) : (bolterDisable s i r).bus = (setF s (bolReg i 0x224) r 1 0).bus := by
  rw [bolterDisable_eq, setSet_bus, unitsStopped_bus, ringStopped_bus]

theorem getSet_ringStopped (s : State) (i r k : Nat) : getSet (ringStopped s i r) k = getSet s k :=
  getSet_congr (congrArg Bolters.sets ((onlyIn_ringStopped s i r).2 .bol (by decide))) k

theorem getSet_unitsStopped (s : State) (i r k : Nat) : getSet (unitsStopped s i r) k = getSet s k := rfl

theorem getCtx_bol (s : State) (i r : Nat) (x : BolSet) (k : Nat) : getCtx (setSet (unitsStopped s i r) i x) k = getCtx s k := rfl

theorem descs_bolterDisable (s : State) (i r : Nat) :
    (getSet (bolterDisable s i r) i).descs = (getSet s i).descs.filter (fun d => d.ring ≠ r) := by
  rw [bolterDisable_eq, getSet_setSet_same, getSet_ringStopped]
  exact descs_setNext ..

theorem getSet_bolterDisable_other (s : State) {i k : Nat} (r : Nat) (h : k ≠ i) : getSet (bolterDisable s i r) k = getSet s k := by
  rw [bolterDisable_eq, getSet_setSet_other _ _ h, getSet_unitsStopped, getSet_ringStopped]

theorem units_bolterDisable {s : State} {i r : Nat} {u : Nat × BolUnit} (h : u ∈ (bolterDisable s i r).bol.units) : u.2.set ≠ i ∨ u.2.ring ≠ r := by
  rw [bolterDisable_eq, setSet_units, unitsStopped_units] at h
  simpa using (List.mem_filter.mp h).2

theorem ringOn_bolterDisable (s : State) (i : Nat) {r : Nat} (hr : r < 2) : ringOn (bolterDisable s i r) i r = false := by
  rw [ringOn, getF_congr (bolterDisable_bus ..), getF_setF_same _ _ r 1 0 (by omega)]
  rfl

theorem onlyIn_bolterDisable (s : State) (i r : Nat) : OnlyIn [.bol, .bus, .gov, .sched] s (bolterDisable s i r) := by
  rw [bolterDisable_eq]
  exact onlyIn_trans (onlyIn_mono (onlyIn_ringStopped s i r) (by simp))
    (onlyIn_trans (onlyIn_mono (onlyIn_bol (ringStopped s i r) _) (by simp)) (onlyIn_mono (onlyIn_setSet (unitsStopped _ i r) i _) (by simp)))

theorem wordsOnly_bolterDisable (s : State) (i r : Nat) : WordsOnly [reg .bol i 0x224] s (bolterDisable s i r) :=
  wordsOnly_trans (wordsOnly_setF s (reg .bol i 0x224) r 1 0) (wordsOnly_of_bus (bolterDisable_bus ..))

theorem getCtx_bolterDisable (s : State) (i r k : Nat) :
    getCtx (bolterDisable s i r) k = { getCtx s k with lastMove := (getCtx (bolterDisable s i r) k).lastMove } := by
  rw [bolterDisable_eq, getCtx_bol]
  exact getCtx_ringStopped ..

/-! ### DESCRIPTOR_FETCH (R412, R414) -/

/-- A descriptor taken into its set. -/
def descTaken (v : State) (i r j : Nat) (res : DevRes) : State :=
  setSet { v with bol := { v.bol with fetched := v.bol.fetched + 1 } } i
    ({ getSet v i with descs := (getSet v i).descs ++ [newDesc r j v.bol.fetched res] }.setNext r ((j + 1) % 2 ^ 32))

/-- A ring stopped by an overrun. -/
def ringOverrun (s : State) (i r : Nat) : State :=
  setSet (setF s (bolReg i 0x22C) 0 1 1) i { getSet s i with stop := putBits (getSet s i).stop r 1 1 }

section
variable {s : State} {i r p : Nat} (hp : setPartOf s i = some p) (hon : ringOn s i r = true) (hstop : bitAt (getSet s i).stop r = false)
include hp hon hstop

theorem descFetch_taken (upset : List (Nat × Nat)) {v : State} {res : DevRes}
    (hfit : ((getObj s (ringTail s i r)).value - (getObj s (ringDone s i r)).value).toInt ≤ (ringSize s i r : Int))
    (hmore : 0 < ((getObj s (ringTail s i r)).value - BitVec.ofNat 32 ((getSet s i).next r)).toInt) (hroom : inFlight s p < 64)
    (hv : devRead (upsetLines s upset) p (ringBase s i r + 64 * ((getSet s i).next r % ringSize s i r)) 64 true none = (res, v)) :
    descFetch s i r upset = descTaken v i r ((getSet s i).next r) res := by
  unfold descFetch
  rw [hp]
  dsimp only
  rw [hon, hstop, hv]
  refine (if_neg (by decide)).trans ((if_neg (by omega)).trans ((if_neg ?_).trans rfl))
  rw [decide_eq_false (by omega), decide_eq_false (by omega)]
  decide

theorem descFetch_overrun (upset : List (Nat × Nat))
    (hover : (ringSize s i r : Int) < ((getObj s (ringTail s i r)).value - (getObj s (ringDone s i r)).value).toInt) :
    descFetch s i r upset = ringOverrun s i r := by
  unfold descFetch
  rw [hp]
  dsimp only
  rw [hon, hstop]
  exact (if_neg (by decide)).trans (if_pos hover)

end

theorem getSet_descTaken (v : State) (i r j : Nat) (res : DevRes) : getSet (descTaken v i r j res) i =
    { getSet v i with descs := (getSet v i).descs ++ [newDesc r j v.bol.fetched res] }.setNext r ((j + 1) % 2 ^ 32) := getSet_setSet_same ..

theorem onlyIn_descTaken (v : State) (i r j : Nat) (res : DevRes) : OnlyIn [.bol] v (descTaken v i r j res) :=
  onlyIn_trans (onlyIn_bol v _) (onlyIn_setSet { v with bol := _ } i _)

theorem getSet_ringOverrun (s : State) (i r : Nat) :
    getSet (ringOverrun s i r) i = { getSet s i with stop := putBits (getSet s i).stop r 1 1 } := getSet_setSet_same ..

theorem onlyIn_ringOverrun (s : State) (i r : Nat) : OnlyIn [.bol, .bus] s (ringOverrun s i r) :=
  onlyIn_trans (onlyIn_mono (onlyIn_setF s (bolReg i 0x22C) 0 1 1) (by simp)) (onlyIn_mono (onlyIn_setSet (setF s _ 0 1 1) i _) (by simp))

theorem wordsOnly_ringOverrun (s : State) (i r : Nat) : WordsOnly [reg .bol i 0x22C] s (ringOverrun s i r) :=
  wordsOnly_trans (wordsOnly_setF s (reg .bol i 0x22C) 0 1 1) (wordsOnly_of_bus (setSet_bus ..))

/-! ### UNIT_START (R413, R414, R422) -/

/-- A unit taken off its descriptor; the other ring of the set comes next when it was the last. -/
def unitTaken (s : State) (i : Nat) (d : BolDesc) (r : List Nat) : State :=
  setSet (putDesc s i { d with todo := r }) i { getSet (putDesc s i { d with todo := r }) i with turn := if r = [] then 1 - d.ring else d.ring }

/-- A unit running, its partition served once more. -/
def unitRuns (s : State) (b p : Nat) (u : BolUnit) : State :=
  { s with bol := { s.bol with units := mput s.bol.units b u, served := mput s.bol.served p (mget 0 s.bol.served p + 1) } }

/-- Services count afresh once no partition has a unit left. -/
def servedAfresh (s : State) : State := if (bolterPick s).isNone then { s with bol := { s.bol with served := [] } } else s

theorem unitStart_eq {s : State} {b p i cb : Nat} {d : BolDesc} {rest : List Nat} (hr : bolterRole s b = 0) (hf : bolterFenced s b = false)
    (hu : mfind s.bol.units b = none) (hp : bolterPick s = some p) (hw : partWork s p = some (i, d)) (hd : d.todo = cb :: rest) :
    unitStart s b = servedAfresh (unitRuns (unitTaken s i d rest) b p ⟨i, d.ring, d.idx, cb, nowNs s⟩) := by
  unfold unitStart
  rw [hr, hf, hu]
  refine (if_neg (by decide)).trans ?_
  rw [hp]
  dsimp only
  rw [hw]
  dsimp only
  rw [hd]
  rfl

theorem servedAfresh_units (s : State) : (servedAfresh s).bol.units = s.bol.units := by
  unfold servedAfresh
  split
  · rfl
  · rfl

theorem servedAfresh_sets (s : State) : (servedAfresh s).bol.sets = s.bol.sets := by
  unfold servedAfresh
  split
  · rfl
  · rfl

theorem onlyIn_servedAfresh (s : State) : OnlyIn [.bol] s (servedAfresh s) := onlyIn_ite (onlyIn_bol s _) (onlyIn_refl ..)

theorem unitRuns_units (s : State) (b p : Nat) (u : BolUnit) : (unitRuns s b p u).bol.units = mput s.bol.units b u := rfl

theorem unitRuns_sets (s : State) (b p : Nat) (u : BolUnit) : (unitRuns s b p u).bol.sets = s.bol.sets := rfl

theorem getSet_putDesc_same (s : State) (i : Nat) (d : BolDesc) :
    getSet (putDesc s i d) i = { getSet s i with descs := (getSet s i).descs.map (fun e => if e.ord = d.ord then d else e) } := getSet_setSet_same ..

theorem getSet_putDesc_other (s : State) {i k : Nat} (d : BolDesc) (h : k ≠ i) : getSet (putDesc s i d) k = getSet s k := getSet_setSet_other _ _ h

theorem putDesc_units (s : State) (i : Nat) (d : BolDesc) : (putDesc s i d).bol.units = s.bol.units := rfl

theorem onlyIn_putDesc (s : State) (i : Nat) (d : BolDesc) : OnlyIn [.bol] s (putDesc s i d) := onlyIn_setSet ..

theorem descs_unitTaken (s : State) (i : Nat) (d : BolDesc) (r : List Nat) :
    (getSet (unitTaken s i d r) i).descs = (getSet s i).descs.map (fun e => if e.ord = d.ord then { d with todo := r } else e) := by
  rw [unitTaken, getSet_setSet_same, getSet_putDesc_same]

theorem getSet_unitTaken_other (s : State) {i k : Nat} (d : BolDesc) (r : List Nat) (h : k ≠ i) : getSet (unitTaken s i d r) k = getSet s k := by
  rw [unitTaken, getSet_setSet_other _ _ h, getSet_putDesc_other _ _ h]

theorem unitTaken_units (s : State) (i : Nat) (d : BolDesc) (r : List Nat) : (unitTaken s i d r).bol.units = s.bol.units := rfl

theorem onlyIn_unitTaken (s : State) (i : Nat) (d : BolDesc) (r : List Nat) : OnlyIn [.bol] s (unitTaken s i d r) :=
  onlyIn_trans (onlyIn_putDesc s i { d with todo := r }) (onlyIn_setSet (putDesc s i { d with todo := r }) i _)

/-! ### UNIT_DONE (R416) -/

/-- A unit counted, with its clocks and iterations. -/
def unitCounted (v : State) (b clocks it : Nat) : State :=
  bump64 (bump64 (bump64 v (reg .bol b 0x100) 1) (reg .bol b 0x108) clocks) (reg .bol b 0x110) it

/-- The iterations that a unit ran. -/
def UnitRes.iters : UnitRes → Nat
  | .ok _ it _ _ => it
  | .denied => 0
  | .bad => 0

theorem unitDone_eq {s v : State} {b p : Nat} {upset : List (Nat × Nat)} {u : BolUnit} {d : BolDesc} {res : UnitRes}
    (hu : mfind s.bol.units b = some u) (hd : (getSet s u.set).descs.find? (fun d => d.ring = u.ring ∧ d.idx = u.idx) = some d)
    (hp : setPartOf s u.set = some p)
    (hv : runUnit (upsetLines { s with bol := { s.bol with units := mdel s.bol.units b } } upset) p d.bytes u.cb = (res, v)) :
    unitDone s b upset = unitNote (unitCounted v b (unitClocks d.bytes u.cb res.iters) res.iters) p u.set d u.cb res := by
  have hset : getSet { s with bol := { s.bol with units := mdel s.bol.units b } } u.set = getSet s u.set := getSet_congr rfl _
  have hpart : setPartOf { s with bol := { s.bol with units := mdel s.bol.units b } } u.set = some p := hp
  unfold unitDone
  rw [hu]
  dsimp only
  rw [hset, hd, hpart]
  dsimp only
  rw [hv]
  cases res
  case ok bits it cbFail polFail => rfl
  case denied => rfl
  case bad => rfl

theorem onlyIn_unitCounted (v : State) (b clocks it : Nat) : OnlyIn [.bus] v (unitCounted v b clocks it) :=
  onlyIn_trans (onlyIn_bump64 v _ 1) (onlyIn_trans (onlyIn_bump64 (bump64 v _ 1) _ clocks) (onlyIn_bump64 (bump64 (bump64 v _ 1) _ clocks) _ it))

theorem wordsOnly_unitCounted (v : State) (b clocks it : Nat) :
    WordsOnly [reg .bol b 0x100, reg .bol b 0x104, reg .bol b 0x108, reg .bol b 0x10C, reg .bol b 0x110, reg .bol b 0x114] v (unitCounted v b clocks it) := by
  have h1 := wordsOnly_bump64 v (reg .bol b 0x100) 1
  have h2 := wordsOnly_bump64 (bump64 v (reg .bol b 0x100) 1) (reg .bol b 0x108) clocks
  have h3 := wordsOnly_bump64 (bump64 (bump64 v (reg .bol b 0x100) 1) (reg .bol b 0x108) clocks) (reg .bol b 0x110) it
  exact wordsOnly_trans (wordsOnly_mono h1 (by simp [reg])) (wordsOnly_trans (wordsOnly_mono h2 (by simp [reg])) (wordsOnly_mono h3 (by simp [reg])))

/-- A 64-bit counter keeps its value while another of its page moves. -/
theorem getD64_bump64_reg (s : State) (b : Block) (i n : Nat) {o x : Nat} (h : o ≠ x) (h1 : o ≠ x + 4) (h2 : o + 4 ≠ x) :
    getD64 (bump64 s (reg b i x) n) (reg b i o) = getD64 s (reg b i o) :=
  getD64_bump64_other _ _ (reg_ne _ _ h) (reg_ne (y := x + 4) _ _ h1) (reg_ne (x := o + 4) _ _ h2)

theorem getD64_unitCounted (v : State) (b clocks it : Nat) :
    getD64 (unitCounted v b clocks it) (reg .bol b 0x100) = getD64 v (reg .bol b 0x100) + 1 := by
  rw [unitCounted, getD64_bump64_reg _ _ _ _ (by decide) (by decide) (by decide), getD64_bump64_reg _ _ _ _ (by decide) (by decide) (by decide)]
  exact getD64_bump64_same ..

/-! ### DESCRIPTOR_COMPLETE (R413, R415) -/

/-- A descriptor removed and counted. -/
def descRemoved (v : State) (i : Nat) (d : BolDesc) : State :=
  let w := bump64 (setSet v i { getSet v i with descs := (getSet v i).descs.filter (fun e => e.ord ≠ d.ord) }) (bolReg i 0x230) 1
  if d.result = 1 then bump32 w (bolReg i 0x238) 1 else w

/-- What the completion of a descriptor writes into its ring. -/
def descResult (s : State) (i r p : Nat) (d : BolDesc) : State :=
  (devWrite s p (ringBase s i r + 64 * (d.idx % ringSize s i r) + 56) (toLE 1 d.result ++ toLE 1 d.iter ++ toLE 2 d.fails ++ toLE 4 d.idx) true none).2

theorem descComplete_eq {s : State} {i r p : Nat} {d : BolDesc} (hd : (getSet s i).descs.find? (fun d => d.ring = r) = some d)
    (hp : setPartOf s i = some p) (ht : d.todo = []) (hu : d.undone = 0) : descComplete s i r =
    signalExt (descRemoved (descResult s i r p d) i d) (ringDone (descRemoved (descResult s i r p d) i d) i r) false 1 := by
  unfold descComplete
  rw [hd, hp]
  dsimp only
  rw [ht, hu]
  refine (if_neg (by simp)).trans ?_
  unfold descRemoved descResult
  rfl

/-- A set whose descriptor has left. -/
def descLeft (v : State) (i : Nat) (d : BolDesc) : State :=
  setSet v i { getSet v i with descs := (getSet v i).descs.filter (fun e => e.ord ≠ d.ord) }

/-- A completion counted, and a failed one. -/
def descCounted (v : State) (i : Nat) (d : BolDesc) : State :=
  if d.result = 1 then bump32 (bump64 v (bolReg i 0x230) 1) (bolReg i 0x238) 1 else bump64 v (bolReg i 0x230) 1

theorem descRemoved_eq (v : State) (i : Nat) (d : BolDesc) : descRemoved v i d = descCounted (descLeft v i d) i d := rfl

theorem onlyIn_descCounted (v : State) (i : Nat) (d : BolDesc) : OnlyIn [.bus] v (descCounted v i d) :=
  onlyIn_ite (onlyIn_trans (onlyIn_bump64 v _ 1) (onlyIn_bump32 (bump64 v _ 1) _ 1)) (onlyIn_bump64 v _ 1)

theorem getW_descCounted (v : State) (i : Nat) (d : BolDesc) {o : Nat} (h : o ≠ 0x230) (h4 : o ≠ 0x234) (h8 : o ≠ 0x238) :
    getW (descCounted v i d) (bolReg i o) = getW v (bolReg i o) := by
  have hcount : getW (bump64 v (bolReg i 0x230) 1) (bolReg i o) = getW v (bolReg i o) :=
    getW_setD64_other v _ (reg_ne _ _ h) (reg_ne (y := 0x230 + 4) _ _ h4)
  unfold descCounted
  split
  · exact (getW_bump32_other _ _ (reg_ne _ _ h8)).trans hcount
  · exact hcount

theorem getD64_descCounted (v : State) (i : Nat) (d : BolDesc) :
    getD64 (descCounted v i d) (reg .bol i 0x230) = getD64 v (reg .bol i 0x230) + 1 := by
  have hcount : getD64 (bump64 v (reg .bol i 0x230) 1) (reg .bol i 0x230) = getD64 v (reg .bol i 0x230) + 1 := getD64_bump64_same ..
  have hnext : reg .bol i 0x230 + 4 ≠ reg .bol i 0x238 := reg_ne _ _ (x := 0x230 + 4) (by decide)
  unfold descCounted
  split
  · exact (getD64_setW_other _ _ (reg_ne _ _ (by decide)) hnext).trans hcount
  · exact hcount

theorem ringDone_descRemoved (v : State) (i : Nat) (d : BolDesc) {r : Nat} (hr : r < 2) : ringDone (descRemoved v i d) i r = ringDone v i r := by
  have hword : getW (descCounted (descLeft v i d) i d) (bolReg i (0x21C + 4 * r)) = getW v (bolReg i (0x21C + 4 * r)) :=
    (getW_descCounted _ _ _ (by omega) (by omega) (by omega)).trans (getW_congr (setSet_bus ..) _)
  rw [descRemoved_eq, ringDone, getF, hword]
  rfl

theorem descRemoved_sync (v : State) (i : Nat) (d : BolDesc) : (descRemoved v i d).sync = v.sync := by
  rw [descRemoved_eq]
  exact ((onlyIn_descCounted ..).2 .sync (by decide)).trans ((onlyIn_setSet v i _).2 .sync (by decide))

theorem descs_descRemoved (v : State) (i : Nat) (d : BolDesc) :
    (getSet (descRemoved v i d) i).descs = (getSet v i).descs.filter (fun e => e.ord ≠ d.ord) := by
  rw [descRemoved_eq, getSet_congr (congrArg Bolters.sets ((onlyIn_descCounted ..).2 .bol (by decide))), descLeft, getSet_setSet_same]

theorem getD64_descRemoved (v : State) (i : Nat) (d : BolDesc) :
    getD64 (descRemoved v i d) (reg .bol i 0x230) = getD64 v (reg .bol i 0x230) + 1 := by
  rw [descRemoved_eq, getD64_descCounted, descLeft, getD64_congr (setSet_bus ..)]

theorem getD64_signalExt (s : State) (n : Nat) (set : Bool) (v : Word) (i : Nat) :
    getD64 (signalExt s n set v) (reg .bol i 0x230) = getD64 s (reg .bol i 0x230) := by
  refine (wordsOnly_signalExt s n set v).getD64 ?_ ?_
  · simp only [List.mem_cons, List.not_mem_nil, or_false, not_or]
    exact ⟨reg_ne_of_offset (by decide), reg_ne_of_offset (by decide), reg_ne_of_offset (by decide)⟩
  · simp only [List.mem_cons, List.not_mem_nil, or_false, not_or]
    exact ⟨reg_ne_of_offset (x := 0x230 + 4) (by decide), reg_ne_of_offset (x := 0x230 + 4) (by decide), reg_ne_of_offset (x := 0x230 + 4) (by decide)⟩

theorem signalExt_done {s : State} {n : Nat} {set : Bool} {v : Word} {o : SyncObj} (h : sigObj (getObj s n) set v = .done o) :
    signalExt s n set v = setObj s n o := by
  rw [signalExt, h]

theorem getObj_settle (s : State) (n : Nat) : getObj (settle s) n = getObj s n := getObj_congr (settle_sync s) n

/-! ### BOLTER_PARITY (R424, R554) -/

theorem bolterRole_congr {s t : State} (h : t.rep.dt = s.rep.dt) (b : Nat) : bolterRole t b = bolterRole s b := by
  have hentry : ∀ i, bolterEntry t i = bolterEntry s i := fun i => by rw [bolterEntry, h, ← bolterEntry]
  have hphys : ∀ fuel i, bolterPhys t fuel i = bolterPhys s fuel i := by
    intro fuel
    induction fuel with
    | zero => exact fun _ => rfl
    | succ fuel ih =>
      intro i
      unfold bolterPhys
      rw [hentry]
      simp only [ih]
  unfold bolterRole bolterLogical
  simp only [hphys, hentry]

theorem bolterFenced_congr {s t : State} (ha : t.rep.dtA = s.rep.dtA) (hb : t.rep.dtB = s.rep.dtB) (b : Nat) :
    bolterFenced t b = bolterFenced s b := by
  unfold bolterFenced dtFenced dtConflict
  rw [ha, hb]

theorem dtAdd_spec {s : State} (kind loc spare : Nat) (h : s.rep.dt.length < 4096) :
    (dtAdd s kind loc spare).rep.dt = s.rep.dt ++ [⟨kind, 2, loc, spare, startNo s⟩] ∧ (dtAdd s kind loc spare).bol = s.bol := by
  have hput : (if s.rep.dt.length < 4096 then s.rep.dt ++ [(⟨kind, 2, loc, spare, startNo s⟩ : DtEntry)] else s.rep.dt) =
      s.rep.dt ++ [⟨kind, 2, loc, spare, startNo s⟩] := if_pos h
  unfold dtAdd
  dsimp only
  by_cases hf : s.rep.field.length < 1024
  · rw [if_pos hf]
    exact ⟨hput, rfl⟩
  · rw [if_neg hf]
    exact ⟨(congrArg Rep.dt (raiseErr_rep ..)).trans hput, raiseErr_bol ..⟩

theorem onlyIn_unitBack (s : State) (b : Nat) : OnlyIn [.bol] s (unitBack s b) := by
  unfold unitBack
  split
  · exact onlyIn_refl ..
  · dsimp only
    split
    · exact onlyIn_ite (onlyIn_trans (onlyIn_bol s _) (onlyIn_putDesc { s with bol := _ } _ _))
        (onlyIn_trans (onlyIn_bol s _) (onlyIn_putDesc { s with bol := _ } _ _))
    · exact onlyIn_bol s _

theorem units_unitBack (s : State) (b : Nat) : mfind (unitBack s b).bol.units b = none := by
  unfold unitBack
  split
  next h => exact h
  next u h =>
    dsimp only
    split
    · split
      · exact mfind_mdel_same ..
      · exact mfind_mdel_same ..
    · exact mfind_mdel_same ..

/-- A parity error counted and recorded, its unit back in its descriptor. -/
def parityNoted (s : State) (b : Nat) : State := errRecord (unitBack (bump32 s (reg .bol b 0x118) 1) b) .bol b 11 2 62 b 0

/-- The spare that takes the number of a bolter in service. -/
def paritySpare (s : State) (b : Nat) : Option Nat :=
  if bolterRole s b = 1 then none else (List.range 20).find? (fun i => bolterRole s i = 1 && !bolterFenced s i)

/-- A bolter retired. -/
def retired (s : State) (b : Nat) : Option Nat → State
  | some sp => raiseInt (dtAdd s 6 b sp) .bol 0 1
  | none => dtAdd s 6 b noSpare

theorem parityNoted_rep (s : State) (b : Nat) : (parityNoted s b).rep.dt = s.rep.dt ∧ (parityNoted s b).rep.dtA = s.rep.dtA
    ∧ (parityNoted s b).rep.dtB = s.rep.dtB := by
  have hrep : (unitBack (bump32 s (reg .bol b 0x118) 1) b).rep = s.rep := (onlyIn_unitBack ..).2 .rep (by decide)
  have h := (errRecord_spec (unitBack (bump32 s (reg .bol b 0x118) 1) b) .bol b 11 2 62 b 0).2
  rw [hrep, ← parityNoted] at h
  rw [h]
  exact ⟨rfl, rfl, rfl⟩

theorem parityNoted_units (s : State) (b : Nat) : mfind (parityNoted s b).bol.units b = none := by
  rw [parityNoted, (errRecord_spec ..).1.2 .bol (by decide)]
  exact units_unitBack ..

theorem bolterParity_eq {s : State} {b : Nat} (h : bolterRole s b ≠ 2) : bolterParity s b = retired (parityNoted s b) b (paritySpare s b) := by
  obtain ⟨hdt, hA, hB⟩ := parityNoted_rep s b
  have hspare : paritySpare (parityNoted s b) b = paritySpare s b := by
    unfold paritySpare
    simp only [bolterRole_congr hdt, bolterFenced_congr hA hB]
  rw [← hspare]
  unfold bolterParity
  refine (if_neg h).trans ?_
  dsimp only
  rw [← parityNoted, paritySpare]
  by_cases h1 : bolterRole (parityNoted s b) b = 1
  · rw [if_pos h1, if_pos h1]
    rfl
  · rw [if_neg h1, if_neg h1]
    split
    next sp hsp =>
      rw [hsp]
      rfl
    next hsp =>
      rw [hsp]
      rfl

/-- A retired bolter: its entry ends the table, and it runs nothing. -/
structure Retired (s : State) (b sp : Nat) (t : State) : Prop where
  entry : ∃ e : DtEntry, t.rep.dt = s.rep.dt ++ [e] ∧ e.kind = 6 ∧ e.loc = b ∧ e.spare = sp
  units : mfind t.bol.units b = none

theorem retired_spec {s : State} (b : Nat) (hl : s.rep.dt.length < 4096) (hu : mfind s.bol.units b = none) (sp : Option Nat) :
    Retired s b (sp.getD noSpare) (settle (retired s b sp)) ∧
      (sp.isSome → bitAt (getW (settle (retired s b sp)) (reg .bol 0 0x20)).toNat 1 = true) := by
  cases sp with
  | none =>
    obtain ⟨hdt, hbol⟩ := dtAdd_spec 6 b noSpare hl
    exact ⟨⟨⟨⟨6, 2, b, noSpare, startNo s⟩, by rw [settle_rep]; exact hdt, rfl, rfl, rfl⟩, by rw [settle_bol, retired, hbol, hu]⟩,
      fun h => absurd h (by decide)⟩
  | some sp =>
    obtain ⟨hdt, hbol⟩ := dtAdd_spec 6 b sp hl
    refine ⟨⟨⟨⟨6, 2, b, sp, startNo s⟩, ?_, rfl, rfl, rfl⟩, ?_⟩, fun _ => ?_⟩
    · rw [settle_rep, retired, raiseInt_rep, hdt]
    · rw [settle_bol, retired, raiseInt_bol, hbol, hu]
    · rw [getW_settle]
      exact bitAt_raiseInt _ _ _ (by decide)

/-! ### The statement -/

/-- Settles O48. Each command is one equation over the set it moves; the contexts that may stall again keep all but `lastMove` (`StallOnly`). -/
theorem boltersTakeUnitsInOrderAndFinishDescriptors : Obligations.BoltersTakeUnitsInOrderAndFinishDescriptors := by
  unfold Obligations.BoltersTakeUnitsInOrderAndFinishDescriptors
  refine ⟨fun s i r hready => ⟨fun p hoff hp hr ht hd hg => ?_, fun hoff hp => ?_, ?_⟩,
    fun s v i r upset p j res hp hon hstop hj => ⟨fun hfit hmore hroom hv => ?_, fun hover => ?_⟩,
    fun s b p i cb d rest hr hf hu hp hw hd => ?_, fun s v b upset u d p res hu hd hp hv => ?_,
    fun s v i r d p hd hp ht hu hv => ?_, fun s b hrole hlen => ?_⟩
  · refine ⟨_, congrArg done ((gated_of_ready hready _).trans (bolterEnable_started hoff hp hr ht hd hg)), ?_, ?_, ?_, ?_,
      onlyIn_settle (onlyIn_ringStarted ..), wordsOnly_settle (wordsOnly_ringStarted ..)⟩
    · rw [ringOn_settle, ringOn_ringStarted _ _ r.isLt]
    · rw [getSet_settle, getSet_ringStarted, next_started]
    · rw [getSet_settle, getSet_ringStarted, stop_started]
    · rw [getSet_settle, getSet_ringStarted, descs_started]
  · refine ⟨_, congrArg done ((gated_of_ready hready _).trans (bolterEnable_unbound hoff hp)), ?_, ?_, onlyIn_settle (onlyIn_raiseErr ..)⟩
    · rw [getW_settle, getW_raiseErr_same]
      rfl
    · have hword : getW (raiseErr s .bol 0 8) (bolReg i 0x224) = getW s (bolReg i 0x224) :=
        (wordsOnly_raiseErr ..).getW (by
          simp only [List.mem_cons, List.not_mem_nil, or_false, not_or]
          exact ⟨reg_ne_of_offset (by decide), reg_ne_of_offset (by decide)⟩)
      rw [ringOn_settle, ringOn, getF, hword, ← getF, ← ringOn, hoff]
  · refine ⟨_, congrArg done (gated_of_ready hready _), ?_, ?_, fun u hu => ?_, fun k hk => ?_, fun k => ?_,
      onlyIn_settle (onlyIn_bolterDisable ..), wordsOnly_settle (wordsOnly_bolterDisable ..)⟩
    · rw [ringOn_settle, ringOn_bolterDisable _ _ r.isLt]
    · rw [getSet_settle, descs_bolterDisable]
    · rw [settle_bol] at hu
      exact units_bolterDisable hu
    · rw [getSet_settle, getSet_bolterDisable_other _ _ hk]
    · rw [getCtx_settle]
      exact getCtx_bolterDisable ..
  · subst hj
    refine ⟨_, congrArg done (descFetch_taken hp hon hstop upset hfit hmore hroom hv), ?_, ?_, ?_, ?_, onlyIn_settle (onlyIn_descTaken ..)⟩
    · rw [getSet_settle, getSet_descTaken, descs_setNext]
    · rw [getSet_settle, getSet_descTaken, next_setNext]
    · rw [settle_bol]
      rfl
    · rw [settle_bol]
      rfl
  · refine ⟨_, congrArg done (descFetch_overrun hp hon hstop upset hover), ?_, ?_, ?_, onlyIn_settle (onlyIn_ringOverrun ..),
      wordsOnly_settle (wordsOnly_ringOverrun ..)⟩
    · rw [getSet_settle, getSet_ringOverrun]
      exact bitAt_putBits ..
    · rw [getF_settle]
      exact (getF_congr (setSet_bus ..) ..).trans (getF_setF_same _ _ 0 1 1 (by decide))
    · rw [getSet_settle, getSet_ringOverrun]
  · refine ⟨_, congrArg done (unitStart_eq hr hf hu hp hw hd), ?_, fun k hk => ?_, ?_, fun k hk => ?_, onlyIn_settle ?_⟩
    · rw [settle_bol, servedAfresh_units, unitRuns_units, mfind_mput_same]
    · rw [settle_bol, servedAfresh_units, unitRuns_units, mfind_mput_other _ _ hk, unitTaken_units]
    · rw [getSet_settle, getSet_congr (servedAfresh_sets _), getSet_congr (unitRuns_sets ..), descs_unitTaken]
    · rw [getSet_settle, getSet_congr (servedAfresh_sets _), getSet_congr (unitRuns_sets ..), getSet_unitTaken_other _ _ _ hk]
    · exact onlyIn_trans (onlyIn_unitTaken s i d rest) (onlyIn_trans (onlyIn_bol (unitTaken s i d rest) _) (onlyIn_servedAfresh _))
  · exact ⟨_, congrArg done (unitDone_eq hu hd hp hv), getD64_unitCounted .., onlyIn_unitCounted .., wordsOnly_unitCounted ..⟩
  · rw [← descResult] at hv
    subst hv
    refine ⟨_, congrArg done (descComplete_eq hd hp ht hu), ?_, ?_, fun o ho => ?_⟩
    · rw [getSet_settle, getSet_congr (congrArg Bolters.sets ((onlyIn_signalExt ..).2 .bol (by decide))), descs_descRemoved]
    · rw [getD64_settle, getD64_signalExt, getD64_descRemoved]
    · have hobj := getObj_congr (descRemoved_sync (descResult s i r p d) i d)
      rw [ringDone_descRemoved _ _ _ r.isLt, signalExt_done (by rw [hobj]; exact ho), getObj_settle, getObj_setObj_same]
      refine ⟨rfl, fun k hk => ?_⟩
      rw [getObj_settle, getObj_setObj_other _ _ hk, hobj]
  · have hdt := (parityNoted_rep s b).1
    obtain ⟨⟨⟨e, htab, hkind, hloc, hspare⟩, hunits⟩, hint⟩ := retired_spec b (by rw [hdt]; exact hlen) (parityNoted_units s b) (paritySpare s b)
    refine ⟨_, e, congrArg done (bolterParity_eq hrole), htab.trans (by rw [hdt]), hkind, hloc, hunits, fun h0 sp hsp => ?_, fun h1 => ?_⟩
    · have hpick : paritySpare s b = some sp := (if_neg (by omega)).trans hsp
      exact ⟨hspare.trans (by rw [hpick]; rfl), hint (by rw [hpick]; rfl)⟩
    · have hpick : paritySpare s b = none := if_pos h1
      exact hspare.trans (by rw [hpick]; rfl)

end Sys2Proof.Machine
end

section
/-! SUPPORT. The governor: the cap, the parts of B, operating points, dips, ramps and heat (R489 to R499, R501). -/
namespace Sys2Proof.Machine

/-! ### Rows at the end of a command (R403, R494) -/

theorem getRow_congr {s t : State} (h : t.gov.rows = s.gov.rows) (r : Nat) : getRow t r = getRow s r := by
  unfold getRow
  rw [h]

theorem getRow_domsFollow (s : State) (r : Nat) : getRow (domsFollow s) r = getRow s r := getRow_congr (domsFollow_rows s) r

theorem getRow_radioRowUp_plain {s : State} {r : Nat} (k : Nat) (h : radioRow s r = false) : getRow (radioRowUp s k) r = getRow s r := by
  obtain rfl | hk := eq_or_ne r k
  · rw [radioRowUp, if_neg (by simp [h])]
  · exact getRow_radioRowUp_other _ hk

/-- A row without a radio mill stays as a command leaves it. -/
theorem getRow_settle_plain {s : State} {r : Nat} (h : radioRow s r = false) : getRow (settle s) r = getRow s r := by
  have hfold : ∀ l : List Nat, getRow (l.foldl radioRowUp s) r = getRow s r ∧ (l.foldl radioRowUp s).core = s.core := fun l =>
    List.foldlRecOn (motive := fun t => getRow t r = getRow s r ∧ t.core = s.core) l radioRowUp ⟨rfl, rfl⟩ fun t ⟨hrow, hcore⟩ k _ =>
      ⟨(getRow_radioRowUp_plain k ((radioRow_core hcore r).trans h)).trans hrow, (radioRowUp_core t k).trans hcore⟩
  rw [settle, getRow_domsFollow]
  split
  · exact (hfold _).1
  · rfl

theorem dip_wakeRow (s : State) (k r : Nat) : (getRow (wakeRow s k) r).dip = (getRow s r).dip := by
  obtain rfl | hk := eq_or_ne r k
  · unfold wakeRow
    dsimp only
    split
    · rfl
    · split
      · rw [getRow_setRow_same]
        rfl
      · rw [getRow_setRow_same]
        rfl
      · rfl
  · rw [getRow_wakeRow_other _ hk]

theorem dip_radioRowUp (s : State) (k r : Nat) : (getRow (radioRowUp s k) r).dip = (getRow s r).dip := by
  obtain rfl | hk := eq_or_ne r k
  · unfold radioRowUp
    split
    · rw [getRow_setRow_same]
      split
      · exact dip_wakeRow ..
      · rfl
    · rfl
  · rw [getRow_radioRowUp_other _ hk]

/-- A dip stays noted, whatever else the end of a command does to its row. -/
theorem dip_settle (s : State) (r : Nat) : (getRow (settle s) r).dip = (getRow s r).dip := by
  rw [settle, getRow_domsFollow]
  split
  · exact foldl_keeps (fun s => (getRow s r).dip) radioRowUp _ s fun s k => dip_radioRowUp s k r
  · rfl

theorem settle_of_down {s : State} (h : deviceUp s = false) : settle s = domsFollow s := by rw [settle, if_neg (by simp [h])]

/-! ### Records and throttling (R499, R501) -/

/-- The governor without its records and the times that follow B. -/
def Gov.kept (g : Gov) : Gov := { g with evs := [], highFrom := none, lowFrom := none, throttleFrom := none }

/-- What a record, and a change of B that begins or ends throttling, leave: the parts of B, the rows, and every register but four. -/
structure GovKeeps (s t : State) : Prop where
  gov : t.gov.kept = s.gov.kept
  frame : OnlyIn [.bus, .gov] s t
  words : WordsOnly [reg .gov 3 0x11C, reg .gov 0 0x20, reg .gov 0 0x138, reg .gov 0 0x13C] s t

namespace GovKeeps

variable {s t u : State}

theorem refl (s : State) : GovKeeps s s := ⟨rfl, onlyIn_refl .., wordsOnly_refl ..⟩

theorem trans (h : GovKeeps s t) (k : GovKeeps t u) : GovKeeps s u :=
  ⟨k.gov.trans h.gov, onlyIn_trans h.frame k.frame, wordsOnly_trans h.words k.words⟩

theorem of_gov (s : State) {g : Gov} (h : g.kept = s.gov.kept) : GovKeeps s { s with gov := g } :=
  ⟨h, onlyIn_mono (onlyIn_gov s g) (by simp), wordsOnly_of_bus rfl⟩

theorem rows (h : GovKeeps s t) : t.gov.rows = s.gov.rows := (congrArg Gov.rows h.gov :)
theorem bCap (h : GovKeeps s t) : t.gov.bCap = s.gov.bCap := (congrArg Gov.bCap h.gov :)
theorem bTherm (h : GovKeeps s t) : t.gov.bTherm = s.gov.bTherm := (congrArg Gov.bTherm h.gov :)
theorem bDip (h : GovKeeps s t) : t.gov.bDip = s.gov.bDip := (congrArg Gov.bDip h.gov :)
theorem powers (h : GovKeeps s t) : t.gov.powers = s.gov.powers := (congrArg Gov.powers h.gov :)
theorem temps (h : GovKeeps s t) : t.gov.temps = s.gov.temps := (congrArg Gov.temps h.gov :)
theorem dipHold (h : GovKeeps s t) : t.gov.dipHold = s.gov.dipHold := (congrArg Gov.dipHold h.gov :)
theorem rampAt (h : GovKeeps s t) : t.gov.rampAt = s.gov.rampAt := (congrArg Gov.rampAt h.gov :)

theorem getRow (h : GovKeeps s t) (r : Nat) : getRow t r = Machine.getRow s r := getRow_congr h.rows r

theorem getW (h : GovKeeps s t) {a : Nat} (ha : a ∉ [reg .gov 3 0x11C, reg .gov 0 0x20, reg .gov 0 0x138, reg .gov 0 0x13C]) :
    getW t a = Machine.getW s a := h.words.getW ha

end GovKeeps

theorem raiseInt_keeps (s : State) (bit : Nat) : GovKeeps s (raiseInt s .gov 0 bit) :=
  ⟨congrArg Gov.kept (raiseInt_gov ..), onlyIn_mono (onlyIn_raiseInt ..) (by simp), wordsOnly_mono (wordsOnly_raiseInt ..) (by simp)⟩

/-- A record in the FIFO. -/
def evHeld (s : State) (e : EvRec) : State := { s with gov := { s.gov with evs := s.gov.evs ++ [e] } }

/-- Throttling begins or ends. -/
def throttled (s : State) (t : Option Nat) : State := { s with gov := { s.gov with throttleFrom := t } }

theorem evHeld_keeps (s : State) (e : EvRec) : GovKeeps s (evHeld s e) := .of_gov s rfl

theorem throttled_keeps (s : State) (t : Option Nat) : GovKeeps s (throttled s t) := .of_gov s rfl

theorem govEvent_keeps (s : State) (typ val aux16 aux32 : Nat) : GovKeeps s (govEvent s typ val aux16 aux32) := by
  unfold govEvent
  split
  · exact ⟨congrArg Gov.kept (bump32_gov ..), onlyIn_mono (onlyIn_bump32 ..) (by simp), wordsOnly_mono (wordsOnly_setW ..) (by simp)⟩
  · exact (evHeld_keeps s _).trans (raiseInt_keeps (evHeld s _) 2)

theorem dwellMark_keeps (s : State) : GovKeeps s (dwellMark s) := .of_gov s rfl

theorem bump64_keeps (s : State) (n : Nat) : GovKeeps s (bump64 s (reg .gov 0 0x138) n) :=
  ⟨congrArg Gov.kept (bump64_gov ..), onlyIn_mono (onlyIn_bump64 ..) (by simp), wordsOnly_mono (wordsOnly_bump64 ..) (by simp [reg])⟩

theorem bubbleMoved_keeps (s : State) (was : Nat) : GovKeeps s (bubbleMoved s was) := by
  unfold bubbleMoved
  refine (dwellMark_keeps s).trans ?_
  dsimp only
  split
  · exact (throttled_keeps (dwellMark s) _).trans (govEvent_keeps (throttled (dwellMark s) _) 1 0 0 0)
  · split
    · exact (throttled_keeps (dwellMark s) none).trans ((bump64_keeps (throttled (dwellMark s) none) _).trans (govEvent_keeps (bump64 (throttled (dwellMark s) none) _ _) 2 0 0 0))
    · exact .refl _

/-! ### CAP_WRITE (R489) -/

theorem capFloor_congr {s t : State} (hc : t.card = s.card) (hs : t.sched = s.sched) : capFloor t = capFloor s := by
  have hrow : radioRow t = radioRow s := funext fun r => by rw [radioRow, hs, radioRow]
  unfold capFloor
  rw [hc, hrow]

/-- Whether the cap lies outside what the board and the floor allow. -/
def capClamped (s : State) : Bool := capW s < capFloor s || s.card.boardMax < capW s

/-- A clamp that begins, recorded. -/
def clampNoted (s : State) (began : Prop) [Decidable began] (eff : Nat) : State :=
  if began then govEvent (raiseInt s .gov 0 1) 7 0 0 eff else s

theorem capClamp_eq (s : State) : ∃ eff, capClamp s = dwellMark (clampNoted (setF s (reg .gov 0 0x14) 1 1 (b2n (capClamped s)))
    (capClamped s ∧ !decide (getF s (reg .gov 0 0x14) 1 1 = 1)) eff) := ⟨_, rfl⟩

theorem clampNoted_keeps (s : State) (began : Prop) [Decidable began] (eff : Nat) : GovKeeps s (clampNoted s began eff) := by
  unfold clampNoted
  split
  · exact (raiseInt_keeps s 1).trans (govEvent_keeps ..)
  · exact .refl s

theorem capClamp_keeps (s : State) : GovKeeps (setF s (reg .gov 0 0x14) 1 1 (b2n (capClamped s))) (capClamp s) := by
  obtain ⟨eff, h⟩ := capClamp_eq s
  rw [h]
  exact (clampNoted_keeps ..).trans (dwellMark_keeps _)

/-- A cap stored, with its flag cleared before the clamp. -/
def capStored (s : State) (w : Nat) : State := setF (setF s (reg .gov 0 0x100) 0 10 w) (reg .gov 0 0x14) 1 1 0

theorem capWrite_of_range {s : State} {v : Nat} (hready : pageReady s .gov 0 = true) (h1 : 150 ≤ v % 1024) (h2 : v % 1024 ≤ 550) :
    capWrite s v = capClamp (capStored s (v % 1024)) := (gated_of_ready hready _).trans (if_neg (by omega))

theorem capWrite_of_invalid {s : State} {v : Nat} (hready : pageReady s .gov 0 = true) (h : v % 1024 < 150 ∨ 550 < v % 1024) :
    capWrite s v = invalidWrite s .gov 0 := (gated_of_ready hready _).trans (if_pos h)

theorem onlyIn_capStored (s : State) (w : Nat) : OnlyIn [.bus] s (capStored s w) := onlyIn_trans (onlyIn_setF ..) (onlyIn_setF ..)

theorem capW_capStored (s : State) {w : Nat} (h : w < 2 ^ 10) : capW (capStored s w) = w :=
  (getF_setF_other _ 1 1 0 0 10 (reg_ne _ _ (by decide))).trans ((getF_setF_same _ _ 0 10 w (by decide)).trans (Nat.mod_eq_of_lt h))

theorem capW_of_word {s t : State} (h : getW t (reg .gov 0 0x100) = getW s (reg .gov 0 0x100)) : capW t = capW s := by rw [capW, getF, h, ← getF, ← capW]

theorem capW_capClamp (s : State) : capW (capClamp s) = capW s :=
  capW_of_word (((capClamp_keeps s).getW (by decide)).trans (getW_setF_other s 1 1 _ (reg_ne _ _ (by decide))))

theorem clamped_capClamp (s : State) : getF (capClamp s) (reg .gov 0 0x14) 1 1 = b2n (capClamped s) := by
  rw [getF, (capClamp_keeps s).getW (by decide), ← getF, getF_setF_same _ _ 1 1 _ (by decide), b2n_mod_two]

theorem onlyIn_capClamp (s : State) : OnlyIn [.bus, .gov] s (capClamp s) :=
  onlyIn_trans (onlyIn_mono (onlyIn_setF ..) (by simp)) (capClamp_keeps s).frame

theorem capW_settle (s : State) : capW (settle s) = capW s := getF_settle ..

/-! ### DVFS_STEP (R494, R500) -/

/-- A row at another point. -/
def rowStepped (s : State) (f : Nat → Nat) (r : Nat) : State := setRow s r { getRow s r with opp := f (getRow s r).opp }

/-- The rows that a step moves. -/
def movedRows (s : State) (rows : List Nat) (f : Nat → Nat) : List Nat := rows.filter (fun r => f (getRow s r).opp ≠ (getRow s r).opp)

theorem onlyIn_rowStepped (s : State) (f : Nat → Nat) (r : Nat) : OnlyIn [.bus, .gov] s (rowStepped s f r) := onlyIn_of_core _ (setRow_core ..)

theorem stepRows_keeps (s : State) (rows : List Nat) (f : Nat → Nat) :
    GovKeeps ((movedRows s rows f).foldl (fun s r => rowStepped s f r) s) (stepRows s rows f) :=
  List.foldlRecOn (motive := GovKeeps _) _ _ (.refl _) fun _ h _ _ => h.trans (govEvent_keeps ..)

theorem onlyIn_stepRows (s : State) (rows : List Nat) (f : Nat → Nat) : OnlyIn [.bus, .gov] s (stepRows s rows f) :=
  onlyIn_trans (onlyIn_foldl (fun s r => onlyIn_rowStepped s f r) _ s) (stepRows_keeps s rows f).frame

theorem getRow_stepRows {s : State} {rows : List Nat} (hn : rows.Nodup) (f : Nat → Nat) {r : Nat} (hr : r ∈ rows) :
    (getRow (stepRows s rows f) r).opp = f (getRow s r).opp := by
  rw [(stepRows_keeps s rows f).getRow]
  by_cases hm : f (getRow s r).opp = (getRow s r).opp
  · have hnot : ∀ k ∈ movedRows s rows f, r ≠ k := fun k hk e => by
      have := (List.mem_filter.mp hk).2
      rw [← e] at this
      simp [hm] at this
    have hrow : getRow ((movedRows s rows f).foldl (fun s r => rowStepped s f r) s) r = getRow s r :=
      List.foldlRecOn (motive := fun t => getRow t r = getRow s r) _ _ rfl fun t ht k hk => (getRow_setRow_other t _ (hnot k hk)).trans ht
    rw [hrow, hm]
  · have hmem : r ∈ movedRows s rows f := List.mem_filter.mpr ⟨hr, by simpa using hm⟩
    have hnodup : ((movedRows s rows f).map id).Nodup := by
      rw [List.map_id]
      exact hn.filter _
    have hrow : getRow ((movedRows s rows f).foldl (fun s r => rowStepped s f r) s) r = { getRow s r with opp := f (getRow s r).opp } :=
      foldl_reaches (f := fun s r => rowStepped s f r) (key := id) (P := fun x t => getRow t x = { getRow s x with opp := f (getRow s x).opp })
        (Q := fun x t => getRow t x = getRow s x) (fun t x h => by rw [rowStepped, getRow_setRow_same, h])
        (fun t x y h hp => (getRow_setRow_other t _ h).trans hp) (fun t x y h hq => (getRow_setRow_other t _ h).trans hq) _ hnodup hmem s rfl
    rw [hrow]

theorem dvfsRows_nodup (s : State) : (dvfsRows s).Nodup := List.nodup_range.filter _

theorem radioRow_of_dvfs {s : State} {r : Nat} (h : r ∈ dvfsRows s) : radioRow s r = false := by simpa using (List.mem_filter.mp h).2

/-- The rows that a step moves keep their points at the end of the command: none of them holds a radio mill. -/
theorem opp_settle_stepRows {s u : State} {f : Nat → Nat} (hrows : u.gov.rows = (stepRows s (dvfsRows s) f).gov.rows) (hs : u.sched = s.sched) {r : Nat}
    (hr : r ∈ dvfsRows s) : (getRow (settle u) r).opp = f (getRow s r).opp := by
  have hplain : radioRow u r = false := by rw [radioRow, hs, ← radioRow, radioRow_of_dvfs hr]
  rw [getRow_settle_plain hplain, getRow_congr hrows, getRow_stepRows (dvfsRows_nodup s) f hr]

/-- Rows stepped up in number, slower. -/
def steppedUp (s : State) (floor : Nat) : State :=
  let u := stepRows s (dvfsRows s) (fun o => if o < floor then o + 1 else o)
  { u with gov := { u.gov with highFrom := some (nowNs u) } }

/-- Rows stepped down in number, faster. -/
def steppedDown (s : State) : State :=
  let u := stepRows s (dvfsRows s) (fun o => o - 1)
  { u with gov := { u.gov with lowFrom := some (nowNs u) } }

section
variable {s : State} {a : Nat} (hon : getF s (reg .gov 0 0x120) 31 1 = 1) (hdip : s.gov.bDip = 0) (ha : a + getF s (reg .gov 0 0x120) 0 16 * 1000 ≤ nowNs s)
include hon hdip ha

theorem dvfsStep_up (h : s.gov.highFrom = some a) : dvfsStep s = steppedUp s (getF s (reg .gov 0 0x120) 16 3) := by
  unfold dvfsStep
  dsimp only
  rw [hon, hdip, h]
  exact (if_neg (by decide)).trans ((if_pos (by simpa using ha)).trans rfl)

theorem dvfsStep_down (hn : s.gov.highFrom = none) (h : s.gov.lowFrom = some a) : dvfsStep s = steppedDown s := by
  unfold dvfsStep
  dsimp only
  rw [hon, hdip, hn, h]
  exact (if_neg (by decide)).trans ((if_neg Bool.false_ne_true).trans ((if_pos (by simpa using ha)).trans rfl))

end

theorem onlyIn_steppedUp (s : State) (floor : Nat) : OnlyIn [.bus, .gov] s (steppedUp s floor) :=
  onlyIn_trans (onlyIn_stepRows s _ _) (onlyIn_mono (onlyIn_gov (stepRows s _ _) _) (by simp))

theorem onlyIn_steppedDown (s : State) : OnlyIn [.bus, .gov] s (steppedDown s) :=
  onlyIn_trans (onlyIn_stepRows s _ _) (onlyIn_mono (onlyIn_gov (stepRows s _ _) _) (by simp))

theorem steppedUp_rows (s : State) (floor : Nat) :
    (steppedUp s floor).gov.rows = (stepRows s (dvfsRows s) (fun o => if o < floor then o + 1 else o)).gov.rows := rfl

theorem steppedDown_rows (s : State) : (steppedDown s).gov.rows = (stepRows s (dvfsRows s) (fun o => o - 1)).gov.rows := rfl

theorem highFrom_steppedUp (s : State) (floor : Nat) : (steppedUp s floor).gov.highFrom = some (nowNs s) :=
  congrArg some (nowNs_congr ((onlyIn_stepRows s _ _).2 .ftl (by decide)))

theorem lowFrom_steppedDown (s : State) : (steppedDown s).gov.lowFrom = some (nowNs s) :=
  congrArg some (nowNs_congr ((onlyIn_stepRows s _ _).2 .ftl (by decide)))

/-! ### Supply dips (R496) -/

/-- B at its most for a dip of a row. -/
def dipped (s : State) (r : Nat) : State :=
  let u := setRow s r { getRow s r with dip := some (nowNs s) }
  { u with gov := { u.gov with bDip := 63, dipHold := none, rampAt := none } }

theorem dipStart_eq {s : State} {r : Nat} (h : (getRow s r).st ≠ .off) (hn : (getRow s r).dip = none) :
    dipStart s r = bubbleMoved (raiseInt (dipped s r) .gov 1 1) (bubble s) := by
  unfold dipStart
  dsimp only
  rw [hn]
  exact (if_neg (by simpa using h)).trans rfl

theorem dipped_rows (s : State) (r : Nat) : (dipped s r).gov.rows = (setRow s r { getRow s r with dip := some (nowNs s) }).gov.rows := rfl

theorem onlyIn_dipped (s : State) (r : Nat) : OnlyIn [.gov] s (dipped s r) :=
  onlyIn_trans (onlyIn_of_core _ (setRow_core ..)) (onlyIn_gov (setRow s r _) _)

theorem onlyIn_dipStart (s : State) (r was : Nat) : OnlyIn [.bus, .gov] s (bubbleMoved (raiseInt (dipped s r) .gov 1 1) was) :=
  onlyIn_trans (onlyIn_mono (onlyIn_dipped s r) (by simp))
    (onlyIn_trans (onlyIn_mono (onlyIn_raiseInt (dipped s r) ..) (by simp)) (bubbleMoved_keeps (raiseInt (dipped s r) .gov 1 1) was).frame)

/-- A dip over in its row. -/
def undipped (s : State) (r : Nat) : State := setRow s r { getRow s r with dip := none }

/-- A dip recorded in the registers. -/
def dipCounted (s : State) (low ns : Word) : State :=
  bump32 (setW (setW s (reg .gov 1 0x110) low) (reg .gov 1 0x114) ns) (reg .gov 1 0x10C) 1

/-- A dip over, with its record. -/
def dipOver (s : State) (r mv a : Nat) : State :=
  govEvent (dipCounted (undipped s r) (BitVec.ofNat 32 (mv + r * 2 ^ 16)) (BitVec.ofNat 32 (min (nowNs s - a) 0xFFFFFFFF))) 4 r mv
    (min (nowNs s - a) 0xFFFFFFFF)

/-- The hold begins once no row dips. -/
def holdBegun (s : State) : State :=
  if s.gov.rows.any (fun e => e.2.dip.isSome) then s else { s with gov := { s.gov with dipHold := some (nowNs s) } }

theorem dipEnd_eq {s : State} {r a : Nat} (mv : Nat) (h : (getRow s r).dip = some a) : dipEnd s r mv = holdBegun (dipOver s r mv a) := by
  unfold dipEnd
  rw [h]
  rfl

theorem onlyIn_holdBegun (s : State) : OnlyIn [.bus, .gov] s (holdBegun s) := onlyIn_ite (onlyIn_refl ..) (onlyIn_mono (onlyIn_gov s _) (by simp))

theorem holdBegun_bus (s : State) : (holdBegun s).bus = s.bus := by
  unfold holdBegun
  split
  · rfl
  · rfl

theorem holdBegun_rows (s : State) : (holdBegun s).gov.rows = s.gov.rows := by
  unfold holdBegun
  split
  · rfl
  · rfl

theorem holdBegun_bDip (s : State) : (holdBegun s).gov.bDip = s.gov.bDip := by
  unfold holdBegun
  split
  · rfl
  · rfl

theorem onlyIn_dipCounted (s : State) (low ns : Word) : OnlyIn [.bus] s (dipCounted s low ns) :=
  onlyIn_trans (onlyIn_setW_setW ..) (onlyIn_bump32 (setW (setW s _ low) _ ns) _ 1)

theorem dipCounted_gov (s : State) (low ns : Word) : (dipCounted s low ns).gov = s.gov := rfl

theorem getW_dipCounted (s : State) (low ns : Word) : getW (dipCounted s low ns) (reg .gov 1 0x110) = low
    ∧ getW (dipCounted s low ns) (reg .gov 1 0x114) = ns
    ∧ getW (dipCounted s low ns) (reg .gov 1 0x10C) = satAdd32 (getW s (reg .gov 1 0x10C)) 1 := by
  unfold dipCounted
  rw [getW_bump32_other _ _ (reg_ne _ _ (by decide)), getW_bump32_other _ _ (reg_ne _ _ (by decide)), getW_bump32_same,
    getW_setW_other _ _ (reg_ne _ _ (by decide)), getW_setW_same, getW_setW_same, getW_setW_other _ _ (reg_ne _ _ (by decide)),
    getW_setW_other _ _ (reg_ne _ _ (by decide))]
  exact ⟨rfl, rfl, rfl⟩

theorem dipOver_keeps (s : State) (r mv a : Nat) :
    GovKeeps (dipCounted (undipped s r) (BitVec.ofNat 32 (mv + r * 2 ^ 16)) (BitVec.ofNat 32 (min (nowNs s - a) 0xFFFFFFFF))) (dipOver s r mv a) :=
  govEvent_keeps ..

theorem dipOver_rows (s : State) (r mv a : Nat) : (dipOver s r mv a).gov.rows = (undipped s r).gov.rows :=
  (dipOver_keeps ..).rows.trans (congrArg Gov.rows (dipCounted_gov ..))

theorem undipped_bDip (s : State) (r : Nat) : (undipped s r).gov.bDip = s.gov.bDip := rfl

theorem dipOver_bDip (s : State) (r mv a : Nat) : (dipOver s r mv a).gov.bDip = s.gov.bDip :=
  (dipOver_keeps ..).bDip.trans ((congrArg Gov.bDip (dipCounted_gov ..)).trans (undipped_bDip s r))

theorem undipped_bus (s : State) (r : Nat) : (undipped s r).bus = s.bus := rfl

theorem onlyIn_dipOver (s : State) (r mv a : Nat) : OnlyIn [.bus, .gov] s (dipOver s r mv a) :=
  onlyIn_trans (onlyIn_trans (onlyIn_of_core _ (setRow_core ..)) (onlyIn_mono (onlyIn_dipCounted (undipped s r) _ _) (by simp))) (dipOver_keeps s r mv a).frame

/-- In a map whose keys rise, a listed entry is what its key reads. -/
theorem mfind_of_mem {α : Type} {m : KMap α} {e : Nat × α} (h : mrising none m = true) (he : e ∈ m) : mfind m e.1 = some e.2 := by
  have habove : ∀ {m : KMap α} {p : Nat}, mrising (some p) m = true → ∀ e ∈ m, p < e.1 := by
    intro m
    induction m with
    | nil => exact fun _ _ he => absurd he List.not_mem_nil
    | cons x r ih =>
      intro p h e he
      simp only [mrising, Bool.and_eq_true, decide_eq_true_eq] at h
      obtain rfl | he := List.mem_cons.mp he
      · exact h.1
      · exact h.1.trans (ih h.2 e he)
  induction m with
  | nil => exact absurd he List.not_mem_nil
  | cons x r ih =>
    obtain ⟨k, v⟩ := x
    simp only [mrising] at h
    obtain rfl | he := List.mem_cons.mp he
    · simp [mfind]
    · have hlt := habove h e he
      rw [mfind, if_neg (by omega)]
      exact ih (mrising_none_of_some h) he

/-- A write puts nothing in the map but its own entry, in place of the one it had. -/
theorem mem_mset {α : Type} [DecidableEq α] {d v : α} {m : KMap α} {k : Nat} {e : Nat × α} (h : mrising none m = true) (he : e ∈ mset d m k v) :
    e.2 = v ∨ e ∈ m ∧ e.1 ≠ k := by
  unfold mset at he
  split at he
  · obtain ⟨hm, hk⟩ := List.mem_filter.mp he
    exact .inr ⟨hm, by simpa using hk⟩
  · have hfind := mfind_of_mem (mrising_mput v h) he
    by_cases hk : e.1 = k
    · rw [hk, mfind_mput_same] at hfind
      exact .inl (Option.some.inj hfind).symm
    · rw [mfind_mput_other _ _ hk] at hfind
      exact .inr ⟨mem_of_mfind hfind, hk⟩

theorem undipped_calm {s : State} {r : Nat} (h : ∀ e ∈ s.gov.rows, e.1 ≠ r → e.2.dip = none) (hm : mrising none s.gov.rows = true) :
    (undipped s r).gov.rows.any (fun e => e.2.dip.isSome) = false := by
  refine List.any_eq_false.mpr fun e he => ?_
  obtain hv | ⟨hmem, hne⟩ := mem_mset hm he
  · rw [hv]
    simp
  · rw [h e hmem hne]
    simp

theorem holdBegun_of_calm {s : State} (h : s.gov.rows.any (fun e => e.2.dip.isSome) = false) : (holdBegun s).gov.dipHold = some (nowNs s) := by
  rw [holdBegun, if_neg (by simp [h])]

/-- The ramp begins. -/
def rampBegun (s : State) : State := { s with gov := { s.gov with dipHold := none, rampAt := some (nowNs s) } }

theorem dipHoldOver_eq {s : State} {a : Nat} (h : s.gov.dipHold = some a) (ha : a + getF s (reg .gov 1 0x104) 0 14 * 1000 ≤ nowNs s) :
    dipHoldOver s = rampBegun s := by
  unfold dipHoldOver
  rw [h]
  exact if_pos ha

/-- B_dip one less. -/
def ramped (s : State) (next : Nat) : State :=
  { s with gov := { s.gov with bDip := s.gov.bDip - 1, rampAt := if s.gov.bDip - 1 = 0 then none else some next } }

theorem rampStep_eq {s : State} {a : Nat} (h : s.gov.rampAt = some a) (ha : a + getF s (reg .gov 1 0x108) 0 14 ≤ nowNs s) :
    rampStep s = bubbleMoved (ramped s (a + getF s (reg .gov 1 0x108) 0 14)) (bubble s) := by
  unfold rampStep
  rw [h]
  exact if_pos ha

/-! ### SOFT_START_RELEASE (R495) -/

/-- A held stone released. -/
def stoneReleased (s : State) (e : Nat × Nat) : State :=
  { s with gov := { s.gov with softHeld := s.gov.softHeld.erase e, starts := s.gov.starts ++ [nowNs s] } }

theorem softRelease_eq {s : State} {site k : Nat} {e : Nat × Nat} (h : s.gov.softHeld.find? (fun e => e.1 = site * 4 + k) = some e) (he : e.2 ≤ nowNs s) :
    softRelease s site k = stoneReleased s e := by
  unfold softRelease
  rw [h]
  exact if_pos he

/-! ### Power and heat (R492, R497) -/

/-- A window noted. -/
def powerNoted (s : State) (p pc : Nat) : State :=
  { s with gov := { s.gov with bCap := updateBcap s.gov.bCap p pc (capEff s * 1000) (hystMw s), powers := (p :: s.gov.powers).take 1000 } }

theorem powerWindow_eq (s : State) (p pc : Nat) : powerWindow s p pc = bubbleMoved (powerNoted s p pc) (bubble s) := rfl

/-- The sensors as sampled. -/
def sampledTemps (s : State) (l : List (BitVec 16)) : KMap Int := ((l.take 64).zipIdx).foldl (fun m p => mset 0 m p.2 p.1.toInt) s.gov.temps

theorem mget_sampledTemps (s : State) {l : List (BitVec 16)} (hl : l.length = 64) {i : Nat} (hi : i < 64) :
    mget 0 (sampledTemps s l) i = (l.getD i 0).toInt := by
  have hmem : (l[i], i) ∈ (l.take 64).zipIdx := by
    rw [List.take_of_length_le hl.le, List.mem_zipIdx_iff_getElem?]
    exact List.getElem?_eq_getElem (by omega)
  have hnodup : ((l.take 64).zipIdx.map fun p => p.2).Nodup := by
    rw [show (fun p : BitVec 16 × Nat => p.2) = Prod.snd from rfl, List.zipIdx_map_snd]
    exact List.nodup_range'
  have hget := foldl_reaches (f := fun (m : KMap Int) (p : BitVec 16 × Nat) => mset 0 m p.2 p.1.toInt) (key := fun p => p.2)
    (P := fun p m => mget 0 m p.2 = p.1.toInt) (Q := fun _ _ => True) (fun m p _ => mget_mset_same ..)
    (fun m p q h hp => (mget_mset_other _ _ _ _ h).trans hp) (fun _ _ _ _ h => h) _ hnodup hmem s.gov.temps trivial
  rw [sampledTemps, hget, List.getD_eq_getElem]

/-- B_therm after a sample at temperature `t`. -/
def bThermNext (old : Nat) (lim t : Int) : Nat := if lim ≤ t then min 63 (old + 4) else if t < lim - 12 then old - 1 else old

/-- A sample noted. -/
def sampleNoted (s : State) (temps : KMap Int) (b : Nat) : State := { s with gov := { s.gov with temps := temps, bTherm := b } }

/-- The start and the end of a thermal limit, recorded. -/
def heatNoted (s : State) (old b i : Nat) (t : Int) : State :=
  let u := if old = 0 ∧ 0 < b then govEvent (raiseInt s .gov 2 1) 5 i 0 (wrapTo 32 t) else s
  if 0 < old ∧ b = 0 then govEvent u 6 i 0 (wrapTo 32 t) else u

theorem heatNoted_spec (s : State) (old b i : Nat) (t : Int) :
    (heatNoted s old b i t).gov.kept = s.gov.kept ∧ OnlyIn [.bus, .gov] s (heatNoted s old b i t) := by
  have hbegin : (if old = 0 ∧ 0 < b then govEvent (raiseInt s .gov 2 1) 5 i 0 (wrapTo 32 t) else s).gov.kept = s.gov.kept
      ∧ OnlyIn [.bus, .gov] s (if old = 0 ∧ 0 < b then govEvent (raiseInt s .gov 2 1) 5 i 0 (wrapTo 32 t) else s) := by
    have hevent := govEvent_keeps (raiseInt s .gov 2 1) 5 i 0 (wrapTo 32 t)
    split
    · exact ⟨hevent.gov.trans (congrArg Gov.kept (raiseInt_gov ..)), onlyIn_trans (onlyIn_mono (onlyIn_raiseInt ..) (by simp)) hevent.frame⟩
    · exact ⟨rfl, onlyIn_refl ..⟩
  unfold heatNoted
  dsimp only
  generalize (if old = 0 ∧ 0 < b then govEvent (raiseInt s .gov 2 1) 5 i 0 (wrapTo 32 t) else s) = u at hbegin ⊢
  have hevent := govEvent_keeps u 6 i 0 (wrapTo 32 t)
  split
  · exact ⟨hevent.gov.trans hbegin.1, onlyIn_trans hbegin.2 hevent.frame⟩
  · exact hbegin

/-- B_therm as a sample of the sensors leaves it. -/
def bThermOf (s : State) (l : List (BitVec 16)) : Nat :=
  bThermNext s.gov.bTherm ((getF s (reg .gov 2 0x100) 0 7 : Nat) * 4) (hottest (sampledTemps s l)).2

/-- A sample with what it records. -/
def sampleTaken (s : State) (l : List (BitVec 16)) : State :=
  heatNoted (sampleNoted s (sampledTemps s l) (bThermOf s l)) s.gov.bTherm (bThermOf s l) (hottest (sampledTemps s l)).1 (hottest (sampledTemps s l)).2

theorem thermalSample_eq (s : State) (l : List (BitVec 16)) : thermalSample s l = bubbleMoved (sampleTaken s l) (bubble s) := by
  unfold thermalSample
  rfl

theorem sampleTaken_kept (s : State) (l : List (BitVec 16)) : (sampleTaken s l).gov.kept = (sampleNoted s (sampledTemps s l) (bThermOf s l)).gov.kept :=
  (heatNoted_spec ..).1

theorem temps_thermalSample (s : State) (l : List (BitVec 16)) : (thermalSample s l).gov.temps = sampledTemps s l := by
  rw [thermalSample_eq, (bubbleMoved_keeps ..).temps]
  exact (congrArg Gov.temps (sampleTaken_kept s l) :)

theorem bTherm_thermalSample (s : State) (l : List (BitVec 16)) : (thermalSample s l).gov.bTherm = bThermOf s l := by
  rw [thermalSample_eq, (bubbleMoved_keeps ..).bTherm]
  exact (congrArg Gov.bTherm (sampleTaken_kept s l) :)

theorem onlyIn_thermalSample (s : State) (l : List (BitVec 16)) : OnlyIn [.bus, .gov] s (thermalSample s l) := by
  rw [thermalSample_eq]
  exact onlyIn_trans (onlyIn_mono (onlyIn_gov s _) (by simp)) (onlyIn_trans (heatNoted_spec (sampleNoted s _ _) ..).2 (bubbleMoved_keeps ..).frame)

/-! ### THERMAL_TRIP (R498, R515) -/

/-- The device TRIPPED; a start or reset under way ends. -/
def tripEntered (s : State) (i : Nat) (t : Int) : State :=
  setDevState (setF { s with gov := { s.gov with temps := mset 0 s.gov.temps i t }, boot := { s.boot with running := [], halted := false } }
    (reg .gov 2 0x14) 0 1 1) 6

/-- The device after a trip: its rows, its links and its bolters. -/
def tripDone (s : State) (i : Nat) (t : Int) : State := portsDown (allOff (tripEntered s i t)) (List.range 16)

theorem thermalTrip_eq {s : State} {t : Int} (i : Nat) (h : 460 ≤ t) (ht : tripped s = false) :
    thermalTrip s i t = domsFollow (tripDone s i t) := by
  unfold thermalTrip tripDone tripEntered
  refine (if_neg ?_).trans rfl
  rw [ht]
  simp only [Bool.false_eq_true, or_false]
  omega

theorem getW_tripEntered (s : State) (i : Nat) (t : Int) : tripped (tripEntered s i t) = true := by
  rw [tripped, tripEntered, getF, getW_setDevState_other _ _ (by decide) (by decide), ← getF, getF_setF_same _ _ 0 1 1 (by decide)]
  rfl

theorem devState_tripEntered (s : State) (i : Nat) (t : Int) : devState (tripEntered s i t) = 6 := devState_setDevState _ (by decide)

theorem running_tripEntered (s : State) (i : Nat) (t : Int) : (tripEntered s i t).boot.running = [] := by
  rw [tripEntered, (onlyIn_setDevState ..).2 .boot (by decide), (onlyIn_setF ..).2 .boot (by decide)]

theorem onlyIn_rowClear (s : State) (r : Nat) : OnlyIn [.sched, .mills] s (rowClear s r) :=
  onlyIn_trans (onlyIn_foldl (fun s c => onlyIn_mono (onlyIn_setCtx s c _) (by simp)) _ s)
    (onlyIn_foldl (fun s x => onlyIn_mono (onlyIn_setMill s (16 * r + x) _) (by simp)) _ _)

theorem rowClear_gov (s : State) (r : Nat) : (rowClear s r).gov = s.gov :=
  (foldl_keeps State.gov _ _ _ fun s x => setMill_gov s (16 * r + x) _).trans (foldl_keeps State.gov _ _ s fun s c => setCtx_gov s c _)

theorem onlyIn_rowOff (s : State) (r : Nat) : OnlyIn [.sched, .mills, .gov] s (rowOff s r) :=
  onlyIn_trans (onlyIn_mono (onlyIn_rowClear s r) (by simp)) (onlyIn_of_core _ (setRow_core (rowClear s r) r _))

theorem st_rowOff_same (s : State) (r : Nat) : (getRow (rowOff s r) r).st = .off := by
  rw [rowOff, getRow_setRow_same]

theorem getRow_rowOff_other (s : State) {r k : Nat} (h : k ≠ r) : getRow (rowOff s r) k = getRow s k := by
  rw [rowOff, getRow_setRow_other _ _ h, getRow_congr (congrArg Gov.rows (rowClear_gov s r))]

/-- Every row is OFF, one after the other. -/
def rowsCut (s : State) : State := (List.range 16).foldl rowOff s

/-- No stone is held. -/
def startsCleared (s : State) : State := { s with gov := { s.gov with softHeld := [], starts := [] } }

/-- The bolters hold nothing. -/
def boltersEmptied (s : State) : State := { s with bol := ⟨[], [], s.bol.served, s.bol.fetched⟩ }

theorem boltersEmptied_eq (u : State) :
    { u with gov := { u.gov with softHeld := [], starts := [] }, bol := ⟨[], [], u.bol.served, u.bol.fetched⟩ } = boltersEmptied (startsCleared u) := rfl

theorem allOff_eq (s : State) : allOff s = boltersEmptied (startsCleared (rowsCut s)) :=
  (rfl : allOff s = { rowsCut s with
    gov := { (rowsCut s).gov with softHeld := [], starts := [] }, bol := ⟨[], [], (rowsCut s).bol.served, (rowsCut s).bol.fetched⟩ }).trans
    (boltersEmptied_eq (rowsCut s))

theorem boltersEmptied_rows (s : State) : (boltersEmptied (startsCleared s)).gov.rows = s.gov.rows := rfl

theorem onlyIn_rowsCut (s : State) : OnlyIn [.sched, .mills, .gov] s (rowsCut s) := onlyIn_foldl onlyIn_rowOff _ s

theorem st_rowsCut (s : State) {r : Nat} (h : r < 16) : (getRow (rowsCut s) r).st = .off :=
  foldl_reaches (f := rowOff) (key := id) (P := fun x t => (getRow t x).st = .off) (Q := fun _ _ => True) (fun t x _ => st_rowOff_same t x)
    (fun t x y h hp => (congrArg Row.st (getRow_rowOff_other t h)).trans hp) (fun _ _ _ _ h => h) _ (by rw [List.map_id]; exact List.nodup_range)
    (List.mem_range.mpr h) s trivial

theorem allOff_rows (s : State) : (allOff s).gov.rows = (rowsCut s).gov.rows := by rw [allOff_eq, boltersEmptied_rows]

theorem allOff_bol (s : State) : (allOff s).bol.sets = [] ∧ (allOff s).bol.units = [] := ⟨rfl, rfl⟩

theorem onlyIn_allOff (s : State) : OnlyIn [.sched, .mills, .gov, .bol] s (allOff s) := by
  rw [allOff_eq]
  exact onlyIn_trans (onlyIn_mono (onlyIn_rowsCut s) (by simp)) (onlyIn_trans
    (onlyIn_mono (onlyIn_gov (rowsCut s) _ : OnlyIn [.gov] (rowsCut s) (startsCleared (rowsCut s))) (by simp))
    (onlyIn_mono (onlyIn_bol (startsCleared (rowsCut s)) _ : OnlyIn [.bol] _ (boltersEmptied (startsCleared (rowsCut s)))) (by simp)))

/-- A port's link taken down. -/
def portDowned (s : State) (p : Nat) : State := if (getPort s p).up then setUp s p false false else s

theorem portsDown_eq (s : State) (l : List Nat) : portsDown s l = l.foldl portDowned s := rfl

theorem up_portDowned_same (s : State) (p : Nat) : (getPort (portDowned s p) p).up = false := by
  by_cases h : (getPort s p).up = true
  · rw [portDowned, if_pos h, getPort_setUp_same]
  · rw [portDowned, if_neg h]
    simpa using h

theorem getPort_portDowned_other (s : State) {p k : Nat} (h : k ≠ p) : getPort (portDowned s p) k = getPort s k := by
  unfold portDowned
  split
  · exact getPort_setUp_other _ _ _ h
  · rfl

theorem onlyIn_portDowned (s : State) (p : Nat) : OnlyIn [.net, .bus] s (portDowned s p) := onlyIn_ite (onlyIn_setUp ..) (onlyIn_refl ..)

theorem linkNoted_gov (s : State) (p : Nat) (up : Bool) : (linkNoted s p up).gov = s.gov := by
  unfold linkNoted
  rw [raiseInt_gov]
  split
  · rfl
  · rw [bump32_gov]

theorem setPort_gov (s : State) (p : Nat) (x : Port) : (setPort s p x).gov = s.gov := rfl

theorem portDowned_gov (s : State) (p : Nat) : (portDowned s p).gov = s.gov := by
  by_cases h : (getPort s p).up = true
  · rw [portDowned, if_pos h, setUp_of_change _ (by rw [h]; simp), linkNoted_gov, setPort_gov]
  · rw [portDowned, if_neg h]

theorem getW_portDowned (s : State) (p : Nat) {b : Block} {i o : Nat} (h : o % 0x1000 ≠ 0x20) (h' : o % 0x1000 ≠ 0x138) :
    getW (portDowned s p) (reg b i o) = getW s (reg b i o) := by
  unfold portDowned
  split
  · refine (wordsOnly_setUp ..).getW ?_
    simp only [List.mem_cons, List.not_mem_nil, or_false, not_or]
    exact ⟨reg_ne_of_offset h, reg_ne_of_offset h'⟩
  · rfl

theorem onlyIn_portsDown (s : State) (l : List Nat) : OnlyIn [.net, .bus] s (portsDown s l) := onlyIn_foldl onlyIn_portDowned l s

theorem portsDown_gov (s : State) (l : List Nat) : (portsDown s l).gov = s.gov := foldl_keeps State.gov portDowned l s portDowned_gov

theorem getW_portsDown (s : State) (l : List Nat) {b : Block} {i o : Nat} (h : o % 0x1000 ≠ 0x20) (h' : o % 0x1000 ≠ 0x138) :
    getW (portsDown s l) (reg b i o) = getW s (reg b i o) :=
  foldl_keeps (fun s => getW s (reg b i o)) portDowned l s fun s p => getW_portDowned s p h h'

theorem up_portsDown (s : State) {l : List Nat} (hl : l.Nodup) {p : Nat} (h : p ∈ l) : (getPort (portsDown s l) p).up = false :=
  foldl_reaches (f := portDowned) (key := id) (P := fun x t => (getPort t x).up = false) (Q := fun _ _ => True) (fun t x _ => up_portDowned_same t x)
    (fun t x y h hp => (congrArg Port.up (getPort_portDowned_other t h)).trans hp) (fun _ _ _ _ h => h) _ (by rwa [List.map_id]) h s trivial

theorem getW_tripDone (s : State) (j : Nat) (t : Int) {b : Block} {i o : Nat} (h : o % 0x1000 ≠ 0x20) (h' : o % 0x1000 ≠ 0x138) :
    getW (tripDone s j t) (reg b i o) = getW (tripEntered s j t) (reg b i o) :=
  (getW_portsDown _ _ h h').trans (getW_congr ((onlyIn_allOff (tripEntered s j t)).2 .bus (by decide)) _)

theorem devState_tripDone (s : State) (i : Nat) (t : Int) : devState (tripDone s i t) = 6 := by
  rw [devState, getF, getW_tripDone _ _ _ (by decide) (by decide), ← getF, ← devState, devState_tripEntered]

theorem tripped_tripDone (s : State) (i : Nat) (t : Int) : tripped (tripDone s i t) = true := by
  rw [tripped, getF, getW_tripDone _ _ _ (by decide) (by decide), ← getF, ← tripped, getW_tripEntered]

theorem st_tripDone (s : State) (i : Nat) (t : Int) {r : Nat} (h : r < 16) : (getRow (tripDone s i t) r).st = .off := by
  rw [tripDone, getRow_congr (congrArg Gov.rows (portsDown_gov ..)), getRow_congr (allOff_rows _), st_rowsCut _ h]

theorem tripDone_bol (s : State) (i : Nat) (t : Int) : (tripDone s i t).bol.sets = [] ∧ (tripDone s i t).bol.units = [] := by
  rw [tripDone, (onlyIn_portsDown ..).2 .bol (by decide)]
  exact allOff_bol _

theorem running_tripDone (s : State) (i : Nat) (t : Int) : (tripDone s i t).boot.running = [] := by
  rw [tripDone, (onlyIn_portsDown ..).2 .boot (by decide), (onlyIn_allOff _).2 .boot (by decide), running_tripEntered]

theorem settle_tripDone (s : State) (i : Nat) (t : Int) : settle (domsFollow (tripDone s i t)) = domsFollow (domsFollow (tripDone s i t)) := by
  refine settle_of_down ?_
  rw [deviceUp, devState_core (domsFollow_core _), devState_tripDone]
  rfl

/-! ### EV_POP (R499, R501) -/

/-- The oldest record gone. -/
def evPopped (s : State) : State := { s with gov := { s.gov with evs := s.gov.evs.drop 1 } }

theorem evPop_eq {s : State} {v : Nat} (hready : pageReady s .gov 3 = true) (hv : v % 2 = 1) : evPop s v = evPopped s :=
  (gated_of_ready hready _).trans (if_pos hv)

/-! ### The statement -/

/-- Settles O52. Records and the times that follow B leave the rest of the governor alone (`GovKeeps`); rows without a radio mill and dips
survive the end of the command; the rows cut by a trip stay OFF, since the device is no longer up. -/
theorem theGovernorHoldsTheCapAndTheHeat : Obligations.TheGovernorHoldsTheCapAndTheHeat := by
  unfold Obligations.TheGovernorHoldsTheCapAndTheHeat
  refine ⟨fun s v hready => ⟨fun h1 h2 => ?_, fun h => ?_⟩, fun s p pc => ?_,
    fun s a dwell floor hdwell hfloor hon hdip => ⟨fun h ha => ?_, fun hn h ha => ?_⟩, fun s site k e h he => ?_,
    fun s r mv => ⟨fun h hn => ?_, fun a h => ?_⟩, fun s a => ⟨fun h ha => ?_, fun h ha => ?_⟩, fun s l hl => ?_, fun s i x hx ht => ?_,
    fun s v hready hv => ?_⟩
  · have hcap : capW (capStored s (v.toNat % 1024)) = v.toNat % 1024 := capW_capStored s (by omega)
    have hstored := onlyIn_capStored s (v.toNat % 1024)
    have hall : OnlyIn [.bus, .gov] s (settle (capClamp (capStored s (v.toNat % 1024)))) :=
      onlyIn_settle (onlyIn_trans (onlyIn_mono hstored (by simp)) (onlyIn_capClamp _))
    have hfloor : capFloor (capStored s (v.toNat % 1024)) = capFloor s := capFloor_congr (hstored.2 .card (by decide)) (hstored.2 .sched (by decide))
    have hcard : (capStored s (v.toNat % 1024)).card = s.card := hstored.2 .card (by decide)
    refine ⟨_, congrArg done (capWrite_of_range hready h1 h2), ?_, ?_, ?_, hall⟩
    · rw [capW_settle, capW_capClamp, hcap]
    · rw [capEff, capW_settle, capW_capClamp, hcap, capFloor_congr (hall.2 .card (by decide)) (hall.2 .sched (by decide)), hall.2 .card (by decide)]
    · rw [getF_settle, clamped_capClamp, capClamped, hcap, hfloor, hcard]
  · refine ⟨_, congrArg done (capWrite_of_invalid hready h), ?_, ?_, onlyIn_settle (onlyIn_raiseErr ..)⟩
    · exact (capW_settle _).trans (capW_of_word (getW_raiseErr_keep s .gov 0 0 (by decide) (by decide)))
    · exact (getW_settle ..).trans (getW_raiseErr_same ..)
  · have hkeep := bubbleMoved_keeps (powerNoted s p.toNat pc.toNat) (bubble s)
    refine ⟨_, congrArg done (powerWindow_eq ..), ?_, ?_, ?_, ?_, onlyIn_settle (onlyIn_trans (onlyIn_mono (onlyIn_gov s _) (by simp)) hkeep.frame)⟩
    · rw [settle_gov_bCap, hkeep.bCap]
      rfl
    · rw [settle_gov_powers, hkeep.powers]
      rfl
    · rw [settle_gov_bTherm, hkeep.bTherm]
      rfl
    · rw [settle_gov_bDip, hkeep.bDip]
      rfl
  · subst hdwell hfloor
    refine ⟨_, congrArg done (dvfsStep_up hon hdip ha h), ?_, fun r hr => ?_, onlyIn_settle (onlyIn_steppedUp ..)⟩
    · rw [settle_gov_highFrom, highFrom_steppedUp]
    · exact opp_settle_stepRows (steppedUp_rows ..) ((onlyIn_steppedUp ..).2 .sched (by decide)) hr
  · subst hdwell
    refine ⟨_, congrArg done (dvfsStep_down hon hdip ha hn h), ?_, fun r hr => ?_, onlyIn_settle (onlyIn_steppedDown ..)⟩
    · rw [settle_gov_lowFrom, lowFrom_steppedDown]
    · exact opp_settle_stepRows (steppedDown_rows s) ((onlyIn_steppedDown ..).2 .sched (by decide)) hr
  · refine ⟨_, congrArg done (softRelease_eq h he), ?_, ?_, onlyIn_settle (onlyIn_gov s _)⟩
    · rw [settle_gov_softHeld]
      rfl
    · rw [settle_gov_starts]
      rfl
  · have hkeep := bubbleMoved_keeps (raiseInt (dipped s r) .gov 1 1) (bubble s)
    have hgov : (raiseInt (dipped s r) .gov 1 1).gov = (dipped s r).gov := raiseInt_gov ..
    refine ⟨_, congrArg done (dipStart_eq h hn), ?_, ?_, ?_, ?_, ?_, onlyIn_settle (onlyIn_dipStart ..)⟩
    · rw [settle_gov_bDip, hkeep.bDip, hgov]
      rfl
    · rw [settle_gov_dipHold, hkeep.dipHold, hgov]
      rfl
    · rw [settle_gov_rampAt, hkeep.rampAt, hgov]
      rfl
    · rw [dip_settle, hkeep.getRow, getRow_congr (congrArg Gov.rows hgov), getRow_congr (dipped_rows s r), getRow_setRow_same]
    · rw [getW_settle, hkeep.getW (by decide)]
      exact bitAt_raiseInt _ _ _ (by decide)
  · obtain ⟨hlow, hlen, hcount⟩ := getW_dipCounted (undipped s r) (BitVec.ofNat 32 (mv.toNat + r * 2 ^ 16)) (BitVec.ofNat 32 (min (nowNs s - a) 0xFFFFFFFF))
    have hkeep := dipOver_keeps s r mv.toNat a
    refine ⟨_, congrArg done (dipEnd_eq mv.toNat h), ?_, ?_, ?_, ?_, ?_, fun hcalm hm => ?_,
      onlyIn_settle (onlyIn_trans (onlyIn_dipOver ..) (onlyIn_holdBegun _))⟩
    · rw [dip_settle, getRow_congr (holdBegun_rows _), getRow_congr (dipOver_rows ..), undipped, getRow_setRow_same]
    · rw [getW_settle, getW_congr (holdBegun_bus _), hkeep.getW (by decide), hlow]
    · rw [getW_settle, getW_congr (holdBegun_bus _), hkeep.getW (by decide), hlen]
    · rw [getW_settle, getW_congr (holdBegun_bus _), hkeep.getW (by decide), hcount, getW_congr (undipped_bus s r)]
    · rw [settle_gov_bDip, holdBegun_bDip, dipOver_bDip]
    · rw [settle_gov_dipHold, holdBegun_of_calm (by rw [dipOver_rows]; exact undipped_calm hcalm hm),
        nowNs_congr ((onlyIn_dipOver ..).2 .ftl (by decide))]
  · refine ⟨_, congrArg done (dipHoldOver_eq h ha), ?_, ?_, ?_, onlyIn_settle (onlyIn_gov s _)⟩
    · rw [settle_gov_dipHold]
      rfl
    · rw [settle_gov_rampAt]
      rfl
    · rw [settle_gov_bDip]
      rfl
  · have hkeep := bubbleMoved_keeps (ramped s (a + getF s (reg .gov 1 0x108) 0 14)) (bubble s)
    refine ⟨_, congrArg done (rampStep_eq h ha), ?_, ?_, onlyIn_settle (onlyIn_trans (onlyIn_mono (onlyIn_gov s _) (by simp)) hkeep.frame)⟩
    · rw [settle_gov_bDip, hkeep.bDip]
      rfl
    · rw [settle_gov_rampAt, hkeep.rampAt]
      exact if_congr Nat.sub_eq_zero_iff_le rfl rfl
  · refine ⟨_, rfl, fun i hi => ?_, ?_, onlyIn_settle (onlyIn_thermalSample ..)⟩
    · rw [settle_gov_temps, temps_thermalSample, mget_sampledTemps s hl hi]
    · rw [settle_gov_bTherm, settle_gov_temps, temps_thermalSample, bTherm_thermalSample, bThermOf, bThermNext]
      push_cast
      rfl
  · have hrow : ∀ r, getRow (domsFollow (domsFollow (tripDone s i x.toInt))) r = getRow (tripDone s i x.toInt) r := fun r => by
      rw [getRow_domsFollow, getRow_domsFollow]
    have hcore : (settle (domsFollow (tripDone s i x.toInt))).core = (tripDone s i x.toInt).core := (settle_core _).trans (domsFollow_core _)
    refine ⟨_, congrArg done (thermalTrip_eq i hx ht), ?_, ?_, fun r hr => ?_, fun p hp => ?_, ?_, ?_, ?_⟩
    · exact (devState_core hcore).trans (devState_tripDone ..)
    · rw [tripped, getF_congr (core_bus hcore), ← tripped]
      exact tripped_tripDone ..
    · rw [settle_tripDone, hrow, st_tripDone _ _ _ hr]
    · rw [getPort_congr (core_net hcore)]
      exact up_portsDown _ List.nodup_range (List.mem_range.mpr hp)
    · rw [core_bol hcore]
      exact (tripDone_bol ..).1
    · rw [core_bol hcore]
      exact (tripDone_bol ..).2
    · rw [core_boot hcore]
      exact running_tripDone ..
  · refine ⟨_, congrArg done (evPop_eq hready hv), ?_, onlyIn_settle (onlyIn_gov s _)⟩
    rw [settle_gov_evs]
    rfl

end Sys2Proof.Machine
end

section
/-! SUPPORT. The security unit: key slots, the debug gate, the migration key, SPDM sessions, IDE and TSP (R572 to R574, R576 to R582, R585). -/
namespace Sys2Proof.Machine

/-! ### Commands of the SEC pages (R585) -/

section
variable {s : State} (h1 : devState s ≠ 1) (h4 : devState s ≠ 4)
include h1 h4

theorem secCommand_of_idle {page : Nat} (hready : pageReady s .sec page = true) (act : State → State) :
    secCommand s page act = raiseInt (act s) .sec 0 1 := (if_neg (by tauto)).trans (gated_of_ready hready _)

theorem closeGate_of_idle (hready : pageReady s .sec 2 = true) : closeGate s = trigger s 4 0 false :=
  (if_neg (by tauto)).trans (gated_of_ready hready _)

end

theorem secCommand_of_start {s : State} (h : devState s = 1 ∨ devState s = 4) (page : Nat) (act : State → State) :
    secCommand s page act = raiseErr s .sec 0 8 := if_pos h

theorem closeGate_of_start {s : State} (h : devState s = 1 ∨ devState s = 4) : closeGate s = raiseErr s .sec 0 8 := if_pos h

/-- The end of a command leaves the registers of its pages alone but for the interrupt. -/
theorem getF_secDone (u : State) {b : Block} {i o : Nat} (lo len : Nat) (h : o % 0x1000 ≠ 0x20) :
    getF (settle (raiseInt u .sec 0 1)) (reg b i o) lo len = getF u (reg b i o) lo len := by
  rw [getF_settle, getF, getW_raiseInt, if_neg (reg_ne_of_offset h), ← getF]

theorem sec_secDone (u : State) : (settle (raiseInt u .sec 0 1)).sec = u.sec := by rw [settle_sec, raiseInt_sec]

theorem mem_secDone (u : State) : (settle (raiseInt u .sec 0 1)).mem = u.mem := by rw [settle_mem, raiseInt_mem]

theorem hif_secDone (u : State) : (settle (raiseInt u .sec 0 1)).hif = u.hif := by rw [settle_hif, raiseInt_hif]

theorem onlyIn_secDone {l : List Comp} {s u : State} (h : OnlyIn l s u) (hb : Comp.bus ∈ l) : OnlyIn l s (settle (raiseInt u .sec 0 1)) :=
  onlyIn_settle (onlyIn_trans h (onlyIn_mono (onlyIn_raiseInt ..) (by simpa using hb)))

theorem gateOpen_secDone (u : State) : gateOpen (settle (raiseInt u .sec 0 1)) = gateOpen u := by
  rw [gateOpen, getF_secDone u 0 1 (by decide), ← gateOpen]

/-! ### ERASE (R578) -/

theorem slotErase_slots (s : State) (k : Nat) : (slotErase s k).mem.slots = eraseSlot s.mem.slots k := by
  rw [slotErase, bump32_mem]
  rfl

theorem onlyIn_slotErase (s : State) (k : Nat) : OnlyIn [.mem, .bus] s (slotErase s k) :=
  onlyIn_trans (onlyIn_mono (onlyIn_mem s _) (by simp)) (onlyIn_mono (onlyIn_bump32 { s with mem := _ } _ 1) (by simp))

theorem slots_foldl_slotErase (l : List Nat) (s : State) : (l.foldl slotErase s).mem.slots = l.foldl eraseSlot s.mem.slots := by
  induction l generalizing s with
  | nil => rfl
  | cons k l ih => rw [List.foldl_cons, List.foldl_cons, ih, slotErase_slots]

theorem keyErase_eq {s : State} {v : Nat} (hl : tspLocked s = false) (h63 : bitsAt v 8 6 ≠ 63) (ho : slotOwner s (bitsAt v 8 6) = 63) :
    keyErase s v = setF (slotErase s (bitsAt v 8 6)) (reg .sec 1 0x104) 0 3 0 := by
  unfold slotOwner at ho
  unfold keyErase
  dsimp only
  rw [hl, if_neg Bool.false_ne_true, if_neg h63, if_neg (not_not.mpr ho)]
  rfl

/-! ### OPEN (R581, R582) -/

/-- A nonce word drawn. -/
def nonceWord (s : State) (i : Nat) : State :=
  setW { s with freshNo := s.freshNo + 1 } (reg .sec 2 (0x120 + 4 * i)) ((Config.freeValue s.freshNo).setWidth 32)

theorem drawNonce_eq (s : State) : drawNonce s = (List.range 8).foldl nonceWord s := rfl

theorem onlyIn_drawNonce (s : State) : OnlyIn [.bus, .fresh] s (drawNonce s) :=
  onlyIn_foldl (f := nonceWord) (fun s i => onlyIn_trans (onlyIn_mono (onlyIn_fresh s _) (by simp))
    (onlyIn_mono (onlyIn_setW { s with freshNo := _ } _ _) (by simp))) _ s

theorem getW_drawNonce (s : State) {o : Nat} (h : o < 0x120) : getW (drawNonce s) (reg .sec 2 o) = getW s (reg .sec 2 o) :=
  foldl_keeps (fun s => getW s (reg .sec 2 o)) nonceWord _ s fun s i =>
    (getW_setW_other _ _ (reg_ne _ _ (by omega))).trans (getW_congr rfl _)

/-- Every slot but the device's erased, and the gate open in its scope. -/
def gateOpened (s : State) (scope : Nat) : State :=
  setW ((mkeys (fun k _ => k < 63) s.mem.slots).foldl slotErase s) (reg .sec 2 0x100) (BitVec.ofNat 32 (1 + 4 * (scope % 4)))

section
variable {s : State} {tok : List Byte} (hp : livingParts s = []) (hl : tspLocked s = false)
include hp hl

theorem gateTry_open (ht : tokenOk s tok = true) : gateTry s tok = drawNonce (setF (gateOpened s (leAt tok 100 1)) (reg .sec 2 0x114) 0 3 0) := by
  unfold gateTry
  rw [hp, hl, ht]
  rfl

theorem gateTry_refused (ht : tokenOk s tok = false) : gateTry s tok = drawNonce (setF s (reg .sec 2 0x114) 0 3 2) := by
  unfold gateTry
  rw [hp, hl, ht]
  rfl

end

theorem onlyIn_gateOpened (s : State) (scope : Nat) : OnlyIn [.mem, .bus] s (gateOpened s scope) :=
  onlyIn_trans (onlyIn_foldl onlyIn_slotErase _ s) (onlyIn_mono (onlyIn_setW _ _ _) (by simp))

theorem mget_gateOpened (s : State) (scope : Nat) {j : Nat} (h : j < 63) : mget KeySlot.empty (gateOpened s scope).mem.slots j = KeySlot.empty := by
  have hslots : (gateOpened s scope).mem.slots = (mkeys (fun k _ => k < 63) s.mem.slots).foldl eraseSlot s.mem.slots := by
    rw [gateOpened, setW_mem, slots_foldl_slotErase]
  rw [hslots, mget_foldl_eraseSlot]
  split
  next => rfl
  next hk =>
    cases hx : mfind s.mem.slots j with
    | none => rw [mget, hx]
    | some x => exact absurd (mem_mkeys_of_mfind hx (by simpa using h)) hk

theorem gateOpen_gateOpened (s : State) (scope : Nat) : getF (gateOpened s scope) (reg .sec 2 0x100) 0 1 = 1 := by
  have hscope : 1 + 4 * (scope % 4) < 2 ^ 32 := by omega
  rw [gateOpened, getF_setW_same hscope, bitsAt]
  omega

theorem getF_nonced (s : State) (code : Nat) (lo len : Nat) :
    getF (drawNonce (setF s (reg .sec 2 0x114) 0 3 code)) (reg .sec 2 0x100) lo len = getF s (reg .sec 2 0x100) lo len := by
  rw [getF, getW_drawNonce _ (by decide), ← getF, getF_setF_other _ 0 3 code lo len (reg_ne _ _ (by decide))]

theorem getF_gateResult (s : State) {code : Nat} (h : code < 8) :
    getF (drawNonce (setF s (reg .sec 2 0x114) 0 3 code)) (reg .sec 2 0x114) 0 3 = code := by
  rw [getF, getW_drawNonce _ (by decide), ← getF, getF_setF_same _ _ 0 3 code (by decide)]
  exact Nat.mod_eq_of_lt h

theorem drawNonce_mem (s : State) (code : Nat) : (drawNonce (setF s (reg .sec 2 0x114) 0 3 code)).mem = s.mem :=
  ((onlyIn_drawNonce _).2 .mem (by decide)).trans ((onlyIn_setF s _ 0 3 code).2 .mem (by decide))

/-! ### The migration key (R580) -/

theorem onlyIn_migrEnd (s : State) (code : Nat) : OnlyIn [.bus] s (migrEnd s code) := onlyIn_trans (onlyIn_setF ..) (onlyIn_setF ..)

theorem migrEnd_sec (s : State) (code : Nat) : (migrEnd s code).sec = s.sec := (onlyIn_migrEnd s code).2 .sec (by decide)

theorem migrEnd_hif (s : State) (code : Nat) : (migrEnd s code).hif = s.hif := (onlyIn_migrEnd s code).2 .hif (by decide)

theorem migrEnd_mem (s : State) (code : Nat) : (migrEnd s code).mem = s.mem := (onlyIn_migrEnd s code).2 .mem (by decide)

theorem migrEnd_result (s : State) : getF (migrEnd s 0) (reg .sec 3 0x10C) 0 3 = 0 :=
  (getF_setF_other _ 0 1 _ 0 3 (reg_ne _ _ (by decide))).trans (getF_setF_same _ _ 0 3 0 (by decide))

theorem migrEnd_held (s : State) : getF (migrEnd s 0) (reg .sec 3 0x110) 0 1 = b2n s.sec.km.isSome :=
  (getF_setF_same _ _ 0 1 _ (by decide)).trans (b2n_mod_two _)

theorem migrOut_hif (s : State) (l : List Byte) :
    (migrOut s l).hif = { s.hif with hostW := s.hif.hostW ++ [⟨none, (getD64 s (reg .sec 3 0x100)).toNat, l⟩] } := rfl

theorem migrOut_sec (s : State) (l : List Byte) : (migrOut s l).sec = s.sec := rfl

theorem migrOut_mem (s : State) (l : List Byte) : (migrOut s l).mem = s.mem := rfl

theorem onlyIn_migrOut (s : State) (l : List Byte) : OnlyIn [.hif] s (migrOut s l) := onlyIn_hif s _

theorem onlyIn_freeBytes (n : Nat) (s : State) : OnlyIn [.fresh] s (freeBytes n s).2 := by
  induction n generalizing s with
  | zero => exact onlyIn_refl ..
  | succ n ih => exact onlyIn_trans (onlyIn_fresh s _) (ih { s with freshNo := s.freshNo + 1 })

/-- The migration unit's keys. -/
def withKeys (s : State) (km : Option (List Byte)) (kem : Option (List Byte × List Byte)) : State :=
  { s with sec := { s.sec with km := km, kem := kem } }

theorem onlyIn_withKeys (s : State) (km : Option (List Byte)) (kem : Option (List Byte × List Byte)) : OnlyIn [.sec] s (withKeys s km kem) :=
  onlyIn_sec s _

/-- Bytes handed out under new keys. -/
def keysOut (u : State) (km : Option (List Byte)) (kem : Option (List Byte × List Byte)) (l : List Byte) : State :=
  migrEnd (migrOut (withKeys u km kem) l) 0

theorem keysOut_sec (u : State) (km : Option (List Byte)) (kem : Option (List Byte × List Byte)) (l : List Byte) :
    (keysOut u km kem l).sec = { u.sec with km := km, kem := kem } := by
  rw [keysOut, migrEnd_sec, migrOut_sec, withKeys]

theorem keysOut_hostW (u : State) (km : Option (List Byte)) (kem : Option (List Byte × List Byte)) (l : List Byte) :
    (keysOut u km kem l).hif.hostW = u.hif.hostW ++ [⟨none, (getD64 u (reg .sec 3 0x100)).toNat, l⟩] := by
  rw [keysOut, migrEnd_hif, migrOut_hif, getD64_congr (s := u) (t := withKeys u km kem) rfl, withKeys]

theorem onlyIn_keysOut {c : List Comp} {s u : State} {km : Option (List Byte)} {kem : Option (List Byte × List Byte)} {l : List Byte}
    (h : OnlyIn c s u) (hc : [Comp.sec, Comp.hif, Comp.bus] ⊆ c) : OnlyIn c s (keysOut u km kem l) := by
  have hkeys : OnlyIn [.sec, .hif, .bus] u (keysOut u km kem l) :=
    onlyIn_trans (onlyIn_mono (onlyIn_withKeys u km kem) (by simp)) (onlyIn_trans (onlyIn_mono (onlyIn_migrOut (withKeys u km kem) l) (by simp))
      (onlyIn_mono (onlyIn_migrEnd (migrOut (withKeys u km kem) l) 0) (by simp)))
  exact onlyIn_trans h (onlyIn_mono hkeys hc)

theorem migrOffer_eq (s : State) : ∃ u x l, migrOffer s = keysOut u none (some x) l ∧ OnlyIn [.fresh] s u :=
  ⟨(freshId (freeBytes 4 (freeBytes 8 s).2).2).2, ((freeBytes 8 s).1, (freeBytes 4 (freeBytes 8 s).2).1), _, rfl,
    onlyIn_trans (onlyIn_freeBytes 8 s) (onlyIn_trans (onlyIn_freeBytes 4 (freeBytes 8 s).2) (onlyIn_fresh (freeBytes 4 (freeBytes 8 s).2).2 _))⟩

theorem migrAccept_eq {s : State} {blob chain pk : List Byte} (hk : Config.chainKey chain = some pk)
    (hv : Config.verify pk (sliceB blob 0 1608) (sliceB blob 1608 4627) = true) (hd : leAt blob 1600 8 = (getD64 s (reg .root 0 0x108)).toNat) :
    ∃ u km kem l, migrAccept s blob chain = keysOut u (some km) kem l ∧ OnlyIn [.sec, .fresh] s u := by
  have hdfp : getD64 { s with sec := { s.sec with km := none } } (reg .root 0 0x108) = getD64 s (reg .root 0 0x108) := getD64_congr rfl _
  let r := freeBytes 4 { s with sec := { s.sec with km := none } }
  let e := Config.kemEncaps (sliceB blob 0 1568) r.1
  refine ⟨r.2, migrKey e.2 (sliceB blob 1568 32) r.2.sec.idDigest (Config.sha3 pk), r.2.sec.kem, e.1, ?_,
    onlyIn_trans (onlyIn_mono (onlyIn_sec s _) (by simp)) (onlyIn_mono (onlyIn_freeBytes 4 { s with sec := { s.sec with km := none } }) (by simp))⟩
  unfold migrAccept
  dsimp only
  rw [hk]
  dsimp only
  rw [hv, hdfp]
  exact (if_neg (by decide)).trans ((if_neg (not_not.mpr hd)).trans rfl)

theorem migrComplete_eq {s : State} {ct src dk nonce : List Byte} (h : s.sec.kem = some (dk, nonce)) :
    migrComplete s ct src = migrEnd (withKeys s (some (migrKey (Config.kemDecaps dk ct) nonce src s.sec.idDigest)) none) 0 := by
  unfold migrComplete
  rw [h]
  rfl

theorem exportKeys_eq {s : State} {p : Nat} {km : List Byte} (h : s.sec.km = some km) (hp : (getPart s p).st = .frozen) :
    exportKeys s p = migrEnd (migrOut s (Config.gcmSeal km (wrapSlots s (getPart s p).desc.keySlots))) 0 := by
  unfold exportKeys
  rw [h]
  exact if_neg (not_not.mpr hp)

/-- A key stored in a slot, bound to a partition. -/
def slotLoaded (p : Nat) (m : KMap KeySlot) (e : Nat × Nat) : KMap KeySlot :=
  mset KeySlot.empty m e.1 { mget KeySlot.empty m e.1 with key := some (2 ^ 600 + e.2), bound := some p }

theorem importKeys_eq {s : State} {p : Nat} {km blob l : List Byte} (h : s.sec.km = some km) (hp : (getPart s p).st = .free)
    (hb : Config.gcmOpen km blob = some l) (he : ∀ e ∈ unwrapSlots l, e.1 ≠ 63 ∧ slotKey s e.1 = none) :
    importKeys s p blob = migrEnd { s with mem := { s.mem with slots := (unwrapSlots l).foldl (slotLoaded p) s.mem.slots } } 0 := by
  have hany : ¬ (unwrapSlots l).any (fun e => e.1 = 63 || (mget KeySlot.empty s.mem.slots e.1).key.isSome) = true := by
    rw [List.any_eq_true]
    rintro ⟨e, hm, hx⟩
    obtain ⟨h63, hkey⟩ := he e hm
    unfold slotKey at hkey
    rw [hkey] at hx
    simp [h63] at hx
  unfold importKeys
  rw [h]
  dsimp only
  rw [if_neg (not_not.mpr hp), hb]
  exact if_neg hany

/-- A slot that one of the entries names holds a key bound to the partition, whoever held it. -/
theorem mget_foldl_slotLoaded (p : Nat) {l : List (Nat × Nat)} {k : Nat} {m : KMap KeySlot}
    (h : (∃ e ∈ l, e.1 = k) ∨ (mget KeySlot.empty m k).key.isSome = true ∧ (mget KeySlot.empty m k).bound = some p) :
    (mget KeySlot.empty (l.foldl (slotLoaded p) m) k).key.isSome = true ∧ (mget KeySlot.empty (l.foldl (slotLoaded p) m) k).bound = some p
      ∧ (mget KeySlot.empty (l.foldl (slotLoaded p) m) k).owner = (mget KeySlot.empty m k).owner := by
  induction l generalizing m with
  | nil =>
    obtain ⟨e, he, -⟩ | h := h
    · exact absurd he List.not_mem_nil
    · exact ⟨h.1, h.2, rfl⟩
  | cons e l ih =>
    rw [List.foldl_cons]
    obtain rfl | hk := eq_or_ne k e.1
    · have hslot : mget KeySlot.empty (slotLoaded p m e) e.1 = { mget KeySlot.empty m e.1 with key := some (2 ^ 600 + e.2), bound := some p } :=
        mget_mset_same ..
      obtain ⟨hkey, hbound, howner⟩ := ih (.inr (by rw [hslot]; exact ⟨rfl, rfl⟩) : _ ∨ _)
      exact ⟨hkey, hbound, howner.trans (by rw [hslot])⟩
    · have hslot : mget KeySlot.empty (slotLoaded p m e) k = mget KeySlot.empty m k := mget_mset_other _ _ _ _ hk
      have hrest : (∃ e ∈ l, e.1 = k) ∨ (mget KeySlot.empty m k).key.isSome = true ∧ (mget KeySlot.empty m k).bound = some p := by
        refine h.imp (fun ⟨x, hx, hxk⟩ => ⟨x, (List.mem_cons.mp hx).resolve_left fun hxe => hk (hxe ▸ hxk).symm, hxk⟩) id
      obtain ⟨hkey, hbound, howner⟩ := ih (m := slotLoaded p m e) (by rwa [hslot])
      exact ⟨hkey, hbound, howner.trans (by rw [hslot])⟩

/-! ### The SPDM responder (R572, R573) -/

theorem spdmSay_sec (s : State) (x : Transport) (r : SpdmRsp) : (spdmSay s x r).sec = { s.sec with rsp := s.sec.rsp ++ [(x, r)] } := rfl

theorem spdmSay_bus (s : State) (x : Transport) (r : SpdmRsp) : (spdmSay s x r).bus = s.bus := rfl

theorem onlyIn_spdmSay (s : State) (x : Transport) (r : SpdmRsp) : OnlyIn [.sec] s (spdmSay s x r) := onlyIn_sec s _

/-- What an answer leaves of its state, at the end of the command. -/
theorem sec_answered (s : State) (x : Transport) (r : SpdmRsp) : (settle (spdmSay s x r)).sec = { s.sec with rsp := s.sec.rsp ++ [(x, r)] } := by
  rw [settle_sec, spdmSay_sec]

theorem onlyIn_answered {l : List Comp} {s u : State} (x : Transport) (r : SpdmRsp) (h : OnlyIn l s u) (hl : Comp.sec ∈ l) :
    OnlyIn l s (settle (spdmSay u x r)) :=
  onlyIn_settle (onlyIn_trans h (onlyIn_mono (onlyIn_spdmSay ..) (by simpa using hl)))

/-- A negotiation that comes to its next stage. -/
structure Staged (s : State) (x : Transport) (n : Nat) (r : SpdmRsp) (t : State) : Prop where
  rsp : t.sec.rsp = s.sec.rsp ++ [(x, r)]
  stage : mget 0 t.sec.conns (Transport.code x) = n
  frame : OnlyIn [.sec] s t

theorem staged (s : State) (x : Transport) (n : Nat) (r : SpdmRsp) : Staged s x n r (settle (spdmSay (spdmStage s x n) x r)) where
  rsp := by
    rw [sec_answered]
    rfl
  stage := by
    rw [sec_answered]
    exact mget_mset_same ..
  frame := onlyIn_answered x r (onlyIn_sec s _) (by decide)

section
variable {s : State} {x : Transport} (hup : spdmUp s x = true)
include hup

theorem spdmAsk_of_stage {need : Nat} (h : need ≤ mget 0 s.sec.conns (Transport.code x)) (act : State → State) : spdmAsk s x need act = act s := by
  unfold spdmAsk
  rw [hup]
  exact (if_neg (by decide)).trans (if_neg (by omega))

theorem spdmAsk_early {need : Nat} (h : mget 0 s.sec.conns (Transport.code x) < need) (act : State → State) :
    spdmAsk s x need act = spdmSay s x (.error 4) := by
  unfold spdmAsk
  rw [hup]
  exact (if_neg (by decide)).trans (if_pos h)

section
variable {n : Nat} {q : Session} (h3 : 3 ≤ mget 0 s.sec.conns (Transport.code x)) (hq : mfind s.sec.sessions n = some q) (hx : q.transport = x)
include h3 hq hx

theorem inSession_of {ready : Bool} (hr : q.ready = ready) (act : State → Session → State) : inSession s x n ready act = act s q := by
  refine (spdmAsk_of_stage hup h3 _).trans ?_
  rw [hq]
  exact if_pos ⟨hx, hr⟩

theorem vendorAsk_of (hr : q.ready = true) {cap : Nat} (hc : hasCap s cap = true) (act : State → State) : vendorAsk s x n cap act = act s :=
  (inSession_of hup h3 hq hx hr _).trans (if_pos hc)

end

end

theorem spdmChain_of {s : State} (x : Transport) {off : Nat} (len : Nat) (h : off < (Config.certChain s.sec.idDigest).length) :
    ∃ k, spdmChain s x 0 off len = spdmSay s x (.certificate (((Config.certChain s.sec.idDigest).drop off).take len) k) :=
  ⟨_, if_neg (by omega)⟩

/-- The number of a signature spent. -/
def idDrawn (s : State) : State := { s with freshNo := s.freshNo + 1 }

theorem onlyIn_idDrawn (s : State) : OnlyIn [.sec, .fresh] s (idDrawn s) := onlyIn_mono (onlyIn_fresh s _) (by simp)

theorem idDrawn_sec (s : State) : (idDrawn s).sec = s.sec := rfl

theorem signed_eq (s : State) (x : Transport) (m : List Byte) :
    (let (g, s) := spdmSign s m; spdmSay s x (.challengeAuth g)) = spdmSay (idDrawn s) x (.challengeAuth (Config.sign s.sec.idDigest s.freshNo m)) := rfl

theorem spdmMeasure_gate (s : State) (x : Transport) (nonce : List Byte) :
    ∃ b g, spdmMeasure s x 7 nonce = spdmSay (idDrawn s) x (.measurements b g) ∧ (7, measGate s) ∈ b := by
  have hmem : (7, measGate s) ∈ (measBlocks s).filter (fun e => (7 : Nat) = 0xFF || e.1 = 7) :=
    List.mem_filter.mpr ⟨mem_of_mfind (mfind_mput_same ..), by simp⟩
  refine ⟨_, Config.sign s.sec.idDigest s.freshNo
    (((measBlocks s).filter (fun e => (7 : Nat) = 0xFF || e.1 = 7)).flatMap (fun e => toLE 1 e.1 ++ e.2) ++ nonce), ?_, hmem⟩
  unfold spdmMeasure
  dsimp only
  refine (if_neg ?_).trans rfl
  rw [List.isEmpty_iff]
  exact List.ne_nil_of_mem hmem

/-- A session opened under its number. -/
def sessionOpened (s : State) (x : Transport) : State :=
  { s with sec := { s.sec with sessions := mput s.sec.sessions s.sec.nextSess ⟨x, false, 0⟩, nextSess := s.sec.nextSess + 1 } }

theorem keyExchange_of_room {s : State} (x : Transport) (ek : List Byte) (h : s.sec.sessions.length < 4) :
    ∃ u ct g, keyExchange s x ek = spdmSay (sessionOpened u x) x (.keyExchange u.sec.nextSess ct g) ∧ u.sec = s.sec ∧ OnlyIn [.fresh] s u := by
  have hbytes := onlyIn_freeBytes 4 s
  refine ⟨idDrawn (freeBytes 4 s).2, (Config.kemEncaps ek (freeBytes 4 s).1).1,
    Config.sign (freeBytes 4 s).2.sec.idDigest (freeBytes 4 s).2.freshNo (ek ++ (Config.kemEncaps ek (freeBytes 4 s).1).1), ?_,
    (idDrawn_sec _).trans (hbytes.2 .sec (by decide)), onlyIn_trans hbytes (onlyIn_fresh (freeBytes 4 s).2 _)⟩
  unfold keyExchange
  exact (if_neg (by omega)).trans rfl

theorem sessions_sessionOpened (s : State) (x : Transport) : mfind (sessionOpened s x).sec.sessions s.sec.nextSess = some ⟨x, false, 0⟩ :=
  mfind_mput_same ..

theorem sessions_setSession (s : State) (n : Nat) (q : Session) : mfind (setSession s n q).sec.sessions n = some q := mfind_mput_same ..

theorem onlyIn_setSession (s : State) (n : Nat) (q : Session) : OnlyIn [.sec] s (setSession s n q) := onlyIn_sec s _

/-! ### IDE and TSP (R574, R576) -/

/-- A slot with a target key, bound to a partition. -/
def keyedSlot (x : KeySlot) (p : Nat) (key : BitVec 512) : KeySlot := { x with key := some (2 ^ 600 + key.toNat), bound := some p, tsp := true }

/-- A target key in its slot. -/
def targetKeyed (s : State) (k p : Nat) (key : BitVec 512) : State :=
  { s with mem := { s.mem with
    slots := mset KeySlot.empty s.mem.slots k (keyedSlot (mget KeySlot.empty s.mem.slots k) p key) } }

theorem setTargetKey_of_free {s : State} (x : Transport) (n : Nat) {k p : Nat} (key : BitVec 512) (hk : k ≠ 63) (ho : slotOwner s k = 63)
    (hp : (getPart s p).st = .free) : setTargetKey s x n k p key = spdmSay (targetKeyed s k p key) x (.vendor n true) := by
  unfold slotOwner at ho
  unfold setTargetKey
  dsimp only
  refine (if_neg ?_).trans rfl
  rw [ho, hp]
  simpa using hk

theorem targetKeyed_slots (s : State) (k p : Nat) (key : BitVec 512) : (targetKeyed s k p key).mem.slots =
    mset KeySlot.empty s.mem.slots k (keyedSlot (mget KeySlot.empty s.mem.slots k) p key) := rfl

theorem slot_targetKeyed (s : State) (k p : Nat) (key : BitVec 512) : mget KeySlot.empty (targetKeyed s k p key).mem.slots k =
    keyedSlot (mget KeySlot.empty s.mem.slots k) p key := by
  rw [targetKeyed_slots, mget_mset_same]

theorem ideFail_link {s : State} (h : (mfind s.sec.ide 0).isSome = true) : ideFail s 0 = setLink s false :=
  (if_neg (by rw [Option.isNone_iff_eq_none]; exact Option.isSome_iff_ne_none.mp h)).trans (if_pos rfl)

theorem ideFail_stream {s : State} {k : Nat} (hk : k ≠ 0) (h : (mfind s.sec.ide k).isSome = true) : ideFail s k = bump32 s (reg .sec 3 0x11C) 1 :=
  (if_neg (by rw [Option.isNone_iff_eq_none]; exact Option.isSome_iff_ne_none.mp h)).trans (if_neg hk)

/-! ### The statement -/

theorem startRefused_spec (s : State) : getW (settle (raiseErr s .sec 0 8)) (reg .sec 0 0x18) = getW s (reg .sec 0 0x18) ||| 0x100
    ∧ OnlyIn [.bus] s (settle (raiseErr s .sec 0 8)) :=
  ⟨(getW_settle ..).trans (getW_raiseErr_same ..), onlyIn_settle (onlyIn_raiseErr ..)⟩

/-- Settles O57. A command outside a start is its act and CMD_DONE (`secCommand_of_idle`); a request of a late enough stage is its act, and an answer
adds to the responses alone (`sec_answered`). -/
theorem securityCommandsAndSessionsKeepTheirOrder : Obligations.SecurityCommandsAndSessionsKeepTheirOrder := by
  unfold Obligations.SecurityCommandsAndSessionsKeepTheirOrder
  refine ⟨fun s h1 h4 => ⟨fun v k hready hk hl h63 ho => ?_, fun tok hready hp hl ht => ?_, fun tok hready hp hl ht => ?_, fun hready => ?_,
      fun hready => ⟨?_, fun blob chain pk hk hv hd => ?_, fun ct src dk nonce hkem => ?_,
        fun p km hkm => ⟨fun hp => ?_, fun blob l hp hb he => ?_⟩, ?_⟩⟩,
    fun s v l m p hstart c hc => ?_,
    fun s x hup => ⟨?_, fun h => ?_, fun h => ?_, fun h => ?_, fun h3 => ⟨?_, fun off len hoff => ?_, fun nonce => ?_, fun nonce => ?_,
      fun ek hroom => ?_, fun n q hq hx => ⟨fun hr => ?_, fun hr => ⟨?_, ?_, ?_, fun k key hcap => ?_,
        fun hcap => ⟨fun k p key hk ho hp => ?_, ?_, ?_, ?_⟩⟩⟩⟩⟩,
    fun s k hkey => ⟨fun hk => ?_, fun hk => ?_⟩⟩
  · subst hk
    refine ⟨_, congrArg done ((secCommand_of_idle h1 h4 hready _).trans (congrArg (raiseInt · .sec 0 1) (keyErase_eq hl h63 ho))), ?_, fun j hj => ?_, ?_,
      onlyIn_secDone (onlyIn_trans (onlyIn_slotErase ..) (onlyIn_mono (onlyIn_setF ..) (by simp))) (by decide)⟩
    · rw [mem_secDone, setF_mem, slotErase_slots, eraseSlot, mget_mset_same]
    · rw [mem_secDone, setF_mem, slotErase_slots, eraseSlot, mget_mset_other _ _ _ _ hj]
    · rw [getF_secDone _ _ _ (by decide)]
      exact getF_setF_same _ _ 0 3 0 (by decide)
  · refine ⟨_, congrArg done ((secCommand_of_idle h1 h4 hready _).trans (congrArg (raiseInt · .sec 0 1) (gateTry_open hp hl ht))), ?_, fun j hj => ?_, ?_,
      onlyIn_secDone (onlyIn_trans (onlyIn_mono (onlyIn_gateOpened s _) (by simp))
        (onlyIn_trans (onlyIn_mono (onlyIn_setF ..) (by simp)) (onlyIn_mono (onlyIn_drawNonce _) (by simp)))) (by decide)⟩
    · rw [gateOpen_secDone, gateOpen, getF_nonced, gateOpen_gateOpened]
      rfl
    · rw [mem_secDone, drawNonce_mem, mget_gateOpened _ _ hj]
    · rw [getF_secDone _ _ _ (by decide), getF_gateResult _ (by decide)]
  · refine ⟨_, congrArg done ((secCommand_of_idle h1 h4 hready _).trans (congrArg (raiseInt · .sec 0 1) (gateTry_refused hp hl ht))), ?_, ?_,
      onlyIn_secDone (onlyIn_trans (onlyIn_mono (onlyIn_setF ..) (by simp)) (onlyIn_drawNonce _)) (by decide)⟩
    · rw [gateOpen_secDone, gateOpen, getF_nonced, ← gateOpen]
    · rw [getF_secDone _ _ _ (by decide), getF_gateResult _ (by decide)]
  · exact congrArg done (closeGate_of_idle h1 h4 hready)
  · obtain ⟨u, y, l, hoffer, hu⟩ := migrOffer_eq s
    refine ⟨_, congrArg done ((secCommand_of_idle h1 h4 hready _).trans (congrArg (raiseInt · .sec 0 1) hoffer)), ?_, ?_, ?_, ?_,
      onlyIn_secDone (onlyIn_keysOut (onlyIn_mono hu (by simp)) (by simp)) (by decide)⟩
    · rw [sec_secDone, keysOut_sec]
    · rw [sec_secDone, keysOut_sec]
      rfl
    · rw [hif_secDone, keysOut_hostW, List.length_append, hu.2 .hif (by decide)]
      rfl
    · rw [getF_secDone _ _ _ (by decide), keysOut, migrEnd_result]
  · obtain ⟨u, km, kem, l, haccept, hu⟩ := migrAccept_eq hk hv hd
    refine ⟨_, congrArg done ((secCommand_of_idle h1 h4 hready _).trans (congrArg (raiseInt · .sec 0 1) haccept)), ?_, ?_, ?_,
      onlyIn_secDone (onlyIn_keysOut (onlyIn_mono hu (by simp)) (by simp)) (by decide)⟩
    · rw [sec_secDone, keysOut_sec]
      rfl
    · rw [getF_secDone _ _ _ (by decide), keysOut, migrEnd_result]
    · rw [getF_secDone _ _ _ (by decide), keysOut, migrEnd_held, migrOut_sec]
      rfl
  · refine ⟨_, congrArg done ((secCommand_of_idle h1 h4 hready _).trans (congrArg (raiseInt · .sec 0 1) (migrComplete_eq hkem))), ?_, ?_⟩
    · rw [sec_secDone, migrEnd_sec]
      rfl
    · rw [getF_secDone _ _ _ (by decide), migrEnd_result]
  · refine ⟨_, ⟨none, (getD64 s (reg .sec 3 0x100)).toNat, Config.gcmSeal km (wrapSlots s (getPart s p).desc.keySlots)⟩,
      congrArg done ((secCommand_of_idle h1 h4 hready _).trans (congrArg (raiseInt · .sec 0 1) (exportKeys_eq hkm hp))), ?_, rfl, ?_, ?_⟩
    · rw [hif_secDone, migrEnd_hif, migrOut_hif]
    · rw [mem_secDone, migrEnd_mem, migrOut_mem]
    · rw [getF_secDone _ _ _ (by decide), migrEnd_result]
  · refine ⟨_, congrArg done ((secCommand_of_idle h1 h4 hready _).trans (congrArg (raiseInt · .sec 0 1) (importKeys_eq hkm hp hb he))), fun e hm => ?_, ?_⟩
    · unfold slotKey slotOwner
      rw [mem_secDone, migrEnd_mem]
      exact mget_foldl_slotLoaded p (.inl ⟨e, hm, rfl⟩)
    · rw [getF_secDone _ _ _ (by decide), migrEnd_result]
  · refine ⟨_, congrArg done (secCommand_of_idle h1 h4 hready _), ?_, ?_,
      onlyIn_secDone (onlyIn_trans (onlyIn_mono (onlyIn_sec s _) (by simp)) (onlyIn_mono (onlyIn_migrEnd { s with sec := _ } 0) (by simp))) (by decide)⟩
    · rw [sec_secDone, migrClear, migrEnd_sec]
    · rw [getF_secDone _ _ _ (by decide), migrClear, migrEnd_held]
      rfl
  · have hcommand := fun page act => congrArg done (secCommand_of_start hstart page act)
    simp only [List.mem_cons, List.not_mem_nil, or_false] at hc
    obtain ⟨hflag, hframe⟩ := startRefused_spec s
    obtain rfl | rfl | rfl | rfl | rfl | rfl | rfl | rfl | rfl := hc
    · exact ⟨_, hcommand 1 _, hflag, hframe⟩
    · exact ⟨_, hcommand 2 _, hflag, hframe⟩
    · exact ⟨_, congrArg done (closeGate_of_start hstart), hflag, hframe⟩
    · exact ⟨_, hcommand 3 _, hflag, hframe⟩
    · exact ⟨_, hcommand 3 _, hflag, hframe⟩
    · exact ⟨_, hcommand 3 _, hflag, hframe⟩
    · exact ⟨_, hcommand 3 _, hflag, hframe⟩
    · exact ⟨_, hcommand 3 _, hflag, hframe⟩
    · exact ⟨_, hcommand 3 _, hflag, hframe⟩
  · have h := staged s x 1 .version
    exact ⟨_, congrArg done (spdmAsk_of_stage hup (Nat.zero_le _) _), h.rsp, h.stage, h.frame⟩
  · have hs := staged s x 2 .capabilities
    exact ⟨_, congrArg done (spdmAsk_of_stage hup h _), hs.rsp, hs.stage, hs.frame⟩
  · have hs := staged s x 3 .algorithms
    exact ⟨_, congrArg done (spdmAsk_of_stage hup h _), hs.rsp, hs.stage, hs.frame⟩
  · exact ⟨_, congrArg done (spdmAsk_early hup h _), sec_answered .., onlyIn_answered _ _ (onlyIn_refl ..) (by decide)⟩
  · exact ⟨_, congrArg done (spdmAsk_of_stage hup h3 _), sec_answered .., onlyIn_answered _ _ (onlyIn_refl ..) (by decide)⟩
  · obtain ⟨k, hpart⟩ := spdmChain_of x len.toNat hoff
    exact ⟨_, k, congrArg done ((spdmAsk_of_stage hup h3 _).trans hpart), by rw [sec_answered], onlyIn_answered _ _ (onlyIn_refl ..) (by decide)⟩
  · refine ⟨_, _, congrArg done ((spdmAsk_of_stage hup h3 _).trans ((if_neg (by decide)).trans (signed_eq s x _))), ?_, rfl,
      onlyIn_answered _ _ (onlyIn_idDrawn s) (by decide)⟩
    rw [sec_answered, idDrawn_sec]
  · obtain ⟨b, g, hmeas, hgate⟩ := spdmMeasure_gate s x nonce
    refine ⟨_, b, g, congrArg done ((spdmAsk_of_stage hup h3 _).trans hmeas), ?_, hgate, onlyIn_answered _ _ (onlyIn_idDrawn s) (by decide)⟩
    rw [sec_answered, idDrawn_sec]
  · obtain ⟨u, ct, g, hopen, hsec, hu⟩ := keyExchange_of_room x ek hroom
    refine ⟨_, ct, g, congrArg done ((spdmAsk_of_stage hup h3 _).trans hopen), ?_, ?_,
      onlyIn_answered _ _ (onlyIn_trans (onlyIn_mono hu (by simp)) (onlyIn_mono (onlyIn_sec u _) (by simp))) (by decide)⟩
    · rw [sec_answered, ← hsec]
      rfl
    · rw [sec_answered, ← hsec]
      exact sessions_sessionOpened u x
  · refine ⟨_, congrArg done (inSession_of hup h3 hq hx hr _), ?_, ?_, onlyIn_answered _ _ (onlyIn_setSession ..) (by decide)⟩
    · rw [sec_answered]
      exact sessions_setSession ..
    · rw [sec_answered]
      rfl
  · refine ⟨_, congrArg done (inSession_of hup h3 hq hx hr _), ?_, ?_, onlyIn_answered _ _ (onlyIn_setSession ..) (by decide)⟩
    · rw [sec_answered]
      exact sessions_setSession ..
    · rw [sec_answered]
      rfl
  · exact ⟨_, congrArg done (inSession_of hup h3 hq hx hr _), sec_answered .., onlyIn_answered _ _ (onlyIn_refl ..) (by decide)⟩
  · refine ⟨_, congrArg done (inSession_of hup h3 hq hx hr _), ?_, ?_, onlyIn_answered _ _ (onlyIn_sec s _) (by decide)⟩
    · rw [sec_answered]
      exact mfind_mdel_same ..
    · rw [sec_answered]
  · refine ⟨_, congrArg done (vendorAsk_of hup h3 hq hx hr hcap _), ?_, ?_, onlyIn_answered _ _ (onlyIn_sec s _) (by decide)⟩
    · rw [sec_answered]
      exact mfind_mput_same ..
    · rw [sec_answered]
  · have hslot := slot_targetKeyed s k p key
    have hmem : ∀ r, (settle (spdmSay (targetKeyed s k p key) x r)).mem = (targetKeyed s k p key).mem := fun r => settle_mem _
    refine ⟨_, congrArg done ((vendorAsk_of hup h3 hq hx hr hcap _).trans (setTargetKey_of_free x n key (fun e => hk (Fin.ext e)) ho hp)), ?_, ?_, ?_, ?_,
      onlyIn_answered _ _ (onlyIn_mono (onlyIn_mem s _) (by simp)) (by decide)⟩
    · rw [slotKey, hmem, hslot]
      rfl
    · rw [hmem, hslot]
      rfl
    · rw [hmem, hslot]
      rfl
    · rw [sec_answered]
      rfl
  · refine ⟨_, congrArg done (vendorAsk_of hup h3 hq hx hr hcap _), ?_, ?_, onlyIn_answered _ _ (onlyIn_mono (onlyIn_setF s _ 2 1 1) (by simp)) (by decide)⟩
    · rw [tspLocked, getF_settle, getF_congr (spdmSay_bus ..), getF_setF_same _ _ 2 1 1 (by decide)]
      rfl
    · rw [sec_answered]
      rfl
  · exact ⟨_, congrArg done (vendorAsk_of hup h3 hq hx hr hcap _), by rw [sec_answered], onlyIn_answered _ _ (onlyIn_refl ..) (by decide)⟩
  · exact ⟨_, _, congrArg done (vendorAsk_of hup h3 hq hx hr hcap _), by rw [sec_answered], onlyIn_answered _ _ (onlyIn_refl ..) (by decide)⟩
  · subst hk
    exact ⟨_, congrArg done (ideFail_link hkey), setLink_settle s false⟩
  · have hne : (k : Nat) ≠ 0 := fun e => hk (Fin.ext e)
    refine ⟨_, congrArg done (ideFail_stream hne hkey), ?_, onlyIn_settle (onlyIn_bump32 ..), wordsOnly_settle (wordsOnly_setW ..)⟩
    rw [getW_settle, getW_bump32_same]

end Sys2Proof.Machine
end
